-- ==== Sys2Proof/Word.lean ====
section
/-! DEFINITION. The word types of the machine (spec/10_state.md R30, spec/20_memory.md R240). -/

namespace Sys2Proof

/-- A 32-bit register, instruction word or address. -/
abbrev Word := BitVec 32

/-- One byte of memory. -/
abbrev Byte := BitVec 8

/-- A 4-bit register field, naming R0 to R15 (30_encoding.md R404). -/
abbrev Reg := BitVec 4

end Sys2Proof
end

