-- ==== Sys2Proof/Syntax.lean ====
section
/-! DEFINITION. The instructions: one constructor per row of spec/opcode_table.json, in the table's order.
A field's type says what it is: a condition, a register number, a shift type, a flag, or an immediate's bits. A field
`sbz` holds bits the row's mask leaves open and the spec gives no name; `rest` the open bits of a decode-space row. -/

namespace Sys2Proof

/-- The condition field (30_encoding.md R403). `cond` = 0b1111 selects the unconditional space and is no condition. -/
inductive Cond where
  | eq | ne | cs | cc | mi | pl | vs | vc | hi | ls | ge | lt | gt | le | al
  deriving DecidableEq, Repr

/-- The shift type of a register operand (30_encoding.md R405). -/
inductive ShiftType where
  | lsl | lsr | asr | ror
  deriving DecidableEq, Repr

/-- One constructor per row of spec/opcode_table.json. -/
inductive Instr where
  /-- CLREX, R283. -/
  | clrex
  /-- DSB, R280. -/
  | dsb (opt : BitVec 4)
  /-- DMB, R280. -/
  | dmb (opt : BitVec 4)
  /-- ISB, R280. -/
  | isb (opt : BitVec 4)
  /-- SETEND, R1004. -/
  | setend (e : Bool)
  /-- CPS, R1003. -/
  | cps (imod : BitVec 2) (m a i f : Bool) (mode : BitVec 5)
  /-- RFE, R1005. -/
  | rfe (p u w : Bool) (rn : Reg)
  /-- SRS, R1006. -/
  | srs (p u w : Bool) (mode : BitVec 5)
  /-- PLD__immediate_literal, R1027. -/
  | pldImm (u : Bool) (rn : Reg) (imm12 : BitVec 12)
  /-- PLDW__immediate, R1027. -/
  | pldwImm (u : Bool) (rn : Reg) (imm12 : BitVec 12)
  /-- PLI__immediate_literal, R1027. -/
  | pliImm (u : Bool) (rn : Reg) (imm12 : BitVec 12)
  /-- PLD__register, R1027. -/
  | pldReg (u : Bool) (rn : Reg) (imm5 : BitVec 5) (ty : ShiftType) (rm : Reg)
  /-- PLDW__register, R1027. -/
  | pldwReg (u : Bool) (rn : Reg) (imm5 : BitVec 5) (ty : ShiftType) (rm : Reg)
  /-- PLI__register, R1027. -/
  | pliReg (u : Bool) (rn : Reg) (imm5 : BitVec 5) (ty : ShiftType) (rm : Reg)
  /-- BLX__immediate, R1013. -/
  | blxImm (h : Bool) (imm24 : BitVec 24)
  /-- Advanced_SIMD_data-processing, R428. -/
  | advSimdDataProcessing (rest : BitVec 25)
  /-- Advanced_SIMD_element_structure_load_store, R428. -/
  | advSimdLoadStore (rest : BitVec 3) (rest1 : BitVec 20)
  /-- MCR2_MRC2_CDP2_LDC2_STC2_MCRR2_MRRC2, R428. -/
  | coprocTwoSpace (rest : BitVec 14) (coproc : BitVec 4) (rest1 : BitVec 8)
  /-- rest_of_the_unconditional_space, R428. -/
  | restOfUnconditional (rest : BitVec 28)
  /-- NOP, R1027. -/
  | nop (c : Cond)
  /-- YIELD, R1027. -/
  | yield (c : Cond)
  /-- WFE, R795. -/
  | wfe (c : Cond)
  /-- WFI, R793. -/
  | wfi (c : Cond)
  /-- SEV, R796. -/
  | sev (c : Cond)
  /-- unallocated_hint__incl._DBG, R1027. -/
  | hintUnallocated (c : Cond) (hint8 : BitVec 8)
  /-- MSR__immediate, R1002. -/
  | msrImm (c : Cond) (r : Bool) (mask4 : BitVec 4) (imm12 : BitVec 12)
  /-- BKPT, R547. -/
  | bkpt (imm12 : BitVec 12) (imm4 : BitVec 4)
  /-- SMC, R520. -/
  | smc (c : Cond) (imm4 : BitVec 4)
  /-- BX, R1012. -/
  | bx (c : Cond) (rm : Reg)
  /-- BLX__register, R1013. -/
  | blxReg (c : Cond) (rm : Reg)
  /-- CLZ, R978. -/
  | clz (c : Cond) (rd rm : Reg)
  /-- MRS, R1000. -/
  | mrs (c : Cond) (r : Bool) (rd : Reg)
  /-- MSR__register, R1001. -/
  | msrReg (c : Cond) (r : Bool) (mask4 : BitVec 4) (rn : Reg)
  /-- LDREX, R284. -/
  | ldrex (c : Cond) (rn rt : Reg)
  /-- STREX, R284. -/
  | strex (c : Cond) (rn rd rt : Reg)
  /-- LDREXD, R284. -/
  | ldrexd (c : Cond) (rn rt : Reg)
  /-- STREXD, R284. -/
  | strexd (c : Cond) (rn rd rt : Reg)
  /-- LDREXB, R284. -/
  | ldrexb (c : Cond) (rn rt : Reg)
  /-- STREXB, R284. -/
  | strexb (c : Cond) (rn rd rt : Reg)
  /-- LDREXH, R284. -/
  | ldrexh (c : Cond) (rn rt : Reg)
  /-- STREXH, R284. -/
  | strexh (c : Cond) (rn rd rt : Reg)
  /-- SWP, R287. -/
  | swp (c : Cond) (rn rt rt2 : Reg)
  /-- SWPB, R287. -/
  | swpb (c : Cond) (rn rt rt2 : Reg)
  /-- MUL, R993. -/
  | mul (c : Cond) (s : Bool) (rd rm rn : Reg)
  /-- MLA, R994. -/
  | mla (c : Cond) (s : Bool) (rd ra rm rn : Reg)
  /-- MLS, R995. -/
  | mls (c : Cond) (rd ra rm rn : Reg)
  /-- UMULL, R996. -/
  | umull (c : Cond) (s : Bool) (rdHi rdLo rm rn : Reg)
  /-- UMLAL, R997. -/
  | umlal (c : Cond) (s : Bool) (rdHi rdLo rm rn : Reg)
  /-- SMULL, R998. -/
  | smull (c : Cond) (s : Bool) (rdHi rdLo rm rn : Reg)
  /-- SMLAL, R999. -/
  | smlal (c : Cond) (s : Bool) (rdHi rdLo rm rn : Reg)
  /-- STRH__immediate_literal, R1019. -/
  | strhImm (c : Cond) (p u w : Bool) (rn rt : Reg) (imm4H imm4L : BitVec 4)
  /-- STRH__register, R1019. -/
  | strhReg (c : Cond) (p u w : Bool) (rn rt rm : Reg)
  /-- LDRH__immediate_literal, R1018. -/
  | ldrhImm (c : Cond) (p u w : Bool) (rn rt : Reg) (imm4H imm4L : BitVec 4)
  /-- LDRH__register, R1018. -/
  | ldrhReg (c : Cond) (p u w : Bool) (rn rt rm : Reg)
  /-- LDRSB__immediate_literal, R1020. -/
  | ldrsbImm (c : Cond) (p u w : Bool) (rn rt : Reg) (imm4H imm4L : BitVec 4)
  /-- LDRSB__register, R1020. -/
  | ldrsbReg (c : Cond) (p u w : Bool) (rn rt rm : Reg)
  /-- LDRSH__immediate_literal, R1021. -/
  | ldrshImm (c : Cond) (p u w : Bool) (rn rt : Reg) (imm4H imm4L : BitVec 4)
  /-- LDRSH__register, R1021. -/
  | ldrshReg (c : Cond) (p u w : Bool) (rn rt rm : Reg)
  /-- LDRD__immediate_literal, R1022. -/
  | ldrdImm (c : Cond) (p u w : Bool) (rn rt : Reg) (imm4H imm4L : BitVec 4)
  /-- LDRD__register, R1022. -/
  | ldrdReg (c : Cond) (p u w : Bool) (rn rt rm : Reg)
  /-- STRD__immediate_literal, R1023. -/
  | strdImm (c : Cond) (p u w : Bool) (rn rt : Reg) (imm4H imm4L : BitVec 4)
  /-- STRD__register, R1023. -/
  | strdReg (c : Cond) (p u w : Bool) (rn rt rm : Reg)
  /-- UDF, R1028. -/
  | udf (c : Cond) (imm12 : BitVec 12) (imm4 : BitVec 4)
  /-- SDIV, R991. -/
  | sdiv (c : Cond) (rd rm rn : Reg)
  /-- UDIV, R992. -/
  | udiv (c : Cond) (rd rm rn : Reg)
  /-- BFC, R986. -/
  | bfc (c : Cond) (msb : BitVec 5) (rd : Reg) (lsb : BitVec 5)
  /-- BFI, R985. -/
  | bfi (c : Cond) (msb : BitVec 5) (rd : Reg) (lsb : BitVec 5) (rn : Reg)
  /-- UBFX, R983. -/
  | ubfx (c : Cond) (widthm1 : BitVec 5) (rd : Reg) (lsb : BitVec 5) (rn : Reg)
  /-- SBFX, R984. -/
  | sbfx (c : Cond) (widthm1 : BitVec 5) (rd : Reg) (lsb : BitVec 5) (rn : Reg)
  /-- REV, R979. -/
  | rev (c : Cond) (rd rm : Reg)
  /-- REV16, R980. -/
  | rev16 (c : Cond) (rd rm : Reg)
  /-- REVSH, R981. -/
  | revsh (c : Cond) (rd rm : Reg)
  /-- RBIT, R982. -/
  | rbit (c : Cond) (rd rm : Reg)
  /-- UXTB, R987. -/
  | uxtb (c : Cond) (rd : Reg) (rotate : BitVec 2) (rm : Reg)
  /-- UXTH, R988. -/
  | uxth (c : Cond) (rd : Reg) (rotate : BitVec 2) (rm : Reg)
  /-- SXTB, R989. -/
  | sxtb (c : Cond) (rd : Reg) (rotate : BitVec 2) (rm : Reg)
  /-- SXTH, R990. -/
  | sxth (c : Cond) (rd : Reg) (rotate : BitVec 2) (rm : Reg)
  /-- MOVW, R976. -/
  | movw (c : Cond) (imm4 : BitVec 4) (rd : Reg) (imm12 : BitVec 12)
  /-- MOVT, R977. -/
  | movt (c : Cond) (imm4 : BitVec 4) (rd : Reg) (imm12 : BitVec 12)
  /-- AND__immediate, R960. -/
  | andImm (c : Cond) (s : Bool) (rn rd : Reg) (rotate : BitVec 4) (imm8 : BitVec 8)
  /-- AND__register, R960. -/
  | andReg (c : Cond) (s : Bool) (rn rd : Reg) (imm5 : BitVec 5) (ty : ShiftType) (rm : Reg)
  /-- AND__register-shifted_register, R960. -/
  | andRsr (c : Cond) (s : Bool) (rn rd rs : Reg) (ty : ShiftType) (rm : Reg)
  /-- EOR__immediate, R961. -/
  | eorImm (c : Cond) (s : Bool) (rn rd : Reg) (rotate : BitVec 4) (imm8 : BitVec 8)
  /-- EOR__register, R961. -/
  | eorReg (c : Cond) (s : Bool) (rn rd : Reg) (imm5 : BitVec 5) (ty : ShiftType) (rm : Reg)
  /-- EOR__register-shifted_register, R961. -/
  | eorRsr (c : Cond) (s : Bool) (rn rd rs : Reg) (ty : ShiftType) (rm : Reg)
  /-- SUB__immediate, R962. -/
  | subImm (c : Cond) (s : Bool) (rn rd : Reg) (rotate : BitVec 4) (imm8 : BitVec 8)
  /-- SUB__register, R962. -/
  | subReg (c : Cond) (s : Bool) (rn rd : Reg) (imm5 : BitVec 5) (ty : ShiftType) (rm : Reg)
  /-- SUB__register-shifted_register, R962. -/
  | subRsr (c : Cond) (s : Bool) (rn rd rs : Reg) (ty : ShiftType) (rm : Reg)
  /-- RSB__immediate, R963. -/
  | rsbImm (c : Cond) (s : Bool) (rn rd : Reg) (rotate : BitVec 4) (imm8 : BitVec 8)
  /-- RSB__register, R963. -/
  | rsbReg (c : Cond) (s : Bool) (rn rd : Reg) (imm5 : BitVec 5) (ty : ShiftType) (rm : Reg)
  /-- RSB__register-shifted_register, R963. -/
  | rsbRsr (c : Cond) (s : Bool) (rn rd rs : Reg) (ty : ShiftType) (rm : Reg)
  /-- ADD__immediate, R964. -/
  | addImm (c : Cond) (s : Bool) (rn rd : Reg) (rotate : BitVec 4) (imm8 : BitVec 8)
  /-- ADD__register, R964. -/
  | addReg (c : Cond) (s : Bool) (rn rd : Reg) (imm5 : BitVec 5) (ty : ShiftType) (rm : Reg)
  /-- ADD__register-shifted_register, R964. -/
  | addRsr (c : Cond) (s : Bool) (rn rd rs : Reg) (ty : ShiftType) (rm : Reg)
  /-- ADC__immediate, R965. -/
  | adcImm (c : Cond) (s : Bool) (rn rd : Reg) (rotate : BitVec 4) (imm8 : BitVec 8)
  /-- ADC__register, R965. -/
  | adcReg (c : Cond) (s : Bool) (rn rd : Reg) (imm5 : BitVec 5) (ty : ShiftType) (rm : Reg)
  /-- ADC__register-shifted_register, R965. -/
  | adcRsr (c : Cond) (s : Bool) (rn rd rs : Reg) (ty : ShiftType) (rm : Reg)
  /-- SBC__immediate, R966. -/
  | sbcImm (c : Cond) (s : Bool) (rn rd : Reg) (rotate : BitVec 4) (imm8 : BitVec 8)
  /-- SBC__register, R966. -/
  | sbcReg (c : Cond) (s : Bool) (rn rd : Reg) (imm5 : BitVec 5) (ty : ShiftType) (rm : Reg)
  /-- SBC__register-shifted_register, R966. -/
  | sbcRsr (c : Cond) (s : Bool) (rn rd rs : Reg) (ty : ShiftType) (rm : Reg)
  /-- RSC__immediate, R967. -/
  | rscImm (c : Cond) (s : Bool) (rn rd : Reg) (rotate : BitVec 4) (imm8 : BitVec 8)
  /-- RSC__register, R967. -/
  | rscReg (c : Cond) (s : Bool) (rn rd : Reg) (imm5 : BitVec 5) (ty : ShiftType) (rm : Reg)
  /-- RSC__register-shifted_register, R967. -/
  | rscRsr (c : Cond) (s : Bool) (rn rd rs : Reg) (ty : ShiftType) (rm : Reg)
  /-- TST__immediate, R968. -/
  | tstImm (c : Cond) (rn : Reg) (sbz rotate : BitVec 4) (imm8 : BitVec 8)
  /-- TST__register, R968. -/
  | tstReg (c : Cond) (rn : Reg) (sbz : BitVec 4) (imm5 : BitVec 5) (ty : ShiftType) (rm : Reg)
  /-- TST__register-shifted_register, R968. -/
  | tstRsr (c : Cond) (rn : Reg) (sbz : BitVec 4) (rs : Reg) (ty : ShiftType) (rm : Reg)
  /-- TEQ__immediate, R969. -/
  | teqImm (c : Cond) (rn : Reg) (sbz rotate : BitVec 4) (imm8 : BitVec 8)
  /-- TEQ__register, R969. -/
  | teqReg (c : Cond) (rn : Reg) (sbz : BitVec 4) (imm5 : BitVec 5) (ty : ShiftType) (rm : Reg)
  /-- TEQ__register-shifted_register, R969. -/
  | teqRsr (c : Cond) (rn : Reg) (sbz : BitVec 4) (rs : Reg) (ty : ShiftType) (rm : Reg)
  /-- CMP__immediate, R970. -/
  | cmpImm (c : Cond) (rn : Reg) (sbz rotate : BitVec 4) (imm8 : BitVec 8)
  /-- CMP__register, R970. -/
  | cmpReg (c : Cond) (rn : Reg) (sbz : BitVec 4) (imm5 : BitVec 5) (ty : ShiftType) (rm : Reg)
  /-- CMP__register-shifted_register, R970. -/
  | cmpRsr (c : Cond) (rn : Reg) (sbz : BitVec 4) (rs : Reg) (ty : ShiftType) (rm : Reg)
  /-- CMN__immediate, R971. -/
  | cmnImm (c : Cond) (rn : Reg) (sbz rotate : BitVec 4) (imm8 : BitVec 8)
  /-- CMN__register, R971. -/
  | cmnReg (c : Cond) (rn : Reg) (sbz : BitVec 4) (imm5 : BitVec 5) (ty : ShiftType) (rm : Reg)
  /-- CMN__register-shifted_register, R971. -/
  | cmnRsr (c : Cond) (rn : Reg) (sbz : BitVec 4) (rs : Reg) (ty : ShiftType) (rm : Reg)
  /-- ORR__immediate, R972. -/
  | orrImm (c : Cond) (s : Bool) (rn rd : Reg) (rotate : BitVec 4) (imm8 : BitVec 8)
  /-- ORR__register, R972. -/
  | orrReg (c : Cond) (s : Bool) (rn rd : Reg) (imm5 : BitVec 5) (ty : ShiftType) (rm : Reg)
  /-- ORR__register-shifted_register, R972. -/
  | orrRsr (c : Cond) (s : Bool) (rn rd rs : Reg) (ty : ShiftType) (rm : Reg)
  /-- MOV__immediate, R973. -/
  | movImm (c : Cond) (s : Bool) (sbz : BitVec 4) (rd : Reg) (rotate : BitVec 4) (imm8 : BitVec 8)
  /-- MOV__register, R973. -/
  | movReg (c : Cond) (s : Bool) (rd rm : Reg)
  /-- RRX, R973. -/
  | rrx (c : Cond) (s : Bool) (rd rm : Reg)
  /-- LSL__immediate, R973. -/
  | lslImm (c : Cond) (s : Bool) (rd : Reg) (imm5 : BitVec 5) (rm : Reg)
  /-- LSR__immediate, R973. -/
  | lsrImm (c : Cond) (s : Bool) (rd : Reg) (imm5 : BitVec 5) (rm : Reg)
  /-- ASR__immediate, R973. -/
  | asrImm (c : Cond) (s : Bool) (rd : Reg) (imm5 : BitVec 5) (rm : Reg)
  /-- ROR__immediate, R973. -/
  | rorImm (c : Cond) (s : Bool) (rd : Reg) (imm5 : BitVec 5) (rm : Reg)
  /-- LSL__register, R973. -/
  | lslReg (c : Cond) (s : Bool) (rd rs rm : Reg)
  /-- LSR__register, R973. -/
  | lsrReg (c : Cond) (s : Bool) (rd rs rm : Reg)
  /-- ASR__register, R973. -/
  | asrReg (c : Cond) (s : Bool) (rd rs rm : Reg)
  /-- ROR__register, R973. -/
  | rorReg (c : Cond) (s : Bool) (rd rs rm : Reg)
  /-- BIC__immediate, R974. -/
  | bicImm (c : Cond) (s : Bool) (rn rd : Reg) (rotate : BitVec 4) (imm8 : BitVec 8)
  /-- BIC__register, R974. -/
  | bicReg (c : Cond) (s : Bool) (rn rd : Reg) (imm5 : BitVec 5) (ty : ShiftType) (rm : Reg)
  /-- BIC__register-shifted_register, R974. -/
  | bicRsr (c : Cond) (s : Bool) (rn rd rs : Reg) (ty : ShiftType) (rm : Reg)
  /-- MVN__immediate, R975. -/
  | mvnImm (c : Cond) (s : Bool) (sbz : BitVec 4) (rd : Reg) (rotate : BitVec 4) (imm8 : BitVec 8)
  /-- MVN__register, R975. -/
  | mvnReg (c : Cond) (s : Bool) (sbz : BitVec 4) (rd : Reg) (imm5 : BitVec 5) (ty : ShiftType) (rm : Reg)
  /-- MVN__register-shifted_register, R975. -/
  | mvnRsr (c : Cond) (s : Bool) (sbz : BitVec 4) (rd rs : Reg) (ty : ShiftType) (rm : Reg)
  /-- LDR__immediate_literal, R1014. -/
  | ldrImm (c : Cond) (p u w : Bool) (rn rt : Reg) (imm12 : BitVec 12)
  /-- LDR__register, R1014. -/
  | ldrReg (c : Cond) (p u w : Bool) (rn rt : Reg) (imm5 : BitVec 5) (ty : ShiftType) (rm : Reg)
  /-- STR__immediate_literal, R1015. -/
  | strImm (c : Cond) (p u w : Bool) (rn rt : Reg) (imm12 : BitVec 12)
  /-- STR__register, R1015. -/
  | strReg (c : Cond) (p u w : Bool) (rn rt : Reg) (imm5 : BitVec 5) (ty : ShiftType) (rm : Reg)
  /-- LDRB__immediate_literal, R1016. -/
  | ldrbImm (c : Cond) (p u w : Bool) (rn rt : Reg) (imm12 : BitVec 12)
  /-- LDRB__register, R1016. -/
  | ldrbReg (c : Cond) (p u w : Bool) (rn rt : Reg) (imm5 : BitVec 5) (ty : ShiftType) (rm : Reg)
  /-- STRB__immediate_literal, R1017. -/
  | strbImm (c : Cond) (p u w : Bool) (rn rt : Reg) (imm12 : BitVec 12)
  /-- STRB__register, R1017. -/
  | strbReg (c : Cond) (p u w : Bool) (rn rt : Reg) (imm5 : BitVec 5) (ty : ShiftType) (rm : Reg)
  /-- POP, R1026. -/
  | pop (c : Cond) (regs : BitVec 16)
  /-- PUSH, R1026. -/
  | push (c : Cond) (regs : BitVec 16)
  /-- LDM, R1024. -/
  | ldm (c : Cond) (p u s w : Bool) (rn : Reg) (regs : BitVec 16)
  /-- STM, R1025. -/
  | stm (c : Cond) (p u s w : Bool) (rn : Reg) (regs : BitVec 16)
  /-- B, R1010. -/
  | b (c : Cond) (imm24 : BitVec 24)
  /-- BL, R1011. -/
  | bl (c : Cond) (imm24 : BitVec 24)
  /-- SVC, R546. -/
  | svc (c : Cond) (imm24 : BitVec 24)
  /-- VMRS, R450. -/
  | vmrs (c : Cond) (reg : BitVec 4) (rt : Reg)
  /-- VMSR, R451. -/
  | vmsr (c : Cond) (reg : BitVec 4) (rt : Reg)
  /-- VMRS__VMSR_with_should-be-zero_bits_set, R411. -/
  | vmrsVmsrSbz (c : Cond) (l : Bool) (reg : BitVec 4) (rt : Reg) (sbz : BitVec 3) (sbz1 : BitVec 4)
  /-- MRC_p15, R432. -/
  | mrcP15 (c : Cond) (opc1 : BitVec 3) (crn : BitVec 4) (rt : Reg) (opc2 : BitVec 3) (crm : BitVec 4)
  /-- MCR_p15, R433. -/
  | mcrP15 (c : Cond) (opc1 : BitVec 3) (crn : BitVec 4) (rt : Reg) (opc2 : BitVec 3) (crm : BitVec 4)
  /-- MRC_p14, R445. -/
  | mrcP14 (c : Cond) (opc1 : BitVec 3) (crn : BitVec 4) (rt : Reg) (opc2 : BitVec 3) (crm : BitVec 4)
  /-- MCR_p14, R445. -/
  | mcrP14 (c : Cond) (opc1 : BitVec 3) (crn : BitVec 4) (rt : Reg) (opc2 : BitVec 3) (crm : BitVec 4)
  /-- VMLA, R1064. -/
  | vmla (c : Cond) (d : Bool) (vn vd : BitVec 4) (sz n m : Bool) (vm : BitVec 4)
  /-- VMLS, R1065. -/
  | vmls (c : Cond) (d : Bool) (vn vd : BitVec 4) (sz n m : Bool) (vm : BitVec 4)
  /-- VNMLS, R1067. -/
  | vnmls (c : Cond) (d : Bool) (vn vd : BitVec 4) (sz n m : Bool) (vm : BitVec 4)
  /-- VNMLA, R1066. -/
  | vnmla (c : Cond) (d : Bool) (vn vd : BitVec 4) (sz n m : Bool) (vm : BitVec 4)
  /-- VMUL, R1062. -/
  | vmul (c : Cond) (d : Bool) (vn vd : BitVec 4) (sz n m : Bool) (vm : BitVec 4)
  /-- VNMUL, R1063. -/
  | vnmul (c : Cond) (d : Bool) (vn vd : BitVec 4) (sz n m : Bool) (vm : BitVec 4)
  /-- VADD, R1060. -/
  | vadd (c : Cond) (d : Bool) (vn vd : BitVec 4) (sz n m : Bool) (vm : BitVec 4)
  /-- VSUB, R1061. -/
  | vsub (c : Cond) (d : Bool) (vn vd : BitVec 4) (sz n m : Bool) (vm : BitVec 4)
  /-- VDIV, R1068. -/
  | vdiv (c : Cond) (d : Bool) (vn vd : BitVec 4) (sz n m : Bool) (vm : BitVec 4)
  /-- VMOV__immediate, R1070. -/
  | vmovImm (c : Cond) (d : Bool) (imm4H vd : BitVec 4) (sz sbz sbz1 : Bool) (imm4L : BitVec 4)
  /-- VMOV__register, R1071. -/
  | vmovReg (c : Cond) (d : Bool) (vd : BitVec 4) (sz m : Bool) (vm : BitVec 4)
  /-- VABS, R1072. -/
  | vabs (c : Cond) (d : Bool) (vd : BitVec 4) (sz m : Bool) (vm : BitVec 4)
  /-- VNEG, R1073. -/
  | vneg (c : Cond) (d : Bool) (vd : BitVec 4) (sz m : Bool) (vm : BitVec 4)
  /-- VSQRT, R1069. -/
  | vsqrt (c : Cond) (d : Bool) (vd : BitVec 4) (sz m : Bool) (vm : BitVec 4)
  /-- VCVTB__VCVTT, R1080. -/
  | vcvtbVcvtt (c : Cond) (d op : Bool) (vd : BitVec 4) (t m : Bool) (vm : BitVec 4)
  /-- VCMP__VCMPE__register, R1074. -/
  | vcmpReg (c : Cond) (d : Bool) (vd : BitVec 4) (sz e m : Bool) (vm : BitVec 4)
  /-- VCMP__VCMPE__with_zero, R1075. -/
  | vcmpZero (c : Cond) (d : Bool) (vd : BitVec 4) (sz e sbz : Bool) (sbz1 : BitVec 4)
  /-- VCVT__between_double_and_single_precision, R1076. -/
  | vcvtDoubleSingle (c : Cond) (d : Bool) (vd : BitVec 4) (sz m : Bool) (vm : BitVec 4)
  /-- VCVT__integer_to_floating_point, R1078. -/
  | vcvtIntToFp (c : Cond) (d : Bool) (vd : BitVec 4) (sz op m : Bool) (vm : BitVec 4)
  /-- VCVT__VCVTR__floating_point_to_integer, R1077. -/
  | vcvtFpToInt (c : Cond) (d sgn : Bool) (vd : BitVec 4) (sz op m : Bool) (vm : BitVec 4)
  /-- VCVT__between_floating_point_and_fixed_point, R1079. -/
  | vcvtFixed (c : Cond) (d op u : Bool) (vd : BitVec 4) (sf sx i : Bool) (imm4 : BitVec 4)
  /-- VLDR, R1085. -/
  | vldr (c : Cond) (u d : Bool) (rn : Reg) (vd : BitVec 4) (sz : Bool) (imm8 : BitVec 8)
  /-- VSTR, R1086. -/
  | vstr (c : Cond) (u d : Bool) (rn : Reg) (vd : BitVec 4) (sz : Bool) (imm8 : BitVec 8)
  /-- VPOP, R1087. -/
  | vpop (c : Cond) (d : Bool) (vd : BitVec 4) (sz : Bool) (imm8 : BitVec 8)
  /-- VPUSH, R1088. -/
  | vpush (c : Cond) (d : Bool) (vd : BitVec 4) (sz : Bool) (imm8 : BitVec 8)
  /-- VLDM__increment_after, R1087. -/
  | vldmIa (c : Cond) (d w : Bool) (rn : Reg) (vd : BitVec 4) (sz : Bool) (imm8 : BitVec 8)
  /-- VLDM__decrement_before, R1087. -/
  | vldmDb (c : Cond) (d : Bool) (rn : Reg) (vd : BitVec 4) (sz : Bool) (imm8 : BitVec 8)
  /-- VSTM__increment_after, R1088. -/
  | vstmIa (c : Cond) (d w : Bool) (rn : Reg) (vd : BitVec 4) (sz : Bool) (imm8 : BitVec 8)
  /-- VSTM__decrement_before, R1088. -/
  | vstmDb (c : Cond) (d : Bool) (rn : Reg) (vd : BitVec 4) (sz : Bool) (imm8 : BitVec 8)
  /-- VMOV__ARM_register_and_single-precision_register, R1090. -/
  | vmovCoreSingle (c : Cond) (l : Bool) (vn : BitVec 4) (rt : Reg) (n : Bool) (sbz : BitVec 2) (sbz1 : BitVec 4)
  /-- VMOV__two_ARM_registers_and_two_single-precision_registe, R1091. -/
  | vmovCoreTwoSingles (c : Cond) (l : Bool) (rt2 rt : Reg) (m : Bool) (vm : BitVec 4)
  /-- VMOV__two_ARM_registers_and_a_double-precision_register, R1092. -/
  | vmovCoreDouble (c : Cond) (l : Bool) (rt2 rt : Reg) (m : Bool) (vm : BitVec 4)
  /-- VMOV__ARM_register_to_half_of_a_double-precision_registe, R1093. -/
  | vmovCoreToHalf (c : Cond) (x : Bool) (vd : BitVec 4) (rt : Reg) (d : Bool) (sbz : BitVec 4)
  /-- VMOV__half_of_a_double-precision_register_to_ARM_registe, R1094. -/
  | vmovHalfToCore (c : Cond) (x : Bool) (vn : BitVec 4) (rt : Reg) (n : Bool) (sbz : BitVec 4)
  /-- VFP_space__unallocated, R1095. -/
  | vfpUnallocated (c : Cond) (rest : BitVec 14) (rest1 : BitVec 9)
  /-- other_coprocessors_and_forms, R446. -/
  | otherCoproc (c : Cond) (rest : BitVec 14) (coproc : BitVec 4) (rest1 : BitVec 8)
  deriving DecidableEq, Repr

end Sys2Proof
end

