-- ==== Sys2Proof/WellFormed.lean ====
section
/-! DEFINITION. Which instructions have an encoding of their own. A row of spec/opcode_table.json that comes after a row it
overlaps (30_encoding.md R429: the first matching row wins) does not own the words of the earlier row; the instruction
those words stand for is the earlier row's, so the later constructor with those operands is ill-formed. -/

namespace Sys2Proof

/-- Is `w` claimed by one of these (mask, match) pairs (30_encoding.md R429)? -/
def claimed (rows : List (Word × Word)) (w : Word) : Bool :=
  rows.any fun r => w &&& r.1 == r.2

/-- The rows of the unconditional space before its catch-all row (30_encoding.md R428, R429). -/
def unconditionalRows : List (Word × Word) :=
  [(0xFFFFFFFF#32, 0xF57FF01F#32), (0xFFFFFFF0#32, 0xF57FF040#32), (0xFFFFFFF0#32, 0xF57FF050#32),
   (0xFFFFFFF0#32, 0xF57FF060#32), (0xFFFFFDFF#32, 0xF1010000#32), (0xFFF1FE20#32, 0xF1000000#32),
   (0xFE50FFFF#32, 0xF8100A00#32), (0xFE5FFFE0#32, 0xF84D0500#32), (0xFF70F000#32, 0xF550F000#32),
   (0xFF70F000#32, 0xF510F000#32), (0xFF70F000#32, 0xF450F000#32), (0xFF70F010#32, 0xF750F000#32),
   (0xFF70F010#32, 0xF710F000#32), (0xFF70F010#32, 0xF650F000#32), (0xFE000000#32, 0xFA000000#32),
   (0xFE000000#32, 0xF2000000#32), (0xFF100000#32, 0xF4000000#32), (0xFC000000#32, 0xFC000000#32)]

/-- The rows before the unallocated-VFP row that lie in the VFP space (30_encoding.md R426). -/
def vfpRows : List (Word × Word) :=
  [(0x0F000000#32, 0x0F000000#32), (0x0FF00FFF#32, 0x0EF00A10#32), (0x0FF00FFF#32, 0x0EE00A10#32),
   (0x0FE00F10#32, 0x0EE00A10#32), (0x0FB00E50#32, 0x0E000A00#32), (0x0FB00E50#32, 0x0E000A40#32),
   (0x0FB00E50#32, 0x0E100A00#32), (0x0FB00E50#32, 0x0E100A40#32), (0x0FB00E50#32, 0x0E200A00#32),
   (0x0FB00E50#32, 0x0E200A40#32), (0x0FB00E50#32, 0x0E300A00#32), (0x0FB00E50#32, 0x0E300A40#32),
   (0x0FB00E50#32, 0x0E800A00#32), (0x0FB00E50#32, 0x0EB00A00#32), (0x0FBF0ED0#32, 0x0EB00A40#32),
   (0x0FBF0ED0#32, 0x0EB00AC0#32), (0x0FBF0ED0#32, 0x0EB10A40#32), (0x0FBF0ED0#32, 0x0EB10AC0#32),
   (0x0FBE0F50#32, 0x0EB20A40#32), (0x0FBF0E50#32, 0x0EB40A40#32), (0x0FBF0E50#32, 0x0EB50A40#32),
   (0x0FBF0ED0#32, 0x0EB70AC0#32), (0x0FBF0E50#32, 0x0EB80A40#32), (0x0FBE0E50#32, 0x0EBC0A40#32),
   (0x0FBA0E50#32, 0x0EBA0A40#32), (0x0F300E00#32, 0x0D100A00#32), (0x0F300E00#32, 0x0D000A00#32),
   (0x0FBF0E00#32, 0x0CBD0A00#32), (0x0FBF0E00#32, 0x0D2D0A00#32), (0x0F900E00#32, 0x0C900A00#32),
   (0x0FB00E00#32, 0x0D300A00#32), (0x0F900E00#32, 0x0C800A00#32), (0x0FB00E00#32, 0x0D200A00#32),
   (0x0FE00F10#32, 0x0E000A10#32), (0x0FE00FD0#32, 0x0C400A10#32), (0x0FE00FD0#32, 0x0C400B10#32),
   (0x0FD00F70#32, 0x0E000B10#32), (0x0FD00F70#32, 0x0E100B10#32)]

/-- The rows before the last row that lie in the coprocessor classes: SVC, MRC and MCR to p15 and p14, the VFP space
(30_encoding.md R410, R414, R426). -/
def otherCoprocRows : List (Word × Word) :=
  [(0x0F000000#32, 0x0F000000#32), (0x0F100F10#32, 0x0E100F10#32), (0x0F100F10#32, 0x0E000F10#32),
   (0x0F100F10#32, 0x0E100E10#32), (0x0F100F10#32, 0x0E000E10#32), (0x0C000E00#32, 0x0C000A00#32)]

/-- Whether an instruction's words belong to its own row of the table and to no earlier one. -/
def wellFormed : Instr → Bool
  | .clrex => true
  | .dsb _ => true
  | .dmb _ => true
  | .isb _ => true
  | .setend _ => true
  | .cps _ _ _ _ _ _ => true
  | .rfe _ _ _ _ => true
  | .srs _ _ _ _ => true
  | .pldImm _ _ _ => true
  | .pldwImm _ _ _ => true
  | .pliImm _ _ _ => true
  | .pldReg _ _ _ _ _ => true
  | .pldwReg _ _ _ _ _ => true
  | .pliReg _ _ _ _ _ => true
  | .blxImm _ _ => true
  | .advSimdDataProcessing _ => true
  | .advSimdLoadStore _ _ => true
  | .coprocTwoSpace _ _ _ => true
  | .restOfUnconditional rest => decide (claimed unconditionalRows (0xF#4 ++ rest) = false)
  | .nop _ => true
  | .yield _ => true
  | .wfe _ => true
  | .wfi _ => true
  | .sev _ => true
  | .hintUnallocated _ hint8 => decide (5 ≤ hint8.toNat)
  | .msrImm _ r mask4 imm12 => decide (¬ (r = false ∧ mask4 = 0 ∧ imm12.extractLsb' 8 4 = 0))
  | .bkpt _ _ => true
  | .smc _ _ => true
  | .bx _ _ => true
  | .blxReg _ _ => true
  | .clz _ _ _ => true
  | .mrs _ _ _ => true
  | .msrReg _ _ _ _ => true
  | .ldrex _ _ _ => true
  | .strex _ _ _ _ => true
  | .ldrexd _ _ _ => true
  | .strexd _ _ _ _ => true
  | .ldrexb _ _ _ => true
  | .strexb _ _ _ _ => true
  | .ldrexh _ _ _ => true
  | .strexh _ _ _ _ => true
  | .swp _ _ _ _ => true
  | .swpb _ _ _ _ => true
  | .mul _ _ _ _ _ => true
  | .mla _ _ _ _ _ _ => true
  | .mls _ _ _ _ _ => true
  | .umull _ _ _ _ _ _ => true
  | .umlal _ _ _ _ _ _ => true
  | .smull _ _ _ _ _ _ => true
  | .smlal _ _ _ _ _ _ => true
  | .strhImm _ _ _ _ _ _ _ _ => true
  | .strhReg _ _ _ _ _ _ _ => true
  | .ldrhImm _ _ _ _ _ _ _ _ => true
  | .ldrhReg _ _ _ _ _ _ _ => true
  | .ldrsbImm _ _ _ _ _ _ _ _ => true
  | .ldrsbReg _ _ _ _ _ _ _ => true
  | .ldrshImm _ _ _ _ _ _ _ _ => true
  | .ldrshReg _ _ _ _ _ _ _ => true
  | .ldrdImm _ _ _ _ _ _ _ _ => true
  | .ldrdReg _ _ _ _ _ _ _ => true
  | .strdImm _ _ _ _ _ _ _ _ => true
  | .strdReg _ _ _ _ _ _ _ => true
  | .udf _ _ _ => true
  | .sdiv _ _ _ _ => true
  | .udiv _ _ _ _ => true
  | .bfc _ _ _ _ => true
  | .bfi _ _ _ _ rn => decide (rn ≠ 15)
  | .ubfx _ _ _ _ _ => true
  | .sbfx _ _ _ _ _ => true
  | .rev _ _ _ => true
  | .rev16 _ _ _ => true
  | .revsh _ _ _ => true
  | .rbit _ _ _ => true
  | .uxtb _ _ _ _ => true
  | .uxth _ _ _ _ => true
  | .sxtb _ _ _ _ => true
  | .sxth _ _ _ _ => true
  | .movw _ _ _ _ => true
  | .movt _ _ _ _ => true
  | .andImm _ _ _ _ _ _ => true
  | .andReg _ _ _ _ _ _ _ => true
  | .andRsr _ _ _ _ _ _ _ => true
  | .eorImm _ _ _ _ _ _ => true
  | .eorReg _ _ _ _ _ _ _ => true
  | .eorRsr _ _ _ _ _ _ _ => true
  | .subImm _ _ _ _ _ _ => true
  | .subReg _ _ _ _ _ _ _ => true
  | .subRsr _ _ _ _ _ _ _ => true
  | .rsbImm _ _ _ _ _ _ => true
  | .rsbReg _ _ _ _ _ _ _ => true
  | .rsbRsr _ _ _ _ _ _ _ => true
  | .addImm _ _ _ _ _ _ => true
  | .addReg _ _ _ _ _ _ _ => true
  | .addRsr _ _ _ _ _ _ _ => true
  | .adcImm _ _ _ _ _ _ => true
  | .adcReg _ _ _ _ _ _ _ => true
  | .adcRsr _ _ _ _ _ _ _ => true
  | .sbcImm _ _ _ _ _ _ => true
  | .sbcReg _ _ _ _ _ _ _ => true
  | .sbcRsr _ _ _ _ _ _ _ => true
  | .rscImm _ _ _ _ _ _ => true
  | .rscReg _ _ _ _ _ _ _ => true
  | .rscRsr _ _ _ _ _ _ _ => true
  | .tstImm _ _ _ _ _ => true
  | .tstReg _ _ _ _ _ _ => true
  | .tstRsr _ _ _ _ _ _ => true
  | .teqImm _ _ _ _ _ => true
  | .teqReg _ _ _ _ _ _ => true
  | .teqRsr _ _ _ _ _ _ => true
  | .cmpImm _ _ _ _ _ => true
  | .cmpReg _ _ _ _ _ _ => true
  | .cmpRsr _ _ _ _ _ _ => true
  | .cmnImm _ _ _ _ _ => true
  | .cmnReg _ _ _ _ _ _ => true
  | .cmnRsr _ _ _ _ _ _ => true
  | .orrImm _ _ _ _ _ _ => true
  | .orrReg _ _ _ _ _ _ _ => true
  | .orrRsr _ _ _ _ _ _ _ => true
  | .movImm _ _ _ _ _ _ => true
  | .movReg _ _ _ _ => true
  | .rrx _ _ _ _ => true
  | .lslImm _ _ _ imm5 _ => decide (imm5 ≠ 0)
  | .lsrImm _ _ _ _ _ => true
  | .asrImm _ _ _ _ _ => true
  | .rorImm _ _ _ imm5 _ => decide (imm5 ≠ 0)
  | .lslReg _ _ _ _ _ => true
  | .lsrReg _ _ _ _ _ => true
  | .asrReg _ _ _ _ _ => true
  | .rorReg _ _ _ _ _ => true
  | .bicImm _ _ _ _ _ _ => true
  | .bicReg _ _ _ _ _ _ _ => true
  | .bicRsr _ _ _ _ _ _ _ => true
  | .mvnImm _ _ _ _ _ _ => true
  | .mvnReg _ _ _ _ _ _ _ => true
  | .mvnRsr _ _ _ _ _ _ _ => true
  | .ldrImm _ _ _ _ _ _ _ => true
  | .ldrReg _ _ _ _ _ _ _ _ _ => true
  | .strImm _ _ _ _ _ _ _ => true
  | .strReg _ _ _ _ _ _ _ _ _ => true
  | .ldrbImm _ _ _ _ _ _ _ => true
  | .ldrbReg _ _ _ _ _ _ _ _ _ => true
  | .strbImm _ _ _ _ _ _ _ => true
  | .strbReg _ _ _ _ _ _ _ _ _ => true
  | .pop _ _ => true
  | .push _ _ => true
  | .ldm _ p u s w rn _ => decide (¬ (p = false ∧ u = true ∧ s = false ∧ w = true ∧ rn = 13))
  | .stm _ p u s w rn _ => decide (¬ (p = true ∧ u = false ∧ s = false ∧ w = true ∧ rn = 13))
  | .b _ _ => true
  | .bl _ _ => true
  | .svc _ _ => true
  | .vmrs _ _ _ => true
  | .vmsr _ _ _ => true
  | .vmrsVmsrSbz _ _ _ _ sbz sbz1 => decide (¬ (sbz = 0 ∧ sbz1 = 0))
  | .mrcP15 _ _ _ _ _ _ => true
  | .mcrP15 _ _ _ _ _ _ => true
  | .mrcP14 _ _ _ _ _ _ => true
  | .mcrP14 _ _ _ _ _ _ => true
  | .vmla _ _ _ _ _ _ _ _ => true
  | .vmls _ _ _ _ _ _ _ _ => true
  | .vnmls _ _ _ _ _ _ _ _ => true
  | .vnmla _ _ _ _ _ _ _ _ => true
  | .vmul _ _ _ _ _ _ _ _ => true
  | .vnmul _ _ _ _ _ _ _ _ => true
  | .vadd _ _ _ _ _ _ _ _ => true
  | .vsub _ _ _ _ _ _ _ _ => true
  | .vdiv _ _ _ _ _ _ _ _ => true
  | .vmovImm _ _ _ _ _ _ _ _ => true
  | .vmovReg _ _ _ _ _ _ => true
  | .vabs _ _ _ _ _ _ => true
  | .vneg _ _ _ _ _ _ => true
  | .vsqrt _ _ _ _ _ _ => true
  | .vcvtbVcvtt _ _ _ _ _ _ _ => true
  | .vcmpReg _ _ _ _ _ _ _ => true
  | .vcmpZero _ _ _ _ _ _ _ => true
  | .vcvtDoubleSingle _ _ _ _ _ _ => true
  | .vcvtIntToFp _ _ _ _ _ _ _ => true
  | .vcvtFpToInt _ _ _ _ _ _ _ _ => true
  | .vcvtFixed _ _ _ _ _ _ _ _ _ => true
  | .vldr _ _ _ _ _ _ _ => true
  | .vstr _ _ _ _ _ _ _ => true
  | .vpop _ _ _ _ _ => true
  | .vpush _ _ _ _ _ => true
  | .vldmIa _ _ w rn _ _ _ => decide (¬ (w = true ∧ rn = 13))
  | .vldmDb _ _ _ _ _ _ => true
  | .vstmIa _ _ _ _ _ _ _ => true
  | .vstmDb _ _ rn _ _ _ => decide (rn ≠ 13)
  | .vmovCoreSingle _ _ _ _ _ _ _ => true
  | .vmovCoreTwoSingles _ _ _ _ _ _ => true
  | .vmovCoreDouble _ _ _ _ _ _ => true
  | .vmovCoreToHalf _ _ _ _ _ _ => true
  | .vmovHalfToCore _ _ _ _ _ _ => true
  | .vfpUnallocated _ rest rest1 => decide (claimed vfpRows (0xE#4 ++ 0x3#2 ++ rest ++ 0x5#3 ++ rest1) = false)
  | .otherCoproc _ rest coproc rest1 => decide (claimed otherCoprocRows (0xE#4 ++ 0x3#2 ++ rest ++ coproc ++ rest1) = false)

/-- An instruction is well formed when its words belong to its own row of the table. -/
def WellFormed (i : Instr) : Prop := wellFormed i = true

end Sys2Proof
end

