-- ==== Sys2Proof/Decode.lean ====
section
/-! DEFINITION. Decoding: the first row of spec/opcode_table.json that matches wins (30_encoding.md R429). After it the
encoder, written from the same encoding diagrams, and the entry point for words numbered as the table numbers them. -/

namespace Sys2Proof

/-- The bits of a condition (30_encoding.md R403). -/
def Cond.bits : Cond → BitVec 4
  | .eq => 0 | .ne => 1 | .cs => 2 | .cc => 3 | .mi => 4 | .pl => 5 | .vs => 6 | .vc => 7
  | .hi => 8 | .ls => 9 | .ge => 10 | .lt => 11 | .gt => 12 | .le => 13 | .al => 14

/-- The condition of a 4-bit field (30_encoding.md R403). No row reads a condition from 0b1111: the catch-all row of the
unconditional space comes before every conditional row (R429). -/
def Cond.ofBits (b : BitVec 4) : Cond :=
  match b.toNat with
  | 0 => .eq | 1 => .ne | 2 => .cs | 3 => .cc | 4 => .mi | 5 => .pl | 6 => .vs | 7 => .vc
  | 8 => .hi | 9 => .ls | 10 => .ge | 11 => .lt | 12 => .gt | 13 => .le | _ => .al

/-- The bits of a shift type (30_encoding.md R405). -/
def ShiftType.bits : ShiftType → BitVec 2
  | .lsl => 0 | .lsr => 1 | .asr => 2 | .ror => 3

/-- The shift type of bits [6:5] (30_encoding.md R405). -/
def ShiftType.ofBits (b : BitVec 2) : ShiftType :=
  match b.toNat with
  | 0 => .lsl | 1 => .lsr | 2 => .asr | _ => .ror

/-- The condition of a word, bits [31:28]. -/
def condOf (w : Word) : Cond := Cond.ofBits (w.extractLsb' 28 4)

/-- A row of the opcode table: the mask, the value the masked word must have, and the instruction its fields give. -/
structure Row where
  mask : Word
  value : Word
  build : Word → Instr

/-- Rows of the table: unconditional space (R412, R415, R418, R425, R428). -/
def rowsUnconditional : List Row :=
  [⟨0xFFFFFFFF#32, 0xF57FF01F#32, fun _ => .clrex⟩,
   ⟨0xFFFFFFF0#32, 0xF57FF040#32, fun w => .dsb (w.extractLsb' 0 4)⟩,
   ⟨0xFFFFFFF0#32, 0xF57FF050#32, fun w => .dmb (w.extractLsb' 0 4)⟩,
   ⟨0xFFFFFFF0#32, 0xF57FF060#32, fun w => .isb (w.extractLsb' 0 4)⟩,
   ⟨0xFFFFFDFF#32, 0xF1010000#32, fun w => .setend (w.getLsbD 9)⟩,
   ⟨0xFFF1FE20#32, 0xF1000000#32, fun w => .cps (w.extractLsb' 18 2) (w.getLsbD 17) (w.getLsbD 8) (w.getLsbD 7) (w.getLsbD 6) (w.extractLsb' 0 5)⟩,
   ⟨0xFE50FFFF#32, 0xF8100A00#32, fun w => .rfe (w.getLsbD 24) (w.getLsbD 23) (w.getLsbD 21) (w.extractLsb' 16 4)⟩,
   ⟨0xFE5FFFE0#32, 0xF84D0500#32, fun w => .srs (w.getLsbD 24) (w.getLsbD 23) (w.getLsbD 21) (w.extractLsb' 0 5)⟩,
   ⟨0xFF70F000#32, 0xF550F000#32, fun w => .pldImm (w.getLsbD 23) (w.extractLsb' 16 4) (w.extractLsb' 0 12)⟩,
   ⟨0xFF70F000#32, 0xF510F000#32, fun w => .pldwImm (w.getLsbD 23) (w.extractLsb' 16 4) (w.extractLsb' 0 12)⟩,
   ⟨0xFF70F000#32, 0xF450F000#32, fun w => .pliImm (w.getLsbD 23) (w.extractLsb' 16 4) (w.extractLsb' 0 12)⟩,
   ⟨0xFF70F010#32, 0xF750F000#32, fun w => .pldReg (w.getLsbD 23) (w.extractLsb' 16 4) (w.extractLsb' 7 5) (ShiftType.ofBits (w.extractLsb' 5 2)) (w.extractLsb' 0 4)⟩,
   ⟨0xFF70F010#32, 0xF710F000#32, fun w => .pldwReg (w.getLsbD 23) (w.extractLsb' 16 4) (w.extractLsb' 7 5) (ShiftType.ofBits (w.extractLsb' 5 2)) (w.extractLsb' 0 4)⟩,
   ⟨0xFF70F010#32, 0xF650F000#32, fun w => .pliReg (w.getLsbD 23) (w.extractLsb' 16 4) (w.extractLsb' 7 5) (ShiftType.ofBits (w.extractLsb' 5 2)) (w.extractLsb' 0 4)⟩,
   ⟨0xFE000000#32, 0xFA000000#32, fun w => .blxImm (w.getLsbD 24) (w.extractLsb' 0 24)⟩,
   ⟨0xFE000000#32, 0xF2000000#32, fun w => .advSimdDataProcessing (w.extractLsb' 0 25)⟩,
   ⟨0xFF100000#32, 0xF4000000#32, fun w => .advSimdLoadStore (w.extractLsb' 21 3) (w.extractLsb' 0 20)⟩,
   ⟨0xFC000000#32, 0xFC000000#32, fun w => .coprocTwoSpace (w.extractLsb' 12 14) (w.extractLsb' 8 4) (w.extractLsb' 0 8)⟩,
   ⟨0xF0000000#32, 0xF0000000#32, fun w => .restOfUnconditional (w.extractLsb' 0 28)⟩]

/-- Rows of the table: hints, status registers, BKPT, SMC, BX, CLZ (R413 to R415, R421, R425). -/
def rowsStatus : List Row :=
  [⟨0x0FFFFFFF#32, 0x0320F000#32, fun w => .nop (condOf w)⟩,
   ⟨0x0FFFFFFF#32, 0x0320F001#32, fun w => .yield (condOf w)⟩,
   ⟨0x0FFFFFFF#32, 0x0320F002#32, fun w => .wfe (condOf w)⟩,
   ⟨0x0FFFFFFF#32, 0x0320F003#32, fun w => .wfi (condOf w)⟩,
   ⟨0x0FFFFFFF#32, 0x0320F004#32, fun w => .sev (condOf w)⟩,
   ⟨0x0FFFFF00#32, 0x0320F000#32, fun w => .hintUnallocated (condOf w) (w.extractLsb' 0 8)⟩,
   ⟨0x0FB0F000#32, 0x0320F000#32, fun w => .msrImm (condOf w) (w.getLsbD 22) (w.extractLsb' 16 4) (w.extractLsb' 0 12)⟩,
   ⟨0xFFF000F0#32, 0xE1200070#32, fun w => .bkpt (w.extractLsb' 8 12) (w.extractLsb' 0 4)⟩,
   ⟨0x0FFFFFF0#32, 0x01600070#32, fun w => .smc (condOf w) (w.extractLsb' 0 4)⟩,
   ⟨0x0FFFFFF0#32, 0x012FFF10#32, fun w => .bx (condOf w) (w.extractLsb' 0 4)⟩,
   ⟨0x0FFFFFF0#32, 0x012FFF30#32, fun w => .blxReg (condOf w) (w.extractLsb' 0 4)⟩,
   ⟨0x0FFF0FF0#32, 0x016F0F10#32, fun w => .clz (condOf w) (w.extractLsb' 12 4) (w.extractLsb' 0 4)⟩,
   ⟨0x0FBF0FFF#32, 0x010F0000#32, fun w => .mrs (condOf w) (w.getLsbD 22) (w.extractLsb' 12 4)⟩,
   ⟨0x0FB0FFF0#32, 0x0120F000#32, fun w => .msrReg (condOf w) (w.getLsbD 22) (w.extractLsb' 16 4) (w.extractLsb' 0 4)⟩]

/-- Rows of the table: exclusives, swaps, multiplies (R416, R422). -/
def rowsExclusiveMultiply : List Row :=
  [⟨0x0FF00FFF#32, 0x01900F9F#32, fun w => .ldrex (condOf w) (w.extractLsb' 16 4) (w.extractLsb' 12 4)⟩,
   ⟨0x0FF00FF0#32, 0x01800F90#32, fun w => .strex (condOf w) (w.extractLsb' 16 4) (w.extractLsb' 12 4) (w.extractLsb' 0 4)⟩,
   ⟨0x0FF00FFF#32, 0x01B00F9F#32, fun w => .ldrexd (condOf w) (w.extractLsb' 16 4) (w.extractLsb' 12 4)⟩,
   ⟨0x0FF00FF0#32, 0x01A00F90#32, fun w => .strexd (condOf w) (w.extractLsb' 16 4) (w.extractLsb' 12 4) (w.extractLsb' 0 4)⟩,
   ⟨0x0FF00FFF#32, 0x01D00F9F#32, fun w => .ldrexb (condOf w) (w.extractLsb' 16 4) (w.extractLsb' 12 4)⟩,
   ⟨0x0FF00FF0#32, 0x01C00F90#32, fun w => .strexb (condOf w) (w.extractLsb' 16 4) (w.extractLsb' 12 4) (w.extractLsb' 0 4)⟩,
   ⟨0x0FF00FFF#32, 0x01F00F9F#32, fun w => .ldrexh (condOf w) (w.extractLsb' 16 4) (w.extractLsb' 12 4)⟩,
   ⟨0x0FF00FF0#32, 0x01E00F90#32, fun w => .strexh (condOf w) (w.extractLsb' 16 4) (w.extractLsb' 12 4) (w.extractLsb' 0 4)⟩,
   ⟨0x0FF00FF0#32, 0x01000090#32, fun w => .swp (condOf w) (w.extractLsb' 16 4) (w.extractLsb' 12 4) (w.extractLsb' 0 4)⟩,
   ⟨0x0FF00FF0#32, 0x01400090#32, fun w => .swpb (condOf w) (w.extractLsb' 16 4) (w.extractLsb' 12 4) (w.extractLsb' 0 4)⟩,
   ⟨0x0FE0F0F0#32, 0x00000090#32, fun w => .mul (condOf w) (w.getLsbD 20) (w.extractLsb' 16 4) (w.extractLsb' 8 4) (w.extractLsb' 0 4)⟩,
   ⟨0x0FE000F0#32, 0x00200090#32, fun w => .mla (condOf w) (w.getLsbD 20) (w.extractLsb' 16 4) (w.extractLsb' 12 4) (w.extractLsb' 8 4) (w.extractLsb' 0 4)⟩,
   ⟨0x0FF000F0#32, 0x00600090#32, fun w => .mls (condOf w) (w.extractLsb' 16 4) (w.extractLsb' 12 4) (w.extractLsb' 8 4) (w.extractLsb' 0 4)⟩,
   ⟨0x0FE000F0#32, 0x00800090#32, fun w => .umull (condOf w) (w.getLsbD 20) (w.extractLsb' 16 4) (w.extractLsb' 12 4) (w.extractLsb' 8 4) (w.extractLsb' 0 4)⟩,
   ⟨0x0FE000F0#32, 0x00A00090#32, fun w => .umlal (condOf w) (w.getLsbD 20) (w.extractLsb' 16 4) (w.extractLsb' 12 4) (w.extractLsb' 8 4) (w.extractLsb' 0 4)⟩,
   ⟨0x0FE000F0#32, 0x00C00090#32, fun w => .smull (condOf w) (w.getLsbD 20) (w.extractLsb' 16 4) (w.extractLsb' 12 4) (w.extractLsb' 8 4) (w.extractLsb' 0 4)⟩,
   ⟨0x0FE000F0#32, 0x00E00090#32, fun w => .smlal (condOf w) (w.getLsbD 20) (w.extractLsb' 16 4) (w.extractLsb' 12 4) (w.extractLsb' 8 4) (w.extractLsb' 0 4)⟩]

/-- Rows of the table: extra loads and stores, UDF, divide, bit field, extend (R417, R421, R424, R428). -/
def rowsExtraMedia : List Row :=
  [⟨0x0E5000F0#32, 0x004000B0#32, fun w => .strhImm (condOf w) (w.getLsbD 24) (w.getLsbD 23) (w.getLsbD 21) (w.extractLsb' 16 4) (w.extractLsb' 12 4) (w.extractLsb' 8 4) (w.extractLsb' 0 4)⟩,
   ⟨0x0E500FF0#32, 0x000000B0#32, fun w => .strhReg (condOf w) (w.getLsbD 24) (w.getLsbD 23) (w.getLsbD 21) (w.extractLsb' 16 4) (w.extractLsb' 12 4) (w.extractLsb' 0 4)⟩,
   ⟨0x0E5000F0#32, 0x005000B0#32, fun w => .ldrhImm (condOf w) (w.getLsbD 24) (w.getLsbD 23) (w.getLsbD 21) (w.extractLsb' 16 4) (w.extractLsb' 12 4) (w.extractLsb' 8 4) (w.extractLsb' 0 4)⟩,
   ⟨0x0E500FF0#32, 0x001000B0#32, fun w => .ldrhReg (condOf w) (w.getLsbD 24) (w.getLsbD 23) (w.getLsbD 21) (w.extractLsb' 16 4) (w.extractLsb' 12 4) (w.extractLsb' 0 4)⟩,
   ⟨0x0E5000F0#32, 0x005000D0#32, fun w => .ldrsbImm (condOf w) (w.getLsbD 24) (w.getLsbD 23) (w.getLsbD 21) (w.extractLsb' 16 4) (w.extractLsb' 12 4) (w.extractLsb' 8 4) (w.extractLsb' 0 4)⟩,
   ⟨0x0E500FF0#32, 0x001000D0#32, fun w => .ldrsbReg (condOf w) (w.getLsbD 24) (w.getLsbD 23) (w.getLsbD 21) (w.extractLsb' 16 4) (w.extractLsb' 12 4) (w.extractLsb' 0 4)⟩,
   ⟨0x0E5000F0#32, 0x005000F0#32, fun w => .ldrshImm (condOf w) (w.getLsbD 24) (w.getLsbD 23) (w.getLsbD 21) (w.extractLsb' 16 4) (w.extractLsb' 12 4) (w.extractLsb' 8 4) (w.extractLsb' 0 4)⟩,
   ⟨0x0E500FF0#32, 0x001000F0#32, fun w => .ldrshReg (condOf w) (w.getLsbD 24) (w.getLsbD 23) (w.getLsbD 21) (w.extractLsb' 16 4) (w.extractLsb' 12 4) (w.extractLsb' 0 4)⟩,
   ⟨0x0E5000F0#32, 0x004000D0#32, fun w => .ldrdImm (condOf w) (w.getLsbD 24) (w.getLsbD 23) (w.getLsbD 21) (w.extractLsb' 16 4) (w.extractLsb' 12 4) (w.extractLsb' 8 4) (w.extractLsb' 0 4)⟩,
   ⟨0x0E500FF0#32, 0x000000D0#32, fun w => .ldrdReg (condOf w) (w.getLsbD 24) (w.getLsbD 23) (w.getLsbD 21) (w.extractLsb' 16 4) (w.extractLsb' 12 4) (w.extractLsb' 0 4)⟩,
   ⟨0x0E5000F0#32, 0x004000F0#32, fun w => .strdImm (condOf w) (w.getLsbD 24) (w.getLsbD 23) (w.getLsbD 21) (w.extractLsb' 16 4) (w.extractLsb' 12 4) (w.extractLsb' 8 4) (w.extractLsb' 0 4)⟩,
   ⟨0x0E500FF0#32, 0x000000F0#32, fun w => .strdReg (condOf w) (w.getLsbD 24) (w.getLsbD 23) (w.getLsbD 21) (w.extractLsb' 16 4) (w.extractLsb' 12 4) (w.extractLsb' 0 4)⟩,
   ⟨0x0FF000F0#32, 0x07F000F0#32, fun w => .udf (condOf w) (w.extractLsb' 8 12) (w.extractLsb' 0 4)⟩,
   ⟨0x0FF0F0F0#32, 0x0710F010#32, fun w => .sdiv (condOf w) (w.extractLsb' 16 4) (w.extractLsb' 8 4) (w.extractLsb' 0 4)⟩,
   ⟨0x0FF0F0F0#32, 0x0730F010#32, fun w => .udiv (condOf w) (w.extractLsb' 16 4) (w.extractLsb' 8 4) (w.extractLsb' 0 4)⟩,
   ⟨0x0FE0007F#32, 0x07C0001F#32, fun w => .bfc (condOf w) (w.extractLsb' 16 5) (w.extractLsb' 12 4) (w.extractLsb' 7 5)⟩,
   ⟨0x0FE00070#32, 0x07C00010#32, fun w => .bfi (condOf w) (w.extractLsb' 16 5) (w.extractLsb' 12 4) (w.extractLsb' 7 5) (w.extractLsb' 0 4)⟩,
   ⟨0x0FE00070#32, 0x07E00050#32, fun w => .ubfx (condOf w) (w.extractLsb' 16 5) (w.extractLsb' 12 4) (w.extractLsb' 7 5) (w.extractLsb' 0 4)⟩,
   ⟨0x0FE00070#32, 0x07A00050#32, fun w => .sbfx (condOf w) (w.extractLsb' 16 5) (w.extractLsb' 12 4) (w.extractLsb' 7 5) (w.extractLsb' 0 4)⟩,
   ⟨0x0FFF0FF0#32, 0x06BF0F30#32, fun w => .rev (condOf w) (w.extractLsb' 12 4) (w.extractLsb' 0 4)⟩,
   ⟨0x0FFF0FF0#32, 0x06BF0FB0#32, fun w => .rev16 (condOf w) (w.extractLsb' 12 4) (w.extractLsb' 0 4)⟩,
   ⟨0x0FFF0FF0#32, 0x06FF0FB0#32, fun w => .revsh (condOf w) (w.extractLsb' 12 4) (w.extractLsb' 0 4)⟩,
   ⟨0x0FFF0FF0#32, 0x06FF0F30#32, fun w => .rbit (condOf w) (w.extractLsb' 12 4) (w.extractLsb' 0 4)⟩,
   ⟨0x0FFF03F0#32, 0x06EF0070#32, fun w => .uxtb (condOf w) (w.extractLsb' 12 4) (w.extractLsb' 10 2) (w.extractLsb' 0 4)⟩,
   ⟨0x0FFF03F0#32, 0x06FF0070#32, fun w => .uxth (condOf w) (w.extractLsb' 12 4) (w.extractLsb' 10 2) (w.extractLsb' 0 4)⟩,
   ⟨0x0FFF03F0#32, 0x06AF0070#32, fun w => .sxtb (condOf w) (w.extractLsb' 12 4) (w.extractLsb' 10 2) (w.extractLsb' 0 4)⟩,
   ⟨0x0FFF03F0#32, 0x06BF0070#32, fun w => .sxth (condOf w) (w.extractLsb' 12 4) (w.extractLsb' 10 2) (w.extractLsb' 0 4)⟩,
   ⟨0x0FF00000#32, 0x03000000#32, fun w => .movw (condOf w) (w.extractLsb' 16 4) (w.extractLsb' 12 4) (w.extractLsb' 0 12)⟩,
   ⟨0x0FF00000#32, 0x03400000#32, fun w => .movt (condOf w) (w.extractLsb' 16 4) (w.extractLsb' 12 4) (w.extractLsb' 0 12)⟩]

/-- Rows of the table: data-processing, AND to SBC (R420). -/
def rowsDataA : List Row :=
  [⟨0x0FE00000#32, 0x02000000#32, fun w => .andImm (condOf w) (w.getLsbD 20) (w.extractLsb' 16 4) (w.extractLsb' 12 4) (w.extractLsb' 8 4) (w.extractLsb' 0 8)⟩,
   ⟨0x0FE00010#32, 0x00000000#32, fun w => .andReg (condOf w) (w.getLsbD 20) (w.extractLsb' 16 4) (w.extractLsb' 12 4) (w.extractLsb' 7 5) (ShiftType.ofBits (w.extractLsb' 5 2)) (w.extractLsb' 0 4)⟩,
   ⟨0x0FE00090#32, 0x00000010#32, fun w => .andRsr (condOf w) (w.getLsbD 20) (w.extractLsb' 16 4) (w.extractLsb' 12 4) (w.extractLsb' 8 4) (ShiftType.ofBits (w.extractLsb' 5 2)) (w.extractLsb' 0 4)⟩,
   ⟨0x0FE00000#32, 0x02200000#32, fun w => .eorImm (condOf w) (w.getLsbD 20) (w.extractLsb' 16 4) (w.extractLsb' 12 4) (w.extractLsb' 8 4) (w.extractLsb' 0 8)⟩,
   ⟨0x0FE00010#32, 0x00200000#32, fun w => .eorReg (condOf w) (w.getLsbD 20) (w.extractLsb' 16 4) (w.extractLsb' 12 4) (w.extractLsb' 7 5) (ShiftType.ofBits (w.extractLsb' 5 2)) (w.extractLsb' 0 4)⟩,
   ⟨0x0FE00090#32, 0x00200010#32, fun w => .eorRsr (condOf w) (w.getLsbD 20) (w.extractLsb' 16 4) (w.extractLsb' 12 4) (w.extractLsb' 8 4) (ShiftType.ofBits (w.extractLsb' 5 2)) (w.extractLsb' 0 4)⟩,
   ⟨0x0FE00000#32, 0x02400000#32, fun w => .subImm (condOf w) (w.getLsbD 20) (w.extractLsb' 16 4) (w.extractLsb' 12 4) (w.extractLsb' 8 4) (w.extractLsb' 0 8)⟩,
   ⟨0x0FE00010#32, 0x00400000#32, fun w => .subReg (condOf w) (w.getLsbD 20) (w.extractLsb' 16 4) (w.extractLsb' 12 4) (w.extractLsb' 7 5) (ShiftType.ofBits (w.extractLsb' 5 2)) (w.extractLsb' 0 4)⟩,
   ⟨0x0FE00090#32, 0x00400010#32, fun w => .subRsr (condOf w) (w.getLsbD 20) (w.extractLsb' 16 4) (w.extractLsb' 12 4) (w.extractLsb' 8 4) (ShiftType.ofBits (w.extractLsb' 5 2)) (w.extractLsb' 0 4)⟩,
   ⟨0x0FE00000#32, 0x02600000#32, fun w => .rsbImm (condOf w) (w.getLsbD 20) (w.extractLsb' 16 4) (w.extractLsb' 12 4) (w.extractLsb' 8 4) (w.extractLsb' 0 8)⟩,
   ⟨0x0FE00010#32, 0x00600000#32, fun w => .rsbReg (condOf w) (w.getLsbD 20) (w.extractLsb' 16 4) (w.extractLsb' 12 4) (w.extractLsb' 7 5) (ShiftType.ofBits (w.extractLsb' 5 2)) (w.extractLsb' 0 4)⟩,
   ⟨0x0FE00090#32, 0x00600010#32, fun w => .rsbRsr (condOf w) (w.getLsbD 20) (w.extractLsb' 16 4) (w.extractLsb' 12 4) (w.extractLsb' 8 4) (ShiftType.ofBits (w.extractLsb' 5 2)) (w.extractLsb' 0 4)⟩,
   ⟨0x0FE00000#32, 0x02800000#32, fun w => .addImm (condOf w) (w.getLsbD 20) (w.extractLsb' 16 4) (w.extractLsb' 12 4) (w.extractLsb' 8 4) (w.extractLsb' 0 8)⟩,
   ⟨0x0FE00010#32, 0x00800000#32, fun w => .addReg (condOf w) (w.getLsbD 20) (w.extractLsb' 16 4) (w.extractLsb' 12 4) (w.extractLsb' 7 5) (ShiftType.ofBits (w.extractLsb' 5 2)) (w.extractLsb' 0 4)⟩,
   ⟨0x0FE00090#32, 0x00800010#32, fun w => .addRsr (condOf w) (w.getLsbD 20) (w.extractLsb' 16 4) (w.extractLsb' 12 4) (w.extractLsb' 8 4) (ShiftType.ofBits (w.extractLsb' 5 2)) (w.extractLsb' 0 4)⟩,
   ⟨0x0FE00000#32, 0x02A00000#32, fun w => .adcImm (condOf w) (w.getLsbD 20) (w.extractLsb' 16 4) (w.extractLsb' 12 4) (w.extractLsb' 8 4) (w.extractLsb' 0 8)⟩,
   ⟨0x0FE00010#32, 0x00A00000#32, fun w => .adcReg (condOf w) (w.getLsbD 20) (w.extractLsb' 16 4) (w.extractLsb' 12 4) (w.extractLsb' 7 5) (ShiftType.ofBits (w.extractLsb' 5 2)) (w.extractLsb' 0 4)⟩,
   ⟨0x0FE00090#32, 0x00A00010#32, fun w => .adcRsr (condOf w) (w.getLsbD 20) (w.extractLsb' 16 4) (w.extractLsb' 12 4) (w.extractLsb' 8 4) (ShiftType.ofBits (w.extractLsb' 5 2)) (w.extractLsb' 0 4)⟩,
   ⟨0x0FE00000#32, 0x02C00000#32, fun w => .sbcImm (condOf w) (w.getLsbD 20) (w.extractLsb' 16 4) (w.extractLsb' 12 4) (w.extractLsb' 8 4) (w.extractLsb' 0 8)⟩,
   ⟨0x0FE00010#32, 0x00C00000#32, fun w => .sbcReg (condOf w) (w.getLsbD 20) (w.extractLsb' 16 4) (w.extractLsb' 12 4) (w.extractLsb' 7 5) (ShiftType.ofBits (w.extractLsb' 5 2)) (w.extractLsb' 0 4)⟩,
   ⟨0x0FE00090#32, 0x00C00010#32, fun w => .sbcRsr (condOf w) (w.getLsbD 20) (w.extractLsb' 16 4) (w.extractLsb' 12 4) (w.extractLsb' 8 4) (ShiftType.ofBits (w.extractLsb' 5 2)) (w.extractLsb' 0 4)⟩]

/-- Rows of the table: data-processing, RSC to ORR (R420). -/
def rowsDataB : List Row :=
  [⟨0x0FE00000#32, 0x02E00000#32, fun w => .rscImm (condOf w) (w.getLsbD 20) (w.extractLsb' 16 4) (w.extractLsb' 12 4) (w.extractLsb' 8 4) (w.extractLsb' 0 8)⟩,
   ⟨0x0FE00010#32, 0x00E00000#32, fun w => .rscReg (condOf w) (w.getLsbD 20) (w.extractLsb' 16 4) (w.extractLsb' 12 4) (w.extractLsb' 7 5) (ShiftType.ofBits (w.extractLsb' 5 2)) (w.extractLsb' 0 4)⟩,
   ⟨0x0FE00090#32, 0x00E00010#32, fun w => .rscRsr (condOf w) (w.getLsbD 20) (w.extractLsb' 16 4) (w.extractLsb' 12 4) (w.extractLsb' 8 4) (ShiftType.ofBits (w.extractLsb' 5 2)) (w.extractLsb' 0 4)⟩,
   ⟨0x0FF00000#32, 0x03100000#32, fun w => .tstImm (condOf w) (w.extractLsb' 16 4) (w.extractLsb' 12 4) (w.extractLsb' 8 4) (w.extractLsb' 0 8)⟩,
   ⟨0x0FF00010#32, 0x01100000#32, fun w => .tstReg (condOf w) (w.extractLsb' 16 4) (w.extractLsb' 12 4) (w.extractLsb' 7 5) (ShiftType.ofBits (w.extractLsb' 5 2)) (w.extractLsb' 0 4)⟩,
   ⟨0x0FF00090#32, 0x01100010#32, fun w => .tstRsr (condOf w) (w.extractLsb' 16 4) (w.extractLsb' 12 4) (w.extractLsb' 8 4) (ShiftType.ofBits (w.extractLsb' 5 2)) (w.extractLsb' 0 4)⟩,
   ⟨0x0FF00000#32, 0x03300000#32, fun w => .teqImm (condOf w) (w.extractLsb' 16 4) (w.extractLsb' 12 4) (w.extractLsb' 8 4) (w.extractLsb' 0 8)⟩,
   ⟨0x0FF00010#32, 0x01300000#32, fun w => .teqReg (condOf w) (w.extractLsb' 16 4) (w.extractLsb' 12 4) (w.extractLsb' 7 5) (ShiftType.ofBits (w.extractLsb' 5 2)) (w.extractLsb' 0 4)⟩,
   ⟨0x0FF00090#32, 0x01300010#32, fun w => .teqRsr (condOf w) (w.extractLsb' 16 4) (w.extractLsb' 12 4) (w.extractLsb' 8 4) (ShiftType.ofBits (w.extractLsb' 5 2)) (w.extractLsb' 0 4)⟩,
   ⟨0x0FF00000#32, 0x03500000#32, fun w => .cmpImm (condOf w) (w.extractLsb' 16 4) (w.extractLsb' 12 4) (w.extractLsb' 8 4) (w.extractLsb' 0 8)⟩,
   ⟨0x0FF00010#32, 0x01500000#32, fun w => .cmpReg (condOf w) (w.extractLsb' 16 4) (w.extractLsb' 12 4) (w.extractLsb' 7 5) (ShiftType.ofBits (w.extractLsb' 5 2)) (w.extractLsb' 0 4)⟩,
   ⟨0x0FF00090#32, 0x01500010#32, fun w => .cmpRsr (condOf w) (w.extractLsb' 16 4) (w.extractLsb' 12 4) (w.extractLsb' 8 4) (ShiftType.ofBits (w.extractLsb' 5 2)) (w.extractLsb' 0 4)⟩,
   ⟨0x0FF00000#32, 0x03700000#32, fun w => .cmnImm (condOf w) (w.extractLsb' 16 4) (w.extractLsb' 12 4) (w.extractLsb' 8 4) (w.extractLsb' 0 8)⟩,
   ⟨0x0FF00010#32, 0x01700000#32, fun w => .cmnReg (condOf w) (w.extractLsb' 16 4) (w.extractLsb' 12 4) (w.extractLsb' 7 5) (ShiftType.ofBits (w.extractLsb' 5 2)) (w.extractLsb' 0 4)⟩,
   ⟨0x0FF00090#32, 0x01700010#32, fun w => .cmnRsr (condOf w) (w.extractLsb' 16 4) (w.extractLsb' 12 4) (w.extractLsb' 8 4) (ShiftType.ofBits (w.extractLsb' 5 2)) (w.extractLsb' 0 4)⟩,
   ⟨0x0FE00000#32, 0x03800000#32, fun w => .orrImm (condOf w) (w.getLsbD 20) (w.extractLsb' 16 4) (w.extractLsb' 12 4) (w.extractLsb' 8 4) (w.extractLsb' 0 8)⟩,
   ⟨0x0FE00010#32, 0x01800000#32, fun w => .orrReg (condOf w) (w.getLsbD 20) (w.extractLsb' 16 4) (w.extractLsb' 12 4) (w.extractLsb' 7 5) (ShiftType.ofBits (w.extractLsb' 5 2)) (w.extractLsb' 0 4)⟩,
   ⟨0x0FE00090#32, 0x01800010#32, fun w => .orrRsr (condOf w) (w.getLsbD 20) (w.extractLsb' 16 4) (w.extractLsb' 12 4) (w.extractLsb' 8 4) (ShiftType.ofBits (w.extractLsb' 5 2)) (w.extractLsb' 0 4)⟩]

/-- Rows of the table: data-processing, MOV to MVN (R420). -/
def rowsDataC : List Row :=
  [⟨0x0FE00000#32, 0x03A00000#32, fun w => .movImm (condOf w) (w.getLsbD 20) (w.extractLsb' 16 4) (w.extractLsb' 12 4) (w.extractLsb' 8 4) (w.extractLsb' 0 8)⟩,
   ⟨0x0FEF0FF0#32, 0x01A00000#32, fun w => .movReg (condOf w) (w.getLsbD 20) (w.extractLsb' 12 4) (w.extractLsb' 0 4)⟩,
   ⟨0x0FEF0FF0#32, 0x01A00060#32, fun w => .rrx (condOf w) (w.getLsbD 20) (w.extractLsb' 12 4) (w.extractLsb' 0 4)⟩,
   ⟨0x0FEF0070#32, 0x01A00000#32, fun w => .lslImm (condOf w) (w.getLsbD 20) (w.extractLsb' 12 4) (w.extractLsb' 7 5) (w.extractLsb' 0 4)⟩,
   ⟨0x0FEF0070#32, 0x01A00020#32, fun w => .lsrImm (condOf w) (w.getLsbD 20) (w.extractLsb' 12 4) (w.extractLsb' 7 5) (w.extractLsb' 0 4)⟩,
   ⟨0x0FEF0070#32, 0x01A00040#32, fun w => .asrImm (condOf w) (w.getLsbD 20) (w.extractLsb' 12 4) (w.extractLsb' 7 5) (w.extractLsb' 0 4)⟩,
   ⟨0x0FEF0070#32, 0x01A00060#32, fun w => .rorImm (condOf w) (w.getLsbD 20) (w.extractLsb' 12 4) (w.extractLsb' 7 5) (w.extractLsb' 0 4)⟩,
   ⟨0x0FEF00F0#32, 0x01A00010#32, fun w => .lslReg (condOf w) (w.getLsbD 20) (w.extractLsb' 12 4) (w.extractLsb' 8 4) (w.extractLsb' 0 4)⟩,
   ⟨0x0FEF00F0#32, 0x01A00030#32, fun w => .lsrReg (condOf w) (w.getLsbD 20) (w.extractLsb' 12 4) (w.extractLsb' 8 4) (w.extractLsb' 0 4)⟩,
   ⟨0x0FEF00F0#32, 0x01A00050#32, fun w => .asrReg (condOf w) (w.getLsbD 20) (w.extractLsb' 12 4) (w.extractLsb' 8 4) (w.extractLsb' 0 4)⟩,
   ⟨0x0FEF00F0#32, 0x01A00070#32, fun w => .rorReg (condOf w) (w.getLsbD 20) (w.extractLsb' 12 4) (w.extractLsb' 8 4) (w.extractLsb' 0 4)⟩,
   ⟨0x0FE00000#32, 0x03C00000#32, fun w => .bicImm (condOf w) (w.getLsbD 20) (w.extractLsb' 16 4) (w.extractLsb' 12 4) (w.extractLsb' 8 4) (w.extractLsb' 0 8)⟩,
   ⟨0x0FE00010#32, 0x01C00000#32, fun w => .bicReg (condOf w) (w.getLsbD 20) (w.extractLsb' 16 4) (w.extractLsb' 12 4) (w.extractLsb' 7 5) (ShiftType.ofBits (w.extractLsb' 5 2)) (w.extractLsb' 0 4)⟩,
   ⟨0x0FE00090#32, 0x01C00010#32, fun w => .bicRsr (condOf w) (w.getLsbD 20) (w.extractLsb' 16 4) (w.extractLsb' 12 4) (w.extractLsb' 8 4) (ShiftType.ofBits (w.extractLsb' 5 2)) (w.extractLsb' 0 4)⟩,
   ⟨0x0FE00000#32, 0x03E00000#32, fun w => .mvnImm (condOf w) (w.getLsbD 20) (w.extractLsb' 16 4) (w.extractLsb' 12 4) (w.extractLsb' 8 4) (w.extractLsb' 0 8)⟩,
   ⟨0x0FE00010#32, 0x01E00000#32, fun w => .mvnReg (condOf w) (w.getLsbD 20) (w.extractLsb' 16 4) (w.extractLsb' 12 4) (w.extractLsb' 7 5) (ShiftType.ofBits (w.extractLsb' 5 2)) (w.extractLsb' 0 4)⟩,
   ⟨0x0FE00090#32, 0x01E00010#32, fun w => .mvnRsr (condOf w) (w.getLsbD 20) (w.extractLsb' 16 4) (w.extractLsb' 12 4) (w.extractLsb' 8 4) (ShiftType.ofBits (w.extractLsb' 5 2)) (w.extractLsb' 0 4)⟩]

/-- Rows of the table: loads, stores, multiples, branches, SVC (R414, R423 to R425). -/
def rowsMemoryBranch : List Row :=
  [⟨0x0E500000#32, 0x04100000#32, fun w => .ldrImm (condOf w) (w.getLsbD 24) (w.getLsbD 23) (w.getLsbD 21) (w.extractLsb' 16 4) (w.extractLsb' 12 4) (w.extractLsb' 0 12)⟩,
   ⟨0x0E500010#32, 0x06100000#32, fun w => .ldrReg (condOf w) (w.getLsbD 24) (w.getLsbD 23) (w.getLsbD 21) (w.extractLsb' 16 4) (w.extractLsb' 12 4) (w.extractLsb' 7 5) (ShiftType.ofBits (w.extractLsb' 5 2)) (w.extractLsb' 0 4)⟩,
   ⟨0x0E500000#32, 0x04000000#32, fun w => .strImm (condOf w) (w.getLsbD 24) (w.getLsbD 23) (w.getLsbD 21) (w.extractLsb' 16 4) (w.extractLsb' 12 4) (w.extractLsb' 0 12)⟩,
   ⟨0x0E500010#32, 0x06000000#32, fun w => .strReg (condOf w) (w.getLsbD 24) (w.getLsbD 23) (w.getLsbD 21) (w.extractLsb' 16 4) (w.extractLsb' 12 4) (w.extractLsb' 7 5) (ShiftType.ofBits (w.extractLsb' 5 2)) (w.extractLsb' 0 4)⟩,
   ⟨0x0E500000#32, 0x04500000#32, fun w => .ldrbImm (condOf w) (w.getLsbD 24) (w.getLsbD 23) (w.getLsbD 21) (w.extractLsb' 16 4) (w.extractLsb' 12 4) (w.extractLsb' 0 12)⟩,
   ⟨0x0E500010#32, 0x06500000#32, fun w => .ldrbReg (condOf w) (w.getLsbD 24) (w.getLsbD 23) (w.getLsbD 21) (w.extractLsb' 16 4) (w.extractLsb' 12 4) (w.extractLsb' 7 5) (ShiftType.ofBits (w.extractLsb' 5 2)) (w.extractLsb' 0 4)⟩,
   ⟨0x0E500000#32, 0x04400000#32, fun w => .strbImm (condOf w) (w.getLsbD 24) (w.getLsbD 23) (w.getLsbD 21) (w.extractLsb' 16 4) (w.extractLsb' 12 4) (w.extractLsb' 0 12)⟩,
   ⟨0x0E500010#32, 0x06400000#32, fun w => .strbReg (condOf w) (w.getLsbD 24) (w.getLsbD 23) (w.getLsbD 21) (w.extractLsb' 16 4) (w.extractLsb' 12 4) (w.extractLsb' 7 5) (ShiftType.ofBits (w.extractLsb' 5 2)) (w.extractLsb' 0 4)⟩,
   ⟨0x0FFF0000#32, 0x08BD0000#32, fun w => .pop (condOf w) (w.extractLsb' 0 16)⟩,
   ⟨0x0FFF0000#32, 0x092D0000#32, fun w => .push (condOf w) (w.extractLsb' 0 16)⟩,
   ⟨0x0E100000#32, 0x08100000#32, fun w => .ldm (condOf w) (w.getLsbD 24) (w.getLsbD 23) (w.getLsbD 22) (w.getLsbD 21) (w.extractLsb' 16 4) (w.extractLsb' 0 16)⟩,
   ⟨0x0E100000#32, 0x08000000#32, fun w => .stm (condOf w) (w.getLsbD 24) (w.getLsbD 23) (w.getLsbD 22) (w.getLsbD 21) (w.extractLsb' 16 4) (w.extractLsb' 0 16)⟩,
   ⟨0x0F000000#32, 0x0A000000#32, fun w => .b (condOf w) (w.extractLsb' 0 24)⟩,
   ⟨0x0F000000#32, 0x0B000000#32, fun w => .bl (condOf w) (w.extractLsb' 0 24)⟩,
   ⟨0x0F000000#32, 0x0F000000#32, fun w => .svc (condOf w) (w.extractLsb' 0 24)⟩]

/-- Rows of the table: system registers (R410, R411). -/
def rowsSystem : List Row :=
  [⟨0x0FF00FFF#32, 0x0EF00A10#32, fun w => .vmrs (condOf w) (w.extractLsb' 16 4) (w.extractLsb' 12 4)⟩,
   ⟨0x0FF00FFF#32, 0x0EE00A10#32, fun w => .vmsr (condOf w) (w.extractLsb' 16 4) (w.extractLsb' 12 4)⟩,
   ⟨0x0FE00F10#32, 0x0EE00A10#32, fun w => .vmrsVmsrSbz (condOf w) (w.getLsbD 20) (w.extractLsb' 16 4) (w.extractLsb' 12 4) (w.extractLsb' 5 3) (w.extractLsb' 0 4)⟩,
   ⟨0x0F100F10#32, 0x0E100F10#32, fun w => .mrcP15 (condOf w) (w.extractLsb' 21 3) (w.extractLsb' 16 4) (w.extractLsb' 12 4) (w.extractLsb' 5 3) (w.extractLsb' 0 4)⟩,
   ⟨0x0F100F10#32, 0x0E000F10#32, fun w => .mcrP15 (condOf w) (w.extractLsb' 21 3) (w.extractLsb' 16 4) (w.extractLsb' 12 4) (w.extractLsb' 5 3) (w.extractLsb' 0 4)⟩,
   ⟨0x0F100F10#32, 0x0E100E10#32, fun w => .mrcP14 (condOf w) (w.extractLsb' 21 3) (w.extractLsb' 16 4) (w.extractLsb' 12 4) (w.extractLsb' 5 3) (w.extractLsb' 0 4)⟩,
   ⟨0x0F100F10#32, 0x0E000E10#32, fun w => .mcrP14 (condOf w) (w.extractLsb' 21 3) (w.extractLsb' 16 4) (w.extractLsb' 12 4) (w.extractLsb' 5 3) (w.extractLsb' 0 4)⟩]

/-- Rows of the table: VFP data-processing (R426). -/
def rowsVfpData : List Row :=
  [⟨0x0FB00E50#32, 0x0E000A00#32, fun w => .vmla (condOf w) (w.getLsbD 22) (w.extractLsb' 16 4) (w.extractLsb' 12 4) (w.getLsbD 8) (w.getLsbD 7) (w.getLsbD 5) (w.extractLsb' 0 4)⟩,
   ⟨0x0FB00E50#32, 0x0E000A40#32, fun w => .vmls (condOf w) (w.getLsbD 22) (w.extractLsb' 16 4) (w.extractLsb' 12 4) (w.getLsbD 8) (w.getLsbD 7) (w.getLsbD 5) (w.extractLsb' 0 4)⟩,
   ⟨0x0FB00E50#32, 0x0E100A00#32, fun w => .vnmls (condOf w) (w.getLsbD 22) (w.extractLsb' 16 4) (w.extractLsb' 12 4) (w.getLsbD 8) (w.getLsbD 7) (w.getLsbD 5) (w.extractLsb' 0 4)⟩,
   ⟨0x0FB00E50#32, 0x0E100A40#32, fun w => .vnmla (condOf w) (w.getLsbD 22) (w.extractLsb' 16 4) (w.extractLsb' 12 4) (w.getLsbD 8) (w.getLsbD 7) (w.getLsbD 5) (w.extractLsb' 0 4)⟩,
   ⟨0x0FB00E50#32, 0x0E200A00#32, fun w => .vmul (condOf w) (w.getLsbD 22) (w.extractLsb' 16 4) (w.extractLsb' 12 4) (w.getLsbD 8) (w.getLsbD 7) (w.getLsbD 5) (w.extractLsb' 0 4)⟩,
   ⟨0x0FB00E50#32, 0x0E200A40#32, fun w => .vnmul (condOf w) (w.getLsbD 22) (w.extractLsb' 16 4) (w.extractLsb' 12 4) (w.getLsbD 8) (w.getLsbD 7) (w.getLsbD 5) (w.extractLsb' 0 4)⟩,
   ⟨0x0FB00E50#32, 0x0E300A00#32, fun w => .vadd (condOf w) (w.getLsbD 22) (w.extractLsb' 16 4) (w.extractLsb' 12 4) (w.getLsbD 8) (w.getLsbD 7) (w.getLsbD 5) (w.extractLsb' 0 4)⟩,
   ⟨0x0FB00E50#32, 0x0E300A40#32, fun w => .vsub (condOf w) (w.getLsbD 22) (w.extractLsb' 16 4) (w.extractLsb' 12 4) (w.getLsbD 8) (w.getLsbD 7) (w.getLsbD 5) (w.extractLsb' 0 4)⟩,
   ⟨0x0FB00E50#32, 0x0E800A00#32, fun w => .vdiv (condOf w) (w.getLsbD 22) (w.extractLsb' 16 4) (w.extractLsb' 12 4) (w.getLsbD 8) (w.getLsbD 7) (w.getLsbD 5) (w.extractLsb' 0 4)⟩,
   ⟨0x0FB00E50#32, 0x0EB00A00#32, fun w => .vmovImm (condOf w) (w.getLsbD 22) (w.extractLsb' 16 4) (w.extractLsb' 12 4) (w.getLsbD 8) (w.getLsbD 7) (w.getLsbD 5) (w.extractLsb' 0 4)⟩,
   ⟨0x0FBF0ED0#32, 0x0EB00A40#32, fun w => .vmovReg (condOf w) (w.getLsbD 22) (w.extractLsb' 12 4) (w.getLsbD 8) (w.getLsbD 5) (w.extractLsb' 0 4)⟩,
   ⟨0x0FBF0ED0#32, 0x0EB00AC0#32, fun w => .vabs (condOf w) (w.getLsbD 22) (w.extractLsb' 12 4) (w.getLsbD 8) (w.getLsbD 5) (w.extractLsb' 0 4)⟩,
   ⟨0x0FBF0ED0#32, 0x0EB10A40#32, fun w => .vneg (condOf w) (w.getLsbD 22) (w.extractLsb' 12 4) (w.getLsbD 8) (w.getLsbD 5) (w.extractLsb' 0 4)⟩,
   ⟨0x0FBF0ED0#32, 0x0EB10AC0#32, fun w => .vsqrt (condOf w) (w.getLsbD 22) (w.extractLsb' 12 4) (w.getLsbD 8) (w.getLsbD 5) (w.extractLsb' 0 4)⟩,
   ⟨0x0FBE0F50#32, 0x0EB20A40#32, fun w => .vcvtbVcvtt (condOf w) (w.getLsbD 22) (w.getLsbD 16) (w.extractLsb' 12 4) (w.getLsbD 7) (w.getLsbD 5) (w.extractLsb' 0 4)⟩,
   ⟨0x0FBF0E50#32, 0x0EB40A40#32, fun w => .vcmpReg (condOf w) (w.getLsbD 22) (w.extractLsb' 12 4) (w.getLsbD 8) (w.getLsbD 7) (w.getLsbD 5) (w.extractLsb' 0 4)⟩,
   ⟨0x0FBF0E50#32, 0x0EB50A40#32, fun w => .vcmpZero (condOf w) (w.getLsbD 22) (w.extractLsb' 12 4) (w.getLsbD 8) (w.getLsbD 7) (w.getLsbD 5) (w.extractLsb' 0 4)⟩,
   ⟨0x0FBF0ED0#32, 0x0EB70AC0#32, fun w => .vcvtDoubleSingle (condOf w) (w.getLsbD 22) (w.extractLsb' 12 4) (w.getLsbD 8) (w.getLsbD 5) (w.extractLsb' 0 4)⟩,
   ⟨0x0FBF0E50#32, 0x0EB80A40#32, fun w => .vcvtIntToFp (condOf w) (w.getLsbD 22) (w.extractLsb' 12 4) (w.getLsbD 8) (w.getLsbD 7) (w.getLsbD 5) (w.extractLsb' 0 4)⟩,
   ⟨0x0FBE0E50#32, 0x0EBC0A40#32, fun w => .vcvtFpToInt (condOf w) (w.getLsbD 22) (w.getLsbD 16) (w.extractLsb' 12 4) (w.getLsbD 8) (w.getLsbD 7) (w.getLsbD 5) (w.extractLsb' 0 4)⟩,
   ⟨0x0FBA0E50#32, 0x0EBA0A40#32, fun w => .vcvtFixed (condOf w) (w.getLsbD 22) (w.getLsbD 18) (w.getLsbD 16) (w.extractLsb' 12 4) (w.getLsbD 8) (w.getLsbD 7) (w.getLsbD 5) (w.extractLsb' 0 4)⟩]

/-- Rows of the table: VFP loads, stores and transfers, closing rows (R426, R428). -/
def rowsVfpMemory : List Row :=
  [⟨0x0F300E00#32, 0x0D100A00#32, fun w => .vldr (condOf w) (w.getLsbD 23) (w.getLsbD 22) (w.extractLsb' 16 4) (w.extractLsb' 12 4) (w.getLsbD 8) (w.extractLsb' 0 8)⟩,
   ⟨0x0F300E00#32, 0x0D000A00#32, fun w => .vstr (condOf w) (w.getLsbD 23) (w.getLsbD 22) (w.extractLsb' 16 4) (w.extractLsb' 12 4) (w.getLsbD 8) (w.extractLsb' 0 8)⟩,
   ⟨0x0FBF0E00#32, 0x0CBD0A00#32, fun w => .vpop (condOf w) (w.getLsbD 22) (w.extractLsb' 12 4) (w.getLsbD 8) (w.extractLsb' 0 8)⟩,
   ⟨0x0FBF0E00#32, 0x0D2D0A00#32, fun w => .vpush (condOf w) (w.getLsbD 22) (w.extractLsb' 12 4) (w.getLsbD 8) (w.extractLsb' 0 8)⟩,
   ⟨0x0F900E00#32, 0x0C900A00#32, fun w => .vldmIa (condOf w) (w.getLsbD 22) (w.getLsbD 21) (w.extractLsb' 16 4) (w.extractLsb' 12 4) (w.getLsbD 8) (w.extractLsb' 0 8)⟩,
   ⟨0x0FB00E00#32, 0x0D300A00#32, fun w => .vldmDb (condOf w) (w.getLsbD 22) (w.extractLsb' 16 4) (w.extractLsb' 12 4) (w.getLsbD 8) (w.extractLsb' 0 8)⟩,
   ⟨0x0F900E00#32, 0x0C800A00#32, fun w => .vstmIa (condOf w) (w.getLsbD 22) (w.getLsbD 21) (w.extractLsb' 16 4) (w.extractLsb' 12 4) (w.getLsbD 8) (w.extractLsb' 0 8)⟩,
   ⟨0x0FB00E00#32, 0x0D200A00#32, fun w => .vstmDb (condOf w) (w.getLsbD 22) (w.extractLsb' 16 4) (w.extractLsb' 12 4) (w.getLsbD 8) (w.extractLsb' 0 8)⟩,
   ⟨0x0FE00F10#32, 0x0E000A10#32, fun w => .vmovCoreSingle (condOf w) (w.getLsbD 20) (w.extractLsb' 16 4) (w.extractLsb' 12 4) (w.getLsbD 7) (w.extractLsb' 5 2) (w.extractLsb' 0 4)⟩,
   ⟨0x0FE00FD0#32, 0x0C400A10#32, fun w => .vmovCoreTwoSingles (condOf w) (w.getLsbD 20) (w.extractLsb' 16 4) (w.extractLsb' 12 4) (w.getLsbD 5) (w.extractLsb' 0 4)⟩,
   ⟨0x0FE00FD0#32, 0x0C400B10#32, fun w => .vmovCoreDouble (condOf w) (w.getLsbD 20) (w.extractLsb' 16 4) (w.extractLsb' 12 4) (w.getLsbD 5) (w.extractLsb' 0 4)⟩,
   ⟨0x0FD00F70#32, 0x0E000B10#32, fun w => .vmovCoreToHalf (condOf w) (w.getLsbD 21) (w.extractLsb' 16 4) (w.extractLsb' 12 4) (w.getLsbD 7) (w.extractLsb' 0 4)⟩,
   ⟨0x0FD00F70#32, 0x0E100B10#32, fun w => .vmovHalfToCore (condOf w) (w.getLsbD 21) (w.extractLsb' 16 4) (w.extractLsb' 12 4) (w.getLsbD 7) (w.extractLsb' 0 4)⟩,
   ⟨0x0C000E00#32, 0x0C000A00#32, fun w => .vfpUnallocated (condOf w) (w.extractLsb' 12 14) (w.extractLsb' 0 9)⟩,
   ⟨0x0C000000#32, 0x0C000000#32, fun w => .otherCoproc (condOf w) (w.extractLsb' 12 14) (w.extractLsb' 8 4) (w.extractLsb' 0 8)⟩]

/-- spec/opcode_table.json in file order (30_encoding.md R429). -/
def rows : List Row :=
  rowsUnconditional ++ rowsStatus ++ rowsExclusiveMultiply ++ rowsExtraMedia ++ rowsDataA ++ rowsDataB ++ rowsDataC ++ rowsMemoryBranch ++ rowsSystem ++ rowsVfpData ++ rowsVfpMemory

/-- Why a word or a list of bytes is no instruction. -/
inductive DecodeError where
  /-- Fewer than four bytes. -/
  | tooShort
  /-- The word matches no row of the table (30_encoding.md R428 (f), R429). -/
  | noRow
  deriving DecidableEq, Repr

/-- The first row of a list that matches, with the instruction it gives. -/
def findRow (w : Word) : List Row → Option Instr
  | [] => none
  | r :: rs => if w &&& r.mask = r.value then some (r.build w) else findRow w rs

/-- The instruction of a word (30_encoding.md R429). -/
def decode (w : Word) : Except DecodeError Instr :=
  match findRow w rows with
  | some i => .ok i
  | none => .error .noRow

/-- A 32-bit ARM instruction word from its four bytes, little-endian whatever CPSR.E is (20_memory.md R241). -/
def wordOfBytes (b0 b1 b2 b3 : Byte) : Word := b3 ++ b2 ++ b1 ++ b0

/-- Decode the bytes at an instruction's address, the lowest first, and return what follows it. -/
def decodeBytes : List Byte → Except DecodeError (Instr × List Byte)
  | b0 :: b1 :: b2 :: b3 :: rest =>
    match decode (wordOfBytes b0 b1 b2 b3) with
    | .ok i => .ok (i, rest)
    | .error e => .error e
  | _ => .error .tooShort

/-- The four bytes of a word in memory, the lowest address first (20_memory.md R241). -/
def bytesOfWord (w : Word) : List Byte :=
  [w.extractLsb' 0 8, w.extractLsb' 8 8, w.extractLsb' 16 8, w.extractLsb' 24 8]

/-- The word of an instruction: its fields in the places its encoding diagram gives them (30_encoding.md R410 to R426;
43_vfp_instructions.md R1060 to R1094). -/
def encode : Instr → Word
  | .clrex => 0xf57ff01f#32
  | .dsb opt => 0xf57ff04#28 ++ opt
  | .dmb opt => 0xf57ff05#28 ++ opt
  | .isb opt => 0xf57ff06#28 ++ opt
  | .setend e => 0x3c4040#22 ++ BitVec.ofBool e ++ 0x0#9
  | .cps imod m a i f mode => 0xf10#12 ++ imod ++ BitVec.ofBool m ++ 0x0#8 ++ BitVec.ofBool a ++ BitVec.ofBool i ++ BitVec.ofBool f ++ 0x0#1 ++ mode
  | .rfe p u w rn => 0x7c#7 ++ BitVec.ofBool p ++ BitVec.ofBool u ++ 0x0#1 ++ BitVec.ofBool w ++ 0x1#1 ++ rn ++ 0xa00#16
  | .srs p u w mode => 0x7c#7 ++ BitVec.ofBool p ++ BitVec.ofBool u ++ 0x1#1 ++ BitVec.ofBool w ++ 0x6828#16 ++ mode
  | .pldImm u rn imm12 => 0xf5#8 ++ BitVec.ofBool u ++ 0x5#3 ++ rn ++ 0xf#4 ++ imm12
  | .pldwImm u rn imm12 => 0xf5#8 ++ BitVec.ofBool u ++ 0x1#3 ++ rn ++ 0xf#4 ++ imm12
  | .pliImm u rn imm12 => 0xf4#8 ++ BitVec.ofBool u ++ 0x5#3 ++ rn ++ 0xf#4 ++ imm12
  | .pldReg u rn imm5 ty rm => 0xf7#8 ++ BitVec.ofBool u ++ 0x5#3 ++ rn ++ 0xf#4 ++ imm5 ++ ty.bits ++ 0x0#1 ++ rm
  | .pldwReg u rn imm5 ty rm => 0xf7#8 ++ BitVec.ofBool u ++ 0x1#3 ++ rn ++ 0xf#4 ++ imm5 ++ ty.bits ++ 0x0#1 ++ rm
  | .pliReg u rn imm5 ty rm => 0xf6#8 ++ BitVec.ofBool u ++ 0x5#3 ++ rn ++ 0xf#4 ++ imm5 ++ ty.bits ++ 0x0#1 ++ rm
  | .blxImm h imm24 => 0x7d#7 ++ BitVec.ofBool h ++ imm24
  | .advSimdDataProcessing rest => 0x79#7 ++ rest
  | .advSimdLoadStore rest rest1 => 0xf4#8 ++ rest ++ 0x0#1 ++ rest1
  | .coprocTwoSpace rest coproc rest1 => 0x3f#6 ++ rest ++ coproc ++ rest1
  | .restOfUnconditional rest => 0xf#4 ++ rest
  | .nop c => c.bits ++ 0x320f000#28
  | .yield c => c.bits ++ 0x320f001#28
  | .wfe c => c.bits ++ 0x320f002#28
  | .wfi c => c.bits ++ 0x320f003#28
  | .sev c => c.bits ++ 0x320f004#28
  | .hintUnallocated c hint8 => c.bits ++ 0x320f0#20 ++ hint8
  | .msrImm c r mask4 imm12 => c.bits ++ 0x6#5 ++ BitVec.ofBool r ++ 0x2#2 ++ mask4 ++ 0xf#4 ++ imm12
  | .bkpt imm12 imm4 => 0xe12#12 ++ imm12 ++ 0x7#4 ++ imm4
  | .smc c imm4 => c.bits ++ 0x160007#24 ++ imm4
  | .bx c rm => c.bits ++ 0x12fff1#24 ++ rm
  | .blxReg c rm => c.bits ++ 0x12fff3#24 ++ rm
  | .clz c rd rm => c.bits ++ 0x16f#12 ++ rd ++ 0xf1#8 ++ rm
  | .mrs c r rd => c.bits ++ 0x2#5 ++ BitVec.ofBool r ++ 0xf#6 ++ rd ++ 0x0#12
  | .msrReg c r mask4 rn => c.bits ++ 0x2#5 ++ BitVec.ofBool r ++ 0x2#2 ++ mask4 ++ 0xf00#12 ++ rn
  | .ldrex c rn rt => c.bits ++ 0x19#8 ++ rn ++ rt ++ 0xf9f#12
  | .strex c rn rd rt => c.bits ++ 0x18#8 ++ rn ++ rd ++ 0xf9#8 ++ rt
  | .ldrexd c rn rt => c.bits ++ 0x1b#8 ++ rn ++ rt ++ 0xf9f#12
  | .strexd c rn rd rt => c.bits ++ 0x1a#8 ++ rn ++ rd ++ 0xf9#8 ++ rt
  | .ldrexb c rn rt => c.bits ++ 0x1d#8 ++ rn ++ rt ++ 0xf9f#12
  | .strexb c rn rd rt => c.bits ++ 0x1c#8 ++ rn ++ rd ++ 0xf9#8 ++ rt
  | .ldrexh c rn rt => c.bits ++ 0x1f#8 ++ rn ++ rt ++ 0xf9f#12
  | .strexh c rn rd rt => c.bits ++ 0x1e#8 ++ rn ++ rd ++ 0xf9#8 ++ rt
  | .swp c rn rt rt2 => c.bits ++ 0x10#8 ++ rn ++ rt ++ 0x9#8 ++ rt2
  | .swpb c rn rt rt2 => c.bits ++ 0x14#8 ++ rn ++ rt ++ 0x9#8 ++ rt2
  | .mul c s rd rm rn => c.bits ++ 0x0#7 ++ BitVec.ofBool s ++ rd ++ 0x0#4 ++ rm ++ 0x9#4 ++ rn
  | .mla c s rd ra rm rn => c.bits ++ 0x1#7 ++ BitVec.ofBool s ++ rd ++ ra ++ rm ++ 0x9#4 ++ rn
  | .mls c rd ra rm rn => c.bits ++ 0x6#8 ++ rd ++ ra ++ rm ++ 0x9#4 ++ rn
  | .umull c s rdHi rdLo rm rn => c.bits ++ 0x4#7 ++ BitVec.ofBool s ++ rdHi ++ rdLo ++ rm ++ 0x9#4 ++ rn
  | .umlal c s rdHi rdLo rm rn => c.bits ++ 0x5#7 ++ BitVec.ofBool s ++ rdHi ++ rdLo ++ rm ++ 0x9#4 ++ rn
  | .smull c s rdHi rdLo rm rn => c.bits ++ 0x6#7 ++ BitVec.ofBool s ++ rdHi ++ rdLo ++ rm ++ 0x9#4 ++ rn
  | .smlal c s rdHi rdLo rm rn => c.bits ++ 0x7#7 ++ BitVec.ofBool s ++ rdHi ++ rdLo ++ rm ++ 0x9#4 ++ rn
  | .strhImm c p u w rn rt imm4H imm4L => c.bits ++ 0x0#3 ++ BitVec.ofBool p ++ BitVec.ofBool u ++ 0x1#1 ++ BitVec.ofBool w ++ 0x0#1 ++ rn ++ rt ++ imm4H ++ 0xb#4 ++ imm4L
  | .strhReg c p u w rn rt rm => c.bits ++ 0x0#3 ++ BitVec.ofBool p ++ BitVec.ofBool u ++ 0x0#1 ++ BitVec.ofBool w ++ 0x0#1 ++ rn ++ rt ++ 0xb#8 ++ rm
  | .ldrhImm c p u w rn rt imm4H imm4L => c.bits ++ 0x0#3 ++ BitVec.ofBool p ++ BitVec.ofBool u ++ 0x1#1 ++ BitVec.ofBool w ++ 0x1#1 ++ rn ++ rt ++ imm4H ++ 0xb#4 ++ imm4L
  | .ldrhReg c p u w rn rt rm => c.bits ++ 0x0#3 ++ BitVec.ofBool p ++ BitVec.ofBool u ++ 0x0#1 ++ BitVec.ofBool w ++ 0x1#1 ++ rn ++ rt ++ 0xb#8 ++ rm
  | .ldrsbImm c p u w rn rt imm4H imm4L => c.bits ++ 0x0#3 ++ BitVec.ofBool p ++ BitVec.ofBool u ++ 0x1#1 ++ BitVec.ofBool w ++ 0x1#1 ++ rn ++ rt ++ imm4H ++ 0xd#4 ++ imm4L
  | .ldrsbReg c p u w rn rt rm => c.bits ++ 0x0#3 ++ BitVec.ofBool p ++ BitVec.ofBool u ++ 0x0#1 ++ BitVec.ofBool w ++ 0x1#1 ++ rn ++ rt ++ 0xd#8 ++ rm
  | .ldrshImm c p u w rn rt imm4H imm4L => c.bits ++ 0x0#3 ++ BitVec.ofBool p ++ BitVec.ofBool u ++ 0x1#1 ++ BitVec.ofBool w ++ 0x1#1 ++ rn ++ rt ++ imm4H ++ 0xf#4 ++ imm4L
  | .ldrshReg c p u w rn rt rm => c.bits ++ 0x0#3 ++ BitVec.ofBool p ++ BitVec.ofBool u ++ 0x0#1 ++ BitVec.ofBool w ++ 0x1#1 ++ rn ++ rt ++ 0xf#8 ++ rm
  | .ldrdImm c p u w rn rt imm4H imm4L => c.bits ++ 0x0#3 ++ BitVec.ofBool p ++ BitVec.ofBool u ++ 0x1#1 ++ BitVec.ofBool w ++ 0x0#1 ++ rn ++ rt ++ imm4H ++ 0xd#4 ++ imm4L
  | .ldrdReg c p u w rn rt rm => c.bits ++ 0x0#3 ++ BitVec.ofBool p ++ BitVec.ofBool u ++ 0x0#1 ++ BitVec.ofBool w ++ 0x0#1 ++ rn ++ rt ++ 0xd#8 ++ rm
  | .strdImm c p u w rn rt imm4H imm4L => c.bits ++ 0x0#3 ++ BitVec.ofBool p ++ BitVec.ofBool u ++ 0x1#1 ++ BitVec.ofBool w ++ 0x0#1 ++ rn ++ rt ++ imm4H ++ 0xf#4 ++ imm4L
  | .strdReg c p u w rn rt rm => c.bits ++ 0x0#3 ++ BitVec.ofBool p ++ BitVec.ofBool u ++ 0x0#1 ++ BitVec.ofBool w ++ 0x0#1 ++ rn ++ rt ++ 0xf#8 ++ rm
  | .udf c imm12 imm4 => c.bits ++ 0x7f#8 ++ imm12 ++ 0xf#4 ++ imm4
  | .sdiv c rd rm rn => c.bits ++ 0x71#8 ++ rd ++ 0xf#4 ++ rm ++ 0x1#4 ++ rn
  | .udiv c rd rm rn => c.bits ++ 0x73#8 ++ rd ++ 0xf#4 ++ rm ++ 0x1#4 ++ rn
  | .bfc c msb rd lsb => c.bits ++ 0x3e#7 ++ msb ++ rd ++ lsb ++ 0x1f#7
  | .bfi c msb rd lsb rn => c.bits ++ 0x3e#7 ++ msb ++ rd ++ lsb ++ 0x1#3 ++ rn
  | .ubfx c widthm1 rd lsb rn => c.bits ++ 0x3f#7 ++ widthm1 ++ rd ++ lsb ++ 0x5#3 ++ rn
  | .sbfx c widthm1 rd lsb rn => c.bits ++ 0x3d#7 ++ widthm1 ++ rd ++ lsb ++ 0x5#3 ++ rn
  | .rev c rd rm => c.bits ++ 0x6bf#12 ++ rd ++ 0xf3#8 ++ rm
  | .rev16 c rd rm => c.bits ++ 0x6bf#12 ++ rd ++ 0xfb#8 ++ rm
  | .revsh c rd rm => c.bits ++ 0x6ff#12 ++ rd ++ 0xfb#8 ++ rm
  | .rbit c rd rm => c.bits ++ 0x6ff#12 ++ rd ++ 0xf3#8 ++ rm
  | .uxtb c rd rotate rm => c.bits ++ 0x6ef#12 ++ rd ++ rotate ++ 0x7#6 ++ rm
  | .uxth c rd rotate rm => c.bits ++ 0x6ff#12 ++ rd ++ rotate ++ 0x7#6 ++ rm
  | .sxtb c rd rotate rm => c.bits ++ 0x6af#12 ++ rd ++ rotate ++ 0x7#6 ++ rm
  | .sxth c rd rotate rm => c.bits ++ 0x6bf#12 ++ rd ++ rotate ++ 0x7#6 ++ rm
  | .movw c imm4 rd imm12 => c.bits ++ 0x30#8 ++ imm4 ++ rd ++ imm12
  | .movt c imm4 rd imm12 => c.bits ++ 0x34#8 ++ imm4 ++ rd ++ imm12
  | .andImm c s rn rd rotate imm8 => c.bits ++ 0x10#7 ++ BitVec.ofBool s ++ rn ++ rd ++ rotate ++ imm8
  | .andReg c s rn rd imm5 ty rm => c.bits ++ 0x0#7 ++ BitVec.ofBool s ++ rn ++ rd ++ imm5 ++ ty.bits ++ 0x0#1 ++ rm
  | .andRsr c s rn rd rs ty rm => c.bits ++ 0x0#7 ++ BitVec.ofBool s ++ rn ++ rd ++ rs ++ 0x0#1 ++ ty.bits ++ 0x1#1 ++ rm
  | .eorImm c s rn rd rotate imm8 => c.bits ++ 0x11#7 ++ BitVec.ofBool s ++ rn ++ rd ++ rotate ++ imm8
  | .eorReg c s rn rd imm5 ty rm => c.bits ++ 0x1#7 ++ BitVec.ofBool s ++ rn ++ rd ++ imm5 ++ ty.bits ++ 0x0#1 ++ rm
  | .eorRsr c s rn rd rs ty rm => c.bits ++ 0x1#7 ++ BitVec.ofBool s ++ rn ++ rd ++ rs ++ 0x0#1 ++ ty.bits ++ 0x1#1 ++ rm
  | .subImm c s rn rd rotate imm8 => c.bits ++ 0x12#7 ++ BitVec.ofBool s ++ rn ++ rd ++ rotate ++ imm8
  | .subReg c s rn rd imm5 ty rm => c.bits ++ 0x2#7 ++ BitVec.ofBool s ++ rn ++ rd ++ imm5 ++ ty.bits ++ 0x0#1 ++ rm
  | .subRsr c s rn rd rs ty rm => c.bits ++ 0x2#7 ++ BitVec.ofBool s ++ rn ++ rd ++ rs ++ 0x0#1 ++ ty.bits ++ 0x1#1 ++ rm
  | .rsbImm c s rn rd rotate imm8 => c.bits ++ 0x13#7 ++ BitVec.ofBool s ++ rn ++ rd ++ rotate ++ imm8
  | .rsbReg c s rn rd imm5 ty rm => c.bits ++ 0x3#7 ++ BitVec.ofBool s ++ rn ++ rd ++ imm5 ++ ty.bits ++ 0x0#1 ++ rm
  | .rsbRsr c s rn rd rs ty rm => c.bits ++ 0x3#7 ++ BitVec.ofBool s ++ rn ++ rd ++ rs ++ 0x0#1 ++ ty.bits ++ 0x1#1 ++ rm
  | .addImm c s rn rd rotate imm8 => c.bits ++ 0x14#7 ++ BitVec.ofBool s ++ rn ++ rd ++ rotate ++ imm8
  | .addReg c s rn rd imm5 ty rm => c.bits ++ 0x4#7 ++ BitVec.ofBool s ++ rn ++ rd ++ imm5 ++ ty.bits ++ 0x0#1 ++ rm
  | .addRsr c s rn rd rs ty rm => c.bits ++ 0x4#7 ++ BitVec.ofBool s ++ rn ++ rd ++ rs ++ 0x0#1 ++ ty.bits ++ 0x1#1 ++ rm
  | .adcImm c s rn rd rotate imm8 => c.bits ++ 0x15#7 ++ BitVec.ofBool s ++ rn ++ rd ++ rotate ++ imm8
  | .adcReg c s rn rd imm5 ty rm => c.bits ++ 0x5#7 ++ BitVec.ofBool s ++ rn ++ rd ++ imm5 ++ ty.bits ++ 0x0#1 ++ rm
  | .adcRsr c s rn rd rs ty rm => c.bits ++ 0x5#7 ++ BitVec.ofBool s ++ rn ++ rd ++ rs ++ 0x0#1 ++ ty.bits ++ 0x1#1 ++ rm
  | .sbcImm c s rn rd rotate imm8 => c.bits ++ 0x16#7 ++ BitVec.ofBool s ++ rn ++ rd ++ rotate ++ imm8
  | .sbcReg c s rn rd imm5 ty rm => c.bits ++ 0x6#7 ++ BitVec.ofBool s ++ rn ++ rd ++ imm5 ++ ty.bits ++ 0x0#1 ++ rm
  | .sbcRsr c s rn rd rs ty rm => c.bits ++ 0x6#7 ++ BitVec.ofBool s ++ rn ++ rd ++ rs ++ 0x0#1 ++ ty.bits ++ 0x1#1 ++ rm
  | .rscImm c s rn rd rotate imm8 => c.bits ++ 0x17#7 ++ BitVec.ofBool s ++ rn ++ rd ++ rotate ++ imm8
  | .rscReg c s rn rd imm5 ty rm => c.bits ++ 0x7#7 ++ BitVec.ofBool s ++ rn ++ rd ++ imm5 ++ ty.bits ++ 0x0#1 ++ rm
  | .rscRsr c s rn rd rs ty rm => c.bits ++ 0x7#7 ++ BitVec.ofBool s ++ rn ++ rd ++ rs ++ 0x0#1 ++ ty.bits ++ 0x1#1 ++ rm
  | .tstImm c rn sbz rotate imm8 => c.bits ++ 0x31#8 ++ rn ++ sbz ++ rotate ++ imm8
  | .tstReg c rn sbz imm5 ty rm => c.bits ++ 0x11#8 ++ rn ++ sbz ++ imm5 ++ ty.bits ++ 0x0#1 ++ rm
  | .tstRsr c rn sbz rs ty rm => c.bits ++ 0x11#8 ++ rn ++ sbz ++ rs ++ 0x0#1 ++ ty.bits ++ 0x1#1 ++ rm
  | .teqImm c rn sbz rotate imm8 => c.bits ++ 0x33#8 ++ rn ++ sbz ++ rotate ++ imm8
  | .teqReg c rn sbz imm5 ty rm => c.bits ++ 0x13#8 ++ rn ++ sbz ++ imm5 ++ ty.bits ++ 0x0#1 ++ rm
  | .teqRsr c rn sbz rs ty rm => c.bits ++ 0x13#8 ++ rn ++ sbz ++ rs ++ 0x0#1 ++ ty.bits ++ 0x1#1 ++ rm
  | .cmpImm c rn sbz rotate imm8 => c.bits ++ 0x35#8 ++ rn ++ sbz ++ rotate ++ imm8
  | .cmpReg c rn sbz imm5 ty rm => c.bits ++ 0x15#8 ++ rn ++ sbz ++ imm5 ++ ty.bits ++ 0x0#1 ++ rm
  | .cmpRsr c rn sbz rs ty rm => c.bits ++ 0x15#8 ++ rn ++ sbz ++ rs ++ 0x0#1 ++ ty.bits ++ 0x1#1 ++ rm
  | .cmnImm c rn sbz rotate imm8 => c.bits ++ 0x37#8 ++ rn ++ sbz ++ rotate ++ imm8
  | .cmnReg c rn sbz imm5 ty rm => c.bits ++ 0x17#8 ++ rn ++ sbz ++ imm5 ++ ty.bits ++ 0x0#1 ++ rm
  | .cmnRsr c rn sbz rs ty rm => c.bits ++ 0x17#8 ++ rn ++ sbz ++ rs ++ 0x0#1 ++ ty.bits ++ 0x1#1 ++ rm
  | .orrImm c s rn rd rotate imm8 => c.bits ++ 0x1c#7 ++ BitVec.ofBool s ++ rn ++ rd ++ rotate ++ imm8
  | .orrReg c s rn rd imm5 ty rm => c.bits ++ 0xc#7 ++ BitVec.ofBool s ++ rn ++ rd ++ imm5 ++ ty.bits ++ 0x0#1 ++ rm
  | .orrRsr c s rn rd rs ty rm => c.bits ++ 0xc#7 ++ BitVec.ofBool s ++ rn ++ rd ++ rs ++ 0x0#1 ++ ty.bits ++ 0x1#1 ++ rm
  | .movImm c s sbz rd rotate imm8 => c.bits ++ 0x1d#7 ++ BitVec.ofBool s ++ sbz ++ rd ++ rotate ++ imm8
  | .movReg c s rd rm => c.bits ++ 0xd#7 ++ BitVec.ofBool s ++ 0x0#4 ++ rd ++ 0x0#8 ++ rm
  | .rrx c s rd rm => c.bits ++ 0xd#7 ++ BitVec.ofBool s ++ 0x0#4 ++ rd ++ 0x6#8 ++ rm
  | .lslImm c s rd imm5 rm => c.bits ++ 0xd#7 ++ BitVec.ofBool s ++ 0x0#4 ++ rd ++ imm5 ++ 0x0#3 ++ rm
  | .lsrImm c s rd imm5 rm => c.bits ++ 0xd#7 ++ BitVec.ofBool s ++ 0x0#4 ++ rd ++ imm5 ++ 0x2#3 ++ rm
  | .asrImm c s rd imm5 rm => c.bits ++ 0xd#7 ++ BitVec.ofBool s ++ 0x0#4 ++ rd ++ imm5 ++ 0x4#3 ++ rm
  | .rorImm c s rd imm5 rm => c.bits ++ 0xd#7 ++ BitVec.ofBool s ++ 0x0#4 ++ rd ++ imm5 ++ 0x6#3 ++ rm
  | .lslReg c s rd rs rm => c.bits ++ 0xd#7 ++ BitVec.ofBool s ++ 0x0#4 ++ rd ++ rs ++ 0x1#4 ++ rm
  | .lsrReg c s rd rs rm => c.bits ++ 0xd#7 ++ BitVec.ofBool s ++ 0x0#4 ++ rd ++ rs ++ 0x3#4 ++ rm
  | .asrReg c s rd rs rm => c.bits ++ 0xd#7 ++ BitVec.ofBool s ++ 0x0#4 ++ rd ++ rs ++ 0x5#4 ++ rm
  | .rorReg c s rd rs rm => c.bits ++ 0xd#7 ++ BitVec.ofBool s ++ 0x0#4 ++ rd ++ rs ++ 0x7#4 ++ rm
  | .bicImm c s rn rd rotate imm8 => c.bits ++ 0x1e#7 ++ BitVec.ofBool s ++ rn ++ rd ++ rotate ++ imm8
  | .bicReg c s rn rd imm5 ty rm => c.bits ++ 0xe#7 ++ BitVec.ofBool s ++ rn ++ rd ++ imm5 ++ ty.bits ++ 0x0#1 ++ rm
  | .bicRsr c s rn rd rs ty rm => c.bits ++ 0xe#7 ++ BitVec.ofBool s ++ rn ++ rd ++ rs ++ 0x0#1 ++ ty.bits ++ 0x1#1 ++ rm
  | .mvnImm c s sbz rd rotate imm8 => c.bits ++ 0x1f#7 ++ BitVec.ofBool s ++ sbz ++ rd ++ rotate ++ imm8
  | .mvnReg c s sbz rd imm5 ty rm => c.bits ++ 0xf#7 ++ BitVec.ofBool s ++ sbz ++ rd ++ imm5 ++ ty.bits ++ 0x0#1 ++ rm
  | .mvnRsr c s sbz rd rs ty rm => c.bits ++ 0xf#7 ++ BitVec.ofBool s ++ sbz ++ rd ++ rs ++ 0x0#1 ++ ty.bits ++ 0x1#1 ++ rm
  | .ldrImm c p u w rn rt imm12 => c.bits ++ 0x2#3 ++ BitVec.ofBool p ++ BitVec.ofBool u ++ 0x0#1 ++ BitVec.ofBool w ++ 0x1#1 ++ rn ++ rt ++ imm12
  | .ldrReg c p u w rn rt imm5 ty rm => c.bits ++ 0x3#3 ++ BitVec.ofBool p ++ BitVec.ofBool u ++ 0x0#1 ++ BitVec.ofBool w ++ 0x1#1 ++ rn ++ rt ++ imm5 ++ ty.bits ++ 0x0#1 ++ rm
  | .strImm c p u w rn rt imm12 => c.bits ++ 0x2#3 ++ BitVec.ofBool p ++ BitVec.ofBool u ++ 0x0#1 ++ BitVec.ofBool w ++ 0x0#1 ++ rn ++ rt ++ imm12
  | .strReg c p u w rn rt imm5 ty rm => c.bits ++ 0x3#3 ++ BitVec.ofBool p ++ BitVec.ofBool u ++ 0x0#1 ++ BitVec.ofBool w ++ 0x0#1 ++ rn ++ rt ++ imm5 ++ ty.bits ++ 0x0#1 ++ rm
  | .ldrbImm c p u w rn rt imm12 => c.bits ++ 0x2#3 ++ BitVec.ofBool p ++ BitVec.ofBool u ++ 0x1#1 ++ BitVec.ofBool w ++ 0x1#1 ++ rn ++ rt ++ imm12
  | .ldrbReg c p u w rn rt imm5 ty rm => c.bits ++ 0x3#3 ++ BitVec.ofBool p ++ BitVec.ofBool u ++ 0x1#1 ++ BitVec.ofBool w ++ 0x1#1 ++ rn ++ rt ++ imm5 ++ ty.bits ++ 0x0#1 ++ rm
  | .strbImm c p u w rn rt imm12 => c.bits ++ 0x2#3 ++ BitVec.ofBool p ++ BitVec.ofBool u ++ 0x1#1 ++ BitVec.ofBool w ++ 0x0#1 ++ rn ++ rt ++ imm12
  | .strbReg c p u w rn rt imm5 ty rm => c.bits ++ 0x3#3 ++ BitVec.ofBool p ++ BitVec.ofBool u ++ 0x1#1 ++ BitVec.ofBool w ++ 0x0#1 ++ rn ++ rt ++ imm5 ++ ty.bits ++ 0x0#1 ++ rm
  | .pop c regs => c.bits ++ 0x8bd#12 ++ regs
  | .push c regs => c.bits ++ 0x92d#12 ++ regs
  | .ldm c p u s w rn regs => c.bits ++ 0x4#3 ++ BitVec.ofBool p ++ BitVec.ofBool u ++ BitVec.ofBool s ++ BitVec.ofBool w ++ 0x1#1 ++ rn ++ regs
  | .stm c p u s w rn regs => c.bits ++ 0x4#3 ++ BitVec.ofBool p ++ BitVec.ofBool u ++ BitVec.ofBool s ++ BitVec.ofBool w ++ 0x0#1 ++ rn ++ regs
  | .b c imm24 => c.bits ++ 0xa#4 ++ imm24
  | .bl c imm24 => c.bits ++ 0xb#4 ++ imm24
  | .svc c imm24 => c.bits ++ 0xf#4 ++ imm24
  | .vmrs c reg rt => c.bits ++ 0xef#8 ++ reg ++ rt ++ 0xa10#12
  | .vmsr c reg rt => c.bits ++ 0xee#8 ++ reg ++ rt ++ 0xa10#12
  | .vmrsVmsrSbz c l reg rt sbz sbz1 => c.bits ++ 0x77#7 ++ BitVec.ofBool l ++ reg ++ rt ++ 0xa#4 ++ sbz ++ 0x1#1 ++ sbz1
  | .mrcP15 c opc1 crn rt opc2 crm => c.bits ++ 0xe#4 ++ opc1 ++ 0x1#1 ++ crn ++ rt ++ 0xf#4 ++ opc2 ++ 0x1#1 ++ crm
  | .mcrP15 c opc1 crn rt opc2 crm => c.bits ++ 0xe#4 ++ opc1 ++ 0x0#1 ++ crn ++ rt ++ 0xf#4 ++ opc2 ++ 0x1#1 ++ crm
  | .mrcP14 c opc1 crn rt opc2 crm => c.bits ++ 0xe#4 ++ opc1 ++ 0x1#1 ++ crn ++ rt ++ 0xe#4 ++ opc2 ++ 0x1#1 ++ crm
  | .mcrP14 c opc1 crn rt opc2 crm => c.bits ++ 0xe#4 ++ opc1 ++ 0x0#1 ++ crn ++ rt ++ 0xe#4 ++ opc2 ++ 0x1#1 ++ crm
  | .vmla c d vn vd sz n m vm => c.bits ++ 0x1c#5 ++ BitVec.ofBool d ++ 0x0#2 ++ vn ++ vd ++ 0x5#3 ++ BitVec.ofBool sz ++ BitVec.ofBool n ++ 0x0#1 ++ BitVec.ofBool m ++ 0x0#1 ++ vm
  | .vmls c d vn vd sz n m vm => c.bits ++ 0x1c#5 ++ BitVec.ofBool d ++ 0x0#2 ++ vn ++ vd ++ 0x5#3 ++ BitVec.ofBool sz ++ BitVec.ofBool n ++ 0x1#1 ++ BitVec.ofBool m ++ 0x0#1 ++ vm
  | .vnmls c d vn vd sz n m vm => c.bits ++ 0x1c#5 ++ BitVec.ofBool d ++ 0x1#2 ++ vn ++ vd ++ 0x5#3 ++ BitVec.ofBool sz ++ BitVec.ofBool n ++ 0x0#1 ++ BitVec.ofBool m ++ 0x0#1 ++ vm
  | .vnmla c d vn vd sz n m vm => c.bits ++ 0x1c#5 ++ BitVec.ofBool d ++ 0x1#2 ++ vn ++ vd ++ 0x5#3 ++ BitVec.ofBool sz ++ BitVec.ofBool n ++ 0x1#1 ++ BitVec.ofBool m ++ 0x0#1 ++ vm
  | .vmul c d vn vd sz n m vm => c.bits ++ 0x1c#5 ++ BitVec.ofBool d ++ 0x2#2 ++ vn ++ vd ++ 0x5#3 ++ BitVec.ofBool sz ++ BitVec.ofBool n ++ 0x0#1 ++ BitVec.ofBool m ++ 0x0#1 ++ vm
  | .vnmul c d vn vd sz n m vm => c.bits ++ 0x1c#5 ++ BitVec.ofBool d ++ 0x2#2 ++ vn ++ vd ++ 0x5#3 ++ BitVec.ofBool sz ++ BitVec.ofBool n ++ 0x1#1 ++ BitVec.ofBool m ++ 0x0#1 ++ vm
  | .vadd c d vn vd sz n m vm => c.bits ++ 0x1c#5 ++ BitVec.ofBool d ++ 0x3#2 ++ vn ++ vd ++ 0x5#3 ++ BitVec.ofBool sz ++ BitVec.ofBool n ++ 0x0#1 ++ BitVec.ofBool m ++ 0x0#1 ++ vm
  | .vsub c d vn vd sz n m vm => c.bits ++ 0x1c#5 ++ BitVec.ofBool d ++ 0x3#2 ++ vn ++ vd ++ 0x5#3 ++ BitVec.ofBool sz ++ BitVec.ofBool n ++ 0x1#1 ++ BitVec.ofBool m ++ 0x0#1 ++ vm
  | .vdiv c d vn vd sz n m vm => c.bits ++ 0x1d#5 ++ BitVec.ofBool d ++ 0x0#2 ++ vn ++ vd ++ 0x5#3 ++ BitVec.ofBool sz ++ BitVec.ofBool n ++ 0x0#1 ++ BitVec.ofBool m ++ 0x0#1 ++ vm
  | .vmovImm c d imm4H vd sz sbz sbz1 imm4L => c.bits ++ 0x1d#5 ++ BitVec.ofBool d ++ 0x3#2 ++ imm4H ++ vd ++ 0x5#3 ++ BitVec.ofBool sz ++ BitVec.ofBool sbz ++ 0x0#1 ++ BitVec.ofBool sbz1 ++ 0x0#1 ++ imm4L
  | .vmovReg c d vd sz m vm => c.bits ++ 0x1d#5 ++ BitVec.ofBool d ++ 0x30#6 ++ vd ++ 0x5#3 ++ BitVec.ofBool sz ++ 0x1#2 ++ BitVec.ofBool m ++ 0x0#1 ++ vm
  | .vabs c d vd sz m vm => c.bits ++ 0x1d#5 ++ BitVec.ofBool d ++ 0x30#6 ++ vd ++ 0x5#3 ++ BitVec.ofBool sz ++ 0x3#2 ++ BitVec.ofBool m ++ 0x0#1 ++ vm
  | .vneg c d vd sz m vm => c.bits ++ 0x1d#5 ++ BitVec.ofBool d ++ 0x31#6 ++ vd ++ 0x5#3 ++ BitVec.ofBool sz ++ 0x1#2 ++ BitVec.ofBool m ++ 0x0#1 ++ vm
  | .vsqrt c d vd sz m vm => c.bits ++ 0x1d#5 ++ BitVec.ofBool d ++ 0x31#6 ++ vd ++ 0x5#3 ++ BitVec.ofBool sz ++ 0x3#2 ++ BitVec.ofBool m ++ 0x0#1 ++ vm
  | .vcvtbVcvtt c d op vd t m vm => c.bits ++ 0x1d#5 ++ BitVec.ofBool d ++ 0x19#5 ++ BitVec.ofBool op ++ vd ++ 0xa#4 ++ BitVec.ofBool t ++ 0x1#1 ++ BitVec.ofBool m ++ 0x0#1 ++ vm
  | .vcmpReg c d vd sz e m vm => c.bits ++ 0x1d#5 ++ BitVec.ofBool d ++ 0x34#6 ++ vd ++ 0x5#3 ++ BitVec.ofBool sz ++ BitVec.ofBool e ++ 0x1#1 ++ BitVec.ofBool m ++ 0x0#1 ++ vm
  | .vcmpZero c d vd sz e sbz sbz1 => c.bits ++ 0x1d#5 ++ BitVec.ofBool d ++ 0x35#6 ++ vd ++ 0x5#3 ++ BitVec.ofBool sz ++ BitVec.ofBool e ++ 0x1#1 ++ BitVec.ofBool sbz ++ 0x0#1 ++ sbz1
  | .vcvtDoubleSingle c d vd sz m vm => c.bits ++ 0x1d#5 ++ BitVec.ofBool d ++ 0x37#6 ++ vd ++ 0x5#3 ++ BitVec.ofBool sz ++ 0x3#2 ++ BitVec.ofBool m ++ 0x0#1 ++ vm
  | .vcvtIntToFp c d vd sz op m vm => c.bits ++ 0x1d#5 ++ BitVec.ofBool d ++ 0x38#6 ++ vd ++ 0x5#3 ++ BitVec.ofBool sz ++ BitVec.ofBool op ++ 0x1#1 ++ BitVec.ofBool m ++ 0x0#1 ++ vm
  | .vcvtFpToInt c d sgn vd sz op m vm => c.bits ++ 0x1d#5 ++ BitVec.ofBool d ++ 0x1e#5 ++ BitVec.ofBool sgn ++ vd ++ 0x5#3 ++ BitVec.ofBool sz ++ BitVec.ofBool op ++ 0x1#1 ++ BitVec.ofBool m ++ 0x0#1 ++ vm
  | .vcvtFixed c d op u vd sf sx i imm4 => c.bits ++ 0x1d#5 ++ BitVec.ofBool d ++ 0x7#3 ++ BitVec.ofBool op ++ 0x1#1 ++ BitVec.ofBool u ++ vd ++ 0x5#3 ++ BitVec.ofBool sf ++ BitVec.ofBool sx ++ 0x1#1 ++ BitVec.ofBool i ++ 0x0#1 ++ imm4
  | .vldr c u d rn vd sz imm8 => c.bits ++ 0xd#4 ++ BitVec.ofBool u ++ BitVec.ofBool d ++ 0x1#2 ++ rn ++ vd ++ 0x5#3 ++ BitVec.ofBool sz ++ imm8
  | .vstr c u d rn vd sz imm8 => c.bits ++ 0xd#4 ++ BitVec.ofBool u ++ BitVec.ofBool d ++ 0x0#2 ++ rn ++ vd ++ 0x5#3 ++ BitVec.ofBool sz ++ imm8
  | .vpop c d vd sz imm8 => c.bits ++ 0x19#5 ++ BitVec.ofBool d ++ 0x3d#6 ++ vd ++ 0x5#3 ++ BitVec.ofBool sz ++ imm8
  | .vpush c d vd sz imm8 => c.bits ++ 0x1a#5 ++ BitVec.ofBool d ++ 0x2d#6 ++ vd ++ 0x5#3 ++ BitVec.ofBool sz ++ imm8
  | .vldmIa c d w rn vd sz imm8 => c.bits ++ 0x19#5 ++ BitVec.ofBool d ++ BitVec.ofBool w ++ 0x1#1 ++ rn ++ vd ++ 0x5#3 ++ BitVec.ofBool sz ++ imm8
  | .vldmDb c d rn vd sz imm8 => c.bits ++ 0x1a#5 ++ BitVec.ofBool d ++ 0x3#2 ++ rn ++ vd ++ 0x5#3 ++ BitVec.ofBool sz ++ imm8
  | .vstmIa c d w rn vd sz imm8 => c.bits ++ 0x19#5 ++ BitVec.ofBool d ++ BitVec.ofBool w ++ 0x0#1 ++ rn ++ vd ++ 0x5#3 ++ BitVec.ofBool sz ++ imm8
  | .vstmDb c d rn vd sz imm8 => c.bits ++ 0x1a#5 ++ BitVec.ofBool d ++ 0x2#2 ++ rn ++ vd ++ 0x5#3 ++ BitVec.ofBool sz ++ imm8
  | .vmovCoreSingle c l vn rt n sbz sbz1 => c.bits ++ 0x70#7 ++ BitVec.ofBool l ++ vn ++ rt ++ 0xa#4 ++ BitVec.ofBool n ++ sbz ++ 0x1#1 ++ sbz1
  | .vmovCoreTwoSingles c l rt2 rt m vm => c.bits ++ 0x62#7 ++ BitVec.ofBool l ++ rt2 ++ rt ++ 0x28#6 ++ BitVec.ofBool m ++ 0x1#1 ++ vm
  | .vmovCoreDouble c l rt2 rt m vm => c.bits ++ 0x62#7 ++ BitVec.ofBool l ++ rt2 ++ rt ++ 0x2c#6 ++ BitVec.ofBool m ++ 0x1#1 ++ vm
  | .vmovCoreToHalf c x vd rt d sbz => c.bits ++ 0x38#6 ++ BitVec.ofBool x ++ 0x0#1 ++ vd ++ rt ++ 0xb#4 ++ BitVec.ofBool d ++ 0x1#3 ++ sbz
  | .vmovHalfToCore c x vn rt n sbz => c.bits ++ 0x38#6 ++ BitVec.ofBool x ++ 0x1#1 ++ vn ++ rt ++ 0xb#4 ++ BitVec.ofBool n ++ 0x1#3 ++ sbz
  | .vfpUnallocated c rest rest1 => c.bits ++ 0x3#2 ++ rest ++ 0x5#3 ++ rest1
  | .otherCoproc c rest coproc rest1 => c.bits ++ 0x3#2 ++ rest ++ coproc ++ rest1

/-- The instruction the decoder reads from an instruction whose `nbits` low bits are `w`, numbered as
spec/opcode_table.json numbers them; the bits above `nbits` are 0. -/
def decodeTableWord (nbits w : Nat) : Option Instr :=
  match decodeBytes (bytesOfWord (BitVec.ofNat 32 (w % 2 ^ nbits))) with
  | .ok (i, _) => some i
  | .error _ => none

end Sys2Proof
end

