-- ==== Sys2Proof/Config.lean ====
section
/-! DEFINITION. What an implementation fixes: the build options and the pins sampled at reset (00_scope.md R10), and the
values the spec leaves open, as constants without a body (free values: nothing can be proved of them). -/

namespace Sys2Proof

/-- The size of a TCM or of a cache as a number of bytes, `none` for absent (00_scope.md R10). -/
inductive RamSize where
  | none | kb4 | kb8 | kb16 | kb32 | kb64 | kb128
  deriving DecidableEq, Repr

/-- The size of a cache that is built (00_scope.md R10): 4KB to 64KB. -/
inductive CacheSize where
  | kb4 | kb8 | kb16 | kb32 | kb64
  deriving DecidableEq, Repr

/-- A cache size among the RAM sizes. -/
def CacheSize.ram : CacheSize → RamSize
  | .kb4 => .kb4 | .kb8 => .kb8 | .kb16 => .kb16 | .kb32 => .kb32 | .kb64 => .kb64

/-- The two caches of a processor. The build has both or neither (00_scope.md R10). -/
structure Caches where
  instruction : CacheSize
  data : CacheSize
  deriving DecidableEq, Repr

/-- What a tightly-coupled memory's RAM covers (21_mpu_tcm.md R383): the declared size is the size field of its region
register; a physical RAM of fewer bytes leaves a hole, which aliases the RAM or reads as zero (TCM_HOLE_READS, U33). -/
structure TcmBuild where
  size : RamSize
  bytes : Nat
  holeAliases : Bool
  deriving DecidableEq, Repr

/-- The reset signals of one processor of the cluster and of what the cluster shares, true for asserted
(70_reset_and_hazards.md R832), those of the other processor whose registers the debug window reaches, and whether the power
of the processor's RAMs was removed with its own (65_power_mp.md R801, R807). -/
structure Resets where
  cpu : Bool
  dbg : Bool
  periph : Bool
  scu : Bool
  wd : Bool
  otherCpu : Bool
  otherDbg : Bool
  ramsLost : Bool
  deriving DecidableEq, Repr

/-- No reset asserted. -/
def Resets.none : Resets := ⟨false, false, false, false, false, false, false, false⟩

/-- The supported reset combinations, the columns of Table 2-1 (70_reset_and_hazards.md R833). The individual ones may
assert nWDRESET too, where `wd` says so. -/
inductive ResetCombo where
  | mpcorePowerup | mpcoreSoftware
  | individualPowerup (wd : Bool) | individualSoftware (wd : Bool)
  | mpcoreDebug | individualDebug | watchdogFlag
  deriving DecidableEq, Repr

/-- The signals a combination asserts at the processor that receives the reset (70_reset_and_hazards.md R833). Only the
MPCore power-up reset comes with RAMs that held no data. -/
def ResetCombo.signals : ResetCombo → Resets
  | .mpcorePowerup => ⟨true, true, true, true, true, true, true, true⟩
  | .mpcoreSoftware => ⟨true, false, true, true, true, true, false, false⟩
  | .individualPowerup wd => ⟨true, true, false, false, wd, false, false, false⟩
  | .individualSoftware wd => ⟨true, false, false, false, wd, false, false, false⟩
  | .mpcoreDebug => ⟨false, true, false, false, false, false, true, false⟩
  | .individualDebug => ⟨false, true, false, false, false, false, false, false⟩
  | .watchdogFlag => ⟨false, false, false, false, true, false, false, false⟩

/-- The FPU build option (12_fpu_registers.md R200). -/
inductive FpuKind where
  | none | single | double
  deriving DecidableEq, Repr

/-- The AXI ports a processor's accesses leave on (20_memory.md R290 to R292). -/
inductive Port where
  | master0 | master1 | peripheral
  deriving DecidableEq, Repr

/-- A range of addresses, both ends included, whose accesses on one port, or on any, the platform answers with an error
response (20_memory.md R295, R311): SLVERR if `slverr`, else DECERR. -/
structure ErrRange where
  first : Nat
  last : Nat
  port : Option Port
  slverr : Bool
  deriving DecidableEq, Repr

/-- The build options and the pins sampled at reset (00_scope.md R10), and what the platform fixes.
Options that change nothing a program can see (lock-step, BTAC and PRED sizes, ACP, TCM slave port, ETM, MRP, AXI ID
widths, P_STAR, bus parity, the PERIPHCLK ratio) have no field. -/
structure Config where
  /-- NUM_CPUS = 2. -/
  twoCpus : Bool
  /-- The number of the processor modelled: false is 0, true is 1. -/
  cpu : Bool
  /-- ICACHE_SIZE and DCACHE_SIZE. -/
  caches : Option Caches
  /-- ITCM_SIZE. -/
  itcmBuild : Option TcmBuild
  /-- DTCM_SIZE. -/
  dtcmBuild : Option TcmBuild
  /-- ECC present. -/
  ecc : Bool
  fpu : FpuKind
  /-- MPU_REGIONS = 16, else 12. -/
  mpu16 : Bool
  /-- AXI_MASTERS = 2. -/
  axiMaster1 : Bool
  /-- NUM_SPI / 32. -/
  spiBlocks : BitVec 4
  clusterId : BitVec 4
  /-- PERIPHBASE[31:13]. -/
  periphBase : BitVec 19
  cfgend : Bool
  cfgnmfi : Bool
  teinit : Bool
  vinithi : Bool
  initram : Bool
  itcmeccen : Bool
  mfilterEn : Bool
  mfilterStart : BitVec 12
  mfilterEnd : BitVec 12
  pfilterStart : BitVec 12
  pfilterEnd : BitVec 12
  /-- REVIDR_VALUE (92_eei_decisions.md D12). -/
  revidr : Word
  /-- GIC_ENABLE0_RESET (92_eei_decisions.md D41). -/
  gicEnable0 : Word
  /-- SCU_CTRL_RESET_OTHER: bits [15:12], [6], [5], [3] of SCU Control at reset (92_eei_decisions.md D30). -/
  scuCtrlOther : Word
  /-- GIC_DIST_PERIPH_ID: the bytes at 0xFD0 to 0xFFC of the distributor (92_eei_decisions.md D46). -/
  gicIdBytes : List Byte
  /-- DCACHE_SIZE of the other processor (61_scu.md R587). -/
  otherDcache : Option CacheSize
  /-- ITCM_SIZE of the other processor, which its debug and PMU blocks show (64_debug_pmu.md R736, R751). -/
  otherItcmBuild : Option TcmBuild
  /-- DTCM_SIZE of the other processor. -/
  otherDtcmBuild : Option TcmBuild
  /-- Whether the platform has a global exclusive monitor (20_memory.md R285). -/
  globalMonitor : Bool
  /-- Addresses whose bus accesses get an error response. -/
  errRanges : List ErrRange
  /-- DBGROMADDR[31:12]: the base of the debug blocks in the address map (64_debug_pmu.md R770). -/
  dbgRomAddr : BitVec 20
  /-- DBGSELFADDR[31:15]: the offset from there to the processor's own blocks (64_debug_pmu.md R770). -/
  dbgSelfAddr : BitVec 17
  /-- DBGSELFADDRV: the platform lets the processors reach the debug blocks (64_debug_pmu.md R770). -/
  dbgSelfAddrV : Bool
  /-- WDRESET_POLICY: the reset the platform answers WDRESETREQ with, if any (70_reset_and_hazards.md R839, D52). -/
  wdResetPolicy : Option ResetCombo
  deriving DecidableEq, Repr

/-- The size of the instruction cache. -/
def Config.icache (c : Config) : RamSize := match c.caches with
  | some k => k.instruction.ram
  | none => .none

/-- The size of the data cache. -/
def Config.dcache (c : Config) : RamSize := match c.caches with
  | some k => k.data.ram
  | none => .none

/-- The declared size of the ITCM. -/
def Config.itcm (c : Config) : RamSize := match c.itcmBuild with
  | some k => k.size
  | none => .none

/-- The declared size of the DTCM. -/
def Config.dtcm (c : Config) : RamSize := match c.dtcmBuild with
  | some k => k.size
  | none => .none

/-- A TCM of 64KB whose RAM covers its region. -/
def TcmBuild.full64 : TcmBuild := ⟨.kb64, 65536, false⟩

/-- The build the model resets to (log entry 1): one of the choices 00_scope.md R10 allows, with the parameter values the
test vectors of 95_test_vectors.md name and the defaults of 92_eei_decisions.md. -/
def Config.default : Config where
  twoCpus := true
  cpu := false
  caches := some ⟨.kb32, .kb32⟩
  itcmBuild := some .full64
  dtcmBuild := some .full64
  ecc := false
  fpu := .double
  mpu16 := true
  axiMaster1 := false
  spiBlocks := 1
  clusterId := 0
  periphBase := 0x57000
  cfgend := false
  cfgnmfi := false
  teinit := false
  vinithi := false
  initram := false
  itcmeccen := false
  mfilterEn := false
  mfilterStart := 0
  mfilterEnd := 0
  pfilterStart := 0xAE0
  pfilterEnd := 0xAEF
  revidr := 0
  gicEnable0 := 0x0000FFFF
  scuCtrlOther := 0
  gicIdBytes := [0x04, 0x00, 0x00, 0x00, 0xB7, 0xB9, 0x0B, 0x00, 0x0D, 0x90, 0x05, 0xB1]
  otherDcache := some .kb32
  otherItcmBuild := some .full64
  otherDtcmBuild := some .full64
  globalMonitor := true
  errRanges := []
  dbgRomAddr := 0x9FFC0
  dbgSelfAddr := 0x00002
  dbgSelfAddrV := true
  wdResetPolicy := none

/-- A word the spec leaves open, numbered by the machine's counter of free values (00_scope.md R15 "any value"). -/
opaque Config.freeWord : Nat → Word

/-- A choice between two outcomes the spec leaves open, numbered the same way. -/
opaque Config.freeBool : Nat → Bool

/-- A cache way the hardware picks: the replacement policy is not stated (91_not_in_source.md N20-6). -/
opaque Config.freeWay : Nat → BitVec 2

/-- The one way that ACTLR[8] restricts allocation to (11_cp15_registers.md R131). -/
opaque Config.allocWay : BitVec 2

/-- Whether an access, at a count of free values and an address, leaves on AXI master port 1 while both master ports are there
and the filtering is off (20_memory.md R291: the hardware's choice). -/
opaque Config.freePort : Nat → Word → Bool

/-- How many PERIPHCLK edges fall in one step (63_timers.md R691; no bound is given). -/
opaque Config.freeTicks : Nat → Nat

/-- How many times an engine that acts on its own does so in one step (20_memory.md R255, R278; no bound is given). -/
opaque Config.freeTimes : Nat → Nat

/-- How far a PMU counter advances in one step (64_debug_pmu.md R738, 93_implementation_defined.md U51). -/
opaque Config.freeCount : Nat → Word

/-- The levels of PMUEVENT[47:0], which depend on timing, at a count of free values (64_debug_pmu.md R737, R738). -/
opaque Config.freeEvents : Nat → BitVec 48

/-- The 7 check bits of a 32-bit word of the data cache or the DTCM (20_memory.md R260): the check matrices are not in the
source (91_not_in_source.md N20-7). -/
opaque Config.eccCode32 : BitVec 32 → BitVec 7

/-- The 8 check bits of a 64-bit doubleword of the instruction cache or the ITCM (20_memory.md R260). -/
opaque Config.eccCode64 : BitVec 64 → BitVec 8

/-- The 7 check bits of a data cache tag word with the index it stands at (20_memory.md R260: 25 bits and 9). -/
opaque Config.eccDataTag : BitVec 29 → BitVec 9 → BitVec 7

/-- The 7 check bits of an instruction cache tag word with its index (20_memory.md R260: 23 bits and 5). -/
opaque Config.eccInstructionTag : BitVec 29 → BitVec 9 → BitVec 7

/-- The 7 check bits of an entry of the SCU's duplicate tag RAM with its index (20_memory.md R260: 23 bits and 5). -/
opaque Config.eccScuTag : BitVec 29 → BitVec 9 → BitVec 7

/-- CCSIDR of a cache that is not built: one value, the same at each read (11_cp15_registers.md R111, D1), for the
instruction cache if the argument is true. -/
opaque Config.ccsidrUnbuilt : Bool → Word

/-- The words of the debug ROM table, whose contents the source does not print (64_debug_pmu.md R770). -/
opaque Config.dbgRomEntry : Nat → Word

/-- DBGDIDR, whose value the source does not print (64_debug_pmu.md R746). -/
opaque Config.dbgDidr : Word

/-- The low bits of DBGDRAR below the ROM address (64_debug_pmu.md R746, R770). -/
opaque Config.dbgDrarLow : BitVec 12

/-- The low bits of DBGDSAR below the self address (64_debug_pmu.md R746, R770). -/
opaque Config.dbgDsarLow : BitVec 15

/-- The authentication status of the pins: whether invasive and non-invasive debug are permitted (64_debug_pmu.md R746,
R771; the register's layout is not in the source). -/
opaque Config.authStatus : Bool → Bool → Word

/-- What a lock status register reads after a word was written to the lock access register (64_debug_pmu.md R735, R746; the
layouts and the key are not in the source). -/
opaque Config.lockStatus : Word → Word

/-- DBGDEVID1 (64_debug_pmu.md R746). -/
opaque Config.dbgDevId1 : Word
/-- DBGDEVID (64_debug_pmu.md R746). -/
opaque Config.dbgDevId : Word
/-- DBGDEVTYPE (64_debug_pmu.md R746). -/
opaque Config.dbgDevType : Word
/-- DEVID of the PMU block (64_debug_pmu.md R735). -/
opaque Config.pmuDevId : Word
/-- DEVTYPE of the PMU block (64_debug_pmu.md R735). -/
opaque Config.pmuDevType : Word

end Sys2Proof
end

