-- ==== Sys2Proof/Machine/State.lean ====
section
/-! DEFINITION. Everything the spec gives one processor of the cluster and the devices it reaches, as plain data
(10_state.md R30 to R63), the reasons a step can stop, and the machine after reset. -/

namespace Sys2Proof.Machine

/-- Why the machine stops with a fault. Each is raised where the spec gives the hardware no behaviour, so stopping is
safe: nothing false of the hardware can be proved of a run that ends here. -/
inductive Fault where
  /-- An access whose bytes run past 0xFFFFFFFF: raised by every load and store (20_memory.md R240, U20). Safe. -/
  | addressWrap
  /-- Sequential execution past 0xFFFFFFFC: raised by the advance of the pc (10_state.md R32, U10). Safe. -/
  | pcWrap
  deriving DecidableEq, Repr

/-- Why a step has no meaning. Every one is a situation the spec calls UNPREDICTABLE, reserved or refused
(93_implementation_defined.md), so stopping is safe. -/
inductive Refusal where
  /-- Raised by an arm of `exec` that has no meaning yet. Safe. -/
  | notModelled (mnemonic : String)
  /-- Raised by `step` on a word that matches no row of the table (30_encoding.md R428 (f), R429). Safe. -/
  | noRow
  /-- Raised by the catch-all row of the unconditional space (30_encoding.md R428 (f), R429). Safe. -/
  | unconditionalSpace
  /-- Raised by `step` with CPSR.T or CPSR.J set: the spec has no Thumb rules (30_encoding.md R401, D83). Safe. -/
  | thumbState
  /-- Raised by an instruction that would enter Thumb or Jazelle state (42_a32_core_subset.md R955, R956, D83). Safe. -/
  | toThumb
  /-- Raised by `step` with a pc that is not word-aligned (42_a32_core_subset.md R951). Safe. -/
  | pcMisaligned
  /-- Raised by an instruction on operands its rule calls UNPREDICTABLE (U60). Safe. -/
  | unpredictable
  /-- Raised by a write of CPSR.M with no mode of 10_state.md R35 (U10). Safe. -/
  | reservedMode
  /-- Raised by a use of the SPSR or an exception return in a mode without one (10_state.md R37, U10). Safe. -/
  | noSpsr
  /-- Raised by CP15 accesses to RGNR and the region registers with RGNR out of range (U13). Safe. -/
  | regionNumber
  /-- Raised by an access while an enabled MPU region is smaller than 256 bytes (U15). Safe. -/
  | regionSize
  /-- Raised by an access that hits a region with AP = 0b100 or 0b111 (U16). Safe. -/
  | reservedPermission
  /-- Raised by an access that hits a region with reserved TEX, C and B (21_mpu_tcm.md R353, U30). Safe. -/
  | reservedAttributes
  /-- Raised by set/way maintenance with a reserved argument (20_memory.md R257, U23). Safe. -/
  | setWay
  /-- Raised by doubleword and multiple accesses to the peripheral-port range (20_memory.md R292, U28). Safe. -/
  | peripheralMultiple
  /-- Raised by an access to the private region mapped as Normal memory (20_memory.md R300, U29). Safe. -/
  | privateNormal
  /-- Raised by every fetch, load and store while the two enabled TCM regions overlap, or one overlaps the private region
  (21_mpu_tcm.md R382, U32). Safe. -/
  | tcmOverlap
  /-- Raised by VFP instructions while CPACR.cp10 and cp11 differ (12_fpu_registers.md R231, U11). Safe. -/
  | cpacrMismatch
  /-- Raised by VFP instructions while CPACR.cp10 is 0b10 (U12). Safe. -/
  | cpacrReserved
  /-- Raised by VFP instructions in the cases U72 lists. Safe. -/
  | vfpUnpredictable
  /-- Raised by VMRS and VMSR of a number that names no register (30_encoding.md R411, 40_system_register_access.md R453, U61).
  Safe. -/
  | vfpRegister
  /-- Raised by the unprivileged loads and stores (P = 0, W = 1), which the spec refuses (42_a32_core_subset.md R957,
  41_instruction_classes.md R515). Safe. -/
  | unprivilegedAccess
  /-- Raised by a write of SCTLR that changes C or I outside the sequences of 70_reset_and_hazards.md R861 and R862, and by a
  change of ACTLR[10:9] outside that of R863 (U22; log entry 79). Safe. -/
  | cacheSequence
  /-- Raised by a step in which the pins assert resets in a combination that is no column of Table 2-1
(70_reset_and_hazards.md R833; 93_implementation_defined.md). Safe. -/
  | unsupportedReset
  /-- Raised by a reset of a processor that holds dirty shareable lines or is in the coherency domain (65_power_mp.md R803,
  U70). Safe. -/
  | coherentReset
  /-- Raised by a load or store in the debug window that reaches a CTI or an ETM, whose registers are out of scope
  (00_scope.md R6, 64_debug_pmu.md R741, R770). Safe. -/
  | debugUnit
  deriving DecidableEq, Repr

/-- Input pins the step reads and never writes (00_scope.md R12): nIRQ and nFIQ (true is HIGH, not asserted; 62_gic.md
R636, R637), IRQS in words of 32 (62_gic.md R650), EVENTI (65_power_mp.md R797), nCPUHALT and the resets
(70_reset_and_hazards.md R832, R836), the debug pins (64_debug_pmu.md R771, R772), of the other processor of the cluster the
two that its authentication status shows, and whether it is in WFI or powered down (65_power_mp.md R799). EDBGRQ, DBGRESTART and
DBGSWENABLE change nothing (D62). -/
structure Pins where
  nIrq : Bool
  nFiq : Bool
  irqs : Vector Word 15
  eventI : Bool
  nCpuHalt : Bool
  resets : Resets
  dbgEn : Bool
  nidEn : Bool
  dbgSwEnable : Bool
  edbgRq : Bool
  dbgRestart : Bool
  otherDbgEn : Bool
  otherNidEn : Bool
  otherIdle : Bool
  deriving DecidableEq, Repr

/-- Standby state of the processor (10_state.md R53, 65_power_mp.md R792). -/
inductive Standby where
  | running | wfi | wfe | halted
  deriving DecidableEq, Repr

/-- CP15 registers that hold state (10_state.md R40; 11_cp15_registers.md R120 to R185). -/
structure Cp15 where
  sctlr : Word
  actlr : Word
  cpacr : Word
  csselr : Word
  dfsr : Word
  ifsr : Word
  dfar : Word
  ifar : Word
  rgnr : Word
  drbar : Vector Word 16
  drsr : Vector Word 16
  dracr : Vector Word 16
  dtcmrr : Word
  itcmrr : Word
  contextidr : Word
  tpidrurw : Word
  tpidruro : Word
  tpidrprw : Word
  pcr : Word
  radrlo : Word
  radrhi : Word
  raeccr : Word
  deer : Vector Word 3
  ieer : Vector Word 3
  dtcmeer : Word
  itcmeer : Word
  deriving DecidableEq, Repr

/-- Performance Monitoring Unit (64_debug_pmu.md R731). -/
structure Pmu where
  pmcr : Word
  cnten : Word
  ovsr : Word
  selr : Word
  ccntr : Word
  evtyper : Vector Word 8
  evcntr : Vector Word 8
  userenr : Word
  inten : Word
  deriving DecidableEq, Repr

/-- The registers of the processor's debug block (10_state.md R41; 64_debug_pmu.md R746), the last word written to DBGLAR, and
what only the PMU block's memory-mapped view holds: its claim tags and lock word (64_debug_pmu.md R735). -/
structure Debug where
  dscr : Word
  dtrrx : Word
  dtrtx : Word
  itr : Word
  wfar : Word
  vcr : Word
  drcr : Word
  bvr : Vector Word 6
  bcr : Vector Word 6
  wvr : Vector Word 4
  wcr : Vector Word 4
  prcr : Word
  stickyReset : Bool
  claim : Word
  lock : Word
  pmuClaim : Word
  pmuLock : Word
  deriving DecidableEq, Repr

/-- FPU registers (12_fpu_registers.md R201, R204). -/
structure Fpu where
  d : Vector (BitVec 64) 16
  fpscr : Word
  fpexc : Word
  deriving DecidableEq, Repr

/-- The RAM arrays of one cache (20_memory.md R250, R265): tag words keyed by way * 512 + set, data words keyed by
(way * 512 + set) * 8 + word, and in a build with ECC the chunk stored with each (20_memory.md R260), a data chunk of the
instruction cache under the key of the lower word of its doubleword. -/
structure CacheRam where
  tag : List (Nat × Word)
  data : List (Nat × Word)
  tagEcc : List (Nat × Byte)
  dataEcc : List (Nat × Byte)
  deriving DecidableEq, Repr

/-- A tightly-coupled memory (10_state.md R57): its bytes and, in a build with ECC, its chunks, keyed by word in the DTCM and
by doubleword in the ITCM (20_memory.md R260). -/
structure Tcm where
  bytes : List Host.Cell
  ecc : List (Nat × Byte)
  deriving DecidableEq, Repr

/-- SCU registers and the duplicate tag RAM with its chunks, keyed by (processor * 4 + way) * 512 + set (61_scu.md R585 to R602). -/
structure Scu where
  ctrl : Word
  power : Word
  access : Word
  err0 : Word
  err1 : Word
  tagOp : Word
  tagValue : Word
  tagEcc : Word
  tags : List (Nat × Word)
  tagChunks : List (Nat × Byte)
  deriving DecidableEq, Repr

/-- Interrupt controller (62_gic.md R670): per-interrupt bits in words of 32 IDs, priority and target bytes keyed by ID,
the interface of this processor, and its stack of active interrupts (ID and priority, the latest first). -/
structure Gic where
  distEnable : Bool
  enabled : Vector Word 16
  pending : Vector Word 16
  active : Vector Word 16
  level : Vector Word 16
  edge : Vector Word 16
  prio : List (Nat × Byte)
  target : List (Nat × Byte)
  sgiFrom : List (Nat × Byte)
  ifEnable : Bool
  pmr : Word
  bpr : Word
  stack : List (Nat × Byte)
  deriving DecidableEq, Repr

/-- Private timer, watchdog and global timer (63_timers.md R693 to R716); `prescale`, `wdPrescale` and `gPrescale` count the
PERIPHCLK edges since the last tick of each block (63_timers.md R691). -/
structure Timers where
  load : Word
  counter : Word
  control : Word
  status : Word
  wdLoad : Word
  wdCounter : Word
  wdControl : Word
  wdStatus : Word
  wdReset : Word
  wdArmed : Bool
  gCounter : BitVec 64
  gControl : Word
  gStatus : Word
  comparator : BitVec 64
  autoInc : Word
  prescale : Byte
  wdPrescale : Byte
  gPrescale : Byte
  deriving DecidableEq, Repr

/-- Output pins held as state: the PWRCTLO latch (65_power_mp.md R800) and what the last step pulsed: EVENTO
(65_power_mp.md R796), WDRESETREQ (63_timers.md R705), RAMERR and FATALRAMERR (20_memory.md R261). -/
structure Outputs where
  pwrctlo : BitVec 2
  eventO : Bool
  wdResetReq : Bool
  ramErr : Bool
  fatalRamErr : Bool
  deriving DecidableEq, Repr

/-- How far the sequences have come that change the caches' enables and their error checking (20_memory.md R256;
70_reset_and_hazards.md R861 to R863; U22). Since reset, and since the cache was last turned off or ACTLR[10:9] changed: whether
the instruction cache was invalidated, and which lines of the data cache were (line way * 512 + set at bit line % 32 of word
line / 32). Since the data cache was last turned off: which lines were cleaned. Whether an ISB followed the last change of
SCTLR.I, and a DSB the last load or store, the last maintenance of the data cache that was on, and the last change of SCTLR.C. -/
structure CacheUpkeep where
  instruction : Bool
  data : Vector Word 64
  cleaned : Vector Word 64
  isb : Bool
  dsb : Bool
  deriving DecidableEq, Repr

/-- The memory a stored word stands in, which decides what it takes to execute it (20_memory.md R281). -/
inductive CodeMemory where
  | itcm | uncached | cached
  deriving DecidableEq, Repr

/-- A word that was stored and has not gone through the sequence of 20_memory.md R281 yet: where it is, as its address divided
by 4 or, in the ITCM, its offset in the RAM divided by 4; the values it had since it last had; and how far the sequence has
come. `cleaned`: its line cleaned to memory since. `pushed`: a DSB since that. `dropped`: its line of the instruction cache
invalidated since that. `forgotten`: the branch predictor invalidated, since that in Cacheable memory, else since the store.
`finished`: the DSB that ends these. The ISB after it ends the sequence. -/
structure Unsynced where
  word : Nat
  memory : CodeMemory
  values : List Word
  cleaned : Bool
  pushed : Bool
  dropped : Bool
  forgotten : Bool
  finished : Bool
  deriving DecidableEq, Repr

/-- The machine. `cfg`, `free`, `upkeep` and `unsynced` are the model's own: the build, the number of free values drawn so
far, and what U22 and U26 look at (log entries 13, 79, 80). `otherDbg` and `otherPmu` are the other processor's registers that
the debug window reaches (64_debug_pmu.md R770), `otherSmp` its ACTLR.SMP, which SCU Configuration shows (61_scu.md R587). -/
structure State where
  cfg : Config
  pins : Pins
  /-- r0 to r14 of User mode, then r8_fiq to r14_fiq, then r13 and r14 of irq, svc, abt and und (10_state.md R31). -/
  regs : Vector Word 30
  /-- The address of the instruction to execute; R15 reads as this plus 8 (10_state.md R30). -/
  pc : Word
  cpsr : Word
  /-- SPSR_fiq, SPSR_irq, SPSR_svc, SPSR_abt, SPSR_und (10_state.md R37). -/
  spsr : Vector Word 5
  cp15 : Cp15
  pmu : Pmu
  dbg : Debug
  otherPmu : Pmu
  otherDbg : Debug
  otherSmp : Bool
  fpu : Fpu
  /-- The local exclusive monitor: true is exclusive (10_state.md R50). -/
  monitor : Bool
  /-- A pending asynchronous abort; the value is true for SLVERR, false for DECERR (10_state.md R51). -/
  pendingAbort : Option Bool
  eventReg : Bool
  standby : Standby
  mem : List Host.Cell
  itcm : Tcm
  dtcm : Tcm
  dcache : CacheRam
  icache : CacheRam
  scu : Scu
  gic : Gic
  timers : Timers
  outs : Outputs
  upkeep : CacheUpkeep
  /-- The words stored and not yet synchronised with instruction fetch, the latest first. -/
  unsynced : List Unsynced
  free : Nat
  deriving DecidableEq, Repr

/-- A Bool as bit `k` of a word. -/
def bitAt (b : Bool) (k : Nat) : Word := if b then 1#32 <<< k else 0

/-- The size field of a TCM region register (11_cp15_registers.md R155). -/
def tcmSizeCode : RamSize → Word
  | .none => 0 | .kb4 => 3 | .kb8 => 4 | .kb16 => 5 | .kb32 => 6 | .kb64 => 7 | .kb128 => 8

/-- SCTLR after reset (11_cp15_registers.md R120). -/
def resetSctlr (cfg : Config) : Word :=
  0x00C50078 ||| bitAt cfg.teinit 30 ||| bitAt cfg.cfgnmfi 27 ||| bitAt cfg.cfgend 25 ||| bitAt cfg.vinithi 13

/-- ITCMRR after reset (11_cp15_registers.md R156). -/
def resetItcmrr (cfg : Config) : Word :=
  (if cfg.initram && cfg.vinithi then 0xFFFF0000 else 0) ||| (tcmSizeCode cfg.itcm <<< 2)
    ||| bitAt (cfg.initram && cfg.itcm != .none) 0

/-- CP15 after reset (10_state.md R40). Registers without a reset value in the spec hold 0 (log entry 6). -/
def Cp15.reset (cfg : Config) : Cp15 where
  sctlr := resetSctlr cfg
  actlr := bitAt (cfg.ecc && cfg.itcmeccen) 10
  cpacr := 0
  csselr := 0
  dfsr := 0
  ifsr := 0
  dfar := 0
  ifar := 0
  rgnr := 0
  drbar := Vector.replicate 16 0
  drsr := Vector.replicate 16 0
  dracr := Vector.replicate 16 0
  dtcmrr := tcmSizeCode cfg.dtcm <<< 2
  itcmrr := resetItcmrr cfg
  contextidr := 0
  tpidrurw := 0
  tpidruro := 0
  tpidrprw := 0
  pcr := 0x00000020
  radrlo := 0
  radrhi := 0
  raeccr := 0
  deer := Vector.replicate 3 0
  ieer := Vector.replicate 3 0
  dtcmeer := 0
  itcmeer := 0

/-- The PMU after reset (64_debug_pmu.md R731, R732). Counters and event types hold 0 (log entry 7). -/
def Pmu.reset : Pmu where
  pmcr := 0x41174000
  cnten := 0
  ovsr := 0
  selr := 0
  ccntr := 0
  evtyper := Vector.replicate 8 0
  evcntr := Vector.replicate 8 0
  userenr := 0
  inten := 0

/-- The debug registers after reset: HALTED = 0 (64_debug_pmu.md R750), the rest 0, and DBGPRSR's Sticky Reset Status 1
(log entry 8). -/
def Debug.reset : Debug where
  dscr := 0
  dtrrx := 0
  dtrtx := 0
  itr := 0
  wfar := 0
  vcr := 0
  drcr := 0
  bvr := Vector.replicate 6 0
  bcr := Vector.replicate 6 0
  wvr := Vector.replicate 4 0
  wcr := Vector.replicate 4 0
  prcr := 0
  stickyReset := true
  claim := 0
  lock := 0
  pmuClaim := 0
  pmuLock := 0

/-- A cache with every line invalid and every RAM word 0 (log entry 11). -/
def CacheRam.reset : CacheRam where
  tag := []
  data := []
  tagEcc := []
  dataEcc := []

/-- Nothing invalidated yet, and nothing due to be cleaned or synchronised. -/
def CacheUpkeep.reset : CacheUpkeep where
  instruction := false
  data := Vector.replicate 64 0
  cleaned := Vector.replicate 64 0xFFFFFFFF
  isb := true
  dsb := false

/-- Caches that a processor finds as it left them: nothing is due but the DSB before a change of SCTLR.C (65_power_mp.md
R806). -/
def CacheUpkeep.kept : CacheUpkeep where
  instruction := true
  data := Vector.replicate 64 0xFFFFFFFF
  cleaned := Vector.replicate 64 0xFFFFFFFF
  isb := true
  dsb := false

/-- A TCM with every byte 0 (log entry 10). -/
def Tcm.reset : Tcm where
  bytes := []
  ecc := []

/-- The SCU after reset (61_scu.md R584 to R597). -/
def Scu.reset (cfg : Config) : Scu where
  ctrl := (cfg.scuCtrlOther &&& 0x0000F068) ||| bitAt (cfg.axiMaster1 && cfg.mfilterEn) 1
  power := 0
  access := 3
  err0 := 0
  err1 := 0
  tagOp := 0
  tagValue := 0
  tagEcc := 0
  tags := []
  tagChunks := []

/-- The interrupt controller after reset (62_gic.md R675, R643). -/
def Gic.reset (cfg : Config) : Gic where
  distEnable := false
  enabled := (Vector.replicate 16 0).set 0 (cfg.gicEnable0 &&& 0xF800FFFF)
  pending := Vector.replicate 16 0
  active := Vector.replicate 16 0
  level := Vector.replicate 16 0
  edge := Vector.replicate 16 0
  prio := []
  target := []
  sgiFrom := []
  ifEnable := false
  pmr := 0
  bpr := 3
  stack := []

/-- The timers after reset (63_timers.md R692). Two pieces of state the spec gives no reset value: the key of the watchdog's
disable register is not armed, and no PERIPHCLK edge has been counted (log entry 66). -/
def Timers.reset : Timers where
  load := 0
  counter := 0
  control := 0
  status := 0
  wdLoad := 0
  wdCounter := 0
  wdControl := 0
  wdStatus := 0
  wdReset := 0
  wdArmed := false
  gCounter := 0
  gControl := 0
  gStatus := 0
  comparator := 0
  autoInc := 0
  prescale := 0
  wdPrescale := 0
  gPrescale := 0

/-- The pins with nothing asserted (log entry 3). -/
def Pins.idle : Pins where
  nIrq := true
  nFiq := true
  irqs := Vector.replicate 15 0
  eventI := false
  nCpuHalt := true
  resets := .none
  dbgEn := false
  nidEn := false
  dbgSwEnable := false
  edbgRq := false
  dbgRestart := false
  otherDbgEn := false
  otherNidEn := false
  otherIdle := true

/-- The machine right after a power-up reset of a build (10_state.md R61, R62). -/
def State.resetWith (cfg : Config) (pins : Pins) : State where
  cfg := cfg
  pins := pins
  regs := Vector.replicate 30 0
  pc := if cfg.vinithi then 0xFFFF0000 else 0
  cpsr := 0x000001D3 ||| bitAt cfg.teinit 5 ||| bitAt cfg.cfgend 9
  spsr := Vector.replicate 5 0
  cp15 := Cp15.reset cfg
  pmu := Pmu.reset
  dbg := Debug.reset
  otherPmu := Pmu.reset
  otherDbg := Debug.reset
  otherSmp := false
  fpu := { d := Vector.replicate 16 0, fpscr := 0, fpexc := 0 }
  monitor := false
  pendingAbort := none
  eventReg := false
  standby := if pins.nCpuHalt then .running else .halted
  mem := []
  itcm := Tcm.reset
  dtcm := Tcm.reset
  dcache := CacheRam.reset
  icache := CacheRam.reset
  scu := Scu.reset cfg
  gic := Gic.reset cfg
  timers := Timers.reset
  outs := { pwrctlo := 0, eventO := false, wdResetReq := false, ramErr := false, fatalRamErr := false }
  upkeep := CacheUpkeep.reset
  unsynced := []
  free := 0

/-- The machine right after reset, in the build of log entry 1. -/
def State.reset : State := State.resetWith Config.default Pins.idle

end Sys2Proof.Machine
end

