-- ==== Sys2Proof/Machine/Ops.lean ====
section
/-! DEFINITION. The named operations over registers, status and sparse memory that the meanings share, taking an
exception (60_exceptions.md R522) and returning from one (60_exceptions.md R565). -/

namespace Sys2Proof.Machine

/-! ### Bits -/

/-- `w` with bit `k` set to `b`. -/
def setBit (w : Word) (k : Nat) (b : Bool) : Word :=
  (w &&& ~~~ (1#32 <<< k)) ||| bitAt b k

/-- `old` with the bits of `mask` taken from `v` (40_system_register_access.md R433, `write_value`). -/
def maskWrite (old v mask : Word) : Word := (old &&& ~~~ mask) ||| (v &&& mask)

/-- Does `a` have its `n` low bits zero? -/
def lowZero (a : Word) (n : Nat) : Bool := a.toNat % 2 ^ n == 0

/-! ### Sparse memories: addresses strictly rising, no entry equal to the default 0 -/

/-- What a sparse memory holds at `k`: an unlisted key reads 0 (log entries 9, 10, 11). -/
def sparseRead {w : Nat} : List (Nat × BitVec w) → Nat → BitVec w
  | [], _ => 0
  | (k', v) :: m, k => if k' = k then v else sparseRead m k

/-- A sparse memory with `v` at `k`: the entry is removed when `v` is what an unlisted key reads as. -/
def sparseWrite {w : Nat} : List (Nat × BitVec w) → Nat → BitVec w → List (Nat × BitVec w)
  | [], k, v => if v = 0 then [] else [(k, v)]
  | (k', v') :: m, k, v =>
    if k = k' then (if v = 0 then m else (k, v) :: m)
    else if k < k' then (if v = 0 then (k', v') :: m else (k, v) :: (k', v') :: m)
    else (k', v') :: sparseWrite m k v

/-- The canonical form of a sparse memory whose keys lie at or above `lo`. -/
def sparseWf {w : Nat} : Nat → List (Nat × BitVec w) → Bool
  | _, [] => true
  | lo, (k, v) :: m => decide (lo ≤ k) && v != 0 && sparseWf (k + 1) m

/-- The canonical form of main memory: addresses strictly rising, no byte equal to what an unlisted one reads as. -/
def Memory.wf (m : List Host.Cell) : Bool := sparseWf 0 m

/-! ### Modes and banked registers -/

/-- The seven modes (10_state.md R35). -/
inductive Mode where
  | usr | fiq | irq | svc | abt | und | sys
  deriving DecidableEq, Repr

/-- The mode of CPSR.M, none for a reserved value (10_state.md R35). -/
def Mode.ofBits (m : BitVec 5) : Option Mode :=
  match m.toNat with
  | 0b10000 => some .usr
  | 0b10001 => some .fiq
  | 0b10010 => some .irq
  | 0b10011 => some .svc
  | 0b10111 => some .abt
  | 0b11011 => some .und
  | 0b11111 => some .sys
  | _ => none

/-- The encoding of a mode in CPSR.M (10_state.md R35). -/
def Mode.bits : Mode → BitVec 5
  | .usr => 0b10000 | .fiq => 0b10001 | .irq => 0b10010 | .svc => 0b10011
  | .abt => 0b10111 | .und => 0b11011 | .sys => 0b11111

/-- The mode field of a status register. -/
def modeField (psr : Word) : BitVec 5 := psr.extractLsb' 0 5

/-- The current mode. A reserved CPSR.M, which no run reaches, selects the User bank. -/
def State.mode (s : State) : Mode := (Mode.ofBits (modeField s.cpsr)).getD .usr

/-- Whether a mode is privileged: every mode but User (60_exceptions.md R561). -/
def Mode.privileged : Mode → Bool
  | .usr => false
  | _ => true

/-- Whether the processor is in a privileged mode. -/
def State.privileged (s : State) : Bool := s.mode.privileged

/-- Where the copy of register `r` (0 to 14) that belongs to a mode stands in `State.regs` (10_state.md R31). -/
def bankIndex (m : Mode) (r : Reg) : Fin 30 :=
  let n := r.toNat
  if n < 8 then Fin.ofNat 30 n
  else match m with
    | .fiq => Fin.ofNat 30 (n + 7)
    | .usr => Fin.ofNat 30 n
    | .sys => Fin.ofNat 30 n
    | .irq => Fin.ofNat 30 (if n < 13 then n else n + 9)
    | .svc => Fin.ofNat 30 (if n < 13 then n else n + 11)
    | .abt => Fin.ofNat 30 (if n < 13 then n else n + 13)
    | .und => Fin.ofNat 30 (if n < 13 then n else n + 15)

/-- Register `r` of a mode; R15 reads as the instruction's address plus 8 (30_encoding.md R404). -/
def State.regIn (s : State) (m : Mode) (r : Reg) : Word :=
  if r = 15 then s.pc + 8 else s.regs[bankIndex m r]

/-- Register `r` of the current mode. -/
def State.reg (s : State) (r : Reg) : Word := s.regIn s.mode r

/-- Write register `r` (0 to 14) of a mode. R15 is written by the pc operations, never here. -/
def State.setRegIn (s : State) (m : Mode) (r : Reg) (v : Word) : State :=
  if r = 15 then s else { s with regs := s.regs.set (bankIndex m r) v }

/-- Write register `r` (0 to 14) of the current mode. -/
def State.setReg (s : State) (r : Reg) (v : Word) : State := s.setRegIn s.mode r v

/-- The state with another pc. -/
def State.setPc (s : State) (v : Word) : State := { s with pc := v }

/-- Which SPSR a mode has (10_state.md R31): none in User and System mode. -/
def spsrIndex : Mode → Option (Fin 5)
  | .fiq => some 0 | .irq => some 1 | .svc => some 2 | .abt => some 3 | .und => some 4
  | .usr => none | .sys => none

/-! ### CPSR fields (10_state.md R33) -/

/-- CPSR.N. -/
def State.flagN (s : State) : Bool := s.cpsr.getLsbD 31
/-- CPSR.Z. -/
def State.flagZ (s : State) : Bool := s.cpsr.getLsbD 30
/-- CPSR.C. -/
def State.flagC (s : State) : Bool := s.cpsr.getLsbD 29
/-- CPSR.V. -/
def State.flagV (s : State) : Bool := s.cpsr.getLsbD 28
/-- CPSR.E: true is big-endian data. -/
def State.bigEndian (s : State) : Bool := s.cpsr.getLsbD 9
/-- CPSR.A. -/
def State.maskA (s : State) : Bool := s.cpsr.getLsbD 8
/-- CPSR.I. -/
def State.maskI (s : State) : Bool := s.cpsr.getLsbD 7
/-- CPSR.F. -/
def State.maskF (s : State) : Bool := s.cpsr.getLsbD 6
/-- CPSR.T or CPSR.J: not in ARM state (10_state.md R36). -/
def notArm (psr : Word) : Bool := psr.getLsbD 5 || psr.getLsbD 24

/-- CPSR with N, Z, C, V. -/
def withFlags (psr : Word) (n z c v : Bool) : Word :=
  (psr &&& 0x0FFFFFFF) ||| bitAt n 31 ||| bitAt z 30 ||| bitAt c 29 ||| bitAt v 28

/-- Write N, Z, C, V. -/
def State.setFlags (s : State) (n z c v : Bool) : State :=
  { s with cpsr := withFlags s.cpsr n z c v }

/-- SCTLR.NMFI: software cannot set CPSR.F (11_cp15_registers.md R120, 60_exceptions.md R541). -/
def State.nmfi (s : State) : Bool := s.cp15.sctlr.getLsbD 27

/-! ### Conditions -/

/-- ConditionPassed (30_encoding.md R403). -/
def condPassed (c : Cond) (psr : Word) : Bool :=
  let n := psr.getLsbD 31
  let z := psr.getLsbD 30
  let cy := psr.getLsbD 29
  let v := psr.getLsbD 28
  match c with
  | .eq => z
  | .ne => !z
  | .cs => cy
  | .cc => !cy
  | .mi => n
  | .pl => !n
  | .vs => v
  | .vc => !v
  | .hi => cy && !z
  | .ls => !cy || z
  | .ge => n == v
  | .lt => n != v
  | .gt => !z && n == v
  | .le => z || n != v
  | .al => true

/-! ### Exceptions -/

/-- The exceptions an instruction boundary or an instruction can take (60_exceptions.md R520); reset is `State.reset`. -/
inductive Exc where
  | undefined | supervisorCall | prefetchAbort | dataAbort | irq | fiq
  deriving DecidableEq, Repr

/-- The mode an exception enters (60_exceptions.md R520). -/
def Exc.mode : Exc → Mode
  | .undefined => .und | .supervisorCall => .svc | .prefetchAbort => .abt
  | .dataAbort => .abt | .irq => .irq | .fiq => .fiq

/-- Offset of an exception in the vector table (60_exceptions.md R521). -/
def Exc.offset : Exc → Word
  | .undefined => 0x04 | .supervisorCall => 0x08 | .prefetchAbort => 0x0C
  | .dataAbort => 0x10 | .irq => 0x18 | .fiq => 0x1C

/-- Whether entry sets CPSR.A (60_exceptions.md R522). -/
def Exc.masksA : Exc → Bool
  | .undefined => false | .supervisorCall => false
  | .prefetchAbort => true | .dataAbort => true | .irq => true | .fiq => true

/-- Whether entry sets CPSR.F (60_exceptions.md R522). -/
def Exc.masksF : Exc → Bool
  | .fiq => true
  | _ => false

/-- The base of the vector table (60_exceptions.md R521). -/
def State.vectorBase (s : State) : Word := if s.cp15.sctlr.getLsbD 13 then 0xFFFF0000 else 0

/-- CPSR after entry of an exception (60_exceptions.md R522): mode, I, F, A, IT, J, T, E. -/
def entryCpsr (e : Exc) (sctlr cpsr : Word) : Word :=
  (cpsr &&& 0xF80F01C0) ||| e.mode.bits.setWidth 32 ||| bitAt true 7 ||| bitAt e.masksF 6 ||| bitAt e.masksA 8
    ||| bitAt (sctlr.getLsbD 30) 5 ||| bitAt (sctlr.getLsbD 25) 9

/-- Write the SPSR of a mode, where it has one. -/
def State.setSpsr (s : State) (m : Mode) (v : Word) : State :=
  match spsrIndex m with
  | some k => { s with spsr := s.spsr.set k v }
  | none => s

/-- Taking an exception (60_exceptions.md R522): SPSR and R14 of the mode entered, the CPSR fields, the vector. -/
def takeException (e : Exc) (ret : Word) (s : State) : State :=
  let s1 := (s.setSpsr e.mode s.cpsr).setRegIn e.mode 14 ret
  { s1 with cpsr := entryCpsr e s.cp15.sctlr s.cpsr, pc := s.vectorBase + e.offset }

/-- Why an access faulted (60_exceptions.md R524). The external causes carry ExT: true is SLVERR. -/
inductive FaultStatus where
  | alignment | background | permission | debugEvent
  | syncExternal (slverr : Bool)
  | asyncExternal (slverr : Bool)
  deriving DecidableEq, Repr

/-- A fault status as FSR bits: ExT in bit 12, FS[4] in bit 10, FS[3:0] in bits [3:0] (60_exceptions.md R524). -/
def FaultStatus.bits : FaultStatus → Word
  | .alignment => 0x001
  | .background => 0x000
  | .permission => 0x00D
  | .debugEvent => 0x002
  | .syncExternal x => 0x008 ||| bitAt x 12
  | .asyncExternal x => 0x406 ||| bitAt x 12

/-- Undefined Instruction exception of the instruction at pc (60_exceptions.md R523, R545). -/
def takeUndefined (s : State) : State := takeException .undefined (s.pc + 4) s

/-- Supervisor Call exception (60_exceptions.md R523, R546). -/
def takeSupervisorCall (s : State) : State := takeException .supervisorCall (s.pc + 4) s

/-- Prefetch Abort of the instruction at pc, with IFSR and IFAR (60_exceptions.md R523 to R525). -/
def takePrefetchAbort (f : FaultStatus) (ifar : Word) (s : State) : State :=
  let t := takeException .prefetchAbort (s.pc + 4) s
  { t with cp15 := { t.cp15 with ifsr := f.bits, ifar := ifar } }

/-- Synchronous Data Abort of the instruction at pc, with DFSR (WnR in bit 11) and DFAR (60_exceptions.md R523, R524). -/
def takeDataAbort (f : FaultStatus) (write : Bool) (dfar : Word) (s : State) : State :=
  let t := takeException .dataAbort (s.pc + 8) s
  { t with cp15 := { t.cp15 with dfsr := f.bits ||| bitAt write 11, dfar := dfar } }

/-- Asynchronous Data Abort taken before the instruction at pc (60_exceptions.md R523, R526): DFAR keeps its value and
WnR is a free value (R524; log entry 36). -/
def takeAsyncAbort (slverr : Bool) (s : State) : State :=
  let t := takeException .dataAbort (s.pc + 8) s
  { t with pendingAbort := none, free := s.free + 1,
           cp15 := { t.cp15 with dfsr := (FaultStatus.asyncExternal slverr).bits ||| bitAt (Config.freeBool s.free) 11 } }

/-- The outcome of an exception entry: with SCTLR.TE = 1 it would go on in Thumb state, which is refused (30_encoding.md R401,
D83). -/
def entered (t : State) : Host.Outcome State Fault Refusal := if notArm t.cpsr then .refused .toThumb else .next t

/-- IRQ or FIQ taken before the instruction at pc (60_exceptions.md R523, R540, R541). -/
def takeInterrupt (e : Exc) (s : State) : State := takeException e (s.pc + 4) s

/-! ### Running an instruction's body -/

/-- How an instruction's body ends without completing. -/
inductive Stop where
  /-- Undefined Instruction exception. -/
  | undefined
  /-- Synchronous Data Abort of an access. -/
  | dataAbort (f : FaultStatus) (write : Bool) (addr : Word)
  /-- The machine stops. -/
  | fault (f : Fault)
  /-- The situation has no meaning. -/
  | refuse (r : Refusal)
  deriving DecidableEq, Repr

/-- The body of an instruction: reads and writes the state, and may end in a `Stop`. -/
abbrev M := EStateM Stop State

/-- End in the Undefined Instruction exception. -/
def undefined {α : Type} : M α := throw .undefined

/-- End with no meaning. -/
def refuse {α : Type} (r : Refusal) : M α := throw (.refuse r)

/-- Refuse when `b` holds. -/
def refuseIf (b : Bool) (r : Refusal) : M Unit := if b then refuse r else pure ()

/-- End in the Undefined Instruction exception when `b` holds. -/
def undefinedIf (b : Bool) : M Unit := if b then undefined else pure ()

/-- The next free word (00_scope.md R15 "any value"). -/
def drawWord : M Word := fun s => .ok (Config.freeWord s.free) { s with free := s.free + 1 }

/-- The next free choice. -/
def drawBool : M Bool := fun s => .ok (Config.freeBool s.free) { s with free := s.free + 1 }

/-- Read a register of the current mode. -/
def readReg (r : Reg) : M Word := fun s => .ok (s.reg r) s

/-- Write a register (0 to 14) of the current mode. -/
def writeReg (r : Reg) (v : Word) : M Unit := fun s => .ok () (s.setReg r v)

/-- Write the pc. -/
def writePc (v : Word) : M Unit := fun s => .ok () (s.setPc v)

/-- Advance the pc past the instruction (10_state.md R32); past 0xFFFFFFFC there is no next instruction (U10). -/
def fallThrough : M Unit := fun s =>
  if s.pc = 0xFFFFFFFC then .error (.fault .pcWrap) s else .ok () (s.setPc (s.pc + 4))

/-- What a body's end means to the machine: its state, the exception it ended in, or the stop. -/
def finish : EStateM.Result Stop State Unit → Host.Outcome State Fault Refusal
  | .ok _ t => .next t
  | .error .undefined t => entered (takeUndefined t)
  | .error (.dataAbort f w a) t => entered (takeDataAbort f w a t)
  | .error (.fault f) _ => .fault f
  | .error (.refuse r) _ => .refused r

/-- Run an unconditional instruction's body. -/
def always (body : M Unit) (s : State) : Host.Outcome State Fault Refusal := finish (body s)

/-- Run a conditional instruction's body: a failed condition only advances the pc (30_encoding.md R403). -/
def conditional (c : Cond) (body : M Unit) (s : State) : Host.Outcome State Fault Refusal :=
  if condPassed c s.cpsr then finish (body s) else finish (fallThrough s)

/-! ### Writing the pc and the status registers -/

/-- DBGDSCR.PipeAdv, bit [25], set (64_debug_pmu.md R747). -/
def setPipeAdv (s : State) : State := { s with dbg := { s.dbg with dscr := s.dbg.dscr ||| 0x02000000 } }

/-- A branch is resolved: an instruction writes the pc, a branch, a data-processing instruction or a load (64_debug_pmu.md R747,
41_instruction_classes.md R500; log entry 87). -/
def resolveBranch (v : Word) : M Unit := do
  modify setPipeAdv
  writePc v

/-- BranchWritePC (42_a32_core_subset.md R955). -/
def branchWritePc (v : Word) : M Unit := resolveBranch (v &&& 0xFFFFFFFC)

/-- BXWritePC, which ALUWritePC and LoadWritePC are too (42_a32_core_subset.md R955): bit 0 would enter Thumb state (D83),
bit 1 alone is UNPREDICTABLE (U60). -/
def bxWritePc (v : Word) : M Unit :=
  if v.getLsbD 0 then refuse .toThumb
  else if v.getLsbD 1 then refuse .unpredictable
  else resolveBranch v

/-- Write CPSR whole, as a return from exception does (60_exceptions.md R565): Thumb and Jazelle state are refused (D83), a
reserved mode too (U10); with NMFI the write cannot set F (R541); bits [23:20] are reserved. -/
def restoreCpsr (new : Word) : M Unit := fun s =>
  if notArm new then .error (.refuse .toThumb) s
  else match Mode.ofBits (modeField new) with
    | none => .error (.refuse .reservedMode) s
    | some _ =>
      let f := if s.nmfi then new.getLsbD 6 && s.cpsr.getLsbD 6 else new.getLsbD 6
      .ok () { s with cpsr := setBit (new &&& 0xFF0FFFFF) 6 f }

/-- The SPSR of the current mode; User and System mode have none (10_state.md R37, U10). -/
def readSpsr : M Word := fun s =>
  match spsrIndex s.mode with
  | some k => .ok s.spsr[k] s
  | none => .error (.refuse .noSpsr) s

/-- Exception return: CPSR from the current mode's SPSR and the pc in one step (60_exceptions.md R565,
42_a32_core_subset.md R956). -/
def exceptionReturn (target : Word) : M Unit := do
  let new ← readSpsr
  restoreCpsr new
  branchWritePc target

end Sys2Proof.Machine
end

