-- ==== Sys2Proof/Machine/Flags.lean ====
section
/-! DEFINITION. The flag computations (42_a32_core_subset.md R954, R959). -/

namespace Sys2Proof.Machine

/-- A sum with its carry and overflow (42_a32_core_subset.md R954). -/
structure Sum where
  value : Word
  carry : Bool
  overflow : Bool
  deriving DecidableEq, Repr

/-- AddWithCarry (42_a32_core_subset.md R954): the exact unsigned and signed sums, compared with the narrowed one. -/
def addWithCarry (x y : Word) (cin : Bool) : Sum :=
  let usum := x.toNat + y.toNat + cin.toNat
  let ssum := x.toInt + y.toInt + (cin.toNat : Int)
  let r := BitVec.ofNat 32 usum
  ⟨r, decide (2 ^ 32 ≤ usum), decide (r.toInt ≠ ssum)⟩

/-- Set N and Z from a result, and C and V as given. -/
def setResultFlags (r : Word) (c v : Bool) : M Unit :=
  modify fun s => s.setFlags (r.getLsbD 31) (decide (r = 0)) c v

/-- The flags of a logical result: C from the shifter, V unchanged (42_a32_core_subset.md R959). -/
def setLogicalFlags (r : Word) (c : Bool) : M Unit :=
  modify fun s => s.setFlags (r.getLsbD 31) (decide (r = 0)) c s.flagV

/-- The flags of a multiply: N and Z only (42_a32_core_subset.md R993). -/
def setNZ (n z : Bool) : M Unit :=
  modify fun s => s.setFlags n z s.flagC s.flagV

end Sys2Proof.Machine
end

