-- ==== Sys2Proof/Machine/Operands.lean ====
section
/-! DEFINITION. Every operand form: modified immediates, shifted registers, register-shifted registers
(42_a32_core_subset.md R952, R953), the addresses of single and multiple accesses (R957, R1024), branch targets. -/

namespace Sys2Proof.Machine

/-! ### Shifts (42_a32_core_subset.md R952) -/

/-- LSL_C for `n` at least 1. -/
def lslC (x : Word) (n : Nat) : Word × Bool :=
  (x <<< n, decide (n ≤ 32) && x.getLsbD (32 - n))

/-- LSR_C for `n` at least 1. -/
def lsrC (x : Word) (n : Nat) : Word × Bool :=
  (x >>> n, decide (n ≤ 32) && x.getLsbD (n - 1))

/-- ASR_C for `n` at least 1. -/
def asrC (x : Word) (n : Nat) : Word × Bool :=
  (x.sshiftRight n, x.getLsbD (min n 32 - 1))

/-- ROR_C for `n` at least 1. -/
def rorC (x : Word) (n : Nat) : Word × Bool :=
  let r := x.rotateRight (n % 32)
  (r, r.getLsbD 31)

/-- RRX_C: rotate right by one through the carry. -/
def rrxC (x : Word) (c : Bool) : Word × Bool :=
  ((x >>> 1) ||| bitAt c 31, x.getLsbD 0)

/-- Shift_C: an amount of 0 leaves value and carry. -/
def shiftC (x : Word) (ty : ShiftType) (n : Nat) (c : Bool) : Word × Bool :=
  if n = 0 then (x, c)
  else match ty with
    | .lsl => lslC x n
    | .lsr => lsrC x n
    | .asr => asrC x n
    | .ror => rorC x n

/-- A shift by an immediate: LSR and ASR by 0 mean 32, ROR by 0 means RRX (30_encoding.md R405). -/
def immShiftC (x : Word) (ty : ShiftType) (imm5 : BitVec 5) (c : Bool) : Word × Bool :=
  if imm5 = 0 then
    match ty with
    | .lsl => (x, c)
    | .lsr => lsrC x 32
    | .asr => asrC x 32
    | .ror => rrxC x c
  else shiftC x ty imm5.toNat c

/-- A modified immediate with its carry (30_encoding.md R405). -/
def modifiedImm (rotate : BitVec 4) (imm8 : BitVec 8) (c : Bool) : Word × Bool :=
  let v := (imm8.setWidth 32).rotateRight (2 * rotate.toNat)
  (v, if rotate = 0 then c else v.getLsbD 31)

/-! ### Operand2 (42_a32_core_subset.md R953) -/

/-- The immediate form of operand2: the value and the shifter carry. -/
def operandImm (rotate : BitVec 4) (imm8 : BitVec 8) : M (Word × Bool) := fun s =>
  .ok (modifiedImm rotate imm8 s.flagC) s

/-- The register form of operand2. -/
def operandReg (rm : Reg) (ty : ShiftType) (imm5 : BitVec 5) : M (Word × Bool) := fun s =>
  .ok (immShiftC (s.reg rm) ty imm5 s.flagC) s

/-- The register-shifted form of operand2: the amount is the low byte of Rs. -/
def operandRsr (rm : Reg) (ty : ShiftType) (rs : Reg) : M (Word × Bool) := fun s =>
  .ok (shiftC (s.reg rm) ty ((s.reg rs).extractLsb' 0 8).toNat s.flagC) s

/-- R15 in a field where it is UNPREDICTABLE (30_encoding.md R404, U60). -/
def notPc (r : Reg) : M Unit := refuseIf (r == 15) .unpredictable

/-! ### Addresses -/

/-- The address of a single access, and what the base becomes with write-back (42_a32_core_subset.md R957): P is index,
U adds, P = 0 or W = 1 writes back. -/
structure Address where
  address : Word
  offsetAddr : Word
  writeback : Bool
  deriving DecidableEq, Repr

/-- The base register of an address; R15 reads aligned to a word (42_a32_core_subset.md R957, literal form). -/
def baseValue (s : State) (rn : Reg) : Word :=
  if rn = 15 then s.reg rn &&& 0xFFFFFFFC else s.reg rn

/-- Address generation (42_a32_core_subset.md R957). -/
def indexed (base offset : Word) (p u w : Bool) : Address :=
  let offsetAddr := if u then base + offset else base - offset
  ⟨if p then offsetAddr else base, offsetAddr, !p || w⟩

/-- The offset of the scaled register form (42_a32_core_subset.md R957). -/
def scaledOffset (s : State) (rm : Reg) (ty : ShiftType) (imm5 : BitVec 5) : Word :=
  (immShiftC (s.reg rm) ty imm5 s.flagC).1

/-- The offset of the split eight-bit immediate (30_encoding.md R405). -/
def splitImm8 (imm4H imm4L : BitVec 4) : Word := (imm4H ++ imm4L).setWidth 32

/-- How many registers a list names. -/
def listCount (regs : BitVec 16) : Nat := (List.range 16).countP fun i => regs.getLsbD i

/-- The registers a list names, the lowest first (42_a32_core_subset.md R1024). -/
def listRegs (regs : BitVec 16) : List Reg :=
  ((List.range 16).filter fun i => regs.getLsbD i).map fun i => BitVec.ofNat 4 i

/-- The lowest address of a multiple access of `n` words (42_a32_core_subset.md R1024): increment or decrement (U), before
or after (P). -/
def multipleStart (base : Word) (p u : Bool) (n : Nat) : Word :=
  let size := BitVec.ofNat 32 (4 * n)
  if u then (if p then base + 4 else base)
  else (if p then base - size else base - size + 4)

/-- What the base becomes with write-back after a multiple access of `n` words (42_a32_core_subset.md R1024). -/
def multipleEnd (base : Word) (u : Bool) (n : Nat) : Word :=
  if u then base + BitVec.ofNat 32 (4 * n) else base - BitVec.ofNat 32 (4 * n)

/-- The target of a branch: the signed word offset from the instruction's address plus 8 (30_encoding.md R405). -/
def branchTarget (s : State) (imm24 : BitVec 24) : Word :=
  s.pc + 8 + (imm24 ++ 0#2).signExtend 32

end Sys2Proof.Machine
end

