-- ==== Sys2Proof/Machine/Branches.lean ====
section
/-! DEFINITION. Branches (42_a32_core_subset.md R1010 to R1013). One whose condition fails changes nothing
but the pc (30_encoding.md R403). -/

namespace Sys2Proof.Machine

/-- B, R1010. -/
def execB (c : Cond) (imm24 : BitVec 24) (st : State) : Host.Outcome State Fault Refusal :=
  conditional c (do
    let s ← get
    branchWritePc (branchTarget s imm24)) st

/-- BL, R1011. -/
def execBl (c : Cond) (imm24 : BitVec 24) (st : State) : Host.Outcome State Fault Refusal :=
  conditional c (do
    let s ← get
    writeReg 14 (s.pc + 4)
    branchWritePc (branchTarget s imm24)) st

/-- BX, R1012; R15 is not among the registers it names (30_encoding.md R404, U60). -/
def execBx (c : Cond) (rm : Reg) (st : State) : Host.Outcome State Fault Refusal :=
  conditional c (do
    notPc rm
    bxWritePc (← readReg rm)) st

/-- BLX (register), R1013. -/
def execBlxReg (c : Cond) (rm : Reg) (st : State) : Host.Outcome State Fault Refusal :=
  conditional c (do
    notPc rm
    let s ← get
    let t ← readReg rm
    writeReg 14 (s.pc + 4)
    bxWritePc t) st

/-- BLX (immediate), R1013: it always enters Thumb state, of which the spec has no rules (30_encoding.md R401, D83). -/
def execBlxImm (_h : Bool) (_imm24 : BitVec 24) (st : State) : Host.Outcome State Fault Refusal :=
  always (refuse .toThumb) st

end Sys2Proof.Machine
end

