-- ==== Sys2Proof/Machine/Mpu.lean ====
section
/-! DEFINITION. The MPU check, the default memory map and the TCM regions (21_mpu_tcm.md R340 to R390). -/

namespace Sys2Proof.Machine

/-- What an access does (21_mpu_tcm.md R350). -/
inductive AccessKind where
  | fetch | read | write
  deriving DecidableEq, Repr

/-- Memory types (20_memory.md R246). -/
inductive MemType where
  | normal | device | stronglyOrdered
  deriving DecidableEq, Repr

/-- The attributes of an access (20_memory.md R246): whether the inner policy is write-back cacheable, whether it
allocates on writes, whether it is write-through (which the cache treats as Non-cacheable, 20_memory.md R252, but the ports
show, R294), and the outer policy: 0 Non-cacheable, 1 write-back write-allocate, 2 write-through, 3 write-back (21_mpu_tcm.md
R353; a cache line records it, 20_memory.md R265). -/
structure Attr where
  type : MemType
  shareable : Bool
  writeBack : Bool
  writeAlloc : Bool
  writeThrough : Bool
  outer : BitVec 2
  deriving DecidableEq, Repr

/-- Normal, Non-cacheable memory. -/
def normalNc (shareable : Bool) : Attr := ⟨.normal, shareable, false, false, false, 0⟩
/-- Normal, Write-Back memory. -/
def normalWb (shareable alloc : Bool) (outer : BitVec 2) : Attr := ⟨.normal, shareable, true, alloc, false, outer⟩
/-- Normal, inner Write-Through memory. -/
def normalWt (shareable : Bool) (outer : BitVec 2) : Attr := ⟨.normal, shareable, false, false, true, outer⟩
/-- Device memory. -/
def deviceAttr (shareable : Bool) : Attr := ⟨.device, shareable, false, false, false, 0⟩
/-- Strongly Ordered memory, always shareable. -/
def stronglyAttr : Attr := ⟨.stronglyOrdered, true, false, false, false, 0⟩

/-- Attributes of DRACR's TEX, S, C and B (21_mpu_tcm.md R353); none for the reserved combinations (U30). -/
def decodeAttr (dracr : Word) : Option Attr :=
  let sh := dracr.getLsbD 2
  let cb := (dracr.extractLsb' 0 2).toNat
  let tex := (dracr.extractLsb' 3 3).toNat
  let outer := dracr.extractLsb' 3 2
  match tex, cb with
  | 0, 0 => some stronglyAttr
  | 0, 1 => some (deviceAttr true)
  | 0, 2 => some (normalWt sh 2)
  | 0, 3 => some (normalWb sh false 3)
  | 1, 0 => some (normalNc sh)
  | 1, 3 => some (normalWb sh true 1)
  | 2, 0 => some (deviceAttr false)
  | 4, 0 | 5, 0 | 6, 0 | 7, 0 => some { normalNc sh with outer := outer }
  | 4, 1 | 5, 1 | 6, 1 | 7, 1 => some (normalWb sh true outer)
  | 4, 2 | 5, 2 | 6, 2 | 7, 2 => some (normalWt sh outer)
  | 4, 3 | 5, 3 | 6, 3 | 7, 3 => some (normalWb sh false outer)
  | _, _ => none

/-- Whether AP lets an access read (11_cp15_registers.md R147). -/
def apReads (ap : Nat) (privileged : Bool) : Bool :=
  match ap with
  | 1 => privileged
  | 2 => true
  | 3 => true
  | 5 => privileged
  | 6 => true
  | _ => false

/-- Whether AP lets an access write (11_cp15_registers.md R147). -/
def apWrites (ap : Nat) (privileged : Bool) : Bool :=
  match ap with
  | 1 => privileged
  | 2 => privileged
  | 3 => true
  | _ => false

/-- How many regions the MPU has (11_cp15_registers.md R107). -/
def regionCount (cfg : Config) : Nat := if cfg.mpu16 then 16 else 12

/-- The size field N of a region: it covers 2^(N+1) bytes (11_cp15_registers.md R146). -/
def regionN (drsr : Word) : Nat := (drsr.extractLsb' 1 5).toNat

/-- Whether an address hits region `r` (21_mpu_tcm.md R341). Base bits below the size are ignored (U14, log entry 22). -/
def regionHits (c : Cp15) (a : Word) (r : Fin 16) : Bool :=
  let drsr := c.drsr[r]
  let n := regionN drsr
  drsr.getLsbD 0 && a.toNat / 2 ^ (n + 1) == c.drbar[r].toNat / 2 ^ (n + 1)
    && !drsr.getLsbD (8 + a.toNat / 2 ^ (n - 2) % 8)

/-- The highest-numbered region among the first `n` that an address hits (21_mpu_tcm.md R342). -/
def topRegion (c : Cp15) (a : Word) : Nat → Option (Fin 16)
  | 0 => none
  | n + 1 => if regionHits c a (Fin.ofNat 16 n) then some (Fin.ofNat 16 n) else topRegion c a n

/-- Whether some enabled region is smaller than 256 bytes (11_cp15_registers.md R146, U15). -/
def smallRegion (c : Cp15) : Nat → Bool
  | 0 => false
  | n + 1 =>
    let drsr := c.drsr[Fin.ofNat 16 n]
    (drsr.getLsbD 0 && decide (regionN drsr < 7)) || smallRegion c n

/-- The bytes of a TCM (00_scope.md R10). -/
def ramBytes : RamSize → Nat
  | .none => 0 | .kb4 => 4096 | .kb8 => 8192 | .kb16 => 16384 | .kb32 => 32768 | .kb64 => 65536 | .kb128 => 131072

/-- Whether an address lies in a TCM region: enabled, built, and equal above the size (21_mpu_tcm.md R380). Base bits
below the size are ignored (U31, log entry 22). -/
def inTcm (rr : Word) (size : RamSize) (a : Word) : Bool :=
  rr.getLsbD 0 && size != .none && a.toNat / ramBytes size == (rr &&& 0xFFFFF000).toNat / ramBytes size

/-- Whether an address lies in the enabled ITCM region. -/
def inItcm (s : State) (a : Word) : Bool := inTcm s.cp15.itcmrr s.cfg.itcm a
/-- Whether an address lies in the enabled DTCM region. -/
def inDtcm (s : State) (a : Word) : Bool := inTcm s.cp15.dtcmrr s.cfg.dtcm a

/-- The first address of a TCM region (21_mpu_tcm.md R380). -/
def tcmBase (rr : Word) (size : RamSize) : Nat := (rr &&& 0xFFFFF000).toNat / ramBytes size * ramBytes size

/-- The base of the private memory region (20_memory.md R300). -/
def privateBase (cfg : Config) : Word := cfg.periphBase ++ 0#13

/-- Whether two ranges of addresses have one in common. -/
def rangesMeet (a n b m : Nat) : Bool := decide (a < b + m) && decide (b < a + n)

/-- Whether the enabled TCM regions overlap, or one overlaps the private region: a configuration the spec refuses
(21_mpu_tcm.md R382, U32). -/
def tcmClash (s : State) : Bool :=
  let i := s.cp15.itcmrr.getLsbD 0 && s.cfg.itcm != .none
  let d := s.cp15.dtcmrr.getLsbD 0 && s.cfg.dtcm != .none
  let ib := tcmBase s.cp15.itcmrr s.cfg.itcm
  let db := tcmBase s.cp15.dtcmrr s.cfg.dtcm
  let p := (privateBase s.cfg).toNat
  (i && d && rangesMeet ib (ramBytes s.cfg.itcm) db (ramBytes s.cfg.dtcm)) ||
    (i && rangesMeet ib (ramBytes s.cfg.itcm) p 0x2000) || (d && rangesMeet db (ramBytes s.cfg.dtcm) p 0x2000)

/-- Where an offset in a TCM's declared size stands in its RAM; none in a hole that does not alias it (21_mpu_tcm.md R383,
U33). An offset past the declared size wraps (log entry 68). -/
def tcmPlace (b : Option TcmBuild) (offset : Nat) : Option Nat :=
  match b with
  | none => none
  | some t =>
    let off := offset % ramBytes t.size
    if off < t.bytes then some off
    else if t.holeAliases && t.bytes != 0 then some (off % t.bytes) else none

/-- Where an address of a TCM region stands in the TCM's RAM (21_mpu_tcm.md R383). -/
def tcmOffset (b : Option TcmBuild) (a : Word) : Option Nat := tcmPlace b a.toNat

/-- Whether an access is served by a TCM: fetches by the ITCM only (21_mpu_tcm.md R381). -/
def tcmServes (s : State) (k : AccessKind) (a : Word) : Bool :=
  inItcm s a || (k != .fetch && inDtcm s a)

/-- Whether the data cache is built and enabled (11_cp15_registers.md R120). -/
def dcacheOn (s : State) : Bool := s.cp15.sctlr.getLsbD 2 && s.cfg.dcache != .none
/-- Whether the instruction cache is built and enabled (11_cp15_registers.md R120). -/
def icacheOn (s : State) : Bool := s.cp15.sctlr.getLsbD 12 && s.cfg.icache != .none

/-- The default memory map: attributes and execute-never of an address (21_mpu_tcm.md R361). DESIGN CHOICE (log entry 97): a fetch
that it permits is Non-shareable, for its instruction columns give no shareability, and its Write-Through ranges show on the
ports as Non-cacheable ones do. -/
def defaultMap (s : State) (k : AccessKind) (a : Word) : Attr × Bool :=
  let top := (a.extractLsb' 28 4).toNat
  if k = .fetch then
    if top < 8 then (normalNc false, false)
    else if top < 0xA then (deviceAttr true, true)
    else if top < 0xC then (deviceAttr false, true)
    else if top < 0xF then (stronglyAttr, true)
    else if s.cp15.sctlr.getLsbD 13 then (normalNc false, false) else (stronglyAttr, true)
  else if top < 4 then (if dcacheOn s then normalWb false true 1 else normalNc true, false)
  else if top < 6 then (normalNc (!dcacheOn s), false)
  else if top < 8 then (normalNc true, false)
  else if top < 0xA then (deviceAttr true, true)
  else if top < 0xC then (deviceAttr false, true)
  else (stronglyAttr, true)

/-- The attributes and the permission of an access to one block of 32 bytes, or how it fails. -/
inductive Lookup where
  | hit (attr : Attr) (permitted : Bool)
  | background
  | refused (r : Refusal)
  deriving DecidableEq, Repr

/-- The region lookup of one address (21_mpu_tcm.md R350 to R361), before the TCM override. -/
def lookupRegion (s : State) (k : AccessKind) (privileged : Bool) (a : Word) : Lookup :=
  let dflt := defaultMap s k a
  let dfltPermitted := !(k == .fetch && dflt.2)
  if s.cp15.sctlr.getLsbD 0 then
    if smallRegion s.cp15 (regionCount s.cfg) then .refused .regionSize
    else match topRegion s.cp15 a (regionCount s.cfg) with
      | none => if s.cp15.sctlr.getLsbD 17 && privileged then .hit dflt.1 dfltPermitted else .background
      | some r =>
        let dracr := s.cp15.dracr[r]
        let ap := (dracr.extractLsb' 8 3).toNat
        if ap = 4 ∨ ap = 7 then .refused .reservedPermission
        else match decodeAttr dracr with
          | none => .refused .reservedAttributes
          | some attr => .hit attr <| match k with
            | .read => apReads ap privileged
            | .write => apWrites ap privileged
            | .fetch => apReads ap privileged && !dracr.getLsbD 12
  else .hit dflt.1 dfltPermitted

/-- The lookup with the TCM override: an address a TCM serves is Normal, Non-shareable; permissions stay
(21_mpu_tcm.md R350, R380). -/
def lookup (s : State) (k : AccessKind) (privileged : Bool) (a : Word) : Lookup :=
  match lookupRegion s k privileged a with
  | .hit attr permitted => .hit (if tcmServes s k a then normalNc false else attr) permitted
  | other => other

/-- How an access fails its check: with a fault status, or with no meaning. -/
inductive CheckError where
  | fault (f : FaultStatus)
  | refused (r : Refusal)
  deriving DecidableEq, Repr

/-- Whether an access to a block must be aligned: Device and Strongly Ordered memory (20_memory.md R242). -/
def Lookup.ordered : Lookup → Bool
  | .hit attr _ => attr.type != .normal
  | _ => false

/-- The check of an access, `aligned` to its size or not, whose first and last byte lie in blocks with these lookups: both must
pass (21_mpu_tcm.md R350, D81), and of the failures of either, alignment is reported before background and background before
permission (R352). The attributes are those of the first block. A block whose region has no meaning stops the access whatever
the other's failure (log entry 74). -/
def checkBlocks (aligned : Bool) (first last : Lookup) : Except CheckError Attr :=
  match first, last with
  | .refused r, _ => .error (.refused r)
  | _, .refused r => .error (.refused r)
  | _, _ =>
    if !aligned && (first.ordered || last.ordered) then .error (.fault .alignment)
    else match first, last with
      | .hit attr permitted, .hit _ permitted' =>
        if permitted && permitted' then .ok attr else .error (.fault .permission)
      | _, _ => .error (.fault .background)

/-- The check of an access of `size` bytes at `a` (21_mpu_tcm.md R350): of one block, or of two that it straddles. -/
def checkAccess (s : State) (k : AccessKind) (privileged : Bool) (a : Word) (size : Nat) : Except CheckError Attr :=
  let last := a + BitVec.ofNat 32 (size - 1)
  let first := lookup s k privileged a
  checkBlocks (a.toNat % size == 0) first
    (if a.toNat / 32 = last.toNat / 32 then first else lookup s k privileged last)

end Sys2Proof.Machine
end

