-- ==== Sys2Proof/Machine/Ids.lean ====
section
/-! DEFINITION. The values of the identification registers (11_cp15_registers.md R103 to R113, R175), which CP15 and the
memory-mapped debug and PMU blocks show (64_debug_pmu.md R736, R751). -/

namespace Sys2Proof.Machine

/-- MIDR (11_cp15_registers.md R103). -/
def midrValue : Word := 0x410FC171

/-- CTR (11_cp15_registers.md R104). -/
def ctrValue : Word := 0x8333C003

/-- TCMTR (11_cp15_registers.md R105, D10). -/
def tcmtrValue (cfg : Config) : Word := if cfg.itcm = .none ∧ cfg.dtcm = .none then 0 else 0x80010001

/-- MPIDR (11_cp15_registers.md R106). -/
def mpidrValue (cfg : Config) : Word := 0x80000000 ||| (cfg.clusterId.setWidth 32 <<< 8) ||| bitAt cfg.cpu 0

/-- MPUIR (11_cp15_registers.md R107). -/
def mpuirValue (cfg : Config) : Word := BitVec.ofNat 32 (regionCount cfg * 256)

/-- The CPUID feature registers from ID_PFR0 to ID_ISAR4, in the order of their numbers (11_cp15_registers.md R109). -/
def featureValues : List Word := [
  0x00000131, 0x00000001, 0x00010404, 0x00000000, 0x00110130, 0x00000000, 0x01200000, 0x00002111,
  0x02101111, 0x13112111, 0x21232141, 0x01112131, 0x00010142]

/-- The authentication status (64_debug_pmu.md R771): DBGEN permits both kinds of debug, NIDEN the non-invasive one. -/
def authStatus (p : Pins) : Word := Config.authStatus p.dbgEn (p.dbgEn || p.nidEn)

end Sys2Proof.Machine
end

