-- ==== Sys2Proof/Machine/Pmu.lean ====
section
/-! DEFINITION. The Performance Monitoring Unit (64_debug_pmu.md R730 to R738): its registers and the advance of its
counters. Field positions of PMCR, PMSELR, PMXEVTYPER and PMUSERENR are the architecture's (91_not_in_source.md N64-1; log
entry 58). -/

namespace Sys2Proof.Machine

/-- The bits a counter register has: the cycle counter in bit 31, the event counters in [7:0] (64_debug_pmu.md R738). -/
def counterBits : Word := 0x800000FF

/-- The event numbers of 64_debug_pmu.md R737 above 0x00; every other number counts nothing (D60). -/
def countedEvents : List Nat :=
  [0x01, 0x03, 0x04, 0x06, 0x07, 0x08, 0x09, 0x0A, 0x0B, 0x0C, 0x0D, 0x0E, 0x0F, 0x10, 0x11, 0x12, 0x14, 0x40, 0x41,
   0x50, 0x51, 0x60, 0x61, 0x62, 0x63, 0x64, 0x65, 0x66, 0x67, 0x68, 0x69, 0x6A, 0x6B, 0x6C, 0x80, 0x81, 0x82, 0x90,
   0x91, 0x92, 0x93, 0x94, 0x95, 0x96, 0x97, 0x98, 0x99]

/-- Whether counter `n` (31 is the cycle counter) is enabled, with PMCR.E (64_debug_pmu.md R738). -/
def counterEnabled (p : Pmu) (n : Nat) : Bool := p.pmcr.getLsbD 0 && p.cnten.getLsbD n

/-- Event counter `n` raised by an amount: on a wrap its overflow flag is set (64_debug_pmu.md R738). -/
def bumpEvent (n : Fin 8) (amount : Word) (p : Pmu) : Pmu :=
  { p with
    evcntr := p.evcntr.set n (p.evcntr[n] + amount)
    ovsr := if 2 ^ 32 ≤ p.evcntr[n].toNat + amount.toNat then setBit p.ovsr n.val true else p.ovsr }

/-- The cycle counter raised by an amount (64_debug_pmu.md R738). -/
def bumpCycles (amount : Word) (p : Pmu) : Pmu :=
  { p with
    ccntr := p.ccntr + amount
    ovsr := if 2 ^ 32 ≤ p.ccntr.toNat + amount.toNat then setBit p.ovsr 31 true else p.ovsr }

/-- An enabled event counter advances in a step by an amount nothing bounds (U51, log entry 31). -/
def advanceEvent (s : State) (n : Fin 8) : State :=
  if counterEnabled s.pmu n.val && countedEvents.contains (s.pmu.evtyper[n] &&& 0xFF).toNat then
    { s with pmu := bumpEvent n (Config.freeCount s.free) s.pmu, free := s.free + 1 }
  else s

/-- The counters advance during a step (64_debug_pmu.md R738, U51) of a processor that runs: in standby it changes no state
of its own (65_power_mp.md R792). -/
def pmuStage (s : State) : State :=
  if s.pmu.pmcr.getLsbD 0 && s.standby == .running then
    let s1 := if counterEnabled s.pmu 31 then
        { s with pmu := bumpCycles (Config.freeCount s.free) s.pmu, free := s.free + 1 } else s
    ([0, 1, 2, 3, 4, 5, 6, 7] : List (Fin 8)).foldl advanceEvent s1
  else s

/-- The counter PMSELR selects, if it exists (64_debug_pmu.md R731). -/
def selectedCounter (p : Pmu) : Option (Fin 8) :=
  let n := (p.selr &&& 0x1F).toNat
  if h : n < 8 then some ⟨n, h⟩ else none

/-- A write of PMCR: E, D, X and DP are stored; P clears the event counters and C the cycle counter. -/
def writePmcr (v : Word) (p : Pmu) : Pmu :=
  let p1 := { p with pmcr := maskWrite p.pmcr v 0x39 }
  let p2 := if v.getLsbD 1 then { p1 with evcntr := Vector.replicate 8 0 } else p1
  if v.getLsbD 2 then { p2 with ccntr := 0 } else p2

/-- A write of PMSWINC (64_debug_pmu.md R738): each selected counter that is enabled and counts event 0x00 is raised. -/
def softwareIncrement (v : Word) (p : Pmu) : Pmu :=
  ([0, 1, 2, 3, 4, 5, 6, 7] : List (Fin 8)).foldl (fun q n =>
    if v.getLsbD n.val && counterEnabled q n.val && decide (q.evtyper[n] &&& 0xFF = 0) then bumpEvent n 1 q else q) p

/-- The registers of the PMU, as its CP15 and its memory-mapped view name them (64_debug_pmu.md R731, R734). -/
inductive PmuReg where
  | pmcr | cntenSet | cntenClr | ovsr | swinc | selr | ccntr | userenr | intenSet | intenClr
  | evtyper (n : Fin 8) | evcntr (n : Fin 8)
  deriving DecidableEq, Repr

/-- The value of a PMU register (64_debug_pmu.md R731, R738). PRESUMED: PMCNTENCLR and PMINTENCLR read the enables, as PMCNTENSET
and PMINTENSET do (log entry 58). DESIGN CHOICE: the write-only PMSWINC reads 0 in the PMU block (log entry 75). -/
def readPmu (r : PmuReg) (p : Pmu) : Word :=
  match r with
  | .pmcr => p.pmcr
  | .cntenSet => p.cnten
  | .cntenClr => p.cnten
  | .ovsr => p.ovsr
  | .swinc => 0
  | .selr => p.selr
  | .ccntr => p.ccntr
  | .userenr => p.userenr
  | .intenSet => p.inten
  | .intenClr => p.inten
  | .evtyper n => p.evtyper[n]
  | .evcntr n => p.evcntr[n]

/-- A write of a PMU register (64_debug_pmu.md R731, R738). PRESUMED: PMUSERENR stores bit [0], the rest reads 0 (log entry 58). -/
def writePmu (r : PmuReg) (v : Word) (p : Pmu) : Pmu :=
  match r with
  | .pmcr => writePmcr v p
  | .cntenSet => { p with cnten := p.cnten ||| (v &&& counterBits) }
  | .cntenClr => { p with cnten := p.cnten &&& ~~~ v }
  | .ovsr => { p with ovsr := p.ovsr &&& ~~~ v }
  | .swinc => softwareIncrement v p
  | .selr => { p with selr := v &&& 0x1F }
  | .ccntr => { p with ccntr := v }
  | .userenr => { p with userenr := v &&& 1 }
  | .intenSet => { p with inten := p.inten ||| (v &&& counterBits) }
  | .intenClr => { p with inten := p.inten &&& ~~~ v }
  | .evtyper n => { p with evtyper := p.evtyper.set n (v &&& 0xFF) }
  | .evcntr n => { p with evcntr := p.evcntr.set n v }

/-- The PMU interrupt request: an overflow flag whose interrupt is enabled (64_debug_pmu.md R738). -/
def pmuInterrupt (p : Pmu) : Bool := p.ovsr &&& p.inten != 0

end Sys2Proof.Machine
end

