-- ==== Sys2Proof/Machine/Debug.lean ====
section
/-! DEFINITION. The debug registers (64_debug_pmu.md R745 to R752) and the blocks a load or store reaches in the debug window
(R734 to R736, R770). The debug logic itself is inert (D62); what the registers' own rules leave to the debug architecture
is in log entry 34, what the window's rules leave open in log entry 81. -/

namespace Sys2Proof.Machine

/-- The debug registers that a CP14 access reaches (64_debug_pmu.md R746). -/
inductive DebugReg where
  | didr | drar | dsar | dscrInt | dtrInt | wfar | vcr | razwi
  | dtrrxExt | itrPcsr | dscrExt | dtrtxExt | drcr
  | bvr (n : Fin 6) | bcr (n : Fin 6) | wvr (n : Fin 4) | wcr (n : Fin 4)
  | prcr | prsr | claimSet | claimClr | authStatus | monitor
  deriving DecidableEq, Repr

/-- Replace the debug registers. -/
def setDebug (f : Debug → Debug) : M Unit := fun s => .ok () { s with dbg := f s.dbg }

/-- DBGDRAR: the ROM address of the pins (64_debug_pmu.md R770); its low bits are not in the source (log entry 81). -/
def dbgDrar (cfg : Config) : Word := cfg.dbgRomAddr ++ Config.dbgDrarLow

/-- DBGDSAR: the self address of the pins (64_debug_pmu.md R770); its low bits are not in the source (log entry 81). -/
def dbgDsar (cfg : Config) : Word := cfg.dbgSelfAddr ++ Config.dbgDsarLow

/-- Read a debug register (64_debug_pmu.md R746 to R749). A read of DBGDTRRXint empties DTRRX and one of DBGDTRTXext DTRTX
(DBGDSCR bits 30 and 29); DBGPRSR shows and clears Sticky Reset Status, which stays while the reset lasts, and shows the reset
as Reset Status (log entry 34). A read of the write-only DBGDRCR by CP14 is an Undefined Instruction (log entry 75); DBGPCSR
reads a free word (log entry 76). -/
def readDebug (r : DebugReg) : M Word := do
  let s ← get
  let d := s.dbg
  match r with
  | .didr => pure Config.dbgDidr
  | .drar => pure (dbgDrar s.cfg)
  | .dsar => pure (dbgDsar s.cfg)
  | .dscrInt => pure d.dscr
  | .dtrInt => do
    setDebug fun g => { g with dscr := setBit g.dscr 30 false }
    pure d.dtrrx
  | .wfar => pure d.wfar
  | .vcr => pure d.vcr
  | .razwi => pure 0
  | .dtrrxExt => pure d.dtrrx
  | .itrPcsr => drawWord
  | .dscrExt => pure d.dscr
  | .dtrtxExt => do
    setDebug fun g => { g with dscr := setBit g.dscr 29 false }
    pure d.dtrtx
  | .drcr => undefined
  | .bvr n => pure d.bvr[n]
  | .bcr n => pure d.bcr[n]
  | .wvr n => pure d.wvr[n]
  | .wcr n => pure d.wcr[n]
  | .prcr => pure d.prcr
  | .prsr => do
    setDebug fun g => { g with stickyReset := g.stickyReset && s.pins.resets.cpu }
    pure (bitAt d.stickyReset 3 ||| bitAt s.pins.resets.cpu 2 ||| 1)
  | .claimSet => pure 0xFF
  | .claimClr => pure d.claim
  | .authStatus => pure (authStatus s.pins)
  | .monitor => pure 0

/-- The bits of DBGDSCR a CP14 write stores: not HALTED, RESTARTED, the sticky bits, PipeAdv and the full bits, which the
debug logic writes (64_debug_pmu.md R747; log entry 34). -/
def dscrMask : Word := 0x9DFFFE3C

/-- A write of DBGDRCR (64_debug_pmu.md R748): bits [3:0]; bit 2 clears the sticky bits of DBGDSCR, bit 3 PipeAdv. -/
def writeDrcr (v : Word) (d : Debug) : Debug :=
  { d with
    drcr := v &&& 0xF
    dscr := d.dscr &&& (if v.getLsbD 2 then 0xFFFFFE3F else 0xFFFFFFFF) &&& (if v.getLsbD 3 then 0xFDFFFFFF else 0xFFFFFFFF) }

/-- Write a debug register (64_debug_pmu.md R746 to R749); a read-only row is an Undefined Instruction. A write of DBGDTRTXint
fills DTRTX and one of DBGDTRRXext DTRRX (DBGDSCR bits 29 and 30; log entry 34). -/
def writeDebug (r : DebugReg) (v : Word) : M Unit :=
  match r with
  | .didr | .drar | .dsar | .dscrInt | .prsr | .authStatus | .monitor => undefined
  | .dtrInt => setDebug fun d => { d with dtrtx := v, dscr := setBit d.dscr 29 true }
  | .wfar => setDebug fun d => { d with wfar := v }
  | .vcr => setDebug fun d => { d with vcr := v }
  | .razwi => pure ()
  | .dtrrxExt => setDebug fun d => { d with dtrrx := v, dscr := setBit d.dscr 30 true }
  | .itrPcsr => setDebug fun d => { d with itr := v }
  | .dscrExt => setDebug fun d => { d with dscr := maskWrite d.dscr v dscrMask }
  | .dtrtxExt => setDebug fun d => { d with dtrtx := v }
  | .drcr => setDebug (writeDrcr v)
  | .bvr n => setDebug fun d => { d with bvr := d.bvr.set n (if n.val < 4 then v &&& 0xFFFFFFFC else v) }
  | .bcr n => setDebug fun d => { d with bcr := d.bcr.set n v }
  | .wvr n => setDebug fun d => { d with wvr := d.wvr.set n v }
  | .wcr n => setDebug fun d => { d with wcr := d.wcr.set n v }
  | .prcr => setDebug fun d => { d with prcr := v &&& 1 }
  | .claimSet => setDebug fun d => { d with claim := d.claim ||| (v &&& 0xFF) }
  | .claimClr => setDebug fun d => { d with claim := d.claim &&& ~~~ v }

/-! ### The memory-mapped blocks (64_debug_pmu.md R770) -/

/-- The value at a key of a list, if it has one. -/
def lookupKey {α : Type} : List (Nat × α) → Nat → Option α
  | [], _ => none
  | (k, v) :: rest, n => if k = n then some v else lookupKey rest n

/-- The rows of the register map that the memory-mapped view shares with CP14, by register number (64_debug_pmu.md R746). -/
def apbMap : List (Nat × DebugReg) := [
  (0, .didr), (6, .wfar), (7, .vcr), (32, .dtrrxExt), (33, .itrPcsr), (34, .dscrExt), (35, .dtrtxExt), (36, .drcr),
  (64, .bvr 0), (65, .bvr 1), (66, .bvr 2), (67, .bvr 3), (68, .bvr 4), (69, .bvr 5),
  (80, .bcr 0), (81, .bcr 1), (82, .bcr 2), (83, .bcr 3), (84, .bcr 4), (85, .bcr 5),
  (96, .wvr 0), (97, .wvr 1), (98, .wvr 2), (99, .wvr 3),
  (112, .wcr 0), (113, .wcr 1), (114, .wcr 2), (115, .wcr 3),
  (192, .razwi), (193, .razwi), (194, .razwi), (196, .prcr), (197, .prsr),
  (960, .razwi), (1000, .claimSet), (1001, .claimClr), (1006, .authStatus)]

/-- The Processor ID registers of the debug block, from register 832 on (64_debug_pmu.md R751). -/
def debugIds (cfg : Config) : List Word :=
  [midrValue, ctrValue, tcmtrValue cfg, midrValue, mpuirValue cfg, mpidrValue cfg, 0, midrValue] ++ featureValues

/-- The Processor ID registers of the PMU block, from offset 0xD00 on (64_debug_pmu.md R736; 90_conflicts.md C18). -/
def pmuIds (cfg : Config) : List Word :=
  [mpidrValue cfg, ctrValue, tcmtrValue cfg, 0, 0, 0, 0, 0] ++ featureValues

/-- The identification bytes of the debug block, from offset 0xFD0 on (64_debug_pmu.md R752). -/
def debugIdBytes : List Word := [0x04, 0, 0, 0, 0x17, 0xBC, 0x0B, 0x00, 0x0D, 0x90, 0x05, 0xB1]

/-- The identification bytes of the PMU block, from offset 0xFD0 on (64_debug_pmu.md R752). -/
def pmuIdBytes : List Word := [0x04, 0, 0, 0, 0xB7, 0xB9, 0x0B, 0x00, 0x0D, 0x90, 0x05, 0xB1]

/-- Read register `n` of the debug block (64_debug_pmu.md R746, R751, R752). DESIGN CHOICE: the write-only ones, DBGDRCR and DBGLAR,
read 0 (log entry 75), and so do the reserved ones (log entry 81). -/
def readDebugBlock (n : Nat) : M Word := do
  let s ← get
  match n with
  | 36 => pure 0
  | 1005 => pure (Config.lockStatus s.dbg.lock)
  | 1009 => pure Config.dbgDevId1
  | 1010 => pure Config.dbgDevId
  | 1011 => pure Config.dbgDevType
  | _ =>
    match lookupKey apbMap n with
    | some r => readDebug r
    | none =>
      if 832 ≤ n ∧ n < 896 then pure ((debugIds s.cfg).getD (n - 832) 0)
      else if 1012 ≤ n then pure (debugIdBytes.getD (n - 1012) 0)
      else pure 0

/-- Write register `n` of the debug block (64_debug_pmu.md R746); read-only and reserved ones ignore writes. DESIGN CHOICE: a
store of User mode reaches them too (log entry 111). -/
def writeDebugBlock (n : Nat) (v : Word) : M Unit :=
  match n with
  | 0 => pure ()
  | 197 => pure ()
  | 1004 => setDebug fun d => { d with lock := v }
  | 1006 => pure ()
  | _ =>
    match lookupKey apbMap n with
    | some r => writeDebug r v
    | none => pure ()

/-- The PMU register at an offset of the PMU block (64_debug_pmu.md R734). -/
def pmuRegAt (off : Nat) : Option PmuReg :=
  if off < 0x020 then some (.evcntr (Fin.ofNat 8 (off / 4)))
  else if off = 0x07C then some .ccntr
  else if 0x400 ≤ off ∧ off < 0x420 then some (.evtyper (Fin.ofNat 8 ((off - 0x400) / 4)))
  else lookupKey [(0xC00, .cntenSet), (0xC20, .cntenClr), (0xC40, .intenSet), (0xC60, .intenClr), (0xC80, .ovsr),
    (0xCA0, .swinc), (0xE04, .pmcr), (0xE08, .userenr)] off

/-- Read the PMU block at a word-aligned offset (64_debug_pmu.md R734 to R736, R752): what is not listed reads 0. DESIGN CHOICE:
CLAIMSET and CLAIMCLR have eight claim tags, whose number R735 does not give (log entry 110), and the write-only LOCKACCESS and
PMSWINC read 0 (log entry 75). -/
def readPmuBlock (s : State) (off : Nat) : Word :=
  match pmuRegAt off with
  | some r => readPmu r s.pmu
  | none =>
    if 0xD00 ≤ off ∧ off < 0xE00 then (pmuIds s.cfg).getD ((off - 0xD00) / 4) 0
    else if off = 0xFA0 then 0xFF
    else if off = 0xFA4 then s.dbg.pmuClaim
    else if off = 0xFB4 then Config.lockStatus s.dbg.pmuLock
    else if off = 0xFB8 then authStatus s.pins
    else if off = 0xFC8 then Config.pmuDevId
    else if off = 0xFCC then Config.pmuDevType
    else if 0xFD0 ≤ off then pmuIdBytes.getD ((off - 0xFD0) / 4) 0
    else 0

/-- Write the PMU block at a word-aligned offset (64_debug_pmu.md R734, R735). DESIGN CHOICE: a store of User mode reaches every
register of the block, PMUSERENR and the interrupt enables too, for R734 and R770 name no privilege (log entry 111); eight claim
tags (log entry 110). -/
def writePmuBlock (off : Nat) (v : Word) (s : State) : State :=
  match pmuRegAt off with
  | some r => { s with pmu := writePmu r v s.pmu }
  | none =>
    if off = 0xFA0 then { s with dbg := { s.dbg with pmuClaim := s.dbg.pmuClaim ||| (v &&& 0xFF) } }
    else if off = 0xFA4 then { s with dbg := { s.dbg with pmuClaim := s.dbg.pmuClaim &&& ~~~ v } }
    else if off = 0xFB0 then { s with dbg := { s.dbg with pmuLock := v } }
    else s

/-- What stands in a 4KB block of the debug address map (64_debug_pmu.md R770): the ROM table, a processor's debug block or its
PMU block (`true` for the other processor), a unit whose registers are out of scope (00_scope.md R6), or nothing. -/
inductive DebugPlace where
  | rom | debug (other : Bool) | pmu (other : Bool) | unit | reserved
  deriving DecidableEq, Repr

/-- The offset in the debug address map that an address reaches (64_debug_pmu.md R770): the whole map stands at the ROM address,
and the 32KB with the processors' own blocks, from 0x10000 on, at the self address too, while DBGSELFADDRV is HIGH (log
entry 81). DEDUCED: R770, which has the processors reach the blocks by load and store, is followed over
40_system_register_access.md R461 and 65_power_mp.md R817, which have no such path (log entry 114). -/
def windowOffset (cfg : Config) (a : Word) : Option Nat :=
  let fromRom := (a - (cfg.dbgRomAddr ++ 0#12)).toNat
  let fromSelf := (a - (cfg.dbgRomAddr ++ 0#12) - (cfg.dbgSelfAddr ++ 0#15)).toNat
  if !cfg.dbgSelfAddrV then none
  else if fromSelf < 0x8000 then some (0x10000 + fromSelf)
  else if fromRom < 0x20000 then some fromRom
  else none

/-- Whether an address is in the debug window (64_debug_pmu.md R770). -/
def inWindow (cfg : Config) (a : Word) : Bool := (windowOffset cfg a).isSome

/-- What block `b` of the debug address map holds for the processor modelled (64_debug_pmu.md R770). -/
def placeOf (cfg : Config) (b : Nat) : DebugPlace :=
  let built (second : Bool) (p : DebugPlace) : DebugPlace := if !second || cfg.twoCpus || cfg.cpu then p else .reserved
  match b with
  | 0x00 => .rom
  | 0x10 => .debug cfg.cpu
  | 0x11 => .pmu cfg.cpu
  | 0x12 => built true (.debug (!cfg.cpu))
  | 0x13 => built true (.pmu (!cfg.cpu))
  | 0x18 => .unit
  | 0x19 => built true .unit
  | 0x1C => .unit
  | 0x1D => built true .unit
  | _ => .reserved

/-- The resets with the two processors' exchanged. -/
def exchangeResets (r : Resets) : Resets :=
  { r with cpu := r.otherCpu, otherCpu := r.cpu, dbg := r.otherDbg, otherDbg := r.dbg }

/-- The machine as the other processor's debug and PMU blocks see it: its number, the sizes of its TCMs (00_scope.md R10), its
pins (R12), and its debug and PMU registers, exchanged with those of the processor modelled. -/
def exchanged (s : State) : State :=
  { s with
    cfg := { s.cfg with
      cpu := !s.cfg.cpu
      itcmBuild := s.cfg.otherItcmBuild
      dtcmBuild := s.cfg.otherDtcmBuild
      otherItcmBuild := s.cfg.itcmBuild
      otherDtcmBuild := s.cfg.dtcmBuild }
    pins := { s.pins with
      dbgEn := s.pins.otherDbgEn
      nidEn := s.pins.otherNidEn
      otherDbgEn := s.pins.dbgEn
      otherNidEn := s.pins.nidEn
      resets := exchangeResets s.pins.resets }
    dbg := s.otherDbg
    pmu := s.otherPmu
    otherDbg := s.dbg
    otherPmu := s.pmu }

/-- Do something to the registers of the other processor instead of one's own, if asked to. -/
def onProcessor {α : Type} (other : Bool) (body : M α) : M α := fun s =>
  if other then
    match body (exchanged s) with
    | .ok r t => .ok r (exchanged t)
    | .error e t => .error e (exchanged t)
  else body s

/-- Read the debug address map at an offset (64_debug_pmu.md R734, R746, R770): none where the access gets an error response. -/
def windowRead (off : Nat) : M (Option Word) := fun s =>
  let n := off % 0x1000 / 4
  match placeOf s.cfg (off / 0x1000) with
  | .rom => .ok (some (Config.dbgRomEntry n)) s
  | .debug other => onProcessor other (some <$> readDebugBlock n) s
  | .pmu other => onProcessor other (fun t => .ok (some (readPmuBlock t (n * 4))) t) s
  | .unit => .error (.refuse .debugUnit) s
  | .reserved => .ok none s

/-- Write the debug address map at an offset: false where the access gets an error response; the ROM table ignores writes. -/
def windowWrite (off : Nat) (v : Word) : M Bool := fun s =>
  let n := off % 0x1000 / 4
  match placeOf s.cfg (off / 0x1000) with
  | .rom => .ok true s
  | .debug other => onProcessor other ((fun _ => true) <$> writeDebugBlock n v) s
  | .pmu other => onProcessor other (fun t => .ok true (writePmuBlock (n * 4) v t)) s
  | .unit => .error (.refuse .debugUnit) s
  | .reserved => .ok false s

end Sys2Proof.Machine
end

