-- ==== Sys2Proof/Machine/Scu.lean ====
section
/-! DEFINITION. The Snoop Control Unit's registers and its duplicate tag RAM (61_scu.md R580 to R603). -/

namespace Sys2Proof.Machine

/-- The data cache size field of SCU Configuration (61_scu.md R587). -/
def scuSizeCode : RamSize → Word
  | .none => 0 | .kb4 => 1 | .kb8 => 2 | .kb16 => 3 | .kb32 => 4 | .kb64 => 5 | .kb128 => 5

/-- The data cache of processor 0 (`false`) or 1 (61_scu.md R587). -/
def dcacheOf (cfg : Config) (cpu : Bool) : RamSize :=
  if cpu == cfg.cpu then cfg.dcache else match cfg.otherDcache with
    | some k => k.ram
    | none => .none

/-- SCU Configuration (61_scu.md R587): sizes, SMP bits, number of processors. -/
def scuConfig (s : State) : Word :=
  let own := scuSizeCode s.cfg.dcache
  let other := if s.cfg.twoCpus then scuSizeCode (dcacheOf s.cfg (!s.cfg.cpu)) else 0
  let ownSmp := s.cp15.actlr.getLsbD 6
  let otherSmp := s.cfg.twoCpus && s.otherSmp
  let size0 := if s.cfg.cpu then other else own
  let size1 := if s.cfg.cpu then own else other
  let smp0 := if s.cfg.cpu then otherSmp else ownSmp
  let smp1 := if s.cfg.cpu then ownSmp else otherSmp
  (size1 <<< 12) ||| (size0 <<< 8) ||| bitAt smp1 5 ||| bitAt smp0 4 ||| bitAt s.cfg.twoCpus 0

/-- Read an SCU register (61_scu.md R584 to R602); what is not present reads 0 (D36). -/
def scuRead (s : State) (off : Nat) : Word :=
  match off with
  | 0x00 => s.scu.ctrl
  | 0x04 => scuConfig s
  | 0x08 => s.scu.power
  | 0x40 => if s.cfg.axiMaster1 then s.cfg.mfilterStart.setWidth 32 <<< 20 else 0
  | 0x44 => if s.cfg.axiMaster1 then s.cfg.mfilterEnd.setWidth 32 <<< 20 else 0
  | 0x48 => s.cfg.pfilterStart.setWidth 32 <<< 20
  | 0x4C => s.cfg.pfilterEnd.setWidth 32 <<< 20
  | 0x50 => s.scu.access
  | 0x60 => if s.cfg.ecc then s.scu.err0 else 0
  | 0x64 => if s.cfg.ecc then s.scu.err1 else 0
  | 0x70 => s.scu.tagOp
  | 0x74 => s.scu.tagValue
  | 0x78 => if s.cfg.ecc then s.scu.tagEcc else 0
  | _ => 0

/-- Whether this processor's bit in the SCU Access Control Register is set (61_scu.md R596). -/
def scuAllowed (s : State) : Bool := s.scu.access.getLsbD (if s.cfg.cpu then 1 else 0)

/-- Key of an entry of the duplicate tag RAM: processor, way and set (61_scu.md R600). -/
def scuTagKey (cpu : Nat) (way set : Nat) : Nat := (cpu * 4 + way) * 512 + set

/-- The bits an entry of the duplicate tag RAM holds: valid, and as much of the tag value as the data cache size of its
processor uses (61_scu.md R601). DESIGN CHOICE: without a data cache, which R601 does not list, it holds none, the valid bit
among them (log entry 99). -/
def scuTagMask : RamSize → Word
  | .kb4 => 0x00600000 | .kb8 => 0x00700000 | .kb16 => 0x00780000 | .kb32 => 0x007C0000 | .kb64 => 0x007E0000
  | .kb128 => 0x007E0000 | .none => 0

/-- The chunk that goes with a value in a set of the duplicate tag RAM (20_memory.md R260). -/
def scuTagCode (set : Nat) (value : Word) : Byte :=
  (Config.eccScuTag (value.setWidth 29) (BitVec.ofNat 9 set)).setWidth 8

/-- Write an entry of the duplicate tag RAM, with its chunk in a build with ECC. DESIGN CHOICE: the chunk is written while
checking is off too (SCU Control bit [2] 0), of which 61_scu.md R585 says nothing (log entry 105). -/
def setScuTag (ecc : Bool) (key : Nat) (value : Word) (u : Scu) : Scu :=
  { u with
    tags := sparseWrite u.tags key value
    tagChunks := if ecc then sparseWrite u.tagChunks key (scuTagCode (key % 512) value) else u.tagChunks }

/-- Invalidate the entries of a way from set 0 to `n` - 1. DESIGN CHOICE: an invalidated entry is 0 in every bit, with the chunk
of that value, where R590 says no more than that its line is invalidated (61_scu.md; log entry 99). -/
def clearScuWay (ecc : Bool) (way : Nat) : Nat → Scu → Scu
  | 0, u => u
  | n + 1, u => clearScuWay ecc way n (setScuTag ecc (way * 512 + n) 0 u)

/-- Invalidate the selected ones of the ways numbered below `n`: bit 4p + w of the selection is way w of processor p
(61_scu.md R590). -/
def clearScuWays (ecc : Bool) (sel : Word) : Nat → Scu → Scu
  | 0, u => u
  | n + 1, u => clearScuWays ecc sel n (if sel.getLsbD n then clearScuWay ecc n 512 u else u)

/-- Invalidate every line of the selected ways (61_scu.md R590). -/
def scuInvalidate (v : Word) (s : State) : State :=
  { s with scu := clearScuWays s.cfg.ecc v (if s.cfg.twoCpus then 8 else 4) s.scu }

/-- Perform a debug tag RAM operation (61_scu.md R600 to R602): bit 0 reads or writes the entry that [31:30], [24] and
[13:5] select. DESIGN CHOICE: a set past those of the target's cache, and processor 1 of a build with one processor, name entries
like the others (log entry 99). -/
def scuTagOp (v : Word) (s : State) : State :=
  let key := scuTagKey (v.extractLsb' 24 1).toNat (v.extractLsb' 30 2).toNat (v.extractLsb' 5 9).toNat
  let used := scuTagMask (dcacheOf s.cfg (v.getLsbD 24))
  let s1 := { s with scu := { s.scu with tagOp := v &&& 0xC1003FE1 } }
  if v.getLsbD 0 then
    { s1 with scu := { s1.scu with
        tags := sparseWrite s.scu.tags key (s.scu.tagValue &&& used)
        tagChunks := if s.cfg.ecc then sparseWrite s.scu.tagChunks key (s.scu.tagEcc.setWidth 8) else s.scu.tagChunks } }
  else
    { s1 with scu := { s1.scu with
        tagValue := sparseRead s.scu.tags key
        tagEcc := if s.cfg.ecc then (sparseRead s.scu.tagChunks key).setWidth 32 else 0 } }

/-- The bits the Data Value register holds: those some processor's entries use (61_scu.md R601). -/
def scuValueMask (cfg : Config) : Word :=
  scuTagMask (dcacheOf cfg false) ||| (if cfg.twoCpus then scuTagMask (dcacheOf cfg true) else 0)

/-- Write an SCU register (61_scu.md R585 to R603). The gated registers ignore the write of a processor without access
(R596, D34); read-only and absent ones ignore every write. DESIGN CHOICE: the reserved SBZ bits of the others read 0 and ignore
writes, of which the rules say nothing (log entry 122). -/
def scuWrite (off : Nat) (v : Word) (s : State) : State :=
  match off with
  | 0x00 =>
    if scuAllowed s then
      { s with scu := { s.scu with ctrl := maskWrite s.scu.ctrl v (if s.cfg.ecc then 0x0000F06D else 0x0000F069) } }
    else s
  | 0x08 => if scuAllowed s then { s with scu := { s.scu with power := v &&& 0x00000303 } } else s
  | 0x0C => if scuAllowed s then scuInvalidate v s else s
  | 0x50 => { s with scu := { s.scu with access := v &&& 3 } }
  | 0x60 => if scuAllowed s && s.cfg.ecc then { s with scu := { s.scu with err0 := v &&& 0x00FF3FE3 } } else s
  | 0x64 => if scuAllowed s && s.cfg.ecc then { s with scu := { s.scu with err1 := v &&& 0x00FF3FE3 } } else s
  | 0x70 => scuTagOp v s
  | 0x74 => { s with scu := { s.scu with tagValue := v &&& scuValueMask s.cfg } }
  | 0x78 => if s.cfg.ecc then { s with scu := { s.scu with tagEcc := v &&& 0x7F } } else s
  | _ => s

/-- Record in the duplicate tag RAM that a line of this processor's data cache came (`valid`) or went (61_scu.md R582,
20_memory.md R272). What the value field then holds is not stated (91_not_in_source.md N61-2): a free value. -/
def scuNote (way set : Nat) (valid : Bool) (s : State) : State :=
  let key := scuTagKey (if s.cfg.cpu then 1 else 0) way set
  if valid then
    { s with free := s.free + 1,
             scu := setScuTag s.cfg.ecc key ((Config.freeWord s.free ||| 0x00400000) &&& scuTagMask s.cfg.dcache) s.scu }
  else { s with scu := setScuTag s.cfg.ecc key 0 s.scu }

/-! ### Errors of the duplicate tag RAM (20_memory.md R260, R261, R263; 61_scu.md R597 to R599) -/

/-- SCU Control bit [2] in a build with ECC: the duplicate tag RAM is checked (61_scu.md R585). -/
def scuEccOn (s : State) : Bool := s.cfg.ecc && s.scu.ctrl.getLsbD 2

/-- Whether an error bank entry of status 0b11 names way `way` (4p + w) and set `set` (61_scu.md R597, R599). -/
def scuEntryAvoids (e : Word) (way set : Nat) : Bool :=
  e &&& 3 == 3 && e.getLsbD (16 + way) && (e.extractLsb' 5 9).toNat == set

/-- Whether the hardware avoids a way of a set of this processor: a confirmed error of the duplicate tag RAM
(61_scu.md R599). -/
def scuAvoids (s : State) (way set : Nat) : Bool :=
  let w := (if s.cfg.cpu then 4 else 0) + way
  s.cfg.ecc && (scuEntryAvoids s.scu.err0 w set || scuEntryAvoids s.scu.err1 w set)

/-- Whether the chunk stored with an entry is not the code of its value. -/
def scuTagBad (s : State) (way set : Nat) : Bool :=
  sparseRead s.scu.tagChunks (way * 512 + set) != scuTagCode set (sparseRead s.scu.tags (way * 512 + set))

/-- An SCU error bank entry of an error in way `way` (4p + w) of a set: status 0b10 if the processor has handled it too, 0b01
if not (61_scu.md R597). -/
def scuEntry (way set : Nat) (handled : Bool) : Word :=
  bitAt true (16 + way) ||| BitVec.ofNat 32 (set * 32) ||| (if handled then 2 else 1)

/-- Push an error into the first entry of the SCU's bank whose status is 0b00, if there is one (61_scu.md R597, R598;
20_memory.md R261). -/
def scuRecord (e : Word) (u : Scu) : Scu :=
  if u.err0 &&& 3 = 0 then { u with err0 := e }
  else if u.err1 &&& 3 = 0 then { u with err1 := e }
  else u

end Sys2Proof.Machine
end

