-- ==== Sys2Proof/Machine/Gic.lean ====
section
/-! DEFINITION. The interrupt controller (62_gic.md R630 to R675): the registers of the distributor and of this processor's
interface, sampling of the inputs, acknowledge and end of interrupt, and the IRQ request to the processor. -/

namespace Sys2Proof.Machine

/-- How many interrupt IDs exist: 32 and the SPIs (62_gic.md R634). -/
def idCount (cfg : Config) : Nat := 32 * (cfg.spiBlocks.toNat + 1)

/-- Bit `id` of a vector of 512 bits in words of 32. -/
def idBit (v : Vector Word 16) (id : Nat) : Bool := (v[Fin.ofNat 16 (id / 32)]).getLsbD (id % 32)

/-- A vector of 512 bits with bit `id` set to `b`. -/
def setIdBit (v : Vector Word 16) (id : Nat) (b : Bool) : Vector Word 16 :=
  v.set (Fin.ofNat 16 (id / 32)) (setBit v[Fin.ofNat 16 (id / 32)] (id % 32) b)

/-- Which bits of word `n` stand for implemented interrupts; IDs 16 to 26 do not exist (62_gic.md R634, D40). -/
def idMask (cfg : Config) (n : Nat) : Word :=
  if n = 0 then 0xF800FFFF else if n ≤ cfg.spiBlocks.toNat then 0xFFFFFFFF else 0

/-- Bit of this processor in a target byte (62_gic.md R647). -/
def cpuBit (cfg : Config) : Byte := if cfg.cpu then 2 else 1

/-- The target byte of an SPI. A build with one processor has no target registers: every SPI goes to it (R647). -/
def spiTarget (s : State) (id : Nat) : Byte :=
  if s.cfg.twoCpus then sparseRead s.gic.target id else 1

/-- Whether an interrupt is rising-edge sensitive (62_gic.md R634, R648). SGIs have no input. -/
def isEdge (s : State) (id : Nat) : Bool :=
  if id < 16 then true else if id = 29 || id = 30 then true else if id < 32 then false else idBit s.gic.edge id

/-- An interrupt is pending when it is latched pending, or its level-sensitive input is asserted (62_gic.md R671). An SPI
without a target is never pending by its input (R644). -/
def isPending (s : State) (id : Nat) : Bool :=
  idBit s.gic.pending id ||
    (idBit s.gic.level id && !isEdge s id && (decide (id < 32) || spiTarget s id != 0))

/-- Whether an interrupt is one this processor's interface may signal (62_gic.md R672). -/
def isCandidate (s : State) (id : Nat) : Bool :=
  isPending s id && idBit s.gic.enabled id && (decide (id < 32) || spiTarget s id &&& cpuBit s.cfg != 0)

/-- Priority of an interrupt: bits [7:4] are in use (62_gic.md R638, R646). -/
def idPriority (s : State) (id : Nat) : Byte := sparseRead s.gic.prio id &&& 0xF0

/-- The better of a candidate so far and a later ID: a lower priority value wins, then the lower ID (62_gic.md R672). -/
def betterId (s : State) (best : Option Nat) (id : Nat) : Option Nat :=
  if isCandidate s id then
    match best with
    | none => some id
    | some b => if (idPriority s id).toNat < (idPriority s b).toNat then some id else some b
  else best

/-- The highest-priority pending interrupt that the distributor forwards to this processor (62_gic.md R667, R672): none while
the distributor is disabled (R640). DESIGN CHOICE: for ICCHPIR too only an enabled interrupt counts, which R667 does not say (log
entry 106). -/
def highestPending (s : State) : Option Nat :=
  if s.gic.distEnable then (List.range (idCount s.cfg)).foldl (betterId s) none else none

/-- Group priority: bits [7:bp+1] (62_gic.md R663). -/
def groupPriority (s : State) (p : Byte) : Nat := p.toNat / 2 ^ ((s.gic.bpr.toNat % 8) + 1)

/-- Whether a priority preempts what is active and passes the mask (62_gic.md R662, R672). -/
def prioritySuffices (s : State) (p : Byte) : Bool :=
  decide (p.toNat < (s.gic.pmr &&& 0xF0).toNat) &&
    match s.gic.stack with
    | [] => true
    | (_, q) :: _ => decide (groupPriority s p < groupPriority s q)

/-- The interrupt the interface signals, if any (62_gic.md R661, R672), which is also the one a read of ICCIAR acknowledges
(R664). -/
def signalled (s : State) : Option Nat :=
  if s.gic.ifEnable then
    match highestPending s with
    | some id => if prioritySuffices s (idPriority s id) then some id else none
    | none => none
  else none

/-- The IRQ request to the processor (60_exceptions.md R540, 62_gic.md R637): the interface's output when the interface is
enabled, else the legacy pin. -/
def irqRequest (s : State) : Bool :=
  if s.gic.ifEnable then (signalled s).isSome else !s.pins.nIrq

/-- The FIQ request to the processor: the pin nFIQ (60_exceptions.md R541). -/
def fiqRequest (s : State) : Bool := !s.pins.nFiq

/-! ### Sampling the inputs -/

/-- The level of ID27: the comparator's event flag and its interrupt enable (63_timers.md R716). -/
def globalTimerLevel (s : State) : Bool := s.timers.gStatus.getLsbD 0 && s.timers.gControl.getLsbD 2

/-- The asserted levels of word `n` of the interrupt inputs: PPIs 27, 28 and 31 in word 0 (62_gic.md R634), IRQS above. -/
def inputWord (s : State) (n : Fin 16) : Word :=
  if n = 0 then bitAt (globalTimerLevel s) 27 ||| bitAt (!s.pins.nFiq) 28 ||| bitAt (!s.pins.nIrq) 31
  else s.pins.irqs[Fin.ofNat 15 (n.val - 1)] &&& idMask s.cfg n.val

/-- Those bits of word `n` whose SPI has a target (62_gic.md R644). -/
def targetedWord (s : State) (n : Nat) : Word :=
  (List.range 32).foldl (fun acc b => acc ||| bitAt (spiTarget s (32 * n + b) != 0) b) 0

/-- The distributor samples its inputs (62_gic.md R671): nothing changes while it is disabled (R640); a rising edge of an
edge-sensitive SPI with a target latches it pending. DESIGN CHOICE: it does so in every step, also in one without an edge of
PERIPHCLK, where R632 says only that it does so at some later time (log entry 124). -/
def sampleInputs (s : State) : State :=
  if s.gic.distEnable then
    let input := Vector.ofFn fun n => inputWord s n
    let rising := Vector.ofFn fun (n : Fin 16) =>
      if n = 0 then 0
      else
        let up := input[n] &&& ~~~ s.gic.level[n] &&& s.gic.edge[n]
        if up = 0 then 0 else up &&& targetedWord s n.val
    let pending := Vector.ofFn fun (n : Fin 16) => s.gic.pending[n] ||| rising[n]
    { s with gic := { s.gic with level := input, pending := pending } }
  else s

/-- A private timer or watchdog event makes its edge-sensitive interrupt pending, unless the distributor is disabled
(62_gic.md R640, R671; 63_timers.md R696, R706). -/
def raisePpi (id : Nat) (s : State) : State :=
  if s.gic.distEnable then { s with gic := { s.gic with pending := setIdBit s.gic.pending id true } } else s

/-! ### Acknowledge and end of interrupt -/

/-- The processor whose request in an SGI's source byte, which has one bit a sender (62_gic.md R670), is shown and acknowledged.
DESIGN CHOICE: of two the lower-numbered, which R664 does not say (log entry 107); 0 of an SGI that a write of ICDISPR0 made
pending (log entry 91). -/
def sgiSource (from_ : Byte) : Word := if from_.getLsbD 0 then 0 else if from_.getLsbD 1 then 1 else 0

/-- What ICCIAR and ICCHPIR show of an interrupt: ID in [9:0], the source of an SGI in [12:10] (62_gic.md R664). -/
def idValue (s : State) (id : Nat) : Word :=
  BitVec.ofNat 32 id ||| (if id < 16 then sgiSource (sparseRead s.gic.sgiFrom id) <<< 10 else 0)

/-- Make an interrupt active; an edge-triggered interrupt or an SGI stops being pending, an SGI only when no other
processor's request is left (62_gic.md R664, R670). -/
def acknowledge (id : Nat) (s : State) : State :=
  let left := if id < 16 then
      let f := sparseRead s.gic.sgiFrom id
      f &&& ~~~ (if f.getLsbD 0 then 1 else 2)
    else 0
  let still := if isEdge s id then left != 0 else idBit s.gic.pending id
  { s with gic := { s.gic with
      pending := setIdBit s.gic.pending id still
      active := setIdBit s.gic.active id true
      sgiFrom := if id < 16 then sparseWrite s.gic.sgiFrom id left else s.gic.sgiFrom
      stack := (id, idPriority s id) :: s.gic.stack } }

/-- Remove the latest entry of an interrupt from the stack of active ones. -/
def dropActive (id : Nat) : List (Nat × Byte) → List (Nat × Byte)
  | [] => []
  | (i, p) :: rest => if i = id then rest else (i, p) :: dropActive id rest

/-- End of interrupt (62_gic.md R665): the interrupt leaves the active state and the running priority drops. DESIGN CHOICE: the ID
alone decides, and the source field [12:10] is ignored, of which R665 says nothing (log entry 123). -/
def endInterrupt (v : Word) (s : State) : State :=
  let id := (v &&& 0x3FF).toNat
  if s.gic.stack.any (fun e => e.1 == id) then
    { s with gic := { s.gic with
        active := setIdBit s.gic.active id false
        stack := dropActive id s.gic.stack } }
  else s

/-! ### Interface registers (62_gic.md R660 to R668) -/

/-- Read an interface register; reading ICCIAR acknowledges (62_gic.md R664). DESIGN CHOICE: while ICCICR.Enable is 0, which R664
does not name, it reads 0x3FF and acknowledges nothing (log entry 101), and the write-only ICCEOIR reads 0, of which R665 says
nothing (log entry 108). The offsets that hold no register read 0 (log entry 67). -/
def iccRead (off : Nat) : M Word := fun s =>
  match off with
  | 0x00 => .ok (bitAt s.gic.ifEnable 0) s
  | 0x04 => .ok s.gic.pmr s
  | 0x08 => .ok s.gic.bpr s
  | 0x0C => match signalled s with
    | some id => .ok (idValue s id) (acknowledge id s)
    | none => .ok 0x3FF s
  | 0x14 => match s.gic.stack with
    | [] => .ok 0xFF s
    | (_, p) :: _ => .ok (p.setWidth 32) s
  | 0x18 => match highestPending s with
    | some id => .ok (idValue s id) s
    | none => .ok 0x3FF s
  | 0xFC => .ok 0x3901243B s
  | _ => .ok 0 s

/-- Write an interface register (62_gic.md R661 to R665); the others ignore writes (log entry 67). DESIGN CHOICE: so do bits [31:3]
of ICCBPR, which read 0 and which R663 does not name (log entry 122). -/
def iccWrite (off : Nat) (v : Word) : M Unit := fun s =>
  match off with
  | 0x00 => .ok () { s with gic := { s.gic with ifEnable := v.getLsbD 0 } }
  | 0x04 => .ok () { s with gic := { s.gic with pmr := v &&& 0xF0 } }
  | 0x08 => .ok () { s with gic := { s.gic with bpr := v &&& 7 } }
  | 0x10 => .ok () (endInterrupt v s)
  | _ => .ok () s

/-! ### Distributor registers (62_gic.md R639 to R652) -/

/-- Word `n` of the pending bits as ICDISPR and ICDICPR read (62_gic.md R644). -/
def pendingWord (s : State) (n : Nat) : Word :=
  (List.range 32).foldl (fun acc b => acc ||| bitAt (isPending s (32 * n + b)) b) 0 &&& idMask s.cfg n

/-- Four bytes of a byte-per-interrupt register, the lowest ID in bits [7:0]. -/
def fourBytes (f : Nat → Byte) (id : Nat) : Word := f (id + 3) ++ f (id + 2) ++ f (id + 1) ++ f id

/-- Whether an interrupt ID exists (62_gic.md R634, D40). -/
def idExists (cfg : Config) (id : Nat) : Bool := (idMask cfg (id / 32)).getLsbD (id % 32)

/-- A target byte as read (62_gic.md R647, D42): IDs 0 to 31 read the reader's own bit; one processor reads 0. -/
def targetByte (s : State) (id : Nat) : Byte :=
  if !s.cfg.twoCpus || !idExists s.cfg id then 0
  else if id < 32 then cpuBit s.cfg else sparseRead s.gic.target id

/-- A word of configuration bit-pairs (62_gic.md R648). -/
def configWord (s : State) (n : Nat) : Word :=
  if n = 0 then 0xAAAAAAAA
  else if n = 1 then 0x7D400000
  else (List.range 16).foldl (fun acc j =>
    if idExists s.cfg (16 * n + j) then
      acc ||| bitAt true (2 * j) ||| bitAt (idBit s.gic.edge (16 * n + j)) (2 * j + 1)
    else acc) 0

/-- PPI Status (62_gic.md R649): raw pin levels of the active-LOW pins (D44). DESIGN CHOICE: the signals PPI[2] and PPI[3], of
which the spec gives the edges of ID29 and ID30 only, are the event flag with the interrupt enable of their timer (log entry
100). -/
def ppiStatus (s : State) : Word :=
  bitAt s.pins.nIrq 15 ||| bitAt (s.timers.wdStatus.getLsbD 0 && s.timers.wdControl.getLsbD 2) 14
    ||| bitAt (s.timers.status.getLsbD 0 && s.timers.control.getLsbD 2) 13 ||| bitAt s.pins.nFiq 12
    ||| bitAt (globalTimerLevel s) 11

/-- Read a word of the distributor at an offset from its base (62_gic.md R639); offsets not listed read 0, and so do the reserved
SBZ bits of ICDDCR (log entry 122). -/
def distRead (s : State) (off : Nat) : Word :=
  if off = 0x000 then bitAt s.gic.distEnable 0
  else if off = 0x004 then bitAt s.cfg.twoCpus 5 ||| s.cfg.spiBlocks.setWidth 32
  else if off = 0x008 then 0x0300043B
  else if 0x100 ≤ off ∧ off < 0x140 then s.gic.enabled[Fin.ofNat 16 ((off - 0x100) / 4)]
  else if 0x180 ≤ off ∧ off < 0x1C0 then s.gic.enabled[Fin.ofNat 16 ((off - 0x180) / 4)]
  else if 0x200 ≤ off ∧ off < 0x240 then pendingWord s ((off - 0x200) / 4)
  else if 0x280 ≤ off ∧ off < 0x2C0 then pendingWord s ((off - 0x280) / 4)
  else if 0x300 ≤ off ∧ off < 0x340 then s.gic.active[Fin.ofNat 16 ((off - 0x300) / 4)]
  else if 0x400 ≤ off ∧ off < 0x600 then fourBytes (idPriority s) (off - 0x400)
  else if 0x800 ≤ off ∧ off < 0xA00 then fourBytes (targetByte s) (off - 0x800)
  else if 0xC00 ≤ off ∧ off < 0xC80 then configWord s ((off - 0xC00) / 4)
  else if off = 0xD00 then ppiStatus s
  else if 0xD04 ≤ off ∧ off < 0xD40 then
    s.pins.irqs[Fin.ofNat 15 ((off - 0xD04) / 4)] &&& idMask s.cfg ((off - 0xD04) / 4 + 1)
  else if 0xFD0 ≤ off then (s.cfg.gicIdBytes.getD ((off - 0xFD0) / 4) 0).setWidth 32
  else 0

/-- Write one priority byte (62_gic.md R646): bits [7:4] of an implemented interrupt. -/
def writePriority (id : Nat) (v : Byte) (s : State) : State :=
  if idExists s.cfg id then { s with gic := { s.gic with prio := sparseWrite s.gic.prio id (v &&& 0xF0) } } else s

/-- Write one target byte (62_gic.md R647): bits [1:0] of an implemented SPI, with two processors. -/
def writeTarget (id : Nat) (v : Byte) (s : State) : State :=
  if idExists s.cfg id && decide (32 ≤ id) && s.cfg.twoCpus then
    { s with gic := { s.gic with target := sparseWrite s.gic.target id (v &&& 3) } }
  else s

/-- Write the four bytes of a word, the lowest ID from bits [7:0]. -/
def writeFour (f : Nat → Byte → State → State) (id : Nat) (v : Word) (s : State) : State :=
  f (id + 3) (v.extractLsb' 24 8) (f (id + 2) (v.extractLsb' 16 8) (f (id + 1) (v.extractLsb' 8 8) (f id (v.extractLsb' 0 8) s)))

/-- Write the bit-pairs of 16 interrupts: the upper bit of an implemented SPI's pair (62_gic.md R648). -/
def writeConfig (n : Nat) (v : Word) (s : State) : State :=
  (List.range 16).foldl (fun t j =>
    let id := 16 * n + j
    if idExists t.cfg id && decide (32 ≤ id) then
      { t with gic := { t.gic with edge := setIdBit t.gic.edge id (v.getLsbD (2 * j + 1)) } }
    else t) s

/-- Make an SGI pending on this processor, from this processor (62_gic.md R651). -/
def selfSgi (id : Nat) (s : State) : State :=
  { s with gic := { s.gic with
      pending := setIdBit s.gic.pending id true
      sgiFrom := sparseWrite s.gic.sgiFrom id (sparseRead s.gic.sgiFrom id ||| cpuBit s.cfg) } }

/-- A write of ICDSGIR (62_gic.md R651). The other processor's copy of the SGI is its own (log entry 2). DESIGN CHOICE: the filter
0b11, of which R651 says only that it is reserved, sends nothing (log entry 113). -/
def sendSgi (v : Word) (s : State) : State :=
  let here := match (v.extractLsb' 24 2).toNat with
    | 0 => (v.extractLsb' 16 8 &&& cpuBit s.cfg) != 0
    | 2 => true
    | _ => false
  if here then selfSgi (v.extractLsb' 0 4).toNat s else s

/-- Forget the sources of SGIs that a write of ICDICPR0 clears (62_gic.md R644, R670). -/
def clearSgiSources (v : Word) (s : State) : List (Nat × Byte) :=
  s.gic.sgiFrom.filter fun e => !v.getLsbD e.1

/-- Write a word of the distributor (62_gic.md R639 to R651); offsets not listed and read-only ones ignore writes. What a write
of ICDISPR0 to an SGI and one of ICDICPR to a level-sensitive interrupt do is in log entry 91. DESIGN CHOICE: ICDICER0 clears the
enable of an SGI as R643 says of every enable, though it calls the SGIs always enabled (log entry 109). DESIGN CHOICE: the reserved
SBZ bits [31:1] of ICDDCR ignore writes, of which R640 says nothing (log entry 122). -/
def distWrite (off : Nat) (v : Word) (s : State) : State :=
  let n16 (base : Nat) : Fin 16 := Fin.ofNat 16 ((off - base) / 4)
  if off = 0x000 then { s with gic := { s.gic with distEnable := v.getLsbD 0 } }
  else if 0x100 ≤ off ∧ off < 0x140 then
    let n := n16 0x100
    { s with gic := { s.gic with enabled := s.gic.enabled.set n (s.gic.enabled[n] ||| (v &&& idMask s.cfg n.val)) } }
  else if 0x180 ≤ off ∧ off < 0x1C0 then
    let n := n16 0x180
    { s with gic := { s.gic with enabled := s.gic.enabled.set n (s.gic.enabled[n] &&& ~~~ v) } }
  else if 0x200 ≤ off ∧ off < 0x240 then
    let n := n16 0x200
    let may := if n.val = 0 then idMask s.cfg 0 else idMask s.cfg n.val &&& targetedWord s n.val
    { s with gic := { s.gic with pending := s.gic.pending.set n (s.gic.pending[n] ||| (v &&& may)) } }
  else if 0x280 ≤ off ∧ off < 0x2C0 then
    let n := n16 0x280
    { s with gic := { s.gic with
        pending := s.gic.pending.set n (s.gic.pending[n] &&& ~~~ v)
        sgiFrom := if n.val = 0 then clearSgiSources v s else s.gic.sgiFrom } }
  else if 0x400 ≤ off ∧ off < 0x600 then writeFour writePriority (off - 0x400) v s
  else if 0x800 ≤ off ∧ off < 0xA00 then writeFour writeTarget (off - 0x800) v s
  else if 0xC08 ≤ off ∧ off < 0xC80 then writeConfig ((off - 0xC00) / 4) v s
  else if off = 0xF00 then sendSgi v s
  else s

end Sys2Proof.Machine
end

