-- ==== Sys2Proof/Machine/Timers.lean ====
section
/-! DEFINITION. The private timer, the watchdog and the global timer (63_timers.md R690 to R716): their prescaled ticks and
their registers. -/

namespace Sys2Proof.Machine

/-- One prescaled tick of the private timer (63_timers.md R694). -/
def timerTick (s : State) : State :=
  let t := s.timers
  if t.counter ≠ 0 then
    if t.counter = 1 then
      let s1 := { s with timers := { t with counter := 0, status := t.status ||| 1 } }
      if t.control.getLsbD 2 then raisePpi 29 s1 else s1
    else { s with timers := { t with counter := t.counter - 1 } }
  else if t.control.getLsbD 1 then { s with timers := { t with counter := t.load } }
  else s

/-- One prescaled tick of the watchdog (63_timers.md R701): in watchdog mode reaching zero requests a reset (R705). -/
def watchdogTick (s : State) : State :=
  let t := s.timers
  if t.wdCounter ≠ 0 then
    if t.wdCounter = 1 then
      if t.wdControl.getLsbD 3 then
        { s with timers := { t with wdCounter := 0, wdReset := t.wdReset ||| 1 }, outs := { s.outs with wdResetReq := true } }
      else
        let s1 := { s with timers := { t with wdCounter := 0, wdStatus := t.wdStatus ||| 1 } }
        if t.wdControl.getLsbD 2 then raisePpi 30 s1 else s1
    else { s with timers := { t with wdCounter := t.wdCounter - 1 } }
  else if !t.wdControl.getLsbD 3 && t.wdControl.getLsbD 1 then { s with timers := { t with wdCounter := t.wdLoad } }
  else s

/-- The comparison of the global timer (63_timers.md R712): event flag and auto-increment of this processor. -/
def globalCompare (t : Timers) : Timers :=
  if t.gControl.getLsbD 1 && decide (t.comparator.toNat ≤ t.gCounter.toNat) then
    { t with gStatus := t.gStatus ||| 1,
             comparator := if t.gControl.getLsbD 3 then t.comparator + t.autoInc.setWidth 64 else t.comparator }
  else t

/-- One prescaled tick of the global timer (63_timers.md R712). -/
def globalTick (s : State) : State :=
  { s with timers := globalCompare { s.timers with gCounter := s.timers.gCounter + 1 } }

/-- `f` done `n` times. -/
def times (f : State → State) : Nat → State → State
  | 0, s => s
  | n + 1, s => times f n (f s)

/-- The prescaler field of a block's control register (63_timers.md R695, R703, R713). -/
def prescaler (control : Word) : Byte := control.extractLsb' 8 8

/-- One PERIPHCLK edge at the private timer: a tick at every PRESCALER + 1 edges (63_timers.md R691). DESIGN CHOICE: what the
prescaler has counted stays while the block is disabled or one of its registers is written (log entry 30). -/
def timerEdge (s : State) : State :=
  if !s.timers.control.getLsbD 0 then s
  else if (prescaler s.timers.control).toNat ≤ s.timers.prescale.toNat then
    timerTick { s with timers := { s.timers with prescale := 0 } }
  else { s with timers := { s.timers with prescale := s.timers.prescale + 1 } }

/-- One PERIPHCLK edge at the watchdog (63_timers.md R691). -/
def watchdogEdge (s : State) : State :=
  if !s.timers.wdControl.getLsbD 0 then s
  else if (prescaler s.timers.wdControl).toNat ≤ s.timers.wdPrescale.toNat then
    watchdogTick { s with timers := { s.timers with wdPrescale := 0 } }
  else { s with timers := { s.timers with wdPrescale := s.timers.wdPrescale + 1 } }

/-- One PERIPHCLK edge at the global timer (63_timers.md R691). -/
def globalEdge (s : State) : State :=
  if !s.timers.gControl.getLsbD 0 then s
  else if (prescaler s.timers.gControl).toNat ≤ s.timers.gPrescale.toNat then
    globalTick { s with timers := { s.timers with gPrescale := 0 } }
  else { s with timers := { s.timers with gPrescale := s.timers.gPrescale + 1 } }

/-- One PERIPHCLK edge, which all three blocks count (63_timers.md R691). -/
def peripheralEdge (s : State) : State := globalEdge (watchdogEdge (timerEdge s))

/-- Whether some timer block is enabled. -/
def timersEnabled (t : Timers) : Bool := t.control.getLsbD 0 || t.wdControl.getLsbD 0 || t.gControl.getLsbD 0

/-- The timers advance during a step by a number of PERIPHCLK edges that nothing bounds (63_timers.md R691, log entry 30). -/
def timerStage (s : State) : State :=
  if timersEnabled s.timers then times peripheralEdge (Config.freeTicks s.free) { s with free := s.free + 1 } else s

/-- Read a global timer register (63_timers.md R711 to R716); the reserved offsets read 0 (R690; log entry 67). -/
def globalRead (t : Timers) (off : Nat) : Word :=
  match off with
  | 0x00 => t.gCounter.extractLsb' 0 32
  | 0x04 => t.gCounter.extractLsb' 32 32
  | 0x08 => t.gControl
  | 0x0C => t.gStatus
  | 0x10 => t.comparator.extractLsb' 0 32
  | 0x14 => t.comparator.extractLsb' 32 32
  | 0x18 => t.autoInc
  | _ => 0

/-- Write a global timer register; a write of the control or of the comparator is compared at once (63_timers.md R712).
DESIGN CHOICE: so is a write of the control that leaves a set Comp enable at 1 (log entry 102), and a write of a counter word does
not restart the prescaler (log entry 30); the reserved bits of the control and of the status read 0 and ignore writes (log entry
118). -/
def globalWrite (off : Nat) (v : Word) (t : Timers) : Timers :=
  match off with
  | 0x00 => { t with gCounter := t.gCounter.extractLsb' 32 32 ++ v }
  | 0x04 => { t with gCounter := v ++ t.gCounter.extractLsb' 0 32 }
  | 0x08 => globalCompare { t with gControl := v &&& 0x0000FF0F }
  | 0x0C => { t with gStatus := t.gStatus &&& ~~~ (v &&& 1) }
  | 0x10 => globalCompare { t with comparator := t.comparator.extractLsb' 32 32 ++ v }
  | 0x14 => globalCompare { t with comparator := v ++ t.comparator.extractLsb' 0 32 }
  | 0x18 => { t with autoInc := v }
  | _ => t

/-- Read a private timer or watchdog register (63_timers.md R693 to R709); the disable register reads 0 (D45), and so do the
reserved offsets (R690; log entry 67). -/
def privateTimerRead (t : Timers) (off : Nat) : Word :=
  match off with
  | 0x00 => t.load
  | 0x04 => t.counter
  | 0x08 => t.control
  | 0x0C => t.status
  | 0x20 => t.wdLoad
  | 0x24 => t.wdCounter
  | 0x28 => t.wdControl
  | 0x2C => t.wdStatus
  | 0x30 => t.wdReset
  | _ => 0

/-- Write a private timer or watchdog register (63_timers.md R693 to R709). Any write of the block but the right second
key word to the disable register disarms the key (R709, D53). DESIGN CHOICE: a write of the load or the counter does not restart
the prescaler (log entry 30); bits [31:1] of the status registers read 0 and ignore writes (log entry 118). -/
def privateTimerWrite (off : Nat) (v : Word) (t : Timers) : Timers :=
  let u := { t with wdArmed := false }
  match off with
  | 0x00 => { u with load := v, counter := v }
  | 0x04 => { u with counter := v }
  | 0x08 => { u with control := v &&& 0x0000FF07 }
  | 0x0C => { u with status := t.status &&& ~~~ (v &&& 1) }
  | 0x20 => { u with wdLoad := v, wdCounter := v }
  | 0x24 => if t.wdControl.getLsbD 3 then u else { u with wdCounter := v }
  | 0x28 => { u with wdControl := (v &&& 0x0000FF0F) ||| (t.wdControl &&& 8) }
  | 0x2C => { u with wdStatus := t.wdStatus &&& ~~~ (v &&& 1) }
  | 0x30 => { u with wdReset := t.wdReset &&& ~~~ (v &&& 1) }
  | 0x34 =>
    if v = 0x12345678 then { t with wdArmed := true }
    else if v = 0x87654321 && t.wdArmed then { u with wdControl := t.wdControl &&& ~~~ 8 }
    else u
  | _ => u

end Sys2Proof.Machine
end

