-- ==== Sys2Proof/Machine/Bus.lean ====
section
/-! DEFINITION. What serves an access that no TCM and no cache serves (20_memory.md R289 to R304): the private memory
region, the peripheral port, the debug window and the master ports, with their error responses. Data travel as lists of bytes, the lowest
address first. -/

namespace Sys2Proof.Machine

/-- Whether the top twelve bits of an address lie in a filter range, both ends included (61_scu.md R592, R594). -/
def inFilter (first last : BitVec 12) (a : Word) : Bool :=
  let top := (a.extractLsb' 20 12).toNat
  decide (first.toNat ≤ top) && decide (top ≤ last.toNat)

/-- Whether an address is in the private memory region, which the peripheral filter must cover (20_memory.md R289,
61_scu.md R583). -/
def inPrivate (cfg : Config) (a : Word) : Bool :=
  a.extractLsb' 13 19 == cfg.periphBase && inFilter cfg.pfilterStart cfg.pfilterEnd a

/-- Whether an address goes to the peripheral port (20_memory.md R292). -/
def inPeripheral (cfg : Config) (a : Word) : Bool := inFilter cfg.pfilterStart cfg.pfilterEnd a

/-- How an instruction makes an access: on its own, as one of the accesses of a doubleword or multiple transfer, or locked or
exclusive (20_memory.md R284, R287, R302). -/
inductive AccessForm where
  | single | multiple | locked
  deriving DecidableEq, Repr

/-- The port an access leaves on (20_memory.md R289 lines 5 to 7, R291, R292; 61_scu.md R592): the peripheral port has priority
over the filter range of master port 1. DEDUCED: while that filtering is on every access in the range is on port 1, the locked and
exclusive ones too, as R291 has it, to which R592 refers (log entry 95); while it is off those are on port 0 and the hardware picks a
master port for the others. -/
def portOf (s : State) (form : AccessForm) (a : Word) : Port :=
  if inPeripheral s.cfg a then .peripheral
  else if !s.cfg.axiMaster1 then .master0
  else if s.scu.ctrl.getLsbD 1 then
    if inFilter s.cfg.mfilterStart s.cfg.mfilterEnd a then .master1 else .master0
  else if form != .locked && Config.freePort s.free a then .master1 else .master0

/-- The error response the platform gives an access on a port that touches `a`, if any (20_memory.md R295, R311). -/
def errorAt (cfg : Config) (port : Port) (a : Nat) : Option Bool :=
  (cfg.errRanges.find? fun r =>
    decide (r.first ≤ a ∧ a ≤ r.last) && (r.port == none || r.port == some port)).map (·.slverr)

/-- The error response to an access of `n` bytes at `a` on a port: that of its first byte that has one. -/
def errorIn (cfg : Config) (port : Port) : Nat → Nat → Option Bool
  | _, 0 => none
  | a, n + 1 => match errorAt cfg port a with
    | some x => some x
    | none => errorIn cfg port (a + 1) n

/-- The error response to an access of `n` bytes at `a`. -/
def busError (s : State) (form : AccessForm) (a : Word) (n : Nat) : Option Bool := errorIn s.cfg (portOf s form a) a.toNat n

/-- An external error on a load or store becomes the pending asynchronous abort, unless one is pending already
(60_exceptions.md R526). -/
def signalAbort (slverr : Bool) : M Unit := fun s =>
  .ok () (match s.pendingAbort with
    | none => { s with pendingAbort := some slverr }
    | some _ => s)

/-- `n` bytes of main memory at `a`, the lowest address first. -/
def memBytes (m : List Host.Cell) : Nat → Nat → List Byte
  | _, 0 => []
  | a, n + 1 => sparseRead m a :: memBytes m (a + 1) n

/-- Main memory with bytes stored at `a`, the lowest address first. -/
def storeBytes (m : List Host.Cell) : Nat → List Byte → List Host.Cell
  | _, [] => m
  | a, b :: bs => storeBytes (sparseWrite m a b) (a + 1) bs

/-- `n` free bytes: what a load whose access got an error response returns (20_memory.md R295, D78). -/
def freeBytes : Nat → M (List Byte)
  | 0 => pure []
  | n + 1 => do
    let w ← drawWord
    let bs ← freeBytes n
    pure (w.extractLsb' 0 8 :: bs)

/-! ### Private memory region (20_memory.md R300 to R304) -/

/-- Whether the private region accepts an access of `n` bytes at an offset (20_memory.md R302; 62_gic.md R633; U40, U41). -/
def privateSizeOk (off n : Nat) : Bool :=
  if off < 0x100 then n == 1 || n == 4
  else if off < 0x300 then n == 4
  else if off < 0x600 then false
  else if off < 0x700 then n == 4
  else if off < 0x1000 then false
  else n == 4 || (n == 1 && ((decide (0x1400 ≤ off) && decide (off < 0x1600)) || (decide (0x1800 ≤ off) && decide (off < 0x1A00))))

/-- Read the word of the private region at a word-aligned offset. -/
def privateReadWord (off : Nat) : M Word := fun s =>
  if off < 0x100 then .ok (scuRead s off) s
  else if off < 0x200 then iccRead (off - 0x100) s
  else if off < 0x300 then .ok (globalRead s.timers (off - 0x200)) s
  else if off < 0x1000 then .ok (privateTimerRead s.timers (off - 0x600)) s
  else .ok (distRead s (off - 0x1000)) s

/-- Write the word of the private region at a word-aligned offset. -/
def privateWriteWord (off : Nat) (v : Word) : M Unit := fun s =>
  if off < 0x100 then .ok () (scuWrite off v s)
  else if off < 0x200 then iccWrite (off - 0x100) v s
  else if off < 0x300 then .ok () { s with timers := globalWrite (off - 0x200) v s.timers }
  else if off < 0x1000 then .ok () { s with timers := privateTimerWrite (off - 0x600) v s.timers }
  else .ok () (distWrite (off - 0x1000) v s)

/-- A word with the byte at position `k` (0 to 3, the lowest address first) replaced. -/
def setByteOf (w : Word) (k : Nat) (b : Byte) : Word :=
  (w &&& ~~~ (0xFF#32 <<< (8 * k))) ||| (b.setWidth 32 <<< (8 * k))

/-- Write one byte of the private region: a byte register of the distributor, or an SCU register with its other bytes as
they read. -/
def privateWriteByte (off : Nat) (b : Byte) : M Unit := fun s =>
  if off < 0x1000 then
    .ok () (scuWrite (off / 4 * 4) (setByteOf (scuRead s (off / 4 * 4)) (off % 4) b) s)
  else if off < 0x1800 then .ok () (writePriority (off - 0x1400) b s)
  else .ok () (writeTarget (off - 0x1800) b s)

/-- Read the private region, little-endian (20_memory.md R301); a size it does not accept, and every multiple access, is
answered with SLVERR (R302, R304). -/
def privateRead (a : Word) (n : Nat) (form : AccessForm) : M (List Byte) := do
  let off := a.toNat % 0x2000
  if form == .multiple || !privateSizeOk off n then
    signalAbort true
    freeBytes n
  else do
    let w ← privateReadWord (off / 4 * 4)
    pure (if n = 4 then bytesOfWord w else [w.extractLsb' (8 * (off % 4)) 8])

/-- Write the private region (20_memory.md R301, R302, R304): a rejected write changes no register. DESIGN CHOICE: so it does not
disarm the key of the watchdog's disable register either (63_timers.md R709, D53; log entry 119). -/
def privateWrite (a : Word) (bs : List Byte) (form : AccessForm) : M Unit := do
  let off := a.toNat % 0x2000
  if form == .multiple || !privateSizeOk off bs.length then signalAbort true
  else match bs with
    | [b0, b1, b2, b3] => privateWriteWord off (wordOfBytes b0 b1 b2 b3)
    | [b] => privateWriteByte off b
    | _ => pure ()

/-! ### Debug window (64_debug_pmu.md R770) -/

/-- Read the debug window: words only, for the port is 32 bits wide; anything else gets SLVERR (log entry 81). -/
def windowReadBytes (a : Word) (n : Nat) : M (List Byte) := do
  if n ≠ 4 then
    signalAbort true
    freeBytes n
  else match ← windowRead ((windowOffset (← get).cfg a).getD 0) with
    | some w => pure (bytesOfWord w)
    | none => do
      signalAbort true
      freeBytes n

/-- Write the debug window (64_debug_pmu.md R770). -/
def windowWriteBytes (a : Word) (bs : List Byte) : M Unit := do
  match bs with
  | [b0, b1, b2, b3] => if ← windowWrite ((windowOffset (← get).cfg a).getD 0) (wordOfBytes b0 b1 b2 b3) then pure () else signalAbort true
  | _ => signalAbort true

/-! ### The ports -/

/-- Read over the internal bus or an AXI port (20_memory.md R289 lines 4 to 7): `n` bytes, aligned. What answers at the platform's addresses is the platform's (R310): here plain
memory, but for the error ranges and the debug window (log entry 73). -/
def busRead (a : Word) (n : Nat) (attr : Attr) (form : AccessForm) : M (List Byte) := fun s =>
  if inPrivate s.cfg a then
    if attr.type = .normal then .error (.refuse .privateNormal) s else privateRead a n form s
  else if inPeripheral s.cfg a && form == .multiple then .error (.refuse .peripheralMultiple) s
  else if inPeripheral s.cfg a && (attr.type == .normal || n == 8) then
    (do signalAbort true; freeBytes n : M (List Byte)) s
  else if inWindow s.cfg a then windowReadBytes a n s
  else match busError s form a n with
    | some x => (do signalAbort x; freeBytes n : M (List Byte)) s
    | none => .ok (memBytes s.mem a.toNat n) s

/-- Write over the internal bus or an AXI port (20_memory.md R289 lines 4 to 7, R310; log entry 73). -/
def busWrite (a : Word) (bs : List Byte) (attr : Attr) (form : AccessForm) : M Unit := fun s =>
  if inPrivate s.cfg a then
    if attr.type = .normal then .error (.refuse .privateNormal) s else privateWrite a bs form s
  else if inPeripheral s.cfg a && form == .multiple then .error (.refuse .peripheralMultiple) s
  else if inPeripheral s.cfg a && (attr.type == .normal || bs.length == 8) then signalAbort true s
  else if inWindow s.cfg a then windowWriteBytes a bs s
  else match busError s form a bs.length with
    | some x => signalAbort x s
    | none => .ok () { s with mem := storeBytes s.mem a.toNat bs }

/-- Whether a write over the bus gets an error response (20_memory.md R295; 60_exceptions.md R526): made with no abort pending,
it leaves one. -/
def busRejects (a : Word) (bs : List Byte) (attr : Attr) (form : AccessForm) (s : State) : Bool :=
  match busWrite a bs attr form { s with pendingAbort := none } with
  | .ok () t => t.pendingAbort.isSome
  | .error _ _ => false

/-- Read a cache line of 32 bytes for a linefill (20_memory.md R251); none after an error response. A line in the
peripheral-port range always gets one (R292), and so does one in the debug window (log entry 81); the private region is not
cacheable (U29). -/
def lineRead (a : Word) : M (Option (List Byte)) := fun s =>
  if inPrivate s.cfg a then .error (.refuse .privateNormal) s
  else if inPeripheral s.cfg a || inWindow s.cfg a then (do signalAbort true; pure none : M (Option (List Byte))) s
  else match busError s .single a 32 with
    | some x => (do signalAbort x; pure none : M (Option (List Byte))) s
    | none => .ok (some (memBytes s.mem a.toNat 32)) s

/-- Write a list of bytes to memory, leaving out those that are `none` (their byte strobes are LOW, 20_memory.md R261). -/
def storeStrobed (m : List Host.Cell) : Nat → List (Option Byte) → List Host.Cell
  | _, [] => m
  | a, some b :: bs => storeStrobed (sparseWrite m a b) (a + 1) bs
  | a, none :: bs => storeStrobed m (a + 1) bs

/-- Write a cache line back (20_memory.md R251, R255). An error response on an eviction is an external abort like that of
any store (60_exceptions.md R526). -/
def lineWrite (a : Word) (bs : List (Option Byte)) : M Unit := fun s =>
  if inPrivate s.cfg a then .error (.refuse .privateNormal) s
  else if inPeripheral s.cfg a || inWindow s.cfg a then signalAbort true s
  else match busError s .single a 32 with
    | some x => signalAbort x s
    | none => .ok () { s with mem := storeStrobed s.mem a.toNat bs }

end Sys2Proof.Machine
end

