-- ==== Sys2Proof/Machine/Cache.lean ====
section
/-! DEFINITION. The data and instruction caches (20_memory.md R250 to R266): lookup, linefill, eviction, the maintenance
operations, and what ECC checking adds in a build with ECC (R259 to R263). -/

namespace Sys2Proof.Machine

/-- log2 of the number of sets (20_memory.md R250). -/
def setBits : RamSize → Nat
  | .kb4 => 5 | .kb8 => 6 | .kb16 => 7 | .kb32 => 8 | .kb64 => 9 | .kb128 => 9 | .none => 5

/-- The set of an address (20_memory.md R250). -/
def setOf (k : Nat) (a : Word) : Nat := a.toNat / 32 % 2 ^ k

/-- The tag of an address (20_memory.md R250). -/
def tagOf (k : Nat) (a : Word) : Nat := a.toNat / 2 ^ (5 + k)

/-- The number of a line in the RAM arrays. -/
def lineIndex (way set : Nat) : Nat := way * 512 + set

/-- The address of the line a tag word names. -/
def lineAddress (k : Nat) (tagWord : Word) (set : Nat) : Word :=
  BitVec.ofNat 32 ((tagWord &&& 0x003FFFFF).toNat * 2 ^ (5 + k) + set * 32)

/-- Valid, bit 22 of a tag word (20_memory.md R265). -/
def tagValid (t : Word) : Bool := t.getLsbD 22
/-- Dirty, bit 25 of a tag word (20_memory.md R265). -/
def tagDirty (t : Word) : Bool := t.getLsbD 25

/-- The tag word of a new line (20_memory.md R265). The exclusive bit of a line no other processor can hold is set
(log entry 24). -/
def newTag (k : Nat) (a : Word) (attr : Attr) : Word :=
  BitVec.ofNat 32 (tagOf k a) ||| bitAt true 22 ||| bitAt (!attr.shareable) 23 ||| bitAt attr.shareable 24
    ||| bitAt attr.writeAlloc 26 ||| (attr.outer.setWidth 32 <<< 27)

/-- Whether an error bank masks a way of a set (20_memory.md R263; 11_cp15_registers.md R182, R185): an entry of status 0b01
or 0b11 does; of status 0b10, which the table calls not used, none does (log entry 71). -/
def masked (bank : Vector Word 3) (way set : Nat) : Bool :=
  bank.toList.any fun e => e.getLsbD 0 && e.getLsbD (28 + way) && (e.extractLsb' 5 9).toNat == set

/-- The way that holds the line of an address (20_memory.md R251). DESIGN CHOICE: a line that already is in a way which an entry of
the SCU's bank with status 0b11 names is still used (61_scu.md R599; log entry 117). -/
def hitWay (c : CacheRam) (bank : Vector Word 3) (k : Nat) (a : Word) : Option Nat :=
  [0, 1, 2, 3].find? fun way =>
    let t := sparseRead c.tag (lineIndex way (setOf k a))
    tagValid t && (t &&& 0x003FFFFF).toNat == tagOf k a && !masked bank way (setOf k a)

/-- The way a new line takes among those `usable` says: with ACTLR[8] the one way it allocates in, else an invalid way, else a
way the hardware picks (20_memory.md R252, N20-6; log entry 24). -/
def victimWay (s : State) (c : CacheRam) (usable : Nat → Bool) (set : Nat) : Option Nat :=
  let free := [0, 1, 2, 3].filter usable
  if s.cp15.actlr.getLsbD 8 then
    if free.contains Config.allocWay.toNat then some Config.allocWay.toNat else none
  else match free.find? fun way => !tagValid (sparseRead c.tag (lineIndex way set)) with
    | some way => some way
    | none =>
      let pick := (Config.freeWay s.free).toNat
      if free.contains pick then some pick else free.head?

/-- Whether the data cache may allocate in a way of a set: no entry of its error bank masks it (20_memory.md R263) and no
confirmed error of the duplicate tag RAM names it (61_scu.md R599). -/
def dUsable (s : State) (set way : Nat) : Bool := !masked s.cp15.deer way set && !scuAvoids s way set

/-- Whether the instruction cache may allocate in a way of a set (20_memory.md R263). -/
def iUsable (s : State) (set way : Nat) : Bool := !masked s.cp15.ieer way set

/-- Byte `off` (0 to 31) of a line of the data RAM. -/
def lineByte (c : CacheRam) (line off : Nat) : Byte :=
  (sparseRead c.data (line * 8 + off / 4)).extractLsb' (8 * (off % 4)) 8

/-- `n` bytes of a line from byte `off`. -/
def lineBytes (c : CacheRam) (line off : Nat) : Nat → List Byte
  | 0 => []
  | n + 1 => lineByte c line off :: lineBytes c line (off + 1) n

/-! ### ECC chunks (20_memory.md R260; builds with ECC only) -/

/-- The chunk of a word of the data cache or the DTCM. -/
def wordCode (w : Word) : Byte := (Config.eccCode32 w).setWidth 8

/-- The chunk of a doubleword of the instruction cache or the ITCM. -/
def doubleCode (lo hi : Word) : Byte := Config.eccCode64 (hi ++ lo)

/-- The chunk of a data cache tag word in a line. -/
def dTagCode (line : Nat) (t : Word) : Byte :=
  (Config.eccDataTag (t.setWidth 29) (BitVec.ofNat 9 (line % 512))).setWidth 8

/-- The chunk of an instruction cache tag word in a line. -/
def iTagCode (line : Nat) (t : Word) : Byte :=
  (Config.eccInstructionTag (t.setWidth 29) (BitVec.ofNat 9 (line % 512))).setWidth 8

/-- What single-error correction makes of data whose chunk is not its code (20_memory.md R260): the data with the one bit
changed that gives the chunk, or the data itself if one bit of the chunk is wrong; none for a multiple-bit error (log
entry 85). -/
def eccCorrect {w v : Nat} (code : BitVec w → BitVec v) (d : BitVec w) (c : BitVec v) : Option (BitVec w) :=
  match (List.range w).find? fun i => code (d ^^^ (1#w <<< i)) == c with
  | some i => some (d ^^^ (1#w <<< i))
  | none => if (List.range v).any fun i => code d == c ^^^ (1#v <<< i) then some d else none

/-- What a check of a RAM word finds: its chunk agrees, a single-bit error, or a multiple-bit one (20_memory.md R260). -/
inductive EccCheck (α : Type) where
  | good
  | corrected (value : α)
  | lost
  deriving DecidableEq, Repr

/-- The check of data `d` with the stored chunk `c`. -/
def eccCheck {w v : Nat} (code : BitVec w → BitVec v) (d : BitVec w) (c : BitVec v) : EccCheck (BitVec w) :=
  if code d = c then .good
  else match eccCorrect code d c with
    | some x => .corrected x
    | none => .lost

/-- The check of a data cache tag word. -/
def dTagCheck (c : CacheRam) (line : Nat) : EccCheck (BitVec 29) :=
  eccCheck (fun t => Config.eccDataTag t (BitVec.ofNat 9 (line % 512))) ((sparseRead c.tag line).setWidth 29)
    ((sparseRead c.tagEcc line).setWidth 7)

/-- The check of a word of the data cache's data RAM. -/
def dWordCheck (c : CacheRam) (key : Nat) : EccCheck Word :=
  eccCheck Config.eccCode32 (sparseRead c.data key) ((sparseRead c.dataEcc key).setWidth 7)

/-! ### Writes of the RAMs: `ecc` says that checking is on, so that the chunk is written too (70_reset_and_hazards.md R863) -/

/-- The data cache with bytes stored in a line from byte `off`. -/
def setLineBytes (ecc : Bool) (c : CacheRam) (line off : Nat) : List Byte → CacheRam
  | [] => c
  | b :: bs =>
    let key := line * 8 + off / 4
    let w := setByteOf (sparseRead c.data key) (off % 4) b
    setLineBytes ecc { c with
      data := sparseWrite c.data key w
      dataEcc := if ecc then sparseWrite c.dataEcc key (wordCode w) else c.dataEcc } line (off + 1) bs

/-- The instruction cache with bytes stored in a line from byte `off`. -/
def setILineBytes (ecc : Bool) (c : CacheRam) (line off : Nat) : List Byte → CacheRam
  | [] => c
  | b :: bs =>
    let key := line * 8 + off / 4
    let d := sparseWrite c.data key (setByteOf (sparseRead c.data key) (off % 4) b)
    let lo := key / 2 * 2
    setILineBytes ecc { c with
      data := d
      dataEcc := if ecc then sparseWrite c.dataEcc lo (doubleCode (sparseRead d lo) (sparseRead d (lo + 1)))
        else c.dataEcc } line (off + 1) bs

/-- The data cache with a tag word in a line. -/
def setDTag (ecc : Bool) (c : CacheRam) (line : Nat) (t : Word) : CacheRam :=
  { c with
    tag := sparseWrite c.tag line t
    tagEcc := if ecc then sparseWrite c.tagEcc line (dTagCode line t) else c.tagEcc }

/-- The instruction cache with a tag word in a line. -/
def setITag (ecc : Bool) (c : CacheRam) (line : Nat) (t : Word) : CacheRam :=
  { c with
    tag := sparseWrite c.tag line t
    tagEcc := if ecc then sparseWrite c.tagEcc line (iTagCode line t) else c.tagEcc }

/-- A tag word with the valid and dirty bits cleared (20_memory.md R255). -/
def droppedTag (t : Word) : Word := t &&& ~~~ 0x02400000

/-- A line of the data cache no longer valid nor dirty (20_memory.md R255). -/
def dropDLine (ecc : Bool) (c : CacheRam) (line : Nat) : CacheRam :=
  setDTag ecc c line (droppedTag (sparseRead c.tag line))

/-- A line of the instruction cache no longer valid (20_memory.md R255). -/
def dropILine (ecc : Bool) (c : CacheRam) (line : Nat) : CacheRam :=
  setITag ecc c line (droppedTag (sparseRead c.tag line))

/-- The lines below `n` of the instruction cache no longer valid. -/
def dropILines (ecc : Bool) : Nat → CacheRam → CacheRam
  | 0, c => c
  | n + 1, c => dropILines ecc n (dropILine ecc c n)

/-- No line of the instruction cache valid (20_memory.md R258, invalidate all): with checking on, every tag word is written
with its chunk. -/
def dropAll (ecc : Bool) (c : CacheRam) : CacheRam :=
  if ecc then dropILines ecc 2048 c
  else { c with tag := (c.tag.map fun e => (e.1, droppedTag e.2)).filter fun e => e.2 != 0 }

/-! ### Error banks -/

/-- ACTLR[9] with ECC built: checking on the caches and the DTCM (11_cp15_registers.md R131). -/
def eccOn (s : State) : Bool := s.cfg.ecc && s.cp15.actlr.getLsbD 9

/-- ACTLR[10] with ECC built: checking on the ITCM (11_cp15_registers.md R131). -/
def eccItcmOn (s : State) : Bool := s.cfg.ecc && s.cp15.actlr.getLsbD 10

/-- An entry in the first available place of an error bank, if one is left (11_cp15_registers.md R185). -/
def pushError (bank : Vector Word 3) (e : Word) : Vector Word 3 :=
  if bank[0] &&& 3 = 0 then bank.set 0 e
  else if bank[1] &&& 3 = 0 then bank.set 1 e
  else if bank[2] &&& 3 = 0 then bank.set 2 e
  else bank

/-- An error bank entry: way, fatal, index, word, valid (11_cp15_registers.md R182, R183). -/
def errorEntry (way set word : Nat) (fatal : Bool) : Word :=
  bitAt true (28 + way) ||| bitAt fatal 25 ||| BitVec.ofNat 32 (set * 32 + word * 4) ||| 1

/-- RAMERR, and FATALRAMERR if the error is fatal (20_memory.md R261). -/
def signalRamError (fatal : Bool) (s : State) : State :=
  { s with outs := { s.outs with ramErr := true, fatalRamErr := s.outs.fatalRamErr || fatal } }

/-- Record a data cache error: bit 18 data RAM, bit 17 tag RAM (11_cp15_registers.md R182). -/
def recordD (way set word : Nat) (inData fatal : Bool) (s : State) : State :=
  signalRamError fatal { s with cp15 := { s.cp15 with
    deer := pushError s.cp15.deer (errorEntry way set word fatal ||| bitAt inData 18 ||| bitAt (!inData) 17) } }

/-- Record an instruction cache error, never fatal (11_cp15_registers.md R183, 20_memory.md R260). -/
def recordI (way set word : Nat) (s : State) : State :=
  signalRamError false { s with cp15 := { s.cp15 with ieer := pushError s.cp15.ieer (errorEntry way set word false) } }

/-- Record an error of the duplicate tag RAM in the data cache's bank: bit 16 (11_cp15_registers.md R182). -/
def recordScu (way set : Nat) (s : State) : State :=
  signalRamError false { s with cp15 := { s.cp15 with
    deer := pushError s.cp15.deer (errorEntry way set 0 false ||| bitAt true 16) } }

/-- The bytes of word `j` of a line on its way out (20_memory.md R259, R261): a correctable error is corrected; a word with a
multiple-bit error is written with its strobes LOW. Either is recorded. -/
def wordOut (way set j : Nat) : M (List (Option Byte)) := fun s =>
  let key := lineIndex way set * 8 + j
  let w := sparseRead s.dcache.data key
  match (if eccOn s then dWordCheck s.dcache key else .good) with
  | .good => .ok ((bytesOfWord w).map some) s
  | .corrected w' => .ok ((bytesOfWord w').map some) (recordD way set j true false s)
  | .lost => .ok [none, none, none, none] (recordD way set j true true s)

/-- The bytes of the `n` last words of a line on its way out. DESIGN CHOICE: of several wrong words the lower is recorded first, and
takes the lower entry of the bank, which 11_cp15_registers.md R185 does not say (log entry 120). -/
def wordsOut (way set : Nat) : Nat → M (List (Option Byte))
  | 0 => pure []
  | n + 1 => do
    let w ← wordOut way set (7 - n)
    let ws ← wordsOut way set n
    pure (w ++ ws)

/-! ### Lines of the data cache -/

/-- Replace the tag word of a line. -/
def putDTag (way set : Nat) (t : Word) : M Unit := fun s =>
  .ok () { s with dcache := setDTag (eccOn s) s.dcache (lineIndex way set) t }

/-- Invalidate the line at a way and set (20_memory.md R255). -/
def invalidateLine (way set : Nat) : M Unit := fun s =>
  .ok () (scuNote way set false { s with dcache := dropDLine (eccOn s) s.dcache (lineIndex way set) })

/-- The address of the line at a way and set, if it is valid and dirty. -/
def dirtyLine (s : State) (way set : Nat) : Option Word :=
  let t := sparseRead s.dcache.tag (lineIndex way set)
  if tagValid t && tagDirty t then some (lineAddress (setBits s.cfg.dcache) t set) else none

/-- Write the line at a way and set to the next level, if it is valid and dirty, and clear its dirty bit (20_memory.md R255). -/
def writeOutLine (way set : Nat) : M Unit := fun s =>
  match dirtyLine s way set with
  | none => .ok () s
  | some a =>
    (do
      let bs ← wordsOut way set 8
      lineWrite a bs
      putDTag way set (sparseRead s.dcache.tag (lineIndex way set) &&& ~~~ 0x02000000) : M Unit) s

/-- Write the line at a way and set back, after the lookup `look` of that transfer (61_scu.md R582), which may take the line out
itself. -/
def writeBackLine (look : Word → M Unit) (way set : Nat) : M Unit := do
  match dirtyLine (← get) way set with
  | none => pure ()
  | some a => do
    look a
    writeOutLine way set

/-- Clean the line at a way and set (20_memory.md R255, R259, R261): its tag word is checked; a correctable error is corrected
first, with an uncorrectable one nothing is written and the line is lost. -/
def cleanWith (look : Word → M Unit) (way set : Nat) : M Unit := fun s =>
  match (if eccOn s then dTagCheck s.dcache (lineIndex way set) else .good) with
  | .good => writeBackLine look way set s
  | .corrected t =>
    (do
      putDTag way set (t.setWidth 32)
      writeBackLine look way set : M Unit) (recordD way set 0 false false s)
  | .lost => invalidateLine way set (recordD way set 0 false true s)

/-- Clean, then invalidate (20_memory.md R255). -/
def cleanInvalidateWith (look : Word → M Unit) (way set : Nat) : M Unit := do
  cleanWith look way set
  invalidateLine way set

/-! ### The lookup of a transfer in the duplicate tag RAM (61_scu.md R582, 20_memory.md R272) -/

/-- The ways of the duplicate tag RAM, numbered 4p + way of processor p, in the order in which a lookup looks at them. DESIGN
CHOICE: of several errors that one lookup finds each has an entry of its own in the error bank, way 7 first (log entry 86). -/
def scuWays (cfg : Config) : List Nat := if cfg.twoCpus then [7, 6, 5, 4, 3, 2, 1, 0] else [3, 2, 1, 0]

/-- The set in which the lookup of an address reads way `w`: by the data cache size of the processor of the way; none without a
data cache (61_scu.md R582, R587). -/
def scuSet (cfg : Config) (w : Nat) (a : Word) : Option Nat :=
  let size := dcacheOf cfg (w / 4 == 1)
  if size = .none then none else some (setOf (setBits size) a)

/-- Whether the lookup of an address finds an error in way `w`: the entry is not its code, and no entry of the error banks has
taken it out of use (20_memory.md R260, R263; 61_scu.md R599). -/
def scuFindsIn (s : State) (a : Word) (w : Nat) : Bool :=
  match scuSet s.cfg w a with
  | some set => scuTagBad s w set && !scuEntryAvoids s.scu.err0 w set && !scuEntryAvoids s.scu.err1 w set
  | none => false

/-- Whether the lookup of an address finds an error, with the checking on (61_scu.md R585). -/
def scuFinds (s : State) (a : Word) : Bool := scuEccOn s && (scuWays s.cfg).any (scuFindsIn s a)

/-- The lookup of an address in way `w`: an error is recorded in the SCU's bank, and if the line is this processor's in the data
cache's bank too, which cleans and invalidates the line (20_memory.md R261, R263; 61_scu.md R599; log entry 86); `look` looks up
its write-back. -/
def scuErrorIn (look : Word → M Unit) (a : Word) (w : Nat) : M Unit := fun s =>
  if scuFindsIn s a w then
    let set := (scuSet s.cfg w a).getD 0
    let own := (w / 4 == 1) == s.cfg.cpu
    let t := signalRamError false { s with
      scu := setScuTag s.cfg.ecc (w * 512 + set) 0 (scuRecord (scuEntry w set own) s.scu) }
    if own then cleanInvalidateWith look (w % 4) set (recordScu (w % 4) set t) else .ok () t
  else .ok () s

/-- The lookup of an address in some ways. -/
def scuErrorsIn (look : Word → M Unit) (a : Word) : List Nat → M Unit
  | [] => pure ()
  | w :: ws => do
    scuErrorIn look a w
    scuErrorsIn look a ws

/-- The lookup of a transfer, with those of the write-backs that handle the errors it finds, `n` deep. -/
def scuLookup : Nat → Word → M Unit
  | 0, _ => pure ()
  | n + 1, a => fun s => if scuFinds s a then scuErrorsIn (scuLookup n) a (scuWays s.cfg) s else .ok () s

/-- The lookup that every transfer through the SCU makes, in the tags of both processors (61_scu.md R582). A write-back that handles
an error reads the same set of this processor, whose entry is by then mended, so that four errors are the most one lookup can find
inside another, and the fifth finds no line to write back. -/
def scuCheck (a : Word) : M Unit := scuLookup 5 a

/-- Clean the line at a way and set (20_memory.md R255, R259, R261). -/
def cleanLine (way set : Nat) : M Unit := cleanWith scuCheck way set

/-- Clean, then invalidate the line at a way and set (20_memory.md R255). -/
def cleanInvalidateLine (way set : Nat) : M Unit := cleanInvalidateWith scuCheck way set

/-- A tag RAM error in way `way` of the set just looked up: the line is cleaned, which records the error and corrects it if it
can be, and invalidated (20_memory.md R261). The entry recorded names word 0 (log entry 70). -/
def tagErrorIn (set way : Nat) : M Unit := fun s =>
  if dTagCheck s.dcache (lineIndex way set) != .good && !masked s.cp15.deer way set then
    cleanInvalidateLine way set s
  else .ok () s

/-- A data RAM error in the word of `a` that a hit reads: the line is cleaned and invalidated, so that the access is made
again from the next level (20_memory.md R261). A dirty line's write-back records it; of a clean line it is never fatal. -/
def dataErrorAt (a : Word) : M Unit := fun s =>
  let k := setBits s.cfg.dcache
  let set := setOf k a
  let word := a.toNat % 32 / 4
  match hitWay s.dcache s.cp15.deer k a with
  | none => .ok () s
  | some way =>
    if dWordCheck s.dcache (lineIndex way set * 8 + word) == .good then .ok () s
    else if tagDirty (sparseRead s.dcache.tag (lineIndex way set)) then cleanInvalidateLine way set s
    else invalidateLine way set (recordD way set word true false s)

/-- The ECC check that goes with a data cache lookup (20_memory.md R259, R261): the tags of the set. DESIGN CHOICE: of
several errors way 0 is recorded first, and the tags before the words, which 11_cp15_registers.md R185 does not say (log entry
120). -/
def dcacheCheck (a : Word) : M Unit := fun s =>
  if eccOn s then
    let set := setOf (setBits s.cfg.dcache) a
    (do tagErrorIn set 0; tagErrorIn set 1; tagErrorIn set 2; tagErrorIn set 3 : M Unit) s
  else .ok () s

/-- The ECC check of the words that an access of `n` bytes at `a` reads: two for eight bytes (20_memory.md R260), the
lower first (log entry 120). -/
def dcacheDataCheck (a : Word) (n : Nat) : M Unit := fun s =>
  if eccOn s then
    (do
      dataErrorAt a
      if n = 8 then dataErrorAt (a + 4) : M Unit) s
  else .ok () s

/-- Put a line in a way of the data cache. -/
def installLine (way : Nat) (a : Word) (attr : Attr) (bs : List Byte) : M Unit := fun s =>
  let k := setBits s.cfg.dcache
  let line := lineIndex way (setOf k a)
  .ok () (scuNote way (setOf k a) true
    { s with
      free := s.free + 1
      dcache := setLineBytes (eccOn s) (setDTag (eccOn s) s.dcache line (newTag k a attr)) line 0 bs })

/-- What becomes of an access that looks for its line: the line is in a way, no way can hold it, or its linefill got an error
response. -/
inductive Fill where
  | inWay (way : Nat)
  | bypass
  | failed
  deriving DecidableEq, Repr

/-- Bring the line of an access of `n` bytes at `a` into the data cache (20_memory.md R251, R263): a way that an error found on
the way takes out of use holds nothing. DESIGN CHOICE: the words of a hit are checked for a store too, whole words among them, of
which R261 says nothing (log entry 112). -/
def dcacheFill (a : Word) (n : Nat) (attr : Attr) : M Fill := do
  dcacheCheck a
  dcacheDataCheck a n
  let s ← get
  let set := setOf (setBits s.cfg.dcache) a
  match hitWay s.dcache s.cp15.deer (setBits s.cfg.dcache) a with
  | some way => pure (.inWay way)
  | none => do
    scuCheck a
    let t ← get
    match victimWay t t.dcache (dUsable t set) set with
    | none => pure .bypass
    | some way => do
      cleanInvalidateLine way set
      let u ← get
      if dUsable u set way then
        match ← lineRead (a &&& 0xFFFFFFE0) with
        | none => pure .failed
        | some bs => do
          installLine way a attr bs
          pure (.inWay way)
      else pure .bypass

/-- Read through the data cache (20_memory.md R251, R252). -/
def dcacheRead (a : Word) (n : Nat) (attr : Attr) : M (List Byte) := do
  match ← dcacheFill a n attr with
  | .inWay way => do
    let s ← get
    pure (lineBytes s.dcache (lineIndex way (setOf (setBits s.cfg.dcache) a)) (a.toNat % 32) n)
  | .bypass => busRead a n attr .single
  | .failed => freeBytes n

/-- Write through the data cache: the line becomes dirty (20_memory.md R252). A store whose linefill got an error response
is lost with the abort it signalled (60_exceptions.md R526). -/
def dcacheWrite (a : Word) (bs : List Byte) (attr : Attr) : M Unit := do
  match ← dcacheFill a bs.length attr with
  | .inWay way => modify fun s =>
    let line := lineIndex way (setOf (setBits s.cfg.dcache) a)
    let c := setLineBytes (eccOn s) s.dcache line (a.toNat % 32) bs
    { s with dcache := setDTag (eccOn s) c line (sparseRead c.tag line ||| 0x02000000) }
  | .bypass => busWrite a bs attr .single
  | .failed => pure ()

/-! ### Transfers that no cache serves -/

/-- The lookup of an access to the bus in the duplicate tag RAM (61_scu.md R582): a doubleword or multiple access in the
peripheral-port range makes no transfer (20_memory.md R292, U28). -/
def transferCheck (a : Word) (form : AccessForm) : M Unit := fun s =>
  if form == .multiple && inPeripheral s.cfg a then .ok () s else scuCheck a s

/-- Read over the bus, after the transfer's lookup. -/
def transferRead (a : Word) (n : Nat) (attr : Attr) (form : AccessForm) : M (List Byte) := do
  transferCheck a form
  busRead a n attr form

/-- Write over the bus, after the transfer's lookup. -/
def transferWrite (a : Word) (bs : List Byte) (attr : Attr) (form : AccessForm) : M Unit := do
  transferCheck a form
  busWrite a bs attr form

/-! ### Lines of the instruction cache -/

/-- The ECC check that goes with an instruction cache lookup: a tag error found invalidates the line (20_memory.md R260). -/
def icacheErrorIn (set way : Nat) : M Unit := fun s =>
  let line := lineIndex way set
  if sparseRead s.icache.tagEcc line != iTagCode line (sparseRead s.icache.tag line) && !masked s.cp15.ieer way set then
    let t := recordI way set 0 s
    .ok () { t with icache := dropILine true t.icache line }
  else .ok () s

/-- A data RAM error in the doubleword of `a` that a hit reads invalidates the line (20_memory.md R260). The entry names the word
of `a`, whichever of the two is wrong (log entry 70). -/
def icacheDataErrorAt (a : Word) : M Unit := fun s =>
  let k := setBits s.cfg.icache
  let set := setOf k a
  match hitWay s.icache s.cp15.ieer k a with
  | none => .ok () s
  | some way =>
    let key := lineIndex way set * 8 + a.toNat % 32 / 8 * 2
    if sparseRead s.icache.dataEcc key = doubleCode (sparseRead s.icache.data key) (sparseRead s.icache.data (key + 1)) then
      .ok () s
    else
      let t := recordI way set (a.toNat % 32 / 4) s
      .ok () { t with icache := dropILine true t.icache (lineIndex way set) }

/-- The ECC check of an instruction fetch or an invalidate by address (20_memory.md R259, R261). DESIGN CHOICE: of several errors
the tag of way 0 is recorded first and the words last, which 11_cp15_registers.md R185 does not say (log entry 120). -/
def icacheCheck (a : Word) : M Unit := fun s =>
  if eccOn s then
    let set := setOf (setBits s.cfg.icache) a
    (do
      icacheErrorIn set 0
      icacheErrorIn set 1
      icacheErrorIn set 2
      icacheErrorIn set 3
      icacheDataErrorAt a : M Unit) s
  else .ok () s

/-- Put a line in a way of the instruction cache. Its tag word has the tag and the valid bit (log entry 25). -/
def installILine (way : Nat) (a : Word) (bs : List Byte) (s : State) : State :=
  let k := setBits s.cfg.icache
  let line := lineIndex way (setOf k a)
  let t := BitVec.ofNat 32 (tagOf k a) ||| 0x00400000
  { s with free := s.free + 1, icache := setILineBytes (eccOn s) (setITag (eccOn s) s.icache line t) line 0 bs }

/-! ### Maintenance operations (20_memory.md R258) -/

/-- ICIALLU and ICIALLUIS (20_memory.md R258): no error is reported (R256). -/
def invalidateICache : M Unit := modify fun s =>
  { s with icache := dropAll (eccOn s) s.icache, upkeep := { s.upkeep with instruction := true } }

/-- Invalidate the line of the instruction cache that holds an address, after the check of the lookup (20_memory.md R258,
R259). -/
def dropLineAt (a : Word) : M Unit := do
  icacheCheck a
  modify fun s => match hitWay s.icache s.cp15.ieer (setBits s.cfg.icache) a with
    | some way => { s with icache := dropILine (eccOn s) s.icache (lineIndex way (setOf (setBits s.cfg.icache) a)) }
    | none => s

/-- ICIMVAU (20_memory.md R258): without an instruction cache it looks up nothing and does nothing. -/
def invalidateICacheAt (a : Word) : M Unit := do
  let s ← get
  if s.cfg.icache = .none then pure () else dropLineAt a

/-- Do something to the line of the data cache that holds an address, after the check of the lookup; nothing if none does
(20_memory.md R258, R259). -/
def atHeldLine (a : Word) (f : Nat → Nat → M Unit) : M Unit := do
  dcacheCheck a
  let s ← get
  let k := setBits s.cfg.dcache
  match hitWay s.dcache s.cp15.deer k a with
  | some way => f way (setOf k a)
  | none => pure ()

/-- An operation on the line of the data cache that holds an address (20_memory.md R258): without a data cache it looks up
nothing and does nothing. -/
def atLine (a : Word) (f : Nat → Nat → M Unit) : M Unit := do
  let s ← get
  if s.cfg.dcache = .none then pure () else atHeldLine a f

/-- How many sets a set/way argument can name: those of the data cache. DESIGN CHOICE: without one, of which 20_memory.md R257
gives no format, the 2^9 of the largest, so that the bits reserved are those reserved for every size (log entry 72). -/
def setWaySets (size : RamSize) : Nat := if size = .none then 512 else 2 ^ setBits size

/-- Do something to the line a set/way argument names: way in [31:30], set in [4+k:5], all other bits zero
(20_memory.md R257, U23); without a data cache there is none (R258). -/
def bySetWay (v : Word) (f : Nat → Nat → M Unit) : M Unit := do
  let s ← get
  let set := (v.extractLsb' 5 25).toNat
  refuseIf (v.extractLsb' 0 5 != 0 || decide (setWaySets s.cfg.dcache ≤ set)) .setWay
  if s.cfg.dcache = .none then pure () else f (v.extractLsb' 30 2).toNat set

/-- The bit of a line in one bit a line. -/
def withLine (v : Vector Word 64) (line : Nat) : Vector Word 64 :=
  let n := Fin.ofNat 64 (line / 32)
  v.set n (setBit v[n] (line % 32) true)

/-- A maintenance operation on the data cache: while the cache is on, a DSB is due after it before SCTLR.C changes, for the disable
sequence has nothing between its DSB and the change (70_reset_and_hazards.md R862; log entry 79). -/
def State.maintained (s : State) : State :=
  { s with upkeep := { s.upkeep with dsb := s.upkeep.dsb && !s.cp15.sctlr.getLsbD 2 } }

/-- The line at a way and set was invalidated (U22). -/
def noteInvalidated (way set : Nat) : M Unit := modify fun s =>
  { s with upkeep := { s.upkeep with data := withLine s.upkeep.data (lineIndex way set) } }

/-- The line at a way and set was cleaned (U22). -/
def noteCleaned (way set : Nat) : M Unit := modify fun s =>
  { s with upkeep := { s.upkeep with cleaned := withLine s.upkeep.cleaned (lineIndex way set) } }

/-! ### Stored words that are not yet synchronised with instruction fetch (20_memory.md R281, U26) -/

/-- A stored word after a DSB: the store, a clean and the invalidations before it are complete. -/
def Unsynced.afterDsb (u : Unsynced) : Unsynced :=
  { u with
    pushed := u.pushed || u.cleaned
    finished := u.finished || u.memory != .cached || (u.pushed && u.dropped && u.forgotten) }

/-- Whether a stored word can be fetched after an ISB: its sequence is finished, with the branch predictor invalidated but for
the ITCM. -/
def Unsynced.ready (u : Unsynced) : Bool := u.finished && (u.memory == .itcm || u.forgotten)

/-- Whether a stored word stands at a place: in the ITCM or not, and at which word there. -/
def Unsynced.standsAt (u : Unsynced) (place : Bool × Nat) : Bool := (u.memory == .itcm) == place.1 && u.word == place.2

/-- Whether a stored word lies in the line of an address that the caches hold. -/
def Unsynced.inLine (u : Unsynced) (a : Word) : Bool := u.memory != .itcm && u.word / 8 == a.toNat / 32

/-- Whether an invalidation of the branch predictor now is a step of a stored word's sequence: in Cacheable memory only after the
instruction cache's line was dropped (20_memory.md R281). -/
def Unsynced.forgets (u : Unsynced) : Bool := u.memory != .cached || u.dropped

/-- Each stored word, as a step of the sequence leaves it. -/
def State.mapUnsynced (s : State) (f : Unsynced → Unsynced) : State := { s with unsynced := s.unsynced.map f }

/-- A DSB completes what came before it (20_memory.md R280, R281; 70_reset_and_hazards.md R862). -/
def completeAccesses (s : State) : State :=
  { s.mapUnsynced Unsynced.afterDsb with upkeep := { s.upkeep with dsb := true } }

/-- An ISB ends the sequence of the words that are ready (20_memory.md R281), and that of a change of SCTLR.I
(70_reset_and_hazards.md R861). -/
def synchronise (s : State) : State :=
  { s with unsynced := s.unsynced.filter fun u => !u.ready, upkeep := { s.upkeep with isb := true } }

/-- The line of an address was cleaned to memory by its address. -/
def noteCleanedAt (a : Word) : M Unit := modify fun s =>
  s.mapUnsynced fun u => { u with cleaned := u.cleaned || u.inLine a }

/-- The line of an address was invalidated in the instruction cache by its address. -/
def noteDroppedAt (a : Word) : M Unit := modify fun s =>
  s.mapUnsynced fun u => { u with dropped := u.dropped || (u.pushed && u.inLine a) }

/-- The branch predictor forgot what it held of a word. -/
def noteForgottenAt (a : Word) : M Unit := modify fun s =>
  s.mapUnsynced fun u => { u with forgotten := u.forgotten || (u.forgets && u.standsAt (false, a.toNat / 4)) }

/-- The branch predictor forgot everything. -/
def noteForgotten : M Unit := modify fun s => s.mapUnsynced fun u => { u with forgotten := u.forgotten || u.forgets }

/-- The whole instruction cache was invalidated. -/
def noteDropped : M Unit := modify fun s => s.mapUnsynced fun u => { u with dropped := u.dropped || u.pushed }

end Sys2Proof.Machine
end

