-- ==== Sys2Proof/Machine/Memory.lean ====
section
/-! DEFINITION. Loads, stores and instruction fetches: alignment, the MPU check, byte order and routing
(20_memory.md R240 to R244, R289; 42_a32_core_subset.md R958). -/

namespace Sys2Proof.Machine

/-! ### Byte order (20_memory.md R241) -/

/-- The word whose little-endian bytes are listed, the lowest address first. -/
def leWord : List Byte → Word
  | [] => 0
  | b :: bs => (leWord bs <<< 8) ||| b.setWidth 32

/-- The value of an access's bytes, the lowest address first, in the byte order of CPSR.E. -/
def valueOf (bigEndian : Bool) (bs : List Byte) : Word := leWord (if bigEndian then bs.reverse else bs)

/-- The `n` bytes of a value, the lowest address first, in the byte order of CPSR.E. -/
def bytesOf (bigEndian : Bool) (n : Nat) (v : Word) : List Byte :=
  let bs := (bytesOfWord v).take n
  if bigEndian then bs.reverse else bs

/-! ### Tightly-coupled memories -/

/-- An entry of a TCM error bank, unless it is taken (11_cp15_registers.md R184, R185). -/
def tcmEntry (bank : Word) (off : Nat) (fatal : Bool) : Word :=
  if bank &&& 3 = 0 then bitAt fatal 25 ||| (BitVec.ofNat 32 off &&& 0x0001FFFC) ||| 1 else bank

/-- A word of a TCM's bytes. -/
def tcmWord (m : List Host.Cell) (off : Nat) : Word := leWord (memBytes m off 4)

/-- A doubleword of a TCM's bytes. -/
def tcmDouble (m : List Host.Cell) (off : Nat) : BitVec 64 := tcmWord m (off + 4) ++ tcmWord m off

/-- The DTCM with the chunk of a word made its code. -/
def encodeDtcm (t : Tcm) (word : Nat) : Tcm :=
  { t with ecc := sparseWrite t.ecc word (wordCode (tcmWord t.bytes (word * 4))) }

/-- The ITCM with the chunk of a doubleword made its code. -/
def encodeItcm (t : Tcm) (chunk : Nat) : Tcm :=
  { t with ecc := sparseWrite t.ecc chunk (doubleCode (tcmWord t.bytes (chunk * 8)) (tcmWord t.bytes (chunk * 8 + 4))) }

/-- Record a DTCM error (11_cp15_registers.md R184, 20_memory.md R261). -/
def recordDtcm (off : Nat) (fatal : Bool) (s : State) : State :=
  signalRamError fatal { s with cp15 := { s.cp15 with dtcmeer := tcmEntry s.cp15.dtcmeer off fatal } }

/-- Record an ITCM error (11_cp15_registers.md R184, 20_memory.md R261). -/
def recordItcm (off : Nat) (fatal : Bool) (s : State) : State :=
  signalRamError fatal { s with cp15 := { s.cp15 with itcmeer := tcmEntry s.cp15.itcmeer off fatal } }

/-- The ECC check of a DTCM word: a correctable error is corrected in the RAM, a fatal one leaves the data
(21_mpu_tcm.md R388, 20_memory.md R261). -/
def dtcmCheck (word : Nat) : M Unit := fun s =>
  if eccOn s then
    match eccCheck Config.eccCode32 (tcmWord s.dtcm.bytes (word * 4)) ((sparseRead s.dtcm.ecc word).setWidth 7) with
    | .good => .ok () s
    | .corrected w =>
      let t := recordDtcm (word * 4) false s
      .ok () { t with dtcm := encodeDtcm { t.dtcm with bytes := storeBytes t.dtcm.bytes (word * 4) (bytesOfWord w) } word }
    | .lost => .ok () (recordDtcm (word * 4) true s)
  else .ok () s

/-- The ECC check of an ITCM doubleword (21_mpu_tcm.md R388, 20_memory.md R261). The entry names its lower word (log entry 70). -/
def itcmCheck (chunk : Nat) : M Unit := fun s =>
  if eccItcmOn s then
    match eccCheck Config.eccCode64 (tcmDouble s.itcm.bytes (chunk * 8)) (sparseRead s.itcm.ecc chunk) with
    | .good => .ok () s
    | .corrected d =>
      let t := recordItcm (chunk * 8) false s
      .ok () { t with itcm := encodeItcm { t.itcm with
        bytes := storeBytes t.itcm.bytes (chunk * 8)
          (bytesOfWord (d.extractLsb' 0 32) ++ bytesOfWord (d.extractLsb' 32 32)) } chunk }
    | .lost => .ok () (recordItcm (chunk * 8) true s)
  else .ok () s

/-- Read the ITCM at an offset. -/
def itcmRead (off n : Nat) : M (List Byte) := do
  itcmCheck (off / 8)
  let s ← get
  pure (memBytes s.itcm.bytes off n)

/-- Read the DTCM at an offset; eight bytes are two chunks. -/
def dtcmRead (off n : Nat) : M (List Byte) := do
  dtcmCheck (off / 4)
  if n = 8 then dtcmCheck (off / 4 + 1)
  let s ← get
  pure (memBytes s.dtcm.bytes off n)

/-- Write the ITCM at an offset; a write narrower than the protected chunk reads and checks the chunk first
(21_mpu_tcm.md R388). -/
def itcmWrite (off : Nat) (bs : List Byte) : M Unit := do
  if bs.length < 8 then itcmCheck (off / 8)
  modify fun s =>
    let t := { s.itcm with bytes := storeBytes s.itcm.bytes off bs }
    { s with itcm := if s.cfg.ecc then encodeItcm t (off / 8) else t }

/-- Write the DTCM at an offset (21_mpu_tcm.md R388). -/
def dtcmWrite (off : Nat) (bs : List Byte) : M Unit := do
  if bs.length < 4 then dtcmCheck (off / 4)
  modify fun s =>
    let t := { s.dtcm with bytes := storeBytes s.dtcm.bytes off bs }
    { s with dtcm :=
        if s.cfg.ecc then (if bs.length = 8 then encodeDtcm (encodeDtcm t (off / 4)) (off / 4 + 1) else encodeDtcm t (off / 4))
        else t }

/-! ### Routing one access (20_memory.md R289) -/

/-- Whether memory of these attributes may be cached: Normal, Write-Back, and if shareable then only in SMP mode
(20_memory.md R252). -/
def cacheable (s : State) (attr : Attr) : Bool :=
  attr.type == .normal && attr.writeBack && (!attr.shareable || s.cp15.actlr.getLsbD 6)

/-- Read the ITCM at an address of its region: a hole that does not alias it reads as zero (21_mpu_tcm.md R383, U33). -/
def itcmReadAt (a : Word) (n : Nat) : M (List Byte) := fun s =>
  match tcmOffset s.cfg.itcmBuild a with
  | some off => itcmRead off n s
  | none => .ok (List.replicate n 0) s

/-- Read the DTCM at an address of its region (21_mpu_tcm.md R383, U33). -/
def dtcmReadAt (a : Word) (n : Nat) : M (List Byte) := fun s =>
  match tcmOffset s.cfg.dtcmBuild a with
  | some off => dtcmRead off n s
  | none => .ok (List.replicate n 0) s

/-- Write the ITCM at an address of its region: a hole that does not alias it discards the write (U33). -/
def itcmWriteAt (a : Word) (bs : List Byte) : M Unit := fun s =>
  match tcmOffset s.cfg.itcmBuild a with
  | some off => itcmWrite off bs s
  | none => .ok () s

/-- Write the DTCM at an address of its region (U33). -/
def dtcmWriteAt (a : Word) (bs : List Byte) : M Unit := fun s =>
  match tcmOffset s.cfg.dtcmBuild a with
  | some off => dtcmWrite off bs s
  | none => .ok () s

/-- A load or store was made that no DSB has completed (70_reset_and_hazards.md R862). -/
def State.accessed (s : State) : State := { s with upkeep := { s.upkeep with dsb := false } }

/-- Whether an access looks in the data cache: the cache is on and the memory Cacheable (20_memory.md R252). A doubleword or
multiple access in the peripheral-port range does not, for the range does not take it whatever its attributes (R292, U28). -/
def throughCache (s : State) (a : Word) (attr : Attr) (form : AccessForm) : Bool :=
  dcacheOn s && cacheable s attr && !(form == .multiple && inPeripheral s.cfg a)

/-- Read `n` bytes at an address aligned to `n`, served by a TCM, the data cache or the bus. -/
def readRouted (a : Word) (n : Nat) (attr : Attr) (form : AccessForm) : M (List Byte) := fun s =>
  if tcmClash s then .error (.refuse .tcmOverlap) s
  else if inItcm s a then itcmReadAt a n s
  else if inDtcm s a then dtcmReadAt a n s
  else if throughCache s a attr form then dcacheRead a n attr s
  else transferRead a n attr form s

/-- Read `n` bytes at an address aligned to `n`, and remember that a DSB is due. -/
def readPart (a : Word) (n : Nat) (attr : Attr) (form : AccessForm) : M (List Byte) := do
  modify State.accessed
  readRouted a n attr form

/-- Write bytes at an address aligned to their number. -/
def writeRouted (a : Word) (bs : List Byte) (attr : Attr) (form : AccessForm) : M Unit := fun s =>
  if tcmClash s then .error (.refuse .tcmOverlap) s
  else if inItcm s a then itcmWriteAt a bs s
  else if inDtcm s a then dtcmWriteAt a bs s
  else if throughCache s a attr form then dcacheWrite a bs attr s
  else transferWrite a bs attr form s

/-- The word at `k` * 4 as data accesses of these attributes see it, with no error checking. -/
def dataWord (s : State) (attr : Attr) (k : Nat) : Word :=
  let a := BitVec.ofNat 32 (4 * k)
  if inItcm s a then match tcmOffset s.cfg.itcmBuild a with
    | some off => tcmWord s.itcm.bytes off
    | none => 0
  else match (if dcacheOn s && cacheable s attr then hitWay s.dcache s.cp15.deer (setBits s.cfg.dcache) a else none) with
    | some way => leWord (lineBytes s.dcache (lineIndex way (setOf (setBits s.cfg.dcache) a)) (a.toNat % 32) 4)
    | none => leWord (memBytes s.mem (4 * k) 4)

/-- Whether an address is Cacheable memory for an access of a kind (20_memory.md R252). -/
def cacheableFor (s : State) (k : AccessKind) (a : Word) : Bool :=
  match lookupRegion s k true a with
  | .hit attr _ => cacheable s attr
  | _ => false

/-- Where the word that a fetch at an address reads stands: in the ITCM and at which word of its RAM, or not and at which word of
the address space; none in a hole of the ITCM that does not alias it. -/
def codePlace (s : State) (a : Word) : Option (Bool × Nat) :=
  if inItcm s a then (tcmOffset s.cfg.itcmBuild a).map fun off => (true, off / 4) else some (false, a.toNat / 4)

/-- What memory stored code at an address stands in (20_memory.md R281): it is cached if stores to it or fetches of it are. -/
def codeMemory (s : State) (a : Word) : CodeMemory :=
  if inItcm s a then .itcm
  else if cacheableFor s .write a || cacheableFor s .fetch a then .cached
  else .uncached

/-- The word numbered `k` in its memory was stored: the values it had since it was last synchronised, with the old one and the new
one, wait for the whole sequence (20_memory.md R281, U26). -/
def noteStored (memory : CodeMemory) (k : Nat) (old new : Word) (l : List Unsynced) : List Unsynced :=
  let place := (memory == .itcm, k)
  let before := match l.find? (·.standsAt place) with
    | some u => u.values
    | none => [old]
  ⟨k, memory, if before.contains new then before else new :: before, false, false, false, false, false⟩
    :: l.filter fun u => !u.standsAt place

/-- The word at `k` * 4 is not synchronised with instruction fetch after it went from what it was in `s` to what it is now. -/
def markWord (s : State) (attr : Attr) (k : Nat) : M Unit := modify fun t =>
  let a := BitVec.ofNat 32 (4 * k)
  match codePlace t a with
  | some place =>
    let l := noteStored (codeMemory t a) place.2 (dataWord s attr k) (dataWord t attr k) t.unsynced
    { t with unsynced := l }
  | none => t

/-- Write bytes at an address aligned to their number, and remember that a DSB is due and that words instruction fetch could read
were stored. -/
def writePart (a : Word) (bs : List Byte) (attr : Attr) (form : AccessForm) : M Unit := do
  let s ← get
  modify State.accessed
  writeRouted a bs attr form
  if inPeripheral s.cfg a || inDtcm s a then pure ()
  else do
    markWord s attr (a.toNat / 4)
    if bs.length = 8 then markWord s attr (a.toNat / 4 + 1)

/-- The attributes of one byte that has passed its check. -/
def byteAttr (s : State) (k : AccessKind) (privileged : Bool) (a : Word) : Attr :=
  match lookup s k privileged a with
  | .hit attr _ => attr
  | _ => normalNc false

/-- Read `n` bytes one at a time: an unaligned access to Normal memory (20_memory.md R244). -/
def readBytewise (privileged : Bool) : Word → Nat → M (List Byte)
  | _, 0 => pure []
  | a, n + 1 => do
    let s ← get
    let b ← readPart a 1 (byteAttr s .read privileged a) .single
    let bs ← readBytewise privileged (a + 1) n
    pure (b ++ bs)

/-- Write bytes one at a time (20_memory.md R244). -/
def writeBytewise (privileged : Bool) : Word → List Byte → M Unit
  | _, [] => pure ()
  | a, b :: bs => do
    let s ← get
    writePart a [b] (byteAttr s .write privileged a) .single
    writeBytewise privileged (a + 1) bs

/-! ### Checked accesses (42_a32_core_subset.md R958) -/

/-- What an access asks for: its size in bytes, the alignment it must have, its privilege, and how it is made. -/
structure Access where
  size : Nat
  align : Nat
  privileged : Bool
  form : AccessForm
  deriving DecidableEq, Repr

/-- The checks before an access, in order: alignment (20_memory.md R242), the end of the address space (U20), the MPU
(21_mpu_tcm.md R350). The attributes of the memory, or the stop. -/
def admission (k : AccessKind) (acc : Access) (a : Word) (s : State) : Except Stop Attr :=
  let write := k == .write
  if a.toNat % acc.align ≠ 0 then .error (.dataAbort .alignment write a)
  else if 2 ^ 32 < a.toNat + acc.size then .error (.fault .addressWrap)
  else match checkAccess s k acc.privileged a acc.size with
    | .error (.fault f) => .error (.dataAbort f write a)
    | .error (.refused r) => .error (.refuse r)
    | .ok attr => .ok attr

/-- Read the bytes of an access that has been admitted. -/
def readAdmitted (acc : Access) (a : Word) (attr : Attr) : M (List Byte) :=
  if a.toNat % acc.size = 0 then readPart a acc.size attr acc.form
  else readBytewise acc.privileged a acc.size

/-- Write the bytes of an access that has been admitted. -/
def writeAdmitted (acc : Access) (a : Word) (attr : Attr) (bs : List Byte) : M Unit :=
  if a.toNat % acc.size = 0 then writePart a bs attr acc.form
  else writeBytewise acc.privileged a bs

/-- Read the bytes of an access. -/
def readBytes (acc : Access) (a : Word) : M (List Byte) := fun s =>
  match admission .read acc a s with
  | .error e => .error e s
  | .ok attr => readAdmitted acc a attr s

/-- Write the bytes of an access. -/
def writeBytes (acc : Access) (a : Word) (bs : List Byte) : M Unit := fun s =>
  match admission .write acc a s with
  | .error e => .error e s
  | .ok attr => writeAdmitted acc a attr bs s

/-- A load of up to four bytes: the value, zero-extended, in the byte order of CPSR.E (20_memory.md R241, R243). -/
def loadValue (acc : Access) (a : Word) : M Word := do
  let be := (← get).bigEndian
  let bs ← readBytes acc a
  pure (valueOf be bs)

/-- A store of the low bytes of a value in the byte order of CPSR.E (20_memory.md R241, R243). -/
def storeValue (acc : Access) (a : Word) (v : Word) : M Unit := do
  let be := (← get).bigEndian
  writeBytes acc a (bytesOf be acc.size v)

/-- Store two words at `a` and `a` + 4 (42_a32_core_subset.md R1006, R1023): both are checked before either is stored, so no
partial store is visible (R958). DESIGN CHOICE (log entry 93): so it is for each double of VSTM and VPUSH and of VSTR too, of
which 43_vfp_instructions.md R1086 and R1088 let the first word be written when the second aborts. Of a doubleword or multiple
form, two words that are one chunk of the ITCM are one write of the chunk (21_mpu_tcm.md R388, 70_reset_and_hazards.md R854). -/
def storeTwo (acc : Access) (a v1 v2 : Word) : M Unit := fun s =>
  match admission .write acc a s with
  | .error e => .error e s
  | .ok attr1 =>
    match admission .write acc (a + 4) s with
    | .error e => .error e s
    | .ok attr2 =>
      if acc.form == .multiple && inItcm s a && decide (a.toNat % 8 = 0) then
        writePart a (bytesOf s.bigEndian 4 v1 ++ bytesOf s.bigEndian 4 v2) attr1 .multiple s
      else
        (do
          writeAdmitted acc a attr1 (bytesOf s.bigEndian 4 v1)
          writeAdmitted acc (a + 4) attr2 (bytesOf s.bigEndian 4 v2) : M Unit) s

/-- A single access of `n` bytes, checked for alignment only under SCTLR.A (20_memory.md R242). -/
def single (s : State) (n : Nat) (privileged : Bool) : Access :=
  ⟨n, if s.cp15.sctlr.getLsbD 1 then n else 1, privileged, .single⟩

/-- A word access that is part of a doubleword or multiple one: always word-aligned (20_memory.md R242). -/
def multiple (privileged : Bool) : Access := ⟨4, 4, privileged, .multiple⟩

/-- A single word access that must be word-aligned whatever SCTLR.A is (20_memory.md R242: VLDR, VSTR). -/
def alignedWord (privileged : Bool) : Access := ⟨4, 4, privileged, .single⟩

/-! ### Instruction fetch -/

/-- Read an instruction's bytes past the TCM and the cache: the private region, the peripheral port and the debug window
answer SLVERR (20_memory.md R292, R304; 60_exceptions.md R525). -/
def fetchBus (a : Word) (n : Nat) (s : State) : Except FaultStatus (List Byte) :=
  if inPeripheral s.cfg a || inWindow s.cfg a then .error (.syncExternal true)
  else match busError s .single a n with
    | some x => .error (.syncExternal x)
    | none => .ok (memBytes s.mem a.toNat n)

/-- Fetch an instruction's bytes past the TCM and the cache, with the transfer's lookup in the duplicate tag RAM (61_scu.md
R582). -/
def fetchTransfer (a : Word) (n : Nat) : M (Except FaultStatus (List Byte)) := do
  scuCheck a
  let s ← get
  pure (fetchBus a n s)

/-- Fetch through the instruction cache (20_memory.md R251, R253): a hit reads the line, a miss fills one; an error response on
any beat of the linefill aborts the instruction (60_exceptions.md R525; log entry 92). -/
def fetchCached (a : Word) : M (Except FaultStatus (List Byte)) := do
  icacheCheck a
  let s ← get
  let k := setBits s.cfg.icache
  let off := a.toNat % 32
  match hitWay s.icache s.cp15.ieer k a with
  | some way => pure (.ok (lineBytes s.icache (lineIndex way (setOf k a)) off 4))
  | none => do
    match ← fetchTransfer (a &&& 0xFFFFFFE0) 32 with
    | .error f => pure (.error f)
    | .ok bs => do
      let t ← get
      match victimWay t t.icache (iUsable t (setOf k a)) (setOf k a) with
      | some way => set (installILine way a bs t)
      | none => pure ()
      pure (.ok ((bs.drop off).take 4))

/-- Fetch the instruction word at a word-aligned address (20_memory.md R241, R289; 21_mpu_tcm.md R350, R381), as the memory or
the instruction cache has it: the word, or the fault its Prefetch Abort reports (60_exceptions.md R525, R528). A fetch in the DTCM region goes
past the cache (21_mpu_tcm.md R381). -/
def fetchServed (a : Word) : M (Except FaultStatus Word) := fun s =>
  match checkAccess s .fetch s.privileged a 4 with
  | .error (.fault f) => .ok (.error f) s
  | .error (.refused r) => .error (.refuse r) s
  | .ok attr =>
    if tcmClash s then .error (.refuse .tcmOverlap) s
    else if inItcm s a then
      (do let bs ← itcmReadAt a 4; pure (.ok (leWord bs)) : M (Except FaultStatus Word)) s
    else if icacheOn s && cacheable s attr && !inDtcm s a then
      (do let r ← fetchCached a; pure (r.map leWord) : M (Except FaultStatus Word)) s
    else (do let r ← fetchTransfer a 4; pure (r.map leWord) : M (Except FaultStatus Word)) s

/-- One of some words, a free choice. -/
def chooseWord (w : Word) (ws : List Word) : M Word := fun s =>
  .ok ((w :: ws).getD ((Config.freeWord s.free).toNat % (ws.length + 1)) w) { s with free := s.free + 1 }

/-- Fetch the instruction word at a word-aligned address. Of a word that was stored and not synchronised since, the word that
the fetch finds or any value it had since, a free choice in each fetch (20_memory.md R281, U26; log entry 80). A word of the
ITCM is known by its place in the RAM, wherever ITCMRR puts it (70_reset_and_hazards.md R854). -/
def fetchWord (a : Word) : M (Except FaultStatus Word) := do
  let r ← fetchServed a
  let s ← get
  match r, (codePlace s a).bind fun place => s.unsynced.find? (·.standsAt place) with
  | .ok w, some u => do pure (.ok (← chooseWord w u.values))
  | _, _ => pure r

end Sys2Proof.Machine
end

