-- ==== Sys2Proof/Machine/Cp15.lean ====
section
/-! DEFINITION. MRC and MCR to coprocessor 15 (40_system_register_access.md R431 to R439) and its registers
(11_cp15_registers.md R100 to R191). -/

namespace Sys2Proof.Machine

/-! ### Selection -/

/-- The c7 operations (11_cp15_registers.md R150). -/
inductive Cp15Op where
  | nop | dsb | dmb | isb | iciallu | icimvau | bpiall | bpimva | dcimvac | dcisw | dccmva | dccsw | dccimvac | dccisw
  deriving DecidableEq, Repr

/-- The registers and operations of CP15 (11_cp15_registers.md R190). -/
inductive Cp15Reg where
  | midr | ctr | tcmtr | mpuir | mpidr | revidr
  | feature (value : Word)
  | ccsidr | clidr | aidr | csselr | sctlr | actlr | cpacr | dfsr | ifsr | dfar | ifar
  | drbar | drsr | dracr | rgnr
  | op (o : Cp15Op)
  | dtcmrr | itcmrr
  | pmcr | pmcntenset | pmcntenclr | pmovsr | pmswinc | pmselr | pmccntr | pmxevtyper | pmxevcntr
  | pmuserenr | pmintenset | pmintenclr
  | contextidr | tpidrurw | tpidruro | tpidrprw | pcr
  | ctdor | radrlo | radrhi | raeccr
  | deer (n : Fin 3) | ieer (n : Fin 3) | dtcmeer | itcmeer | cbar
  deriving DecidableEq, Repr

/-- The number of a selector (op1, CRn, CRm, op2) (40_system_register_access.md R431). -/
def selector (op1 crn crm op2 : Nat) : Nat := op1 * 2048 + crn * 128 + crm * 8 + op2

/-- The identification selectors (11_cp15_registers.md R103 to R108). -/
def cp15Ids : List (Nat × Cp15Reg) := [
  (selector 0 0 0 0, .midr), (selector 0 0 0 1, .ctr), (selector 0 0 0 2, .tcmtr), (selector 0 0 0 4, .mpuir),
  (selector 0 0 0 5, .mpidr), (selector 0 0 0 6, .revidr)]

/-- The CPUID feature registers (11_cp15_registers.md R109). -/
def cp15Features : List (Nat × Cp15Reg) := [
  (selector 0 0 1 0, .feature 0x00000131), (selector 0 0 1 1, .feature 0x00000001),
  (selector 0 0 1 2, .feature 0x00010404), (selector 0 0 1 3, .feature 0x00000000),
  (selector 0 0 1 4, .feature 0x00110130), (selector 0 0 1 5, .feature 0x00000000),
  (selector 0 0 1 6, .feature 0x01200000), (selector 0 0 1 7, .feature 0x00002111),
  (selector 0 0 2 0, .feature 0x02101111), (selector 0 0 2 1, .feature 0x13112111),
  (selector 0 0 2 2, .feature 0x21232141), (selector 0 0 2 3, .feature 0x01112131),
  (selector 0 0 2 4, .feature 0x00010142)]

/-- Cache identification, control, fault and MPU registers (11_cp15_registers.md R110 to R148). -/
def cp15Control : List (Nat × Cp15Reg) := [
  (selector 1 0 0 0, .ccsidr), (selector 1 0 0 1, .clidr), (selector 1 0 0 7, .aidr), (selector 2 0 0 0, .csselr),
  (selector 0 1 0 0, .sctlr), (selector 0 1 0 1, .actlr), (selector 0 1 0 2, .cpacr), (selector 0 5 0 0, .dfsr),
  (selector 0 5 0 1, .ifsr), (selector 0 6 0 0, .dfar), (selector 0 6 0 2, .ifar), (selector 0 6 1 0, .drbar),
  (selector 0 6 1 2, .drsr), (selector 0 6 1 4, .dracr), (selector 0 6 2 0, .rgnr)]

/-- The c7 operations (11_cp15_registers.md R150). -/
def cp15Ops : List (Nat × Cp15Reg) := [
  (selector 0 7 0 4, .op .nop), (selector 0 7 1 0, .op .iciallu), (selector 0 7 1 6, .op .bpiall),
  (selector 0 7 5 0, .op .iciallu), (selector 0 7 5 1, .op .icimvau), (selector 0 7 5 4, .op .isb),
  (selector 0 7 5 6, .op .bpiall), (selector 0 7 5 7, .op .bpimva), (selector 0 7 6 1, .op .dcimvac),
  (selector 0 7 6 2, .op .dcisw), (selector 0 7 10 1, .op .dccmva), (selector 0 7 10 2, .op .dccsw),
  (selector 0 7 10 4, .op .dsb), (selector 0 7 10 5, .op .dmb), (selector 0 7 11 1, .op .dccmva),
  (selector 0 7 14 1, .op .dccimvac), (selector 0 7 14 2, .op .dccisw)]

/-- TCM region, performance monitor and thread registers (11_cp15_registers.md R155 to R173). -/
def cp15Monitor : List (Nat × Cp15Reg) := [
  (selector 0 9 1 0, .dtcmrr), (selector 0 9 1 1, .itcmrr), (selector 0 9 12 0, .pmcr),
  (selector 0 9 12 1, .pmcntenset), (selector 0 9 12 2, .pmcntenclr), (selector 0 9 12 3, .pmovsr),
  (selector 0 9 12 4, .pmswinc), (selector 0 9 12 5, .pmselr), (selector 0 9 13 0, .pmccntr),
  (selector 0 9 13 1, .pmxevtyper), (selector 0 9 13 2, .pmxevcntr), (selector 0 9 14 0, .pmuserenr),
  (selector 0 9 14 1, .pmintenset), (selector 0 9 14 2, .pmintenclr), (selector 0 13 0 1, .contextidr),
  (selector 0 13 0 2, .tpidrurw), (selector 0 13 0 3, .tpidruro), (selector 0 13 0 4, .tpidrprw)]

/-- The implementation-defined registers (11_cp15_registers.md R174 to R184). -/
def cp15Implementation : List (Nat × Cp15Reg) := [
  (selector 0 15 0 0, .pcr), (selector 0 15 1 0, .ctdor), (selector 0 15 1 1, .radrlo), (selector 0 15 1 2, .radrhi),
  (selector 0 15 1 3, .raeccr), (selector 0 15 2 0, .deer 0), (selector 0 15 2 1, .deer 1),
  (selector 0 15 2 2, .deer 2), (selector 0 15 3 0, .ieer 0), (selector 0 15 3 1, .ieer 1),
  (selector 0 15 3 2, .ieer 2), (selector 0 15 4 0, .dtcmeer), (selector 0 15 5 0, .itcmeer),
  (selector 4 15 0 0, .cbar)]

/-- The map of 11_cp15_registers.md R190. -/
def cp15Map : List (Nat × Cp15Reg) :=
  cp15Ids ++ cp15Features ++ cp15Control ++ cp15Ops ++ cp15Monitor ++ cp15Implementation

/-- What a selector names (40_system_register_access.md R431). -/
def cp15Sel (op1 : BitVec 3) (crn crm : BitVec 4) (op2 : BitVec 3) : Option Cp15Reg :=
  lookupKey cp15Map (selector op1.toNat crn.toNat crm.toNat op2.toNat)

/-! ### Access rights -/

/-- PMUSERENR.EN: User mode may use the PMU (64_debug_pmu.md R733). -/
def pmuUserEnabled (s : State) : Bool := s.pmu.userenr.getLsbD 0

/-- The PMU registers User mode reaches when enabled (40_system_register_access.md R434). -/
def Cp15Reg.userMonitor : Cp15Reg → Bool
  | .pmcr | .pmcntenset | .pmcntenclr | .pmovsr | .pmswinc | .pmselr | .pmccntr | .pmxevtyper | .pmxevcntr => true
  | _ => false

/-- user_readable (40_system_register_access.md R434). -/
def userReadable (s : State) (r : Cp15Reg) : Bool :=
  r == .tpidrurw || r == .tpidruro || r == .pmuserenr || (r.userMonitor && pmuUserEnabled s)

/-- user_writable (40_system_register_access.md R434): the barriers of c7 too, as R434 and 60_exceptions.md R561 say, where
11_cp15_registers.md R150 calls all of c7 privileged only (log entry 103). -/
def userWritable (s : State) (r : Cp15Reg) : Bool :=
  r == .tpidrurw || r == .op .dsb || r == .op .dmb || r == .op .isb || (r.userMonitor && pmuUserEnabled s)

/-- The read-only registers (40_system_register_access.md R436). -/
def Cp15Reg.readOnly : Cp15Reg → Bool
  | .midr | .ctr | .tcmtr | .mpuir | .mpidr | .revidr | .feature _ | .ccsidr | .clidr | .aidr | .cbar => true
  | _ => false

/-- The write-only ones (40_system_register_access.md R437). -/
def Cp15Reg.writeOnly : Cp15Reg → Bool
  | .op _ | .pmswinc => true
  | _ => false

/-! ### Values -/

/-- CLIDR (11_cp15_registers.md R112). -/
def clidrValue (cfg : Config) : Word := if cfg.icache = .none ∧ cfg.dcache = .none then 0 else 0x09200003

/-- CCSIDR of a cache that is built (11_cp15_registers.md R111); of one that is not, `Config.ccsidrUnbuilt` (D1). -/
def ccsidrValue (size : RamSize) (instruction : Bool) : Word :=
  (if instruction then 0x20000019 else 0x70000019) ||| BitVec.ofNat 32 ((2 ^ setBits size - 1) * 8192)

/-- The bits of SCTLR that are read/write (11_cp15_registers.md R120). DEDUCED: Z is one of them and 0 after reset, as R120's table
has it, though 71_timing.md R916 says that it reads as one (log entry 116). -/
def sctlrMask (cfg : Config) : Word :=
  0x422A3C07 &&& ~~~ (bitAt (cfg.icache == .none) 12 ||| bitAt (cfg.dcache == .none) 2)

/-- The bits of ACTLR that are read/write (11_cp15_registers.md R131). -/
def actlrMask (cfg : Config) : Word :=
  0x00000F49 &&& ~~~ ((if cfg.ecc then 0 else 0x600) ||| bitAt (!cfg.twoCpus) 0)

/-- The bits of CPACR that are read/write (11_cp15_registers.md R132). -/
def cpacrMask (cfg : Config) : Word := if cfg.fpu = .none then 0 else 0x00F00000

/-- The bits of a TCM region register that are read/write (11_cp15_registers.md R155, R156). -/
def tcmrrMask (size : RamSize) : Word := if size = .none then 0xFFFFF000 else 0xFFFFF001

/-- The bits of the TCM ECC error registers (11_cp15_registers.md R184). -/
def tcmeerMask (cfg : Config) (size : RamSize) : Word := if cfg.ecc && size != .none then 0x0201FFFF else 0

/-- The region RGNR names (11_cp15_registers.md R144). -/
def currentRegion : M (Fin 16) := fun s =>
  if regionCount s.cfg ≤ s.cp15.rgnr.toNat then .error (.refuse .regionNumber) s
  else .ok (Fin.ofNat 16 s.cp15.rgnr.toNat) s

/-- Replace CP15's registers. -/
def setCp15 (f : Cp15 → Cp15) : M Unit := fun s => .ok () { s with cp15 := f s.cp15 }

/-- Replace the PMU's registers. -/
def setPmu (f : Pmu → Pmu) : M Unit := fun s => .ok () { s with pmu := f s.pmu }

/-- read_value (40_system_register_access.md R432) of a register. -/
def readCp15 (r : Cp15Reg) : M Word := do
  let s ← get
  let c := s.cp15
  match r with
  | .midr => pure midrValue
  | .ctr => pure ctrValue
  | .tcmtr => pure (tcmtrValue s.cfg)
  | .mpuir => pure (mpuirValue s.cfg)
  | .mpidr => pure (mpidrValue s.cfg)
  | .revidr => pure s.cfg.revidr
  | .feature v => pure v
  | .ccsidr =>
    let instruction := c.csselr.getLsbD 0
    let size := if instruction then s.cfg.icache else s.cfg.dcache
    pure (if size = .none then Config.ccsidrUnbuilt instruction else ccsidrValue size instruction)
  | .clidr => pure (clidrValue s.cfg)
  | .aidr => pure 0
  | .csselr => pure c.csselr
  | .sctlr => pure c.sctlr
  | .actlr => pure c.actlr
  | .cpacr => pure c.cpacr
  | .dfsr => pure c.dfsr
  | .ifsr => pure c.ifsr
  | .dfar => pure c.dfar
  | .ifar => pure c.ifar
  | .drbar => do pure c.drbar[← currentRegion]
  | .drsr => do pure c.drsr[← currentRegion]
  | .dracr => do pure c.dracr[← currentRegion]
  | .rgnr => pure c.rgnr
  | .op _ => undefined
  | .dtcmrr => pure c.dtcmrr
  | .itcmrr => pure c.itcmrr
  | .pmcr => pure (readPmu .pmcr s.pmu)
  | .pmcntenset => pure (readPmu .cntenSet s.pmu)
  | .pmcntenclr => pure (readPmu .cntenClr s.pmu)
  | .pmovsr => pure (readPmu .ovsr s.pmu)
  | .pmswinc => undefined
  | .pmselr => pure (readPmu .selr s.pmu)
  | .pmccntr => pure (readPmu .ccntr s.pmu)
  | .pmxevtyper => match selectedCounter s.pmu with
    | some n => pure (readPmu (.evtyper n) s.pmu)
    | none => drawWord
  | .pmxevcntr => match selectedCounter s.pmu with
    | some n => pure (readPmu (.evcntr n) s.pmu)
    | none => drawWord
  | .pmuserenr => pure (readPmu .userenr s.pmu)
  | .pmintenset => pure (readPmu .intenSet s.pmu)
  | .pmintenclr => pure (readPmu .intenClr s.pmu)
  | .contextidr => pure c.contextidr
  | .tpidrurw => pure c.tpidrurw
  | .tpidruro => pure c.tpidruro
  | .tpidrprw => pure c.tpidrprw
  | .pcr => pure c.pcr
  | .ctdor => drawWord
  | .radrlo => pure c.radrlo
  | .radrhi => pure c.radrhi
  | .raeccr => pure (if s.cfg.ecc then c.raeccr else 0)
  | .deer n => pure (if s.cfg.ecc then c.deer[n] else 0)
  | .ieer n => pure (if s.cfg.ecc then c.ieer[n] else 0)
  | .dtcmeer => pure (c.dtcmeer &&& tcmeerMask s.cfg s.cfg.dtcm)
  | .itcmeer => pure (c.itcmeer &&& tcmeerMask s.cfg s.cfg.itcm)
  | .cbar => pure (privateBase s.cfg)

/-! ### Operations -/

/-- Perform a c7 operation (20_memory.md R258); the barriers are DSB, DMB and ISB (R280). An operation of the branch predictor
matters to the sequence of R281 alone; ICIALLU is one of them too. -/
def performOp (o : Cp15Op) (v : Word) : M Unit :=
  match o with
  | .nop => pure ()
  | .dsb => modify completeAccesses
  | .dmb => pure ()
  | .isb => modify synchronise
  | .iciallu => do
    invalidateICache
    noteDropped
    noteForgotten
  | .icimvau => do
    invalidateICacheAt v
    noteDroppedAt v
  | .bpiall => noteForgotten
  | .bpimva => noteForgottenAt v
  | .dcimvac => do
    modify State.maintained
    atLine v invalidateLine
  | .dcisw => do
    modify State.maintained
    bySetWay v fun way set => do
      invalidateLine way set
      noteInvalidated way set
  | .dccmva => do
    modify State.maintained
    atLine v cleanLine
    noteCleanedAt v
  | .dccsw => do
    modify State.maintained
    bySetWay v fun way set => do
      cleanLine way set
      noteCleaned way set
  | .dccimvac => do
    modify State.maintained
    atLine v cleanInvalidateLine
    noteCleanedAt v
  | .dccisw => do
    modify State.maintained
    bySetWay v fun way set => do
      cleanInvalidateLine way set
      noteInvalidated way set
      noteCleaned way set

/-- The chunk a direct access shows in RAECCR: its seven low bits (11_cp15_registers.md R178; log entry 69). -/
def chunkOf (s : State) (chunk : Byte) : Word := if s.cfg.ecc then chunk.setWidth 32 &&& 0x7F else 0

/-- The chunks of a RAM after a direct access writes RAECCR beside the data at a key (11_cp15_registers.md R178, R179): the
eighth bit of a doubleword's chunk, which RAECCR does not have, stays (log entry 69). -/
def writeChunk (s : State) (m : List (Nat × Byte)) (key : Nat) : List (Nat × Byte) :=
  if s.cfg.ecc then sparseWrite m key ((sparseRead m key &&& 0x80) ||| (s.cp15.raeccr.setWidth 8 &&& 0x7F)) else m

/-- The tag RAM bits of a data cache: the status bits and as much of the tag as the size has (20_memory.md R265). -/
def dTagMask (k : Nat) : Word := 0x1FC00000 ||| BitVec.ofNat 32 (2 ^ (27 - k) - 1)

/-- The tag RAM bits of the instruction cache: the tag and the valid bit (log entry 25). -/
def iTagMask (k : Nat) : Word := 0x00400000 ||| BitVec.ofNat 32 (2 ^ (27 - k) - 1)

/-- What a direct read leaves in RADRLO, RADRHI and RAECCR (11_cp15_registers.md R177, R178). -/
def setRamData (s : State) (lo hi : Word) (chunk : Byte) : State :=
  { s with cp15 := { s.cp15 with radrlo := lo, radrhi := hi, raeccr := chunkOf s chunk } }

/-- A data-side operation leaves RADRHI at zero (11_cp15_registers.md R177; log entry 88). -/
def clearRadrhi (s : State) : State := { s with cp15 := { s.cp15 with radrhi := 0 } }

/-- The three registers after a direct read of a RAM that is not built: free values; on the data side RADRHI reads zero. -/
def freeRamData (instruction : Bool) (s : State) : State :=
  { s with free := s.free + 3, cp15 := { s.cp15 with
      radrlo := Config.freeWord s.free
      radrhi := if instruction then Config.freeWord (s.free + 1) else 0
      raeccr := if s.cfg.ecc then Config.freeWord (s.free + 2) &&& 0x7F else 0 } }

/-- A direct access to the data cache's RAMs: 32 bits, through RADRLO (11_cp15_registers.md R176, R177). -/
def directDCache (v : Word) (s : State) : State :=
  let k := setBits s.cfg.dcache
  let line := lineIndex (v.extractLsb' 30 2).toNat ((v.extractLsb' 5 9).toNat % 2 ^ k)
  let key := line * 8 + (v.extractLsb' 2 3).toNat
  if v.getLsbD 21 then
    if v.getLsbD 0 then
      clearRadrhi { s with dcache := { s.dcache with
        data := sparseWrite s.dcache.data key s.cp15.radrlo
        dataEcc := writeChunk s s.dcache.dataEcc key } }
    else setRamData s (sparseRead s.dcache.data key) 0 (sparseRead s.dcache.dataEcc key)
  else
    if v.getLsbD 0 then
      clearRadrhi { s with dcache := { s.dcache with
        tag := sparseWrite s.dcache.tag line (s.cp15.radrlo &&& dTagMask k)
        tagEcc := writeChunk s s.dcache.tagEcc line } }
    else setRamData s (sparseRead s.dcache.tag line) 0 (sparseRead s.dcache.tagEcc line)

/-- A direct access to the instruction cache's RAMs: 64 bits (11_cp15_registers.md R176, R177). DESIGN CHOICE: bit [2] of the word
is ignored, so that an odd word selects its aligned doubleword, and a read of the tag RAM leaves RADRHI at 0 (log entry 104). -/
def directICache (v : Word) (s : State) : State :=
  let k := setBits s.cfg.icache
  let line := lineIndex (v.extractLsb' 30 2).toNat ((v.extractLsb' 5 9).toNat % 2 ^ k)
  let key := line * 8 + (v.extractLsb' 3 2).toNat * 2
  if v.getLsbD 21 then
    if v.getLsbD 0 then
      { s with icache := { s.icache with
          data := sparseWrite (sparseWrite s.icache.data key s.cp15.radrlo) (key + 1) s.cp15.radrhi
          dataEcc := writeChunk s s.icache.dataEcc key } }
    else setRamData s (sparseRead s.icache.data key) (sparseRead s.icache.data (key + 1)) (sparseRead s.icache.dataEcc key)
  else
    if v.getLsbD 0 then
      { s with icache := { s.icache with
          tag := sparseWrite s.icache.tag line (s.cp15.radrlo &&& iTagMask k)
          tagEcc := writeChunk s s.icache.tagEcc line } }
    else setRamData s (sparseRead s.icache.tag line) 0 (sparseRead s.icache.tagEcc line)

/-- A direct access to the DTCM: 32 bits (11_cp15_registers.md R176). A word address past the TCM's size wraps, and a hole is
as TCM_HOLE_READS has it (log entry 68). -/
def directDtcm (v : Word) (s : State) : State :=
  match tcmPlace s.cfg.dtcmBuild ((v.extractLsb' 2 15).toNat * 4) with
  | some off =>
    if v.getLsbD 0 then
      clearRadrhi { s with dtcm := {
        bytes := storeBytes s.dtcm.bytes off (bytesOfWord s.cp15.radrlo)
        ecc := writeChunk s s.dtcm.ecc (off / 4) } }
    else setRamData s (tcmWord s.dtcm.bytes off) 0 (sparseRead s.dtcm.ecc (off / 4))
  | none => if v.getLsbD 0 then clearRadrhi s else setRamData s 0 0 0

/-- A direct access to the ITCM: 64 bits (11_cp15_registers.md R176). A word address past the TCM's size wraps, and a hole is
as TCM_HOLE_READS has it (log entry 68). DESIGN CHOICE: an odd word selects its aligned doubleword (log entry 104). -/
def directItcm (v : Word) (s : State) : State :=
  match tcmPlace s.cfg.itcmBuild ((v.extractLsb' 3 14).toNat * 8) with
  | some off =>
    if v.getLsbD 0 then
      { s with itcm := {
          bytes := storeBytes s.itcm.bytes off (bytesOfWord s.cp15.radrlo ++ bytesOfWord s.cp15.radrhi)
          ecc := writeChunk s s.itcm.ecc (off / 8) } }
    else setRamData s (tcmWord s.itcm.bytes off) (tcmWord s.itcm.bytes (off + 4)) (sparseRead s.itcm.ecc (off / 8))
  | none => if v.getLsbD 0 then s else setRamData s 0 0 0

/-- A write of CTDOR performs a direct access to a RAM word (11_cp15_registers.md R176); of a RAM that is not built, a
read gives free values and a write does nothing. -/
def directAccess (v : Word) (s : State) : State :=
  let size := if v.getLsbD 22 then (if v.getLsbD 20 then s.cfg.itcm else s.cfg.dtcm)
    else (if v.getLsbD 20 then s.cfg.icache else s.cfg.dcache)
  if size = .none then (if v.getLsbD 0 then s else freeRamData (v.getLsbD 20) s)
  else if v.getLsbD 22 then (if v.getLsbD 20 then directItcm v s else directDtcm v s)
  else if v.getLsbD 20 then directICache v s
  else directDCache v s

/-- Whether each line of the data cache that is built has its bit in one bit a line. -/
def everyLine (cfg : Config) (v : Vector Word 64) : Bool :=
  [0, 1, 2, 3].all fun way => (List.range (2 ^ setBits cfg.dcache / 32)).all fun n =>
    v[Fin.ofNat 64 (way * 16 + n)] == 0xFFFFFFFF

/-- Whether every line of the data cache was invalidated since it was last turned off (U22). -/
def dataInvalidated (s : State) : Bool := everyLine s.cfg s.upkeep.data

/-- Whether every line of the data cache was cleaned since it was last turned off (U22). -/
def dataCleaned (s : State) : Bool := everyLine s.cfg s.upkeep.cleaned

/-- Whether a new value of SCTLR changes C or I outside the sequences of 70_reset_and_hazards.md R861 and R862 (U22): the ISB
after a change of I; a DSB between the last load or store, or maintenance of the data cache that is on, and a change of C; the
instruction cache invalidated before it is turned on; the data cache cleaned after it was turned off, and invalidated, before it
is turned on. -/
def leavesSequence (s : State) (new : Word) : Bool :=
  let c := new.getLsbD 2 != s.cp15.sctlr.getLsbD 2
  let i := new.getLsbD 12 != s.cp15.sctlr.getLsbD 12
  (c || i) && !s.upkeep.isb || c && !s.upkeep.dsb || i && new.getLsbD 12 && !s.upkeep.instruction ||
    c && new.getLsbD 2 && !(dataInvalidated s && dataCleaned s)

/-- What is due after SCTLR goes from `old` to `new`: of a cache turned off everything; an ISB if I changed; a DSB before the next
change of C if C changed. -/
def CacheUpkeep.after (u : CacheUpkeep) (old new : Word) : CacheUpkeep :=
  let dataOff := old.getLsbD 2 && !new.getLsbD 2
  { instruction := u.instruction && (!old.getLsbD 12 || new.getLsbD 12)
    data := if dataOff then Vector.replicate 64 0 else u.data
    cleaned := if dataOff then Vector.replicate 64 0 else u.cleaned
    isb := u.isb && old.getLsbD 12 == new.getLsbD 12
    dsb := u.dsb && old.getLsbD 2 == new.getLsbD 2 }

/-- A write of SCTLR (11_cp15_registers.md R120; U22). -/
def writeSctlr (v : Word) : M Unit := do
  let s ← get
  let new := maskWrite s.cp15.sctlr v (sctlrMask s.cfg)
  refuseIf (leavesSequence s new) .cacheSequence
  modify fun t => { t with cp15 := { t.cp15 with sctlr := new }, upkeep := t.upkeep.after s.cp15.sctlr new }

/-- A write of ACTLR (11_cp15_registers.md R131): the error checking bits change only while the caches are off, with the
sequence that turned them off complete, and then the caches have to be invalidated again (70_reset_and_hazards.md R863, U22). -/
def writeActlr (v : Word) : M Unit := do
  let s ← get
  let new := maskWrite s.cp15.actlr v (actlrMask s.cfg)
  if new &&& 0x600 = s.cp15.actlr &&& 0x600 then setCp15 fun c => { c with actlr := new }
  else do
    refuseIf (s.cp15.sctlr &&& 0x1004 != 0 || !s.upkeep.isb || !dataCleaned s) .cacheSequence
    modify fun t => { t with cp15 := { t.cp15 with actlr := new }, upkeep := CacheUpkeep.reset }

/-- write_value or perform (40_system_register_access.md R433, R438). -/
def writeCp15 (r : Cp15Reg) (v : Word) : M Unit := do
  let s ← get
  match r with
  | .midr | .ctr | .tcmtr | .mpuir | .mpidr | .revidr | .feature _ | .ccsidr | .clidr | .aidr | .cbar => undefined
  | .csselr => setCp15 fun c => { c with csselr := maskWrite c.csselr v 1 }
  | .sctlr => writeSctlr v
  | .actlr => writeActlr v
  | .cpacr => setCp15 fun c => { c with cpacr := maskWrite c.cpacr v (cpacrMask s.cfg) }
  | .dfsr => setCp15 fun c => { c with dfsr := maskWrite c.dfsr v 0x00001C0F }
  | .ifsr => setCp15 fun c => { c with ifsr := maskWrite c.ifsr v 0x0000140F }
  | .dfar => setCp15 fun c => { c with dfar := v }
  | .ifar => setCp15 fun c => { c with ifar := v }
  | .drbar => do
    let n ← currentRegion
    setCp15 fun c => { c with drbar := c.drbar.set n (v &&& 0xFFFFFFE0) }
  | .drsr => do
    let n ← currentRegion
    setCp15 fun c => { c with drsr := c.drsr.set n (v &&& 0x0000FF3F) }
  | .dracr => do
    let n ← currentRegion
    setCp15 fun c => { c with dracr := c.dracr.set n (v &&& 0x0000173F) }
  | .rgnr => do
    refuseIf (decide (regionCount s.cfg ≤ v.toNat)) .regionNumber
    setCp15 fun c => { c with rgnr := v }
  | .op o => performOp o v
  | .dtcmrr => setCp15 fun c => { c with dtcmrr := maskWrite c.dtcmrr v (tcmrrMask s.cfg.dtcm) }
  | .itcmrr => setCp15 fun c => { c with itcmrr := maskWrite c.itcmrr v (tcmrrMask s.cfg.itcm) }
  | .pmcr => setPmu (writePmu .pmcr v)
  | .pmcntenset => setPmu (writePmu .cntenSet v)
  | .pmcntenclr => setPmu (writePmu .cntenClr v)
  | .pmovsr => setPmu (writePmu .ovsr v)
  | .pmswinc => setPmu (writePmu .swinc v)
  | .pmselr => setPmu (writePmu .selr v)
  | .pmccntr => setPmu (writePmu .ccntr v)
  | .pmxevtyper => match selectedCounter s.pmu with
    | some n => setPmu (writePmu (.evtyper n) v)
    | none => pure ()
  | .pmxevcntr => match selectedCounter s.pmu with
    | some n => setPmu (writePmu (.evcntr n) v)
    | none => pure ()
  | .pmuserenr => setPmu (writePmu .userenr v)
  | .pmintenset => setPmu (writePmu .intenSet v)
  | .pmintenclr => setPmu (writePmu .intenClr v)
  | .contextidr => setCp15 fun c => { c with contextidr := v }
  | .tpidrurw => setCp15 fun c => { c with tpidrurw := v }
  | .tpidruro => setCp15 fun c => { c with tpidruro := v }
  | .tpidrprw => setCp15 fun c => { c with tpidrprw := v }
  | .pcr => setCp15 fun c => { c with pcr := maskWrite c.pcr v 1 }
  | .ctdor => modify (directAccess v)
  | .radrlo => setCp15 fun c => { c with radrlo := v }
  | .radrhi => setCp15 fun c => { c with radrhi := v }
  | .raeccr => setCp15 fun c => { c with raeccr := if s.cfg.ecc then v &&& 0x7F else 0 }
  | .deer n => setCp15 fun c => { c with deer := if s.cfg.ecc then c.deer.set n (v &&& 0xF2073FFF) else c.deer }
  | .ieer n => setCp15 fun c => { c with ieer := if s.cfg.ecc then c.ieer.set n (v &&& 0xF2003FFF) else c.ieer }
  | .dtcmeer => setCp15 fun c => { c with dtcmeer := v &&& tcmeerMask s.cfg s.cfg.dtcm }
  | .itcmeer => setCp15 fun c => { c with itcmeer := v &&& tcmeerMask s.cfg s.cfg.itcm }

/-- Where a coprocessor read goes: Rt, or with Rt = 15 the flags (40_system_register_access.md R432). -/
def receive (rt : Reg) (v : Word) : M Unit := do
  if rt = 15 then modify fun s => s.setFlags (v.getLsbD 31) (v.getLsbD 30) (v.getLsbD 29) (v.getLsbD 28)
  else writeReg rt v
  fallThrough

/-- MRC p15, R432. -/
def execMrcP15 (c : Cond) (opc1 : BitVec 3) (crn : BitVec 4) (rt : Reg) (opc2 : BitVec 3) (crm : BitVec 4)
    (st : State) : Host.Outcome State Fault Refusal :=
  conditional c (do
    match cp15Sel opc1 crn crm opc2 with
    | none => undefined
    | some r =>
      let s ← get
      undefinedIf (!s.privileged && !userReadable s r)
      undefinedIf r.writeOnly
      receive rt (← readCp15 r)) st

/-- MCR p15, R433. -/
def execMcrP15 (c : Cond) (opc1 : BitVec 3) (crn : BitVec 4) (rt : Reg) (opc2 : BitVec 3) (crm : BitVec 4)
    (st : State) : Host.Outcome State Fault Refusal :=
  conditional c (do
    match cp15Sel opc1 crn crm opc2 with
    | none => undefined
    | some r =>
      let s ← get
      undefinedIf (!s.privileged && !userWritable s r)
      undefinedIf r.readOnly
      notPc rt
      writeCp15 r (s.reg rt)
      fallThrough) st

end Sys2Proof.Machine
end

