-- ==== Sys2Proof/Machine/Cp14.lean ====
section
/-! DEFINITION. MRC and MCR to coprocessor 14, the debug registers (40_system_register_access.md R445;
64_debug_pmu.md R745 to R750). The debug logic itself is inert (D62); what the registers' own rules leave to the debug
architecture is in log entry 34. -/

namespace Sys2Proof.Machine

/-- The rows of the register map whose CP14 column is not "none", by register number (64_debug_pmu.md R746). -/
def cp14Map : List (Nat × DebugReg) := [
  (0, .didr), (128, .drar), (256, .dsar), (1, .dscrInt), (5, .dtrInt), (6, .wfar), (7, .vcr),
  (9, .razwi), (10, .razwi), (11, .razwi),
  (32, .dtrrxExt), (33, .itrPcsr), (34, .dscrExt), (35, .dtrtxExt), (36, .drcr),
  (64, .bvr 0), (65, .bvr 1), (66, .bvr 2), (67, .bvr 3), (68, .bvr 4), (69, .bvr 5),
  (80, .bcr 0), (81, .bcr 1), (82, .bcr 2), (83, .bcr 3), (84, .bcr 4), (85, .bcr 5),
  (96, .wvr 0), (97, .wvr 1), (98, .wvr 2), (99, .wvr 3),
  (112, .wcr 0), (113, .wcr 1), (114, .wcr 2), (115, .wcr 3),
  (192, .razwi), (193, .razwi), (194, .razwi), (196, .prcr), (197, .prsr),
  (960, .razwi), (1000, .claimSet), (1001, .claimClr), (1006, .authStatus)]

/-- What a selector names (40_system_register_access.md R445): register number CRn : op2 : CRm, with op1 = 0. The PMU
numbers 512 to 575 read as zero (64_debug_pmu.md R734). -/
def cp14Sel (op1 : BitVec 3) (crn crm : BitVec 4) (op2 : BitVec 3) : Option DebugReg :=
  if op1 ≠ 0 ∨ 8 ≤ crn.toNat then none
  else
    let n := crn.toNat * 128 + op2.toNat * 16 + crm.toNat
    if 512 ≤ n ∧ n < 576 then some .monitor else lookupKey cp14Map n

/-- The rows with footnote b, open to User mode while DBGDSCR[12] is 0 (64_debug_pmu.md R746). -/
def DebugReg.userRow : DebugReg → Bool
  | .didr | .dscrInt => true
  | _ => false

/-- Whether a User-mode access is permitted (40_system_register_access.md R445). -/
def debugPermitted (s : State) (r : DebugReg) : Bool := s.privileged || (r.userRow && !s.dbg.dscr.getLsbD 12)

/-- The read-only rows (64_debug_pmu.md R746): a write is an Undefined Instruction (40_system_register_access.md R445). -/
def DebugReg.readOnly : DebugReg → Bool
  | .didr | .drar | .dsar | .dscrInt | .prsr | .authStatus | .monitor => true
  | _ => false

/-- MRC p14, R445. -/
def execMrcP14 (c : Cond) (opc1 : BitVec 3) (crn : BitVec 4) (rt : Reg) (opc2 : BitVec 3) (crm : BitVec 4)
    (st : State) : Host.Outcome State Fault Refusal :=
  conditional c (do
    match cp14Sel opc1 crn crm opc2 with
    | none => undefined
    | some r =>
      let s ← get
      undefinedIf (!debugPermitted s r)
      receive rt (← readDebug r)) st

/-- MCR p14, R445. -/
def execMcrP14 (c : Cond) (opc1 : BitVec 3) (crn : BitVec 4) (rt : Reg) (opc2 : BitVec 3) (crm : BitVec 4)
    (st : State) : Host.Outcome State Fault Refusal :=
  conditional c (do
    match cp14Sel opc1 crn crm opc2 with
    | none => undefined
    | some r =>
      let s ← get
      undefinedIf (!debugPermitted s r)
      undefinedIf r.readOnly
      notPc rt
      writeDebug r (s.reg rt)
      fallThrough) st

end Sys2Proof.Machine
end

