-- ==== Sys2Proof/Machine/DataProcessing.lean ====
section
/-! DEFINITION. Data-processing instructions (42_a32_core_subset.md R959 to R975). Each opcode says once what its result and
its flags are; its forms differ in the operand only. -/

namespace Sys2Proof.Machine

/-- Where a result goes (42_a32_core_subset.md R959): with Rd = 15 it is a branch, or with S an exception return (R956);
else Rd takes it, and with S the flags. -/
def writeResult (s : Bool) (rd : Reg) (r : Word) (flags : M Unit) : M Unit :=
  if rd = 15 then (if s then exceptionReturn r else bxWritePc r)
  else do
    writeReg rd r
    if s then flags
    fallThrough

/-- A logical result (42_a32_core_subset.md R959): C is the shifter's, V stays. -/
def logical (s : Bool) (rd : Reg) (r : Word) (carry : Bool) : M Unit :=
  writeResult s rd r (setLogicalFlags r carry)

/-- An arithmetic result (42_a32_core_subset.md R959): C and V are the sum's. -/
def arithmetic (s : Bool) (rd : Reg) (sum : Sum) : M Unit :=
  writeResult s rd sum.value (setResultFlags sum.value sum.carry sum.overflow)

/-- The flags of a logical test, and no register (42_a32_core_subset.md R968). -/
def logicalTest (r : Word) (carry : Bool) : M Unit := do
  setLogicalFlags r carry
  fallThrough

/-- The flags of a comparison, and no register (42_a32_core_subset.md R970). -/
def arithmeticTest (sum : Sum) : M Unit := do
  setResultFlags sum.value sum.carry sum.overflow
  fallThrough

/-- Bits that the rule fixes at zero (42_a32_core_subset.md R968 to R975; U60). -/
def zeroBits (sbz : BitVec 4) : M Unit := refuseIf (sbz != 0) .unpredictable

/-- AND of Rn and operand2 (42_a32_core_subset.md R960). -/
def andWith (s : Bool) (rd rn : Reg) (o : Word × Bool) : M Unit := do
  let x ← readReg rn
  logical s rd (x &&& o.1) o.2

/-- AND (immediate), R960. -/
def execAndImm (c : Cond) (s : Bool) (rn rd : Reg) (rotate : BitVec 4) (imm8 : BitVec 8)
    (st : State) : Host.Outcome State Fault Refusal :=
  conditional c (do andWith s rd rn (← operandImm rotate imm8)) st

/-- AND (register), R960. -/
def execAndReg (c : Cond) (s : Bool) (rn rd : Reg) (imm5 : BitVec 5) (ty : ShiftType) (rm : Reg)
    (st : State) : Host.Outcome State Fault Refusal :=
  conditional c (do andWith s rd rn (← operandReg rm ty imm5)) st

/-- AND (register-shifted register), R960; R15 in any field is UNPREDICTABLE (R953). -/
def execAndRsr (c : Cond) (s : Bool) (rn rd rs : Reg) (ty : ShiftType) (rm : Reg)
    (st : State) : Host.Outcome State Fault Refusal :=
  conditional c (do
    notPc rd
    notPc rn
    notPc rm
    notPc rs
    andWith s rd rn (← operandRsr rm ty rs)) st

/-- EOR of Rn and operand2 (42_a32_core_subset.md R961). -/
def eorWith (s : Bool) (rd rn : Reg) (o : Word × Bool) : M Unit := do
  let x ← readReg rn
  logical s rd (x ^^^ o.1) o.2

/-- EOR (immediate), R961. -/
def execEorImm (c : Cond) (s : Bool) (rn rd : Reg) (rotate : BitVec 4) (imm8 : BitVec 8)
    (st : State) : Host.Outcome State Fault Refusal :=
  conditional c (do eorWith s rd rn (← operandImm rotate imm8)) st

/-- EOR (register), R961. -/
def execEorReg (c : Cond) (s : Bool) (rn rd : Reg) (imm5 : BitVec 5) (ty : ShiftType) (rm : Reg)
    (st : State) : Host.Outcome State Fault Refusal :=
  conditional c (do eorWith s rd rn (← operandReg rm ty imm5)) st

/-- EOR (register-shifted register), R961; R15 in any field is UNPREDICTABLE (R953). -/
def execEorRsr (c : Cond) (s : Bool) (rn rd rs : Reg) (ty : ShiftType) (rm : Reg)
    (st : State) : Host.Outcome State Fault Refusal :=
  conditional c (do
    notPc rd
    notPc rn
    notPc rm
    notPc rs
    eorWith s rd rn (← operandRsr rm ty rs)) st

/-- SUB of Rn and operand2 (42_a32_core_subset.md R962). -/
def subWith (s : Bool) (rd rn : Reg) (o : Word × Bool) : M Unit := do
  let x ← readReg rn
  arithmetic s rd (addWithCarry x (~~~ o.1) true)

/-- SUB (immediate), R962. -/
def execSubImm (c : Cond) (s : Bool) (rn rd : Reg) (rotate : BitVec 4) (imm8 : BitVec 8)
    (st : State) : Host.Outcome State Fault Refusal :=
  conditional c (do subWith s rd rn (← operandImm rotate imm8)) st

/-- SUB (register), R962. -/
def execSubReg (c : Cond) (s : Bool) (rn rd : Reg) (imm5 : BitVec 5) (ty : ShiftType) (rm : Reg)
    (st : State) : Host.Outcome State Fault Refusal :=
  conditional c (do subWith s rd rn (← operandReg rm ty imm5)) st

/-- SUB (register-shifted register), R962; R15 in any field is UNPREDICTABLE (R953). -/
def execSubRsr (c : Cond) (s : Bool) (rn rd rs : Reg) (ty : ShiftType) (rm : Reg)
    (st : State) : Host.Outcome State Fault Refusal :=
  conditional c (do
    notPc rd
    notPc rn
    notPc rm
    notPc rs
    subWith s rd rn (← operandRsr rm ty rs)) st

/-- RSB of Rn and operand2 (42_a32_core_subset.md R963). -/
def rsbWith (s : Bool) (rd rn : Reg) (o : Word × Bool) : M Unit := do
  let x ← readReg rn
  arithmetic s rd (addWithCarry (~~~ x) o.1 true)

/-- RSB (immediate), R963. -/
def execRsbImm (c : Cond) (s : Bool) (rn rd : Reg) (rotate : BitVec 4) (imm8 : BitVec 8)
    (st : State) : Host.Outcome State Fault Refusal :=
  conditional c (do rsbWith s rd rn (← operandImm rotate imm8)) st

/-- RSB (register), R963. -/
def execRsbReg (c : Cond) (s : Bool) (rn rd : Reg) (imm5 : BitVec 5) (ty : ShiftType) (rm : Reg)
    (st : State) : Host.Outcome State Fault Refusal :=
  conditional c (do rsbWith s rd rn (← operandReg rm ty imm5)) st

/-- RSB (register-shifted register), R963; R15 in any field is UNPREDICTABLE (R953). -/
def execRsbRsr (c : Cond) (s : Bool) (rn rd rs : Reg) (ty : ShiftType) (rm : Reg)
    (st : State) : Host.Outcome State Fault Refusal :=
  conditional c (do
    notPc rd
    notPc rn
    notPc rm
    notPc rs
    rsbWith s rd rn (← operandRsr rm ty rs)) st

/-- ADD of Rn and operand2 (42_a32_core_subset.md R964). -/
def addWith (s : Bool) (rd rn : Reg) (o : Word × Bool) : M Unit := do
  let x ← readReg rn
  arithmetic s rd (addWithCarry x o.1 false)

/-- ADD (immediate), R964. -/
def execAddImm (c : Cond) (s : Bool) (rn rd : Reg) (rotate : BitVec 4) (imm8 : BitVec 8)
    (st : State) : Host.Outcome State Fault Refusal :=
  conditional c (do addWith s rd rn (← operandImm rotate imm8)) st

/-- ADD (register), R964. -/
def execAddReg (c : Cond) (s : Bool) (rn rd : Reg) (imm5 : BitVec 5) (ty : ShiftType) (rm : Reg)
    (st : State) : Host.Outcome State Fault Refusal :=
  conditional c (do addWith s rd rn (← operandReg rm ty imm5)) st

/-- ADD (register-shifted register), R964; R15 in any field is UNPREDICTABLE (R953). -/
def execAddRsr (c : Cond) (s : Bool) (rn rd rs : Reg) (ty : ShiftType) (rm : Reg)
    (st : State) : Host.Outcome State Fault Refusal :=
  conditional c (do
    notPc rd
    notPc rn
    notPc rm
    notPc rs
    addWith s rd rn (← operandRsr rm ty rs)) st

/-- ADC of Rn, operand2 and the carry (42_a32_core_subset.md R965). -/
def adcWith (s : Bool) (rd rn : Reg) (o : Word × Bool) : M Unit := do
  let x ← readReg rn
  let c := (← get).flagC
  arithmetic s rd (addWithCarry x o.1 c)

/-- ADC (immediate), R965. -/
def execAdcImm (c : Cond) (s : Bool) (rn rd : Reg) (rotate : BitVec 4) (imm8 : BitVec 8)
    (st : State) : Host.Outcome State Fault Refusal :=
  conditional c (do adcWith s rd rn (← operandImm rotate imm8)) st

/-- ADC (register), R965. -/
def execAdcReg (c : Cond) (s : Bool) (rn rd : Reg) (imm5 : BitVec 5) (ty : ShiftType) (rm : Reg)
    (st : State) : Host.Outcome State Fault Refusal :=
  conditional c (do adcWith s rd rn (← operandReg rm ty imm5)) st

/-- ADC (register-shifted register), R965; R15 in any field is UNPREDICTABLE (R953). -/
def execAdcRsr (c : Cond) (s : Bool) (rn rd rs : Reg) (ty : ShiftType) (rm : Reg)
    (st : State) : Host.Outcome State Fault Refusal :=
  conditional c (do
    notPc rd
    notPc rn
    notPc rm
    notPc rs
    adcWith s rd rn (← operandRsr rm ty rs)) st

/-- SBC of Rn, operand2 and the carry (42_a32_core_subset.md R966). -/
def sbcWith (s : Bool) (rd rn : Reg) (o : Word × Bool) : M Unit := do
  let x ← readReg rn
  let c := (← get).flagC
  arithmetic s rd (addWithCarry x (~~~ o.1) c)

/-- SBC (immediate), R966. -/
def execSbcImm (c : Cond) (s : Bool) (rn rd : Reg) (rotate : BitVec 4) (imm8 : BitVec 8)
    (st : State) : Host.Outcome State Fault Refusal :=
  conditional c (do sbcWith s rd rn (← operandImm rotate imm8)) st

/-- SBC (register), R966. -/
def execSbcReg (c : Cond) (s : Bool) (rn rd : Reg) (imm5 : BitVec 5) (ty : ShiftType) (rm : Reg)
    (st : State) : Host.Outcome State Fault Refusal :=
  conditional c (do sbcWith s rd rn (← operandReg rm ty imm5)) st

/-- SBC (register-shifted register), R966; R15 in any field is UNPREDICTABLE (R953). -/
def execSbcRsr (c : Cond) (s : Bool) (rn rd rs : Reg) (ty : ShiftType) (rm : Reg)
    (st : State) : Host.Outcome State Fault Refusal :=
  conditional c (do
    notPc rd
    notPc rn
    notPc rm
    notPc rs
    sbcWith s rd rn (← operandRsr rm ty rs)) st

/-- RSC of Rn, operand2 and the carry (42_a32_core_subset.md R967). -/
def rscWith (s : Bool) (rd rn : Reg) (o : Word × Bool) : M Unit := do
  let x ← readReg rn
  let c := (← get).flagC
  arithmetic s rd (addWithCarry (~~~ x) o.1 c)

/-- RSC (immediate), R967. -/
def execRscImm (c : Cond) (s : Bool) (rn rd : Reg) (rotate : BitVec 4) (imm8 : BitVec 8)
    (st : State) : Host.Outcome State Fault Refusal :=
  conditional c (do rscWith s rd rn (← operandImm rotate imm8)) st

/-- RSC (register), R967. -/
def execRscReg (c : Cond) (s : Bool) (rn rd : Reg) (imm5 : BitVec 5) (ty : ShiftType) (rm : Reg)
    (st : State) : Host.Outcome State Fault Refusal :=
  conditional c (do rscWith s rd rn (← operandReg rm ty imm5)) st

/-- RSC (register-shifted register), R967; R15 in any field is UNPREDICTABLE (R953). -/
def execRscRsr (c : Cond) (s : Bool) (rn rd rs : Reg) (ty : ShiftType) (rm : Reg)
    (st : State) : Host.Outcome State Fault Refusal :=
  conditional c (do
    notPc rd
    notPc rn
    notPc rm
    notPc rs
    rscWith s rd rn (← operandRsr rm ty rs)) st

/-- TST of Rn and operand2 (42_a32_core_subset.md R968). -/
def tstWith (rn : Reg) (o : Word × Bool) : M Unit := do
  let x ← readReg rn
  logicalTest (x &&& o.1) o.2

/-- TST (immediate), R968. -/
def execTstImm (c : Cond) (rn : Reg) (sbz rotate : BitVec 4) (imm8 : BitVec 8)
    (st : State) : Host.Outcome State Fault Refusal :=
  conditional c (do
    zeroBits sbz
    tstWith rn (← operandImm rotate imm8)) st

/-- TST (register), R968. -/
def execTstReg (c : Cond) (rn : Reg) (sbz : BitVec 4) (imm5 : BitVec 5) (ty : ShiftType) (rm : Reg)
    (st : State) : Host.Outcome State Fault Refusal :=
  conditional c (do
    zeroBits sbz
    tstWith rn (← operandReg rm ty imm5)) st

/-- TST (register-shifted register), R968; R15 in any field is UNPREDICTABLE (R953). -/
def execTstRsr (c : Cond) (rn : Reg) (sbz : BitVec 4) (rs : Reg) (ty : ShiftType) (rm : Reg)
    (st : State) : Host.Outcome State Fault Refusal :=
  conditional c (do
    zeroBits sbz
    notPc rn
    notPc rm
    notPc rs
    tstWith rn (← operandRsr rm ty rs)) st

/-- TEQ of Rn and operand2 (42_a32_core_subset.md R969). -/
def teqWith (rn : Reg) (o : Word × Bool) : M Unit := do
  let x ← readReg rn
  logicalTest (x ^^^ o.1) o.2

/-- TEQ (immediate), R969. -/
def execTeqImm (c : Cond) (rn : Reg) (sbz rotate : BitVec 4) (imm8 : BitVec 8)
    (st : State) : Host.Outcome State Fault Refusal :=
  conditional c (do
    zeroBits sbz
    teqWith rn (← operandImm rotate imm8)) st

/-- TEQ (register), R969. -/
def execTeqReg (c : Cond) (rn : Reg) (sbz : BitVec 4) (imm5 : BitVec 5) (ty : ShiftType) (rm : Reg)
    (st : State) : Host.Outcome State Fault Refusal :=
  conditional c (do
    zeroBits sbz
    teqWith rn (← operandReg rm ty imm5)) st

/-- TEQ (register-shifted register), R969; R15 in any field is UNPREDICTABLE (R953). -/
def execTeqRsr (c : Cond) (rn : Reg) (sbz : BitVec 4) (rs : Reg) (ty : ShiftType) (rm : Reg)
    (st : State) : Host.Outcome State Fault Refusal :=
  conditional c (do
    zeroBits sbz
    notPc rn
    notPc rm
    notPc rs
    teqWith rn (← operandRsr rm ty rs)) st

/-- CMP of Rn and operand2 (42_a32_core_subset.md R970). -/
def cmpWith (rn : Reg) (o : Word × Bool) : M Unit := do
  let x ← readReg rn
  arithmeticTest (addWithCarry x (~~~ o.1) true)

/-- CMP (immediate), R970. -/
def execCmpImm (c : Cond) (rn : Reg) (sbz rotate : BitVec 4) (imm8 : BitVec 8)
    (st : State) : Host.Outcome State Fault Refusal :=
  conditional c (do
    zeroBits sbz
    cmpWith rn (← operandImm rotate imm8)) st

/-- CMP (register), R970. -/
def execCmpReg (c : Cond) (rn : Reg) (sbz : BitVec 4) (imm5 : BitVec 5) (ty : ShiftType) (rm : Reg)
    (st : State) : Host.Outcome State Fault Refusal :=
  conditional c (do
    zeroBits sbz
    cmpWith rn (← operandReg rm ty imm5)) st

/-- CMP (register-shifted register), R970; R15 in any field is UNPREDICTABLE (R953). -/
def execCmpRsr (c : Cond) (rn : Reg) (sbz : BitVec 4) (rs : Reg) (ty : ShiftType) (rm : Reg)
    (st : State) : Host.Outcome State Fault Refusal :=
  conditional c (do
    zeroBits sbz
    notPc rn
    notPc rm
    notPc rs
    cmpWith rn (← operandRsr rm ty rs)) st

/-- CMN of Rn and operand2 (42_a32_core_subset.md R971). -/
def cmnWith (rn : Reg) (o : Word × Bool) : M Unit := do
  let x ← readReg rn
  arithmeticTest (addWithCarry x o.1 false)

/-- CMN (immediate), R971. -/
def execCmnImm (c : Cond) (rn : Reg) (sbz rotate : BitVec 4) (imm8 : BitVec 8)
    (st : State) : Host.Outcome State Fault Refusal :=
  conditional c (do
    zeroBits sbz
    cmnWith rn (← operandImm rotate imm8)) st

/-- CMN (register), R971. -/
def execCmnReg (c : Cond) (rn : Reg) (sbz : BitVec 4) (imm5 : BitVec 5) (ty : ShiftType) (rm : Reg)
    (st : State) : Host.Outcome State Fault Refusal :=
  conditional c (do
    zeroBits sbz
    cmnWith rn (← operandReg rm ty imm5)) st

/-- CMN (register-shifted register), R971; R15 in any field is UNPREDICTABLE (R953). -/
def execCmnRsr (c : Cond) (rn : Reg) (sbz : BitVec 4) (rs : Reg) (ty : ShiftType) (rm : Reg)
    (st : State) : Host.Outcome State Fault Refusal :=
  conditional c (do
    zeroBits sbz
    notPc rn
    notPc rm
    notPc rs
    cmnWith rn (← operandRsr rm ty rs)) st

/-- ORR of Rn and operand2 (42_a32_core_subset.md R972). -/
def orrWith (s : Bool) (rd rn : Reg) (o : Word × Bool) : M Unit := do
  let x ← readReg rn
  logical s rd (x ||| o.1) o.2

/-- ORR (immediate), R972. -/
def execOrrImm (c : Cond) (s : Bool) (rn rd : Reg) (rotate : BitVec 4) (imm8 : BitVec 8)
    (st : State) : Host.Outcome State Fault Refusal :=
  conditional c (do orrWith s rd rn (← operandImm rotate imm8)) st

/-- ORR (register), R972. -/
def execOrrReg (c : Cond) (s : Bool) (rn rd : Reg) (imm5 : BitVec 5) (ty : ShiftType) (rm : Reg)
    (st : State) : Host.Outcome State Fault Refusal :=
  conditional c (do orrWith s rd rn (← operandReg rm ty imm5)) st

/-- ORR (register-shifted register), R972; R15 in any field is UNPREDICTABLE (R953). -/
def execOrrRsr (c : Cond) (s : Bool) (rn rd rs : Reg) (ty : ShiftType) (rm : Reg)
    (st : State) : Host.Outcome State Fault Refusal :=
  conditional c (do
    notPc rd
    notPc rn
    notPc rm
    notPc rs
    orrWith s rd rn (← operandRsr rm ty rs)) st

/-- BIC of Rn and operand2 (42_a32_core_subset.md R974). -/
def bicWith (s : Bool) (rd rn : Reg) (o : Word × Bool) : M Unit := do
  let x ← readReg rn
  logical s rd (x &&& ~~~ o.1) o.2

/-- BIC (immediate), R974. -/
def execBicImm (c : Cond) (s : Bool) (rn rd : Reg) (rotate : BitVec 4) (imm8 : BitVec 8)
    (st : State) : Host.Outcome State Fault Refusal :=
  conditional c (do bicWith s rd rn (← operandImm rotate imm8)) st

/-- BIC (register), R974. -/
def execBicReg (c : Cond) (s : Bool) (rn rd : Reg) (imm5 : BitVec 5) (ty : ShiftType) (rm : Reg)
    (st : State) : Host.Outcome State Fault Refusal :=
  conditional c (do bicWith s rd rn (← operandReg rm ty imm5)) st

/-- BIC (register-shifted register), R974; R15 in any field is UNPREDICTABLE (R953). -/
def execBicRsr (c : Cond) (s : Bool) (rn rd rs : Reg) (ty : ShiftType) (rm : Reg)
    (st : State) : Host.Outcome State Fault Refusal :=
  conditional c (do
    notPc rd
    notPc rn
    notPc rm
    notPc rs
    bicWith s rd rn (← operandRsr rm ty rs)) st

/-- MOV of operand2 (42_a32_core_subset.md R973). -/
def movWith (s : Bool) (rd : Reg) (o : Word × Bool) : M Unit := logical s rd o.1 o.2

/-- MOV (immediate), R973. -/
def execMovImm (c : Cond) (s : Bool) (sbz : BitVec 4) (rd : Reg) (rotate : BitVec 4) (imm8 : BitVec 8)
    (st : State) : Host.Outcome State Fault Refusal :=
  conditional c (do
    zeroBits sbz
    movWith s rd (← operandImm rotate imm8)) st

/-- MOV (register), R973. -/
def execMovReg (c : Cond) (s : Bool) (rd rm : Reg) (st : State) : Host.Outcome State Fault Refusal :=
  conditional c (do movWith s rd (← operandReg rm .lsl 0)) st

/-- RRX, R973. -/
def execRrx (c : Cond) (s : Bool) (rd rm : Reg) (st : State) : Host.Outcome State Fault Refusal :=
  conditional c (do movWith s rd (← operandReg rm .ror 0)) st

/-- LSL (immediate), R973. -/
def execLslImm (c : Cond) (s : Bool) (rd : Reg) (imm5 : BitVec 5) (rm : Reg)
    (st : State) : Host.Outcome State Fault Refusal :=
  conditional c (do movWith s rd (← operandReg rm .lsl imm5)) st

/-- LSL (register), R973; R15 in any field is UNPREDICTABLE (R953). -/
def execLslReg (c : Cond) (s : Bool) (rd rs rm : Reg) (st : State) : Host.Outcome State Fault Refusal :=
  conditional c (do
    notPc rd
    notPc rm
    notPc rs
    movWith s rd (← operandRsr rm .lsl rs)) st

/-- LSR (immediate), R973. -/
def execLsrImm (c : Cond) (s : Bool) (rd : Reg) (imm5 : BitVec 5) (rm : Reg)
    (st : State) : Host.Outcome State Fault Refusal :=
  conditional c (do movWith s rd (← operandReg rm .lsr imm5)) st

/-- LSR (register), R973; R15 in any field is UNPREDICTABLE (R953). -/
def execLsrReg (c : Cond) (s : Bool) (rd rs rm : Reg) (st : State) : Host.Outcome State Fault Refusal :=
  conditional c (do
    notPc rd
    notPc rm
    notPc rs
    movWith s rd (← operandRsr rm .lsr rs)) st

/-- ASR (immediate), R973. -/
def execAsrImm (c : Cond) (s : Bool) (rd : Reg) (imm5 : BitVec 5) (rm : Reg)
    (st : State) : Host.Outcome State Fault Refusal :=
  conditional c (do movWith s rd (← operandReg rm .asr imm5)) st

/-- ASR (register), R973; R15 in any field is UNPREDICTABLE (R953). -/
def execAsrReg (c : Cond) (s : Bool) (rd rs rm : Reg) (st : State) : Host.Outcome State Fault Refusal :=
  conditional c (do
    notPc rd
    notPc rm
    notPc rs
    movWith s rd (← operandRsr rm .asr rs)) st

/-- ROR (immediate), R973. -/
def execRorImm (c : Cond) (s : Bool) (rd : Reg) (imm5 : BitVec 5) (rm : Reg)
    (st : State) : Host.Outcome State Fault Refusal :=
  conditional c (do movWith s rd (← operandReg rm .ror imm5)) st

/-- ROR (register), R973; R15 in any field is UNPREDICTABLE (R953). -/
def execRorReg (c : Cond) (s : Bool) (rd rs rm : Reg) (st : State) : Host.Outcome State Fault Refusal :=
  conditional c (do
    notPc rd
    notPc rm
    notPc rs
    movWith s rd (← operandRsr rm .ror rs)) st

/-- MVN of operand2 (42_a32_core_subset.md R975). -/
def mvnWith (s : Bool) (rd : Reg) (o : Word × Bool) : M Unit := logical s rd (~~~ o.1) o.2

/-- MVN (immediate), R975. -/
def execMvnImm (c : Cond) (s : Bool) (sbz : BitVec 4) (rd : Reg) (rotate : BitVec 4) (imm8 : BitVec 8)
    (st : State) : Host.Outcome State Fault Refusal :=
  conditional c (do
    zeroBits sbz
    mvnWith s rd (← operandImm rotate imm8)) st

/-- MVN (register), R975. -/
def execMvnReg (c : Cond) (s : Bool) (sbz : BitVec 4) (rd : Reg) (imm5 : BitVec 5) (ty : ShiftType) (rm : Reg)
    (st : State) : Host.Outcome State Fault Refusal :=
  conditional c (do
    zeroBits sbz
    mvnWith s rd (← operandReg rm ty imm5)) st

/-- MVN (register-shifted register), R975; R15 in any field is UNPREDICTABLE (R953). -/
def execMvnRsr (c : Cond) (s : Bool) (sbz : BitVec 4) (rd rs : Reg) (ty : ShiftType) (rm : Reg)
    (st : State) : Host.Outcome State Fault Refusal :=
  conditional c (do
    zeroBits sbz
    notPc rd
    notPc rm
    notPc rs
    mvnWith s rd (← operandRsr rm ty rs)) st

end Sys2Proof.Machine
end

