-- ==== Sys2Proof/Machine/LoadStore.lean ====
section
/-! DEFINITION. Single and doubleword loads and stores (42_a32_core_subset.md R1014 to R1023). With P = 0 and W = 1 they are
the unprivileged forms (LDRT, STRT, ...), which the spec refuses (R957; 41_instruction_classes.md R515). -/

namespace Sys2Proof.Machine

/-- The unprivileged forms, P = 0 and W = 1, are refused (42_a32_core_subset.md R957, 41_instruction_classes.md R491 (b)). -/
def checkPrivilege (p w : Bool) : M Unit := refuseIf (!p && w) .unprivilegedAccess

/-- The checks of the base register (42_a32_core_subset.md R957, U60): with write-back it is neither R15 nor Rt. -/
def checkBase (p w : Bool) (rn rt : Reg) : M Unit :=
  refuseIf ((!p || w) && (rn == 15 || rn == rt)) .unpredictable

/-- The register offset of the scaled form; Rm may not be R15 (42_a32_core_subset.md R957, U60). -/
def registerOffset (rm : Reg) (ty : ShiftType) (imm5 : BitVec 5) : M Word := do
  notPc rm
  let s ← get
  pure (scaledOffset s rm ty imm5)

/-- The register offset of the extra forms, not shifted (42_a32_core_subset.md R957). -/
def plainOffset (rm : Reg) : M Word := do
  notPc rm
  readReg rm

/-- Write-back of the base register. -/
def writeBack (rn : Reg) (ad : Address) : M Unit :=
  if ad.writeback then writeReg rn ad.offsetAddr else pure ()

/-- A load of `n` bytes into Rt, extended by `ext` (42_a32_core_subset.md R1016 to R1021). -/
def loadInto (n : Nat) (ext : Word → Word) (p u w : Bool) (rn rt : Reg) (offset : Word) : M Unit := do
  checkPrivilege p w
  notPc rt
  checkBase p w rn rt
  let s ← get
  let ad := indexed (baseValue s rn) offset p u w
  let v ← loadValue (single s n s.privileged) ad.address
  writeBack rn ad
  writeReg rt (ext v)
  fallThrough

/-- A word load (42_a32_core_subset.md R1014): Rt = 15 is a branch, from an aligned address (U60). -/
def loadWord (p u w : Bool) (rn rt : Reg) (offset : Word) : M Unit :=
  if rt = 15 then do
    checkPrivilege p w
    checkBase p w rn rt
    let s ← get
    let ad := indexed (baseValue s rn) offset p u w
    let v ← loadValue (single s 4 s.privileged) ad.address
    refuseIf (!lowZero ad.address 2) .unpredictable
    writeBack rn ad
    bxWritePc v
  else loadInto 4 id p u w rn rt offset

/-- A store of the low `n` bytes of Rt (42_a32_core_subset.md R1015, R1017, R1019). -/
def storeFrom (n : Nat) (p u w : Bool) (rn rt : Reg) (offset : Word) : M Unit := do
  checkPrivilege p w
  checkBase p w rn rt
  let s ← get
  let ad := indexed (baseValue s rn) offset p u w
  storeValue (single s n s.privileged) ad.address (s.reg rt)
  writeBack rn ad
  fallThrough

/-- A signed byte as a word (42_a32_core_subset.md R1020). -/
def signByte (v : Word) : Word := (v.extractLsb' 0 8).signExtend 32

/-- A signed halfword as a word (42_a32_core_subset.md R1021). -/
def signHalf (v : Word) : Word := (v.extractLsb' 0 16).signExtend 32

/-- Run a body; when it ends in a Data Abort, `cleanup` is done before the abort is taken. -/
def onAbort {α : Type} (body : M α) (cleanup : M Unit) : M α := fun s =>
  match body s with
  | .error (.dataAbort f w a) t =>
    match cleanup t with
    | .ok _ u => .error (.dataAbort f w a) u
    | .error e u => .error e u
  | r => r

/-- A register left with a free value (00_scope.md R15 "any value"). -/
def scramble (m : Mode) (r : Reg) : M Unit := do
  let v ← drawWord
  modify fun s => s.setRegIn m r v

/-- The checks of a doubleword access (42_a32_core_subset.md R957, R1022; U60): Rt even and not 14, the base neither
register with write-back, and no unprivileged form. -/
def checkDouble (p w : Bool) (rn rt : Reg) : M Unit := do
  refuseIf (rt.getLsbD 0 || rt == 14) .unpredictable
  refuseIf (!p && w) .unpredictable
  checkBase p w rn rt
  checkBase p w rn (rt + 1)

/-- LDRD (42_a32_core_subset.md R1022): two word accesses; when the second aborts, Rt has any value. DESIGN CHOICE: the offset
register may be Rt or Rt + 1, of which R1022 and R957 say nothing; it is read before either is written (log entry 62). -/
def loadDouble (p u w : Bool) (rn rt : Reg) (offset : Word) : M Unit := do
  checkDouble p w rn rt
  let s ← get
  let ad := indexed (baseValue s rn) offset p u w
  let v1 ← loadValue (multiple s.privileged) ad.address
  let v2 ← onAbort (loadValue (multiple s.privileged) (ad.address + 4)) (if rt = rn then pure () else scramble s.mode rt)
  writeBack rn ad
  writeReg rt v1
  writeReg (rt + 1) v2
  fallThrough

/-- STRD (42_a32_core_subset.md R1023): two words, both checked before either is stored. -/
def storeDouble (p u w : Bool) (rn rt : Reg) (offset : Word) : M Unit := do
  checkDouble p w rn rt
  let s ← get
  let ad := indexed (baseValue s rn) offset p u w
  storeTwo (multiple s.privileged) ad.address (s.reg rt) (s.reg (rt + 1))
  writeBack rn ad
  fallThrough

/-- LDR (immediate, literal), R1014. -/
def execLdrImm (c : Cond) (p u w : Bool) (rn rt : Reg) (imm12 : BitVec 12)
    (st : State) : Host.Outcome State Fault Refusal :=
  conditional c (loadWord p u w rn rt (imm12.setWidth 32)) st

/-- LDR (register), R1014. -/
def execLdrReg (c : Cond) (p u w : Bool) (rn rt : Reg) (imm5 : BitVec 5) (ty : ShiftType) (rm : Reg)
    (st : State) : Host.Outcome State Fault Refusal :=
  conditional c (do loadWord p u w rn rt (← registerOffset rm ty imm5)) st

/-- STR (immediate, literal), R1015; R15 stores as the address plus 8. -/
def execStrImm (c : Cond) (p u w : Bool) (rn rt : Reg) (imm12 : BitVec 12)
    (st : State) : Host.Outcome State Fault Refusal :=
  conditional c (storeFrom 4 p u w rn rt (imm12.setWidth 32)) st

/-- STR (register), R1015; R15 stores as the address plus 8. -/
def execStrReg (c : Cond) (p u w : Bool) (rn rt : Reg) (imm5 : BitVec 5) (ty : ShiftType) (rm : Reg)
    (st : State) : Host.Outcome State Fault Refusal :=
  conditional c (do storeFrom 4 p u w rn rt (← registerOffset rm ty imm5)) st

/-- LDRB (immediate, literal), R1016. -/
def execLdrbImm (c : Cond) (p u w : Bool) (rn rt : Reg) (imm12 : BitVec 12)
    (st : State) : Host.Outcome State Fault Refusal :=
  conditional c (loadInto 1 id p u w rn rt (imm12.setWidth 32)) st

/-- LDRB (register), R1016. -/
def execLdrbReg (c : Cond) (p u w : Bool) (rn rt : Reg) (imm5 : BitVec 5) (ty : ShiftType) (rm : Reg)
    (st : State) : Host.Outcome State Fault Refusal :=
  conditional c (do loadInto 1 id p u w rn rt (← registerOffset rm ty imm5)) st

/-- STRB (immediate, literal), R1017. -/
def execStrbImm (c : Cond) (p u w : Bool) (rn rt : Reg) (imm12 : BitVec 12)
    (st : State) : Host.Outcome State Fault Refusal :=
  conditional c (do
    notPc rt
    storeFrom 1 p u w rn rt (imm12.setWidth 32)) st

/-- STRB (register), R1017. -/
def execStrbReg (c : Cond) (p u w : Bool) (rn rt : Reg) (imm5 : BitVec 5) (ty : ShiftType) (rm : Reg)
    (st : State) : Host.Outcome State Fault Refusal :=
  conditional c (do
    notPc rt
    storeFrom 1 p u w rn rt (← registerOffset rm ty imm5)) st

/-- STRH (immediate, literal), R1019. -/
def execStrhImm (c : Cond) (p u w : Bool) (rn rt : Reg) (imm4H imm4L : BitVec 4)
    (st : State) : Host.Outcome State Fault Refusal :=
  conditional c (do
    notPc rt
    storeFrom 2 p u w rn rt (splitImm8 imm4H imm4L)) st

/-- STRH (register), R1019. -/
def execStrhReg (c : Cond) (p u w : Bool) (rn rt : Reg) (rm : Reg)
    (st : State) : Host.Outcome State Fault Refusal :=
  conditional c (do
    notPc rt
    storeFrom 2 p u w rn rt (← plainOffset rm)) st

/-- LDRH (immediate, literal), R1018. -/
def execLdrhImm (c : Cond) (p u w : Bool) (rn rt : Reg) (imm4H imm4L : BitVec 4)
    (st : State) : Host.Outcome State Fault Refusal :=
  conditional c (loadInto 2 id p u w rn rt (splitImm8 imm4H imm4L)) st

/-- LDRH (register), R1018. -/
def execLdrhReg (c : Cond) (p u w : Bool) (rn rt : Reg) (rm : Reg)
    (st : State) : Host.Outcome State Fault Refusal :=
  conditional c (do loadInto 2 id p u w rn rt (← plainOffset rm)) st

/-- LDRSB (immediate, literal), R1020. -/
def execLdrsbImm (c : Cond) (p u w : Bool) (rn rt : Reg) (imm4H imm4L : BitVec 4)
    (st : State) : Host.Outcome State Fault Refusal :=
  conditional c (loadInto 1 signByte p u w rn rt (splitImm8 imm4H imm4L)) st

/-- LDRSB (register), R1020. -/
def execLdrsbReg (c : Cond) (p u w : Bool) (rn rt : Reg) (rm : Reg)
    (st : State) : Host.Outcome State Fault Refusal :=
  conditional c (do loadInto 1 signByte p u w rn rt (← plainOffset rm)) st

/-- LDRSH (immediate, literal), R1021. -/
def execLdrshImm (c : Cond) (p u w : Bool) (rn rt : Reg) (imm4H imm4L : BitVec 4)
    (st : State) : Host.Outcome State Fault Refusal :=
  conditional c (loadInto 2 signHalf p u w rn rt (splitImm8 imm4H imm4L)) st

/-- LDRSH (register), R1021. -/
def execLdrshReg (c : Cond) (p u w : Bool) (rn rt : Reg) (rm : Reg)
    (st : State) : Host.Outcome State Fault Refusal :=
  conditional c (do loadInto 2 signHalf p u w rn rt (← plainOffset rm)) st

/-- LDRD (immediate, literal), R1022. -/
def execLdrdImm (c : Cond) (p u w : Bool) (rn rt : Reg) (imm4H imm4L : BitVec 4)
    (st : State) : Host.Outcome State Fault Refusal :=
  conditional c (loadDouble p u w rn rt (splitImm8 imm4H imm4L)) st

/-- LDRD (register), R1022. -/
def execLdrdReg (c : Cond) (p u w : Bool) (rn rt : Reg) (rm : Reg)
    (st : State) : Host.Outcome State Fault Refusal :=
  conditional c (do loadDouble p u w rn rt (← plainOffset rm)) st

/-- STRD (immediate, literal), R1023. -/
def execStrdImm (c : Cond) (p u w : Bool) (rn rt : Reg) (imm4H imm4L : BitVec 4)
    (st : State) : Host.Outcome State Fault Refusal :=
  conditional c (storeDouble p u w rn rt (splitImm8 imm4H imm4L)) st

/-- STRD (register), R1023. -/
def execStrdReg (c : Cond) (p u w : Bool) (rn rt : Reg) (rm : Reg)
    (st : State) : Host.Outcome State Fault Refusal :=
  conditional c (do storeDouble p u w rn rt (← plainOffset rm)) st

end Sys2Proof.Machine
end

