-- ==== Sys2Proof/Machine/Exclusives.lean ====
section
/-! DEFINITION. Exclusive accesses, swaps and barriers (20_memory.md R280 to R287). -/

namespace Sys2Proof.Machine

/-- The monitor goes to the exclusive or the open state (20_memory.md R283). -/
def setMonitor (exclusive : Bool) : M Unit := modify fun s => { s with monitor := exclusive }

/-- Whether only the local monitor checks an exclusive access (20_memory.md R246, R285): to the DTCM, and to Write-Back memory
that is Non-shareable or, with ACTLR.SMP, Shareable; the attributes decide, not whether the cache is on. -/
def localOnly (s : State) (attr : Attr) (a : Word) : Bool :=
  inDtcm s a || cacheable s attr

/-- An exclusive access of `n` bytes: always aligned to its size (20_memory.md R242), and exclusive on the ports where the global
monitor takes part (R285). -/
def exclusive (n : Nat) (s : State) (k : AccessKind) (a : Word) : Access :=
  ⟨n, n, s.privileged, if localOnly s (byteAttr s k s.privileged a) a then .single else .locked⟩

/-- A load-exclusive of `n` bytes (20_memory.md R284). -/
def loadExclusive (n : Nat) (rn rt : Reg) : M Unit := do
  notPc rn
  notPc rt
  let s ← get
  let v ← loadValue (exclusive n s .read (s.reg rn)) (s.reg rn)
  setMonitor true
  writeReg rt v
  fallThrough

/-- Whether an exclusive store that the local monitor lets pass succeeds (20_memory.md R284, R285): never in the ITCM nor
without the global monitor it needs; else either outcome, a free choice (log entry 14). -/
def exclusiveSucceeds (attr : Attr) (a : Word) : M Bool := fun s =>
  if !s.monitor || inItcm s a || (!localOnly s attr a && !s.cfg.globalMonitor) then .ok false s
  else drawBool s

/-- Whether a store that a state makes is lost to an error response: to the write of it over the bus, or to the linefill for it
(20_memory.md R295; 60_exceptions.md R526). -/
def storeLost (acc : Access) (a : Word) (attr : Attr) (bs : List Byte) (s : State) : Bool :=
  if inItcm s a || inDtcm s a then false
  else if throughCache s a attr acc.form then
    match dcacheFill a acc.size attr s with
    | .ok .failed _ => true
    | .ok .bypass t => busRejects a bs attr .single t
    | _ => false
  else match transferCheck a acc.form s with
    | .ok () t => busRejects a bs attr acc.form t
    | .error _ _ => false

/-- A store-exclusive of bytes (20_memory.md R284): the check for a write comes first (D74); Rd is 0 for success, which a store that
an error response loses is not, for it succeeds only where it is written and the platform answers EXOKAY (R284, R285). -/
def storeExclusive (bs : Bool → State → List Byte) (n : Nat) (rn rd : Reg) : M Unit := fun s =>
  let a := s.reg rn
  let acc := exclusive n s .write a
  match admission .write acc a s with
  | .error e => .error e s
  | .ok attr => (do
      let ok ← exclusiveSucceeds attr a
      let t ← get
      let data := bs s.bigEndian s
      if ok then writeAdmitted acc a attr data
      setMonitor false
      writeReg rd (if ok && !storeLost acc a attr data t then 0 else 1)
      fallThrough : M Unit) s

/-- The register checks of a store-exclusive (30_encoding.md R404, U60): no R15, and Rd apart from the others. -/
def checkExclusive (rn rd rt : Reg) : M Unit := do
  notPc rn
  notPc rd
  notPc rt
  refuseIf (rd == rn || rd == rt) .unpredictable

/-- A store-exclusive of the low `n` bytes of Rt (20_memory.md R284). -/
def storeExclusiveFrom (n : Nat) (rn rd rt : Reg) : M Unit := do
  checkExclusive rn rd rt
  storeExclusive (fun be s => bytesOf be n (s.reg rt)) n rn rd

/-- LDREX, R284. -/
def execLdrex (c : Cond) (rn rt : Reg) (st : State) : Host.Outcome State Fault Refusal :=
  conditional c (loadExclusive 4 rn rt) st

/-- LDREXB, R284. -/
def execLdrexb (c : Cond) (rn rt : Reg) (st : State) : Host.Outcome State Fault Refusal :=
  conditional c (loadExclusive 1 rn rt) st

/-- LDREXH, R284. -/
def execLdrexh (c : Cond) (rn rt : Reg) (st : State) : Host.Outcome State Fault Refusal :=
  conditional c (loadExclusive 2 rn rt) st

/-- A doubleword names an even register below R14 and the next one (42_a32_core_subset.md R1022, U60). -/
def checkPair (rt : Reg) : M Unit := refuseIf (rt.getLsbD 0 || rt == 14) .unpredictable

/-- LDREXD, R284: one access of eight bytes, the word at the lower address into Rt. -/
def execLdrexd (c : Cond) (rn rt : Reg) (st : State) : Host.Outcome State Fault Refusal :=
  conditional c (do
    notPc rn
    checkPair rt
    let s ← get
    let bs ← readBytes (exclusive 8 s .read (s.reg rn)) (s.reg rn)
    setMonitor true
    writeReg rt (valueOf s.bigEndian (bs.take 4))
    writeReg (rt + 1) (valueOf s.bigEndian (bs.drop 4))
    fallThrough) st

/-- STREX, R284. -/
def execStrex (c : Cond) (rn rd rt : Reg) (st : State) : Host.Outcome State Fault Refusal :=
  conditional c (storeExclusiveFrom 4 rn rd rt) st

/-- STREXB, R284. -/
def execStrexb (c : Cond) (rn rd rt : Reg) (st : State) : Host.Outcome State Fault Refusal :=
  conditional c (storeExclusiveFrom 1 rn rd rt) st

/-- STREXH, R284. -/
def execStrexh (c : Cond) (rn rd rt : Reg) (st : State) : Host.Outcome State Fault Refusal :=
  conditional c (storeExclusiveFrom 2 rn rd rt) st

/-- STREXD, R284. -/
def execStrexd (c : Cond) (rn rd rt : Reg) (st : State) : Host.Outcome State Fault Refusal :=
  conditional c (do
    checkPair rt
    checkExclusive rn rd rt
    refuseIf (rd == rt + 1) .unpredictable
    storeExclusive (fun be s => bytesOf be 4 (s.reg rt) ++ bytesOf be 4 (s.reg (rt + 1))) 8 rn rd) st

/-- CLREX, R283. -/
def execClrex (st : State) : Host.Outcome State Fault Refusal :=
  always (do
    setMonitor false
    fallThrough) st

/-- Whether the read of a swap to memory of these attributes is locked on the ports: as the "Locked swaps" column of Table 6-11
has it (20_memory.md R246), and never to Cacheable memory (R287). -/
def swapLocks (s : State) (attr : Attr) : Bool :=
  !cacheable s attr && match attr.type with
    | .normal => attr.shareable
    | .device => !attr.shareable
    | .stronglyOrdered => true

/-- The read of a swap of `n` bytes: always aligned to its size (20_memory.md R242, U21). -/
def swapRead (n : Nat) (s : State) (a : Word) : Access :=
  ⟨n, n, s.privileged, if swapLocks s (byteAttr s .read s.privileged a) then .locked else .single⟩

/-- The write of a swap of `n` bytes, which is never locked (20_memory.md R287). DESIGN CHOICE: it goes on the ports as any other
write does, and so does the read of a swap that `swapLocks` leaves out (log entry 95). -/
def swapWrite (n : Nat) (s : State) : Access := ⟨n, n, s.privileged, .single⟩

/-- A swap of `n` bytes (20_memory.md R287): Undefined while SCTLR.SW is 0; aligned whatever SCTLR.A is (U21). -/
def swap (n : Nat) (rn rt rt2 : Reg) : M Unit := do
  let s ← get
  undefinedIf (!s.cp15.sctlr.getLsbD 10)
  notPc rn
  notPc rt
  notPc rt2
  refuseIf (rn == rt || rn == rt2) .unpredictable
  let v ← loadValue (swapRead n s (s.reg rn)) (s.reg rn)
  storeValue (swapWrite n s) (s.reg rn) (s.reg rt2)
  writeReg rt v
  fallThrough

/-- SWP, R287. -/
def execSwp (c : Cond) (rn rt rt2 : Reg) (st : State) : Host.Outcome State Fault Refusal :=
  conditional c (swap 4 rn rt rt2) st

/-- SWPB, R287. -/
def execSwpb (c : Cond) (rn rt rt2 : Reg) (st : State) : Host.Outcome State Fault Refusal :=
  conditional c (swap 1 rn rt rt2) st

/-- DSB, R280: one processor that runs in program order has nothing left to wait for but the stores instruction fetch may
not see yet, and a change of the data cache's enable asks for it (R281; 70_reset_and_hazards.md R862; log entry 40). -/
def execDsb (_opt : BitVec 4) (st : State) : Host.Outcome State Fault Refusal :=
  always (do
    modify completeAccesses
    fallThrough) st

/-- DMB, R280. -/
def execDmb (_opt : BitVec 4) (st : State) : Host.Outcome State Fault Refusal := always fallThrough st

/-- ISB, R280: every CP15 write has its effect at once already (40_system_register_access.md R433); completed stores reach
instruction fetch (R281). -/
def execIsb (_opt : BitVec 4) (st : State) : Host.Outcome State Fault Refusal :=
  always (do
    modify synchronise
    fallThrough) st

end Sys2Proof.Machine
end

