-- ==== Sys2Proof/Machine/Float.lean ====
section
/-! DEFINITION. Floating-point arithmetic, exact and then rounded once (43_vfp_instructions.md R1043 to R1056). A pattern
is a Nat below 2^N; a number is a sign, a magnitude and a power of two. The state of the computation is FPSCR: its controls
are read and its cumulative flags set. -/

namespace Sys2Proof.Machine

/-- A computation that reads the controls of FPSCR and sets its flags. -/
abbrev Fp := StateM Word

/-- A floating-point format: exponent and fraction widths, and whether it is the alternative half-precision format, which
has no infinities and no NaNs (43_vfp_instructions.md R1043). -/
structure Format where
  expBits : Nat
  fracBits : Nat
  alternative : Bool
  deriving DecidableEq, Repr

/-- Half precision; FPSCR.AHP chooses the alternative format. -/
def half (alternative : Bool) : Format := ⟨5, 10, alternative⟩
/-- Single precision. -/
def single32 : Format := ⟨8, 23, false⟩
/-- Double precision. -/
def double64 : Format := ⟨11, 52, false⟩

/-- Whether a format is half precision, to which flush-to-zero does not apply (43_vfp_instructions.md R1044). -/
def Format.isHalf (f : Format) : Bool := f.expBits == 5
/-- The largest exponent field. -/
def Format.maxExp (f : Format) : Nat := 2 ^ f.expBits - 1
/-- The bias of the exponent field. -/
def Format.bias (f : Format) : Nat := 2 ^ (f.expBits - 1) - 1
/-- The minimum exponent. -/
def Format.emin (f : Format) : Int := 1 - (f.bias : Int)

/-- A pattern from its three fields. -/
def packFp (f : Format) (sign : Bool) (e m : Nat) : Nat :=
  sign.toNat * 2 ^ (f.expBits + f.fracBits) + e * 2 ^ f.fracBits + m

/-- The sign of a pattern. -/
def fpSign (f : Format) (x : Nat) : Bool := x / 2 ^ (f.expBits + f.fracBits) % 2 == 1
/-- The exponent field of a pattern. -/
def fpExp (f : Format) (x : Nat) : Nat := x / 2 ^ f.fracBits % 2 ^ f.expBits
/-- The fraction field of a pattern. -/
def fpFrac (f : Format) (x : Nat) : Nat := x % 2 ^ f.fracBits

/-- FPZero. -/
def fpZero (f : Format) (sign : Bool) : Nat := packFp f sign 0 0
/-- FPInfinity. -/
def fpInfinity (f : Format) (sign : Bool) : Nat := packFp f sign f.maxExp 0
/-- FPMaxNormal. -/
def fpMaxNormal (f : Format) (sign : Bool) : Nat := packFp f sign (f.maxExp - 1) (2 ^ f.fracBits - 1)
/-- FPDefaultNaN. -/
def fpDefaultNaN (f : Format) : Nat := packFp f false f.maxExp (2 ^ (f.fracBits - 1))

/-! ### FPSCR (12_fpu_registers.md R210) -/

/-- Invalid Operation. -/
def ioc : Word := 0x01
/-- Division by Zero. -/
def dzc : Word := 0x02
/-- Overflow. -/
def ofc : Word := 0x04
/-- Underflow. -/
def ufc : Word := 0x08
/-- Inexact. -/
def ixc : Word := 0x10
/-- Input Denormal. -/
def idc : Word := 0x80

/-- Set cumulative flags (43_vfp_instructions.md R1047). -/
def raiseFp (flags : Word) : Fp Unit := modify fun w => w ||| flags

/-- Set cumulative flags when `b` holds. -/
def raiseFpIf (b : Bool) (flags : Word) : Fp Unit := modify fun w => if b then w ||| flags else w

/-- FPSCR.FZ. -/
def flushToZero : Fp Bool := do pure ((← get).getLsbD 24)
/-- FPSCR.DN. -/
def defaultNaN : Fp Bool := do pure ((← get).getLsbD 25)
/-- FPSCR.AHP. -/
def alternativeHalf : Fp Bool := do pure ((← get).getLsbD 26)

/-- Rounding modes (12_fpu_registers.md R210). -/
inductive Rounding where
  | nearest | plus | minus | zero
  deriving DecidableEq, Repr

/-- FPSCR.RMode. -/
def roundingOf (w : Word) : Rounding :=
  match (w.extractLsb' 22 2).toNat with
  | 0 => .nearest
  | 1 => .plus
  | 2 => .minus
  | _ => .zero

/-- The current rounding mode. -/
def roundingMode : Fp Rounding := do pure (roundingOf (← get))

/-! ### Unpacking (43_vfp_instructions.md R1044) -/

/-- The class of an operand. -/
inductive FpClass where
  | zero | nonzero | infinity | quiet | signalling
  deriving DecidableEq, Repr

/-- Whether an operand is a NaN. -/
def FpClass.isNaN : FpClass → Bool
  | .quiet | .signalling => true
  | _ => false

/-- An operand: its class, its sign, and its magnitude `sig * 2^exp`. -/
structure FpValue where
  cls : FpClass
  sign : Bool
  sig : Nat
  exp : Int
  deriving DecidableEq, Repr

/-- FPUnpack. -/
def fpUnpack (f : Format) (x : Nat) : Fp FpValue := do
  let s := fpSign f x
  let e := fpExp f x
  let m := fpFrac f x
  if e = 0 then
    if m = 0 then pure ⟨.zero, s, 0, 0⟩
    else if !f.isHalf && (← flushToZero) then
      raiseFp idc
      pure ⟨.zero, s, 0, 0⟩
    else pure ⟨.nonzero, s, m, f.emin - f.fracBits⟩
  else if e = f.maxExp ∧ f.alternative = false then
    if m = 0 then pure ⟨.infinity, s, 0, 0⟩
    else pure ⟨if m / 2 ^ (f.fracBits - 1) = 1 then .quiet else .signalling, s, 0, 0⟩
  else pure ⟨.nonzero, s, 2 ^ f.fracBits + m, (e : Int) - f.bias - f.fracBits⟩

/-! ### NaNs (43_vfp_instructions.md R1045) -/

/-- FPProcessNaN. -/
def fpProcessNaN (f : Format) (c : FpClass) (x : Nat) : Fp Nat := do
  raiseFpIf (c == .signalling) ioc
  let r := if c = .signalling then x + 2 ^ (f.fracBits - 1) else x
  pure (if ← defaultNaN then fpDefaultNaN f else r)

/-- FPProcessNaNs: none when neither operand is a NaN. -/
def fpProcessNaNs (f : Format) (c1 c2 : FpClass) (x1 x2 : Nat) : Fp (Option Nat) :=
  if c1 = .signalling then do pure (some (← fpProcessNaN f c1 x1))
  else if c2 = .signalling then do pure (some (← fpProcessNaN f c2 x2))
  else if c1 = .quiet then do pure (some (← fpProcessNaN f c1 x1))
  else if c2 = .quiet then do pure (some (← fpProcessNaN f c2 x2))
  else pure none

/-- The result of an invalid operation (43_vfp_instructions.md R1045). -/
def fpInvalid (f : Format) : Fp Nat := do
  raiseFp ioc
  pure (fpDefaultNaN f)

/-! ### Rounding (43_vfp_instructions.md R1046) -/

/-- A magnitude `(sig + d) * 2^exp` cut to an integer multiple of a power of two: the integer, whether what is left is
above, at or below one half, and whether anything is left. `sticky` says that `d` is above 0 (and below 1). -/
structure Cut where
  int : Nat
  aboveHalf : Bool
  half : Bool
  inexact : Bool
  deriving DecidableEq, Repr

/-- The integer part of `(sig + d) * 2^shift`, with `d` above 0 only where `shift` is below 0. -/
def cutAt (sig : Nat) (shift : Int) (sticky : Bool) : Cut :=
  match shift with
  | .ofNat n => ⟨sig * 2 ^ n, false, false, sticky⟩
  | .negSucc n =>
    let d := 2 ^ (n + 1)
    let twice := 2 * (sig % d)
    ⟨sig / d, decide (d < twice) || (decide (d = twice) && sticky), decide (d = twice) && !sticky,
      decide (twice ≠ 0) || sticky⟩

/-- Whether a cut magnitude is rounded up (43_vfp_instructions.md R1046). -/
def roundsUp (rm : Rounding) (sign : Bool) (c : Cut) : Bool :=
  match rm with
  | .nearest => c.aboveHalf || (c.half && c.int % 2 == 1)
  | .plus => c.inexact && !sign
  | .minus => c.inexact && sign
  | .zero => false

/-- Whether an overflow gives an infinity (43_vfp_instructions.md R1046). -/
def overflowsToInfinity (rm : Rounding) (sign : Bool) : Bool :=
  match rm with
  | .nearest => true
  | .plus => !sign
  | .minus => sign
  | .zero => false

/-- The exponent field and the fraction of a rounded magnitude, before the overflow test: a denormal that rounds up to
2^F gets exponent 1, a significand that rounds up to 2^(F+1) is halved. -/
def adjustRounded (f : Format) (biased mant : Nat) : Nat × Nat :=
  if mant = 2 ^ f.fracBits ∧ biased = 0 then (1, mant)
  else if mant = 2 ^ (f.fracBits + 1) then (biased + 1, mant / 2)
  else (biased, mant)

/-- FPRound of the number with sign `sign` and magnitude `(sig + d) * 2^exp`, where `d` is 0 unless `sticky`, and `sig`
then has at least two bits more than the format's significand. -/
def fpRoundWith (f : Format) (rm : Rounding) (sign : Bool) (sig : Nat) (exp : Int) (sticky : Bool) : Fp Nat := do
  let ex : Int := exp + sig.log2
  if (← flushToZero) && !f.isHalf && decide (ex < f.emin) then
    raiseFp ufc
    pure (fpZero f sign)
  else
    let biased := (ex - f.emin + 1).toNat
    let c := cutAt sig (exp - max ex f.emin + f.fracBits) sticky
    raiseFpIf (decide (biased = 0) && c.inexact) ufc
    let (e, m) := adjustRounded f biased (if roundsUp rm sign c then c.int + 1 else c.int)
    if f.alternative then
      if 2 ^ f.expBits ≤ e then
        raiseFp ioc
        pure (packFp f sign f.maxExp (2 ^ f.fracBits - 1))
      else
        raiseFpIf c.inexact ixc
        pure (packFp f sign e (m % 2 ^ f.fracBits))
    else if f.maxExp ≤ e then
      raiseFp (ofc ||| ixc)
      pure (if overflowsToInfinity rm sign then fpInfinity f sign else fpMaxNormal f sign)
    else
      raiseFpIf c.inexact ixc
      pure (packFp f sign e (m % 2 ^ f.fracBits))

/-- FPRound under FPSCR.RMode. -/
def fpRound (f : Format) (sign : Bool) (sig : Nat) (exp : Int) (sticky : Bool) : Fp Nat := do
  fpRoundWith f (← roundingMode) sign sig exp sticky

/-! ### Arithmetic -/

/-- A magnitude with its sign, as an integer. -/
def signed (sign : Bool) (m : Nat) : Int := if sign then -(m : Int) else m

/-- Two numbers as integers over a common power of two, the smaller of theirs. -/
def fpAlign (a b : FpValue) : Int × Int × Int :=
  let e := min a.exp b.exp
  (signed a.sign (a.sig * 2 ^ (a.exp - e).toNat), signed b.sign (b.sig * 2 ^ (b.exp - e).toNat), e)

/-- The sum of two operands that are not NaNs (43_vfp_instructions.md R1048). -/
def fpSum (f : Format) (a b : FpValue) : Fp Nat := do
  if a.cls = .infinity ∧ b.cls = .infinity ∧ a.sign ≠ b.sign then fpInvalid f
  else if a.cls = .infinity then pure (fpInfinity f a.sign)
  else if b.cls = .infinity then pure (fpInfinity f b.sign)
  else if a.cls = .zero ∧ b.cls = .zero ∧ a.sign = b.sign then pure (fpZero f a.sign)
  else
    let (x, y, e) := fpAlign a b
    let v := x + y
    if v = 0 then pure (fpZero f ((← roundingMode) == .minus))
    else fpRound f (decide (v < 0)) v.natAbs e false

/-- FPAdd (43_vfp_instructions.md R1048). -/
def fpAdd (f : Format) (x1 x2 : Nat) : Fp Nat := do
  let a ← fpUnpack f x1
  let b ← fpUnpack f x2
  match ← fpProcessNaNs f a.cls b.cls x1 x2 with
  | some r => pure r
  | none => fpSum f a b

/-- FPSub (43_vfp_instructions.md R1048): the sum with the sign of the second operand inverted, after the NaNs. -/
def fpSub (f : Format) (x1 x2 : Nat) : Fp Nat := do
  let a ← fpUnpack f x1
  let b ← fpUnpack f x2
  match ← fpProcessNaNs f a.cls b.cls x1 x2 with
  | some r => pure r
  | none => fpSum f a { b with sign := !b.sign }

/-- FPMul (43_vfp_instructions.md R1049). -/
def fpMul (f : Format) (x1 x2 : Nat) : Fp Nat := do
  let a ← fpUnpack f x1
  let b ← fpUnpack f x2
  let sign := a.sign != b.sign
  match ← fpProcessNaNs f a.cls b.cls x1 x2 with
  | some r => pure r
  | none =>
    if (a.cls = .infinity ∧ b.cls = .zero) ∨ (a.cls = .zero ∧ b.cls = .infinity) then fpInvalid f
    else if a.cls = .infinity ∨ b.cls = .infinity then pure (fpInfinity f sign)
    else if a.cls = .zero ∨ b.cls = .zero then pure (fpZero f sign)
    else fpRound f sign (a.sig * b.sig) (a.exp + b.exp) false

/-- The rounded quotient of two magnitudes: the integer quotient has at least two bits more than the significand. -/
def fpQuotient (f : Format) (sign : Bool) (a b : FpValue) : Fp Nat :=
  let k := f.fracBits + 4 + b.sig.log2
  fpRound f sign (a.sig * 2 ^ k / b.sig) (a.exp - b.exp - k) (decide (a.sig * 2 ^ k % b.sig ≠ 0))

/-- FPDiv (43_vfp_instructions.md R1050). -/
def fpDiv (f : Format) (x1 x2 : Nat) : Fp Nat := do
  let a ← fpUnpack f x1
  let b ← fpUnpack f x2
  let sign := a.sign != b.sign
  match ← fpProcessNaNs f a.cls b.cls x1 x2 with
  | some r => pure r
  | none =>
    if (a.cls = .infinity ∧ b.cls = .infinity) ∨ (a.cls = .zero ∧ b.cls = .zero) then fpInvalid f
    else if a.cls = .infinity ∨ b.cls = .zero then
      raiseFpIf (a.cls != .infinity) dzc
      pure (fpInfinity f sign)
    else if a.cls = .zero ∨ b.cls = .infinity then pure (fpZero f sign)
    else fpQuotient f sign a b

/-- The integer square root of `n`, found bit by bit from bit `k - 1` down on top of `r`. -/
def intSqrt (n : Nat) : Nat → Nat → Nat
  | 0, r => r
  | k + 1, r => if (r + 2 ^ k) * (r + 2 ^ k) ≤ n then intSqrt n k (r + 2 ^ k) else intSqrt n k r

/-- The rounded square root of a magnitude, made an even power of two with two bits more than the significand. -/
def fpRoot (f : Format) (a : FpValue) : Fp Nat :=
  let odd := (a.exp % 2).toNat
  let n := a.sig * 2 ^ (2 * (f.fracBits + 3) + odd)
  let r := intSqrt n (2 * f.fracBits + 6) 0
  fpRound f false r ((a.exp - odd) / 2 - (f.fracBits + 3)) (decide (r * r ≠ n))

/-- FPSqrt (43_vfp_instructions.md R1051). -/
def fpSqrt (f : Format) (x : Nat) : Fp Nat := do
  let a ← fpUnpack f x
  if a.cls.isNaN then fpProcessNaN f a.cls x
  else if a.cls = .zero then pure (fpZero f a.sign)
  else if a.sign then fpInvalid f
  else if a.cls = .infinity then pure (fpInfinity f false)
  else fpRoot f a

/-- FPNeg. -/
def fpNeg (f : Format) (x : Nat) : Nat := packFp f (!fpSign f x) (fpExp f x) (fpFrac f x)
/-- FPAbs. -/
def fpAbs (f : Format) (x : Nat) : Nat := packFp f false (fpExp f x) (fpFrac f x)

/-- Where a number stands among the infinities and the numbers, as an integer over `2^e`. -/
def orderKey (a : FpValue) (e : Int) : Int := signed a.sign (a.sig * 2 ^ (a.exp - e).toNat)

/-- NZCV of two operands that are not NaNs (43_vfp_instructions.md R1052). -/
def fpOrder (a b : FpValue) : BitVec 4 :=
  if a.cls = .infinity ∧ b.cls = .infinity then
    (if a.sign = b.sign then 0b0110 else if a.sign then 0b1000 else 0b0010)
  else if a.cls = .infinity then (if a.sign then 0b1000 else 0b0010)
  else if b.cls = .infinity then (if b.sign then 0b0010 else 0b1000)
  else
    let (x, y, _) := fpAlign a b
    if x = y then 0b0110 else if x < y then 0b1000 else 0b0010

/-- FPCompare (43_vfp_instructions.md R1052). -/
def fpCompare (f : Format) (x1 x2 : Nat) (signalAll : Bool) : Fp (BitVec 4) := do
  let a ← fpUnpack f x1
  let b ← fpUnpack f x2
  if a.cls.isNaN || b.cls.isNaN then
    raiseFpIf (a.cls == .signalling || b.cls == .signalling || signalAll) ioc
    pure 0b0011
  else pure (fpOrder a b)

/-! ### Conversions -/

/-- An integer rounded from `signed sign ((sig) * 2^shift)` (43_vfp_instructions.md R1053), and whether it is inexact. -/
def fpToInt (rm : Rounding) (sign : Bool) (sig : Nat) (shift : Int) : Int × Bool :=
  let c := cutAt sig shift false
  (signed sign (if roundsUp rm sign c then c.int + 1 else c.int), c.inexact)

/-- FPToFixed (43_vfp_instructions.md R1053): the integer before it is written as a pattern. -/
def fpToFixed (f : Format) (x : Nat) (m fb : Nat) (uns towardsZero : Bool) : Fp Int := do
  let a ← fpUnpack f x
  let rm ← roundingMode
  let lo : Int := if uns then 0 else -(2 ^ (m - 1) : Nat)
  let hi : Int := if uns then (2 ^ m - 1 : Nat) else (2 ^ (m - 1) - 1 : Nat)
  if a.cls.isNaN then
    raiseFp ioc
    pure 0
  else if a.cls = .infinity then
    raiseFp ioc
    pure (if a.sign then lo else hi)
  else
    let (i, inexact) := fpToInt (if towardsZero then .zero else rm) a.sign a.sig (a.exp + fb)
    if i < lo then
      raiseFp ioc
      pure lo
    else if hi < i then
      raiseFp ioc
      pure hi
    else
      raiseFpIf inexact ixc
      pure i

/-- FPFixedToFP (43_vfp_instructions.md R1054) of the integer `i`. -/
def fpFromFixed (f : Format) (i : Int) (fb : Nat) (toNearest : Bool) : Fp Nat := do
  let rm ← roundingMode
  if i = 0 then pure (fpZero f false)
  else fpRoundWith f (if toNearest then .nearest else rm) (decide (i < 0)) i.natAbs (-(fb : Int)) false

/-- A NaN moved to another format (43_vfp_instructions.md R1055): quiet, with the top fraction bits that fit. -/
def fpMoveNaN (src dst : Format) (sign : Bool) (x : Nat) : Nat :=
  let low := x % 2 ^ (src.fracBits - 1)
  let frac := if src.fracBits ≤ dst.fracBits then low * 2 ^ (dst.fracBits - src.fracBits)
    else low / 2 ^ (src.fracBits - dst.fracBits)
  packFp dst sign dst.maxExp (2 ^ (dst.fracBits - 1) + frac)

/-- A NaN converted (43_vfp_instructions.md R1055): the alternative half-precision format has none. -/
def fpConvertNaN (src dst : Format) (a : FpValue) (x : Nat) : Fp Nat := do
  raiseFpIf (a.cls == .signalling || dst.alternative) ioc
  if dst.alternative then pure (fpZero dst a.sign)
  else pure (if ← defaultNaN then fpDefaultNaN dst else fpMoveNaN src dst a.sign x)

/-- Conversion between two formats (43_vfp_instructions.md R1055). -/
def fpConvert (src dst : Format) (x : Nat) : Fp Nat := do
  let a ← fpUnpack src x
  if a.cls.isNaN then fpConvertNaN src dst a x
  else if a.cls = .infinity then
    if dst.alternative then
      raiseFp ioc
      pure (packFp dst a.sign dst.maxExp (2 ^ dst.fracBits - 1))
    else pure (fpInfinity dst a.sign)
  else if a.cls = .zero then pure (fpZero dst a.sign)
  else fpRound dst a.sign a.sig a.exp false

/-- VFPExpandImm (43_vfp_instructions.md R1056). -/
def expandImm (f : Format) (imm8 : BitVec 8) : Nat :=
  let b := imm8.getLsbD 6
  let copies := if b then (2 ^ (f.expBits - 3) - 1) * 4 else 0
  packFp f (imm8.getLsbD 7) ((!b).toNat * 2 ^ (f.expBits - 1) + copies + (imm8.extractLsb' 4 2).toNat)
    ((imm8.extractLsb' 0 4).toNat * 2 ^ (f.fracBits - 4))

end Sys2Proof.Machine
end

