-- ==== Sys2Proof/Machine/Fpu.lean ====
section
/-! DEFINITION. FPU registers, the checks every VFP instruction makes, and VMRS and VMSR (12_fpu_registers.md R201 to R231;
40_system_register_access.md R450 to R453; 43_vfp_instructions.md R1041, R1042). -/

namespace Sys2Proof.Machine

/-! ### Registers (12_fpu_registers.md R201) -/

/-- D[n]. -/
def State.double (s : State) (n : BitVec 4) : BitVec 64 := s.fpu.d[Fin.ofNat 16 n.toNat]

/-- Write D[n]. -/
def State.setDouble (s : State) (n : BitVec 4) (v : BitVec 64) : State :=
  { s with fpu := { s.fpu with d := s.fpu.d.set (Fin.ofNat 16 n.toNat) v } }

/-- S[n]: the low half of D[n / 2] for an even n, the high half for an odd one. -/
def State.single (s : State) (n : BitVec 5) : Word :=
  if n.getLsbD 0 then (s.double (n.extractLsb' 1 4)).extractLsb' 32 32
  else (s.double (n.extractLsb' 1 4)).extractLsb' 0 32

/-- A doubleword with one half replaced. -/
def setHalf (x : BitVec 64) (high : Bool) (v : Word) : BitVec 64 :=
  if high then v ++ x.extractLsb' 0 32 else x.extractLsb' 32 32 ++ v

/-- Write S[n]: the other half of its D register stays. -/
def State.setSingle (s : State) (n : BitVec 5) (v : Word) : State :=
  s.setDouble (n.extractLsb' 1 4) (setHalf (s.double (n.extractLsb' 1 4)) (n.getLsbD 0) v)

/-- The number of a single-precision register: the four-bit field, then the one-bit field (43_vfp_instructions.md R1041). -/
def singleNumber (v : BitVec 4) (b : Bool) : BitVec 5 := v ++ BitVec.ofBool b

/-! ### Checks (43_vfp_instructions.md R1042) -/

/-- Step 1: the FPU is built and CPACR admits the mode (12_fpu_registers.md R231; U11, U12). -/
def vfpAccess : M Unit := do
  let s ← get
  undefinedIf (s.cfg.fpu == .none)
  let cp10 := s.cp15.cpacr.extractLsb' 20 2
  refuseIf (cp10 != s.cp15.cpacr.extractLsb' 22 2) .cpacrMismatch
  undefinedIf (cp10 == 0b00)
  undefinedIf (cp10 == 0b01 && !s.privileged)
  refuseIf (cp10 == 0b10) .cpacrReserved

/-- FPEXC.EN (12_fpu_registers.md R220). -/
def vfpEnabled (s : State) : Bool := s.fpu.fpexc.getLsbD 30

/-- Steps 1 and 2. -/
def vfpOn : M Unit := do
  vfpAccess
  let s ← get
  undefinedIf (!vfpEnabled s)

/-- Steps 1 to 3 of a load, store or transfer; `bad` says that it names a register D16 to D31. -/
def checkTransfer (bad : Bool) : M Unit := do
  vfpOn
  undefinedIf bad

/-- FPSCR.Len (12_fpu_registers.md R210). -/
def vectorLength (s : State) : BitVec 3 := s.fpu.fpscr.extractLsb' 16 3

/-- Step 4: a short vector sets FPEXC.DEX and is Undefined (12_fpu_registers.md R213). -/
def vectorTrap : M Unit := do
  let s ← get
  if vectorLength s ≠ 0 then
    modify fun t => { t with fpu := { t.fpu with fpexc := t.fpu.fpexc ||| 0x20000000 } }
    undefined

/-- Steps 1 to 4 of a data-processing instruction; `bad` says that it names a register D16 to D31, `dbl` that it is a
double-precision one, which the single-precision build lacks. -/
def checkData (bad dbl : Bool) : M Unit := do
  vfpOn
  let s ← get
  undefinedIf (bad || (dbl && s.cfg.fpu == .single))
  vectorTrap

/-! ### System registers -/

/-- FPSID (12_fpu_registers.md R207). -/
def fpsid : Word := 0x41023170
/-- MVFR1 (12_fpu_registers.md R204). -/
def mvfr1 : Word := 0x01000011
/-- MVFR0 (12_fpu_registers.md R204). -/
def mvfr0 (cfg : Config) : Word := if cfg.fpu = .double then 0x10110221 else 0x10110021

/-- The FPU system registers (12_fpu_registers.md R204). -/
inductive FpuReg where
  | fpsid | fpscr | mvfr1 | mvfr0 | fpexc
  deriving DecidableEq, Repr

/-- The register a number names, if it names one (30_encoding.md R411). -/
def fpuReg (n : BitVec 4) : Option FpuReg :=
  match n.toNat with
  | 0 => some .fpsid
  | 1 => some .fpscr
  | 6 => some .mvfr1
  | 7 => some .mvfr0
  | 8 => some .fpexc
  | _ => none

/-- Whether Table 5-3 permits an access (12_fpu_registers.md R230): FPSCR while enabled, the rest in privileged modes. -/
def fpuRegPermitted (s : State) (r : FpuReg) : Bool :=
  match r with
  | .fpscr => vfpEnabled s
  | _ => s.privileged

/-- The value VMRS reads (40_system_register_access.md R450). -/
def readFpuReg (s : State) (r : FpuReg) : Word :=
  match r with
  | .fpsid => fpsid
  | .fpscr => s.fpu.fpscr
  | .mvfr1 => mvfr1
  | .mvfr0 => mvfr0 s.cfg
  | .fpexc => s.fpu.fpexc

/-- What VMSR writes (40_system_register_access.md R451, R452): nothing in the read-only registers (D20). -/
def writeFpuReg (r : FpuReg) (v : Word) (s : State) : State :=
  match r with
  | .fpscr => { s with fpu := { s.fpu with fpscr := maskWrite s.fpu.fpscr v 0xF7F7009F } }
  | .fpexc => { s with fpu := { s.fpu with fpexc := maskWrite s.fpu.fpexc v 0x60000000 } }
  | .fpsid | .mvfr1 | .mvfr0 => s

/-- The register that VMRS or VMSR names, once CPACR admits the access (40_system_register_access.md R450, R451, R453). A number
that names none is UNPREDICTABLE, whatever FPEXC.EN is (U61; log entry 21). -/
def fpuRegAccess (reg : BitVec 4) : M FpuReg := do
  vfpAccess
  let s ← get
  match fpuReg reg with
  | some r =>
    undefinedIf (!fpuRegPermitted s r)
    pure r
  | none => refuse .vfpRegister

/-- VMRS, R450: Rt = 15 takes the flags, of FPSCR only (U60). -/
def execVmrs (c : Cond) (reg : BitVec 4) (rt : Reg) (st : State) : Host.Outcome State Fault Refusal :=
  conditional c (do
    let r ← fpuRegAccess reg
    refuseIf (rt == 15 && r != .fpscr) .unpredictable
    let s ← get
    receive rt (readFpuReg s r)) st

/-- VMSR, R451. -/
def execVmsr (c : Cond) (reg : BitVec 4) (rt : Reg) (st : State) : Host.Outcome State Fault Refusal :=
  conditional c (do
    let r ← fpuRegAccess reg
    notPc rt
    let s ← get
    modify (writeFpuReg r (s.reg rt))
    fallThrough) st

/-- VMRS and VMSR with should-be-zero bits set, 30_encoding.md R411: after the access checks, UNPREDICTABLE (U72). -/
def execVmrsVmsrSbz (c : Cond) (_l : Bool) (_reg : BitVec 4) (_rt : Reg) (_sbz : BitVec 3) (_sbz1 : BitVec 4)
    (st : State) : Host.Outcome State Fault Refusal :=
  conditional c (do
    vfpOn
    refuse .vfpUnpredictable) st

/-- The unallocated VFP space, 43_vfp_instructions.md R1095: after the access checks, an Undefined Instruction. -/
def execVfpUnallocated (c : Cond) (_rest : BitVec 14) (_rest1 : BitVec 9)
    (st : State) : Host.Outcome State Fault Refusal :=
  conditional c (do
    vfpOn
    undefined) st

end Sys2Proof.Machine
end

