-- ==== Sys2Proof/Machine/Media.lean ====
section
/-! DEFINITION. Wide moves, bit manipulation, bit fields and extension (42_a32_core_subset.md R976 to R990). -/

namespace Sys2Proof.Machine

/-- Leading zero bits among the `n` low bits of a word, from the top (42_a32_core_subset.md R978). -/
def leadingZeros (x : Word) : Nat → Nat
  | 0 => 0
  | n + 1 => if x.getLsbD n then 0 else leadingZeros x n + 1

/-- The bytes of a word reversed (42_a32_core_subset.md R979). -/
def byteReverse (x : Word) : Word :=
  x.extractLsb' 0 8 ++ x.extractLsb' 8 8 ++ x.extractLsb' 16 8 ++ x.extractLsb' 24 8

/-- The bytes of each halfword reversed (42_a32_core_subset.md R980). -/
def byteReverse16 (x : Word) : Word :=
  x.extractLsb' 16 8 ++ x.extractLsb' 24 8 ++ x.extractLsb' 0 8 ++ x.extractLsb' 8 8

/-- The bytes of the low halfword reversed and sign-extended (42_a32_core_subset.md R981). -/
def byteReverseSigned (x : Word) : Word := (x.extractLsb' 0 8 ++ x.extractLsb' 8 8).signExtend 32

/-- The low bits of `dst` from `lsb` to `msb` replaced by the low bits of `src` (42_a32_core_subset.md R985). -/
def insertField (dst src : Word) (lsb msb : Nat) : Word :=
  let mask := (BitVec.allOnes 32 <<< lsb) &&& (BitVec.allOnes 32 >>> (31 - msb))
  (dst &&& ~~~ mask) ||| ((src <<< lsb) &&& mask)

/-- The bits of `x` from `lsb`, `widthm1` + 1 of them, zero-extended (42_a32_core_subset.md R983). -/
def extractField (x : Word) (lsb widthm1 : Nat) : Word :=
  (x >>> lsb) &&& (BitVec.allOnes 32 >>> (31 - widthm1))

/-- The same bits, sign-extended from the top one (42_a32_core_subset.md R984). -/
def extractSignedField (x : Word) (lsb widthm1 : Nat) : Word :=
  (x <<< (31 - widthm1 - lsb)).sshiftRight (31 - widthm1)

/-- A register rotated by 0, 8, 16 or 24 (42_a32_core_subset.md R987). -/
def rotated (x : Word) (rotate : BitVec 2) : Word := x.rotateRight (8 * rotate.toNat)

/-- Rd takes a function of Rm; neither may be R15 (42_a32_core_subset.md R978 to R990, U60). -/
def unary (rd rm : Reg) (f : Word → Word) : M Unit := do
  notPc rd
  notPc rm
  writeReg rd (f (← readReg rm))
  fallThrough

/-- MOVW, R976. -/
def execMovw (c : Cond) (imm4 : BitVec 4) (rd : Reg) (imm12 : BitVec 12)
    (st : State) : Host.Outcome State Fault Refusal :=
  conditional c (do
    notPc rd
    writeReg rd ((imm4 ++ imm12).setWidth 32)
    fallThrough) st

/-- MOVT, R977. -/
def execMovt (c : Cond) (imm4 : BitVec 4) (rd : Reg) (imm12 : BitVec 12)
    (st : State) : Host.Outcome State Fault Refusal :=
  conditional c (do
    notPc rd
    let x ← readReg rd
    writeReg rd (imm4 ++ imm12 ++ x.extractLsb' 0 16)
    fallThrough) st

/-- CLZ, R978. -/
def execClz (c : Cond) (rd rm : Reg) (st : State) : Host.Outcome State Fault Refusal :=
  conditional c (unary rd rm fun x => BitVec.ofNat 32 (leadingZeros x 32)) st

/-- REV, R979. -/
def execRev (c : Cond) (rd rm : Reg) (st : State) : Host.Outcome State Fault Refusal :=
  conditional c (unary rd rm byteReverse) st

/-- REV16, R980. -/
def execRev16 (c : Cond) (rd rm : Reg) (st : State) : Host.Outcome State Fault Refusal :=
  conditional c (unary rd rm byteReverse16) st

/-- REVSH, R981. -/
def execRevsh (c : Cond) (rd rm : Reg) (st : State) : Host.Outcome State Fault Refusal :=
  conditional c (unary rd rm byteReverseSigned) st

/-- RBIT, R982. -/
def execRbit (c : Cond) (rd rm : Reg) (st : State) : Host.Outcome State Fault Refusal :=
  conditional c (unary rd rm BitVec.reverse) st

/-- UBFX, R983. -/
def execUbfx (c : Cond) (widthm1 : BitVec 5) (rd : Reg) (lsb : BitVec 5) (rn : Reg)
    (st : State) : Host.Outcome State Fault Refusal :=
  conditional c (do
    refuseIf (decide (31 < lsb.toNat + widthm1.toNat)) .unpredictable
    unary rd rn fun x => extractField x lsb.toNat widthm1.toNat) st

/-- SBFX, R984. -/
def execSbfx (c : Cond) (widthm1 : BitVec 5) (rd : Reg) (lsb : BitVec 5) (rn : Reg)
    (st : State) : Host.Outcome State Fault Refusal :=
  conditional c (do
    refuseIf (decide (31 < lsb.toNat + widthm1.toNat)) .unpredictable
    unary rd rn fun x => extractSignedField x lsb.toNat widthm1.toNat) st

/-- BFI, R985. -/
def execBfi (c : Cond) (msb : BitVec 5) (rd : Reg) (lsb : BitVec 5) (rn : Reg)
    (st : State) : Host.Outcome State Fault Refusal :=
  conditional c (do
    notPc rd
    notPc rn
    refuseIf (decide (msb.toNat < lsb.toNat)) .unpredictable
    let dst ← readReg rd
    let src ← readReg rn
    writeReg rd (insertField dst src lsb.toNat msb.toNat)
    fallThrough) st

/-- BFC, R986. -/
def execBfc (c : Cond) (msb : BitVec 5) (rd : Reg) (lsb : BitVec 5)
    (st : State) : Host.Outcome State Fault Refusal :=
  conditional c (do
    notPc rd
    refuseIf (decide (msb.toNat < lsb.toNat)) .unpredictable
    let dst ← readReg rd
    writeReg rd (insertField dst 0 lsb.toNat msb.toNat)
    fallThrough) st

/-- UXTB, R987. -/
def execUxtb (c : Cond) (rd : Reg) (rotate : BitVec 2) (rm : Reg)
    (st : State) : Host.Outcome State Fault Refusal :=
  conditional c (unary rd rm fun x => ((rotated x rotate).extractLsb' 0 8).setWidth 32) st

/-- UXTH, R988. -/
def execUxth (c : Cond) (rd : Reg) (rotate : BitVec 2) (rm : Reg)
    (st : State) : Host.Outcome State Fault Refusal :=
  conditional c (unary rd rm fun x => ((rotated x rotate).extractLsb' 0 16).setWidth 32) st

/-- SXTB, R989. -/
def execSxtb (c : Cond) (rd : Reg) (rotate : BitVec 2) (rm : Reg)
    (st : State) : Host.Outcome State Fault Refusal :=
  conditional c (unary rd rm fun x => ((rotated x rotate).extractLsb' 0 8).signExtend 32) st

/-- SXTH, R990. -/
def execSxth (c : Cond) (rd : Reg) (rotate : BitVec 2) (rm : Reg)
    (st : State) : Host.Outcome State Fault Refusal :=
  conditional c (unary rd rm fun x => ((rotated x rotate).extractLsb' 0 16).signExtend 32) st

end Sys2Proof.Machine
end

