-- ==== Sys2Proof/Machine/Multiples.lean ====
section
/-! DEFINITION. Multiple loads and stores (42_a32_core_subset.md R1024 to R1026). -/

namespace Sys2Proof.Machine

/-- The mode whose registers a multiple access moves: User's in the user-bank form (42_a32_core_subset.md R1024). -/
def listMode (s : State) (userBank : Bool) : Mode := if userBank then .usr else s.mode

/-- Load words from rising addresses. When an access aborts, the registers already loaded have any value, but for the
base `keep` (42_a32_core_subset.md R1024, 60_exceptions.md R529). -/
def loadList (privileged : Bool) (m : Mode) (keep : Fin 30) : List Reg → Word → M (List (Reg × Word))
  | [], _ => pure []
  | r :: rs, a => do
    let v ← loadValue (multiple privileged) a
    let rest ← onAbort (loadList privileged m keep rs (a + 4))
      (if r = 15 ∨ bankIndex m r = keep then pure () else scramble m r)
    pure ((r, v) :: rest)

/-- Put loaded words in registers R0 to R14 of a mode. -/
def putList (m : Mode) : List (Reg × Word) → State → State
  | [], s => s
  | (r, v) :: rest, s => putList m rest (s.setRegIn m r v)

/-- The word loaded for R15, if the list names it. -/
def loadedPc (vs : List (Reg × Word)) : Option Word := (vs.find? fun e => e.1 == 15).map (·.2)

/-- LDM (42_a32_core_subset.md R1024). -/
def loadMultiple (p u s w : Bool) (rn : Reg) (regs : BitVec 16) : M Unit := do
  notPc rn
  refuseIf (regs == 0 || (w && regs.getLsbD rn.toNat)) .unpredictable
  let st ← get
  let userBank := s && !regs.getLsbD 15
  refuseIf (userBank && (spsrIndex st.mode).isNone) .unpredictable
  let m := listMode st userBank
  let base := st.reg rn
  let n := listCount regs
  let vs ← loadList st.privileged m (bankIndex st.mode rn) (listRegs regs) (multipleStart base p u n)
  modify (putList m vs)
  if w then writeReg rn (multipleEnd base u n)
  match loadedPc vs with
  | none => fallThrough
  | some t => if s then exceptionReturn t else bxWritePc t

/-- What STM stores for a register (42_a32_core_subset.md R1025): a base that is not the lowest in the list, with
write-back, is a free value. -/
def storedValue (m : Mode) (w : Bool) (rn : Reg) (regs : BitVec 16) (r : Reg) : M Word := fun s =>
  if w && r == rn && decide ((listRegs regs).head? ≠ some rn) then drawWord s else .ok (s.regIn m r) s

/-- Store words to rising addresses (42_a32_core_subset.md R1025): two registers that fill a doubleword of the ITCM are one
write of its chunk (21_mpu_tcm.md R388). -/
def storeList (privileged : Bool) (value : Reg → M Word) : List Reg → Word → M Unit
  | [], _ => pure ()
  | [r], a => do storeValue (multiple privileged) a (← value r)
  | r :: r' :: rs, a => do
    let s ← get
    if inItcm s a && decide (a.toNat % 8 = 0) then
      storeTwo (multiple privileged) a (← value r) (← value r')
      storeList privileged value rs (a + 8)
    else
      storeValue (multiple privileged) a (← value r)
      storeList privileged value (r' :: rs) (a + 4)

/-- STM (42_a32_core_subset.md R1025). -/
def storeMultiple (p u s w : Bool) (rn : Reg) (regs : BitVec 16) : M Unit := do
  notPc rn
  refuseIf (regs == 0) .unpredictable
  let st ← get
  let base := st.reg rn
  let n := listCount regs
  storeList st.privileged (storedValue (listMode st s) w rn regs) (listRegs regs) (multipleStart base p u n)
  if w then writeReg rn (multipleEnd base u n)
  fallThrough

/-- LDM, R1024. -/
def execLdm (c : Cond) (p u s w : Bool) (rn : Reg) (regs : BitVec 16)
    (st : State) : Host.Outcome State Fault Refusal :=
  conditional c (loadMultiple p u s w rn regs) st

/-- STM, R1025. -/
def execStm (c : Cond) (p u s w : Bool) (rn : Reg) (regs : BitVec 16)
    (st : State) : Host.Outcome State Fault Refusal :=
  conditional c (storeMultiple p u s w rn regs) st

/-- POP, R1026: LDMIA sp! -/
def execPop (c : Cond) (regs : BitVec 16) (st : State) : Host.Outcome State Fault Refusal :=
  conditional c (loadMultiple false true false true 13 regs) st

/-- PUSH, R1026: STMDB sp! -/
def execPush (c : Cond) (regs : BitVec 16) (st : State) : Host.Outcome State Fault Refusal :=
  conditional c (storeMultiple true false false true 13 regs) st

end Sys2Proof.Machine
end

