-- ==== Sys2Proof/Machine/Multiply.lean ====
section
/-! DEFINITION. Divide and multiply (42_a32_core_subset.md R991 to R999). -/

namespace Sys2Proof.Machine

/-- SCTLR.DZ: a zero divisor is an Undefined Instruction (42_a32_core_subset.md R991). -/
def State.divideByZeroTraps (s : State) : Bool := s.cp15.sctlr.getLsbD 19

/-- A division of Rn by Rm into Rd (42_a32_core_subset.md R991, R992): a zero divisor traps under SCTLR.DZ, else gives 0. -/
def divide (rd rm rn : Reg) (quotient : Word → Word → Word) : M Unit := do
  notPc rd
  notPc rm
  notPc rn
  let n ← readReg rn
  let m ← readReg rm
  let s ← get
  undefinedIf (decide (m = 0) && s.divideByZeroTraps)
  writeReg rd (if m = 0 then 0 else quotient n m)
  fallThrough

/-- The quotient of signed words, rounded towards zero, modulo 2^32 (42_a32_core_subset.md R991). -/
def signedQuotient (n m : Word) : Word := BitVec.ofInt 32 (n.toInt.tdiv m.toInt)

/-- The quotient of unsigned words, rounded down (42_a32_core_subset.md R992). -/
def unsignedQuotient (n m : Word) : Word := BitVec.ofNat 32 (n.toNat / m.toNat)

/-- SDIV, R991. -/
def execSdiv (c : Cond) (rd rm rn : Reg) (st : State) : Host.Outcome State Fault Refusal :=
  conditional c (divide rd rm rn signedQuotient) st

/-- UDIV, R992. -/
def execUdiv (c : Cond) (rd rm rn : Reg) (st : State) : Host.Outcome State Fault Refusal :=
  conditional c (divide rd rm rn unsignedQuotient) st

/-- A 32-bit product or sum into Rd, with S its N and Z (42_a32_core_subset.md R993). -/
def narrowResult (s : Bool) (rd : Reg) (r : Word) : M Unit := do
  writeReg rd r
  if s then setNZ (r.getLsbD 31) (decide (r = 0))
  fallThrough

/-- MUL, R993. -/
def execMul (c : Cond) (s : Bool) (rd rm rn : Reg) (st : State) : Host.Outcome State Fault Refusal :=
  conditional c (do
    notPc rd
    notPc rm
    notPc rn
    narrowResult s rd ((← readReg rn) * (← readReg rm))) st

/-- MLA, R994. -/
def execMla (c : Cond) (s : Bool) (rd ra rm rn : Reg) (st : State) : Host.Outcome State Fault Refusal :=
  conditional c (do
    notPc rd
    notPc ra
    notPc rm
    notPc rn
    narrowResult s rd ((← readReg rn) * (← readReg rm) + (← readReg ra))) st

/-- MLS, R995. -/
def execMls (c : Cond) (rd ra rm rn : Reg) (st : State) : Host.Outcome State Fault Refusal :=
  conditional c (do
    notPc rd
    notPc ra
    notPc rm
    notPc rn
    narrowResult false rd ((← readReg ra) - (← readReg rn) * (← readReg rm))) st

/-- A 64-bit result into RdHi and RdLo, with S its N and Z; the two may not be one register (42_a32_core_subset.md R996). -/
def wideResult (s : Bool) (rdHi rdLo : Reg) (p : BitVec 64) : M Unit := do
  writeReg rdHi (p.extractLsb' 32 32)
  writeReg rdLo (p.extractLsb' 0 32)
  if s then setNZ (p.getLsbD 63) (decide (p = 0))
  fallThrough

/-- The register checks of the 64-bit multiplies (42_a32_core_subset.md R996 to R999, U60). -/
def wideChecks (rdHi rdLo rm rn : Reg) : M Unit := do
  notPc rdHi
  notPc rdLo
  notPc rm
  notPc rn
  refuseIf (rdHi == rdLo) .unpredictable

/-- UMULL, R996. -/
def execUmull (c : Cond) (s : Bool) (rdHi rdLo rm rn : Reg)
    (st : State) : Host.Outcome State Fault Refusal :=
  conditional c (do
    wideChecks rdHi rdLo rm rn
    let x ← readReg rn
    let y ← readReg rm
    wideResult s rdHi rdLo (x.setWidth 64 * y.setWidth 64)) st

/-- UMLAL, R997. -/
def execUmlal (c : Cond) (s : Bool) (rdHi rdLo rm rn : Reg)
    (st : State) : Host.Outcome State Fault Refusal :=
  conditional c (do
    wideChecks rdHi rdLo rm rn
    let x ← readReg rn
    let y ← readReg rm
    let hi ← readReg rdHi
    let lo ← readReg rdLo
    wideResult s rdHi rdLo (x.setWidth 64 * y.setWidth 64 + (hi ++ lo))) st

/-- SMULL, R998. -/
def execSmull (c : Cond) (s : Bool) (rdHi rdLo rm rn : Reg)
    (st : State) : Host.Outcome State Fault Refusal :=
  conditional c (do
    wideChecks rdHi rdLo rm rn
    let x ← readReg rn
    let y ← readReg rm
    wideResult s rdHi rdLo (x.signExtend 64 * y.signExtend 64)) st

/-- SMLAL, R999. -/
def execSmlal (c : Cond) (s : Bool) (rdHi rdLo rm rn : Reg)
    (st : State) : Host.Outcome State Fault Refusal :=
  conditional c (do
    wideChecks rdHi rdLo rm rn
    let x ← readReg rn
    let y ← readReg rm
    let hi ← readReg rdHi
    let lo ← readReg rdLo
    wideResult s rdHi rdLo (x.signExtend 64 * y.signExtend 64 + (hi ++ lo))) st

end Sys2Proof.Machine
end

