-- ==== Sys2Proof/Machine/Status.lean ====
section
/-! DEFINITION. Status register and mode instructions (42_a32_core_subset.md R1000 to R1006). -/

namespace Sys2Proof.Machine

/-- The CPSR bits an MSR with fields `m` (f, s, x, c) writes (42_a32_core_subset.md R1001): with NMFI, not an F to be set. -/
def cpsrWriteMask (privileged nmfi : Bool) (v : Word) (m : BitVec 4) : Word :=
  (if m.getLsbD 3 then 0xF8000000 else 0) ||| (if m.getLsbD 2 then 0x000F0000 else 0)
    ||| (if m.getLsbD 1 then (if privileged then 0x00000300 else 0x00000200) else 0)
    ||| (if m.getLsbD 0 && privileged then (if nmfi && v.getLsbD 6 then 0x0000009F else 0x000000DF) else 0)

/-- CPSRWriteByInstr (42_a32_core_subset.md R1001). -/
def writeCpsr (v : Word) (m : BitVec 4) : M Unit := fun s =>
  if m.getLsbD 0 && s.privileged && (Mode.ofBits (modeField v)).isNone then .error (.refuse .reservedMode) s
  else .ok () { s with cpsr := maskWrite s.cpsr v (cpsrWriteMask s.privileged s.nmfi v m) }

/-- The bytes of a status register that fields `m` select (42_a32_core_subset.md R1001). -/
def psrByteMask (m : BitVec 4) : Word :=
  (if m.getLsbD 3 then 0xFF000000 else 0) ||| (if m.getLsbD 2 then 0x00FF0000 else 0)
    ||| (if m.getLsbD 1 then 0x0000FF00 else 0) ||| (if m.getLsbD 0 then 0x000000FF else 0)

/-- Write the selected bytes of the current mode's SPSR (42_a32_core_subset.md R1001). -/
def writeSpsr (v : Word) (m : BitVec 4) : M Unit := do
  let old ← readSpsr
  modify fun s => s.setSpsr s.mode (maskWrite old v (psrByteMask m))

/-- MSR of a value (42_a32_core_subset.md R1001). -/
def moveToStatus (r : Bool) (m : BitVec 4) (v : Word) : M Unit := do
  if r then writeSpsr v m else writeCpsr v m
  fallThrough

/-- MRS, R1000: IT, J and T of the CPSR read as zero. -/
def execMrs (c : Cond) (r : Bool) (rd : Reg) (st : State) : Host.Outcome State Fault Refusal :=
  conditional c (do
    notPc rd
    let s ← get
    let v ← if r then readSpsr else pure (s.cpsr &&& 0xF8FF03DF)
    writeReg rd v
    fallThrough) st

/-- MSR (register), R1001. -/
def execMsrReg (c : Cond) (r : Bool) (mask4 : BitVec 4) (rn : Reg) (st : State) : Host.Outcome State Fault Refusal :=
  conditional c (do
    notPc rn
    moveToStatus r mask4 (← readReg rn)) st

/-- MSR (immediate), R1002; with no field selected it is an unallocated hint and does nothing (30_encoding.md R413). -/
def execMsrImm (c : Cond) (r : Bool) (mask4 : BitVec 4) (imm12 : BitVec 12)
    (st : State) : Host.Outcome State Fault Refusal :=
  conditional c (moveToStatus r mask4 (modifiedImm (imm12.extractLsb' 8 4) (imm12.extractLsb' 0 8) false).1) st

/-- The mask bits CPS changes: A in bit 8, I in bit 7, F in bit 6. -/
def cpsBits (a i f : Bool) : Word := bitAt a 8 ||| bitAt i 7 ||| bitAt f 6

/-- The CPSR with the mask bits CPS changes (42_a32_core_subset.md R1003): with NMFI it cannot set F. -/
def cpsMasks (imod : BitVec 2) (a i f nmfi : Bool) (cpsr : Word) : Word :=
  if imod = 0b10 then cpsr &&& ~~~ cpsBits a i f
  else if imod = 0b11 then cpsr ||| cpsBits a i (f && !nmfi)
  else cpsr

/-- What CPS does in a privileged mode (42_a32_core_subset.md R1003). -/
def changeState (imod : BitVec 2) (m a i f : Bool) (mode : BitVec 5) : M Unit := fun s =>
  if imod = 0b01 || (imod == 0b00 && !m) then .error (.refuse .unpredictable) s
  else
    let cpsr := cpsMasks imod a i f s.nmfi s.cpsr
    if m then
      if (Mode.ofBits mode).isNone then .error (.refuse .reservedMode) s
      else .ok () { s with cpsr := maskWrite cpsr (mode.setWidth 32) 0x1F }
    else .ok () { s with cpsr := cpsr }

/-- CPS, R1003: in User mode it does nothing. -/
def execCps (imod : BitVec 2) (m a i f : Bool) (mode : BitVec 5) (st : State) : Host.Outcome State Fault Refusal :=
  always (do
    let s ← get
    if s.privileged then changeState imod m a i f mode
    fallThrough) st

/-- SETEND, R1004. -/
def execSetend (e : Bool) (st : State) : Host.Outcome State Fault Refusal :=
  always (do
    modify fun s => { s with cpsr := setBit s.cpsr 9 e }
    fallThrough) st

/-- The lower address of the two words of RFE and SRS (42_a32_core_subset.md R1005). -/
def pairAddress (base : Word) (p u : Bool) : Word :=
  (if u then base else base - 8) + (if p == u then 4 else 0)

/-- What the base becomes after RFE and SRS with write-back (42_a32_core_subset.md R1005). -/
def pairEnd (base : Word) (u : Bool) : Word := if u then base + 8 else base - 8

/-- RFE, R1005: User mode has no exception to return from (U10); it runs in System mode, as R1005 has it and 60_exceptions.md R565
does not (log entry 98). Its two loads are a multiple access (log entry 94). -/
def execRfe (p u w : Bool) (rn : Reg) (st : State) : Host.Outcome State Fault Refusal :=
  always (do
    let s ← get
    refuseIf (!s.privileged) .noSpsr
    notPc rn
    let base ← readReg rn
    let a := pairAddress base p u
    let newPc ← loadValue (multiple true) a
    let newCpsr ← loadValue (multiple true) (a + 4)
    if w then writeReg rn (pairEnd base u)
    restoreCpsr newCpsr
    branchWritePc newPc) st

/-- SRS, R1006: R14 and the SPSR of the current mode go to the stack of the mode named. Its two stores are a multiple access
(log entry 94). -/
def execSrs (p u w : Bool) (mode : BitVec 5) (st : State) : Host.Outcome State Fault Refusal :=
  always (do
    let spsr ← readSpsr
    match Mode.ofBits mode with
    | none => refuse .reservedMode
    | some m =>
      let s ← get
      let base := s.regIn m 13
      let a := pairAddress base p u
      storeTwo (multiple true) a (s.reg 14) spsr
      if w then modify fun t => t.setRegIn m 13 (pairEnd base u)
      fallThrough) st

end Sys2Proof.Machine
end

