-- ==== Sys2Proof/Machine/System.lean ====
section
/-! DEFINITION. Hints, standby, and the instructions that take an exception (42_a32_core_subset.md R1027, R1028;
65_power_mp.md R793 to R796; 60_exceptions.md R545 to R547). -/

namespace Sys2Proof.Machine

/-- NOP, R1027. -/
def execNop (c : Cond) (st : State) : Host.Outcome State Fault Refusal := conditional c fallThrough st

/-- YIELD, R1027. -/
def execYield (c : Cond) (st : State) : Host.Outcome State Fault Refusal := conditional c fallThrough st

/-- An unallocated hint, DBG among them, 30_encoding.md R413. -/
def execHintUnallocated (c : Cond) (_hint8 : BitVec 8) (st : State) : Host.Outcome State Fault Refusal :=
  conditional c fallThrough st

/-- PLD (immediate, literal), 30_encoding.md R418: no effect in this model. -/
def execPldImm (_u : Bool) (_rn : Reg) (_imm12 : BitVec 12) (st : State) : Host.Outcome State Fault Refusal :=
  always fallThrough st

/-- PLDW (immediate), 30_encoding.md R418. -/
def execPldwImm (_u : Bool) (_rn : Reg) (_imm12 : BitVec 12) (st : State) : Host.Outcome State Fault Refusal :=
  always fallThrough st

/-- PLI (immediate, literal), 30_encoding.md R418. -/
def execPliImm (_u : Bool) (_rn : Reg) (_imm12 : BitVec 12) (st : State) : Host.Outcome State Fault Refusal :=
  always fallThrough st

/-- PLD (register), 30_encoding.md R418. -/
def execPldReg (_u : Bool) (_rn : Reg) (_imm5 : BitVec 5) (_ty : ShiftType) (_rm : Reg)
    (st : State) : Host.Outcome State Fault Refusal := always fallThrough st

/-- PLDW (register), 30_encoding.md R418. -/
def execPldwReg (_u : Bool) (_rn : Reg) (_imm5 : BitVec 5) (_ty : ShiftType) (_rm : Reg)
    (st : State) : Host.Outcome State Fault Refusal := always fallThrough st

/-- PLI (register), 30_encoding.md R418. -/
def execPliReg (_u : Bool) (_rn : Reg) (_imm5 : BitVec 5) (_ty : ShiftType) (_rm : Reg)
    (st : State) : Host.Outcome State Fault Refusal := always fallThrough st

/-- The events that wake a processor from WFI (65_power_mp.md R794): masks do not matter. -/
def wfiWakeup (s : State) : Bool := irqRequest s || fiqRequest s || s.pendingAbort.isSome

/-- The events that wake a processor from WFE besides its event register (65_power_mp.md R795): a mask holds its own back. -/
def wfeWakeup (s : State) : Bool :=
  (irqRequest s && !s.maskI) || (fiqRequest s && !s.maskF) || (s.pendingAbort.isSome && !s.maskA)

/-- This processor's status field of SCU CPU Power Status (61_scu.md R588). -/
def powerField (s : State) : BitVec 2 := s.scu.power.extractLsb' (if s.cfg.cpu then 8 else 0) 2

/-- What WFI does to the standby state and the power outputs (65_power_mp.md R793, R800). -/
def waitForInterrupt (s : State) : State :=
  if wfiWakeup s then s
  else { s with standby := .wfi, outs := { s.outs with pwrctlo := powerField s } }

/-- What WFE does to the event register and the standby state (65_power_mp.md R795). -/
def waitForEvent (s : State) : State :=
  if s.eventReg then { s with eventReg := false }
  else if wfeWakeup s then s
  else { s with standby := .wfe }

/-- What SEV does (65_power_mp.md R796): the event registers of every processor, of which this is one, and EVENTO. -/
def sendEvent (s : State) : State :=
  { s with eventReg := true, outs := { s.outs with eventO := true } }

/-- WFI, R793. -/
def execWfi (c : Cond) (st : State) : Host.Outcome State Fault Refusal :=
  conditional c (do
    modify waitForInterrupt
    fallThrough) st

/-- WFE, R795. -/
def execWfe (c : Cond) (st : State) : Host.Outcome State Fault Refusal :=
  conditional c (do
    modify waitForEvent
    fallThrough) st

/-- SEV, R796. -/
def execSev (c : Cond) (st : State) : Host.Outcome State Fault Refusal :=
  conditional c (do
    modify sendEvent
    fallThrough) st

/-- SVC, 60_exceptions.md R546. -/
def execSvc (c : Cond) (_imm24 : BitVec 24) (st : State) : Host.Outcome State Fault Refusal :=
  if condPassed c st.cpsr then entered (takeSupervisorCall st) else conditional c fallThrough st

/-- BKPT, 60_exceptions.md R547: unconditional, a Prefetch Abort with the debug-event status; IFAR is a free value
(60_exceptions.md R524; log entry 36). -/
def execBkpt (_imm12 : BitVec 12) (_imm4 : BitVec 4) (st : State) : Host.Outcome State Fault Refusal :=
  entered (takePrefetchAbort .debugEvent (Config.freeWord st.free) { st with free := st.free + 1 })

/-- UDF, R1028. -/
def execUdf (c : Cond) (_imm12 : BitVec 12) (_imm4 : BitVec 4) (st : State) : Host.Outcome State Fault Refusal :=
  conditional c undefined st

/-- SMC, 60_exceptions.md R520, R545: no Security Extensions, an Undefined Instruction. -/
def execSmc (c : Cond) (_imm4 : BitVec 4) (st : State) : Host.Outcome State Fault Refusal :=
  conditional c undefined st

/-- Advanced SIMD data-processing, 30_encoding.md R428 (c): not built, an Undefined Instruction. -/
def execAdvSimdDataProcessing (_rest : BitVec 25) (st : State) : Host.Outcome State Fault Refusal :=
  always undefined st

/-- Advanced SIMD loads and stores, 30_encoding.md R428 (c): not built, an Undefined Instruction. -/
def execAdvSimdLoadStore (_rest : BitVec 3) (_rest1 : BitVec 20) (st : State) : Host.Outcome State Fault Refusal :=
  always undefined st

/-- MCR2, MRC2, CDP2, LDC2, STC2, MCRR2, MRRC2, 30_encoding.md R410, R428 (c): an Undefined Instruction. -/
def execCoprocTwoSpace (_rest : BitVec 14) (_coproc : BitVec 4) (_rest1 : BitVec 8)
    (st : State) : Host.Outcome State Fault Refusal :=
  always undefined st

/-- The rest of the unconditional space, 30_encoding.md R428 (f): refused. -/
def execRestOfUnconditional (_rest : BitVec 28) (st : State) : Host.Outcome State Fault Refusal :=
  always (refuse .unconditionalSpace) st

/-- Other coprocessors and forms, 40_system_register_access.md R446: an Undefined Instruction. -/
def execOtherCoproc (c : Cond) (_rest : BitVec 14) (_coproc : BitVec 4) (_rest1 : BitVec 8)
    (st : State) : Host.Outcome State Fault Refusal :=
  conditional c undefined st

end Sys2Proof.Machine
end

