-- ==== Sys2Proof/Machine/Vfp.lean ====
section
/-! DEFINITION. VFP data-processing instructions (43_vfp_instructions.md R1057 to R1080). -/

namespace Sys2Proof.Machine

/-- Run a computation on FPSCR. -/
def runFp {α : Type} (f : Fp α) : M α := fun s =>
  match f s.fpu.fpscr with
  | (r, w) => .ok r { s with fpu := { s.fpu with fpscr := w } }

/-- The format `sz` selects. -/
def formatOf (sz : Bool) : Format := if sz then double64 else single32

/-- The pattern in the register a field pair names, of the precision `sz` selects (43_vfp_instructions.md R1041). -/
def readFp (sz : Bool) (v : BitVec 4) (b : Bool) : M Nat := fun s =>
  .ok (if sz then (s.double v).toNat else (s.single (singleNumber v b)).toNat) s

/-- Write a pattern to the register a field pair names. -/
def writeFp (sz : Bool) (v : BitVec 4) (b : Bool) (x : Nat) : M Unit := modify fun s =>
  if sz then s.setDouble v (BitVec.ofNat 64 x) else s.setSingle (singleNumber v b) (BitVec.ofNat 32 x)

/-- A three-register operation (43_vfp_instructions.md R1057): the function gets the destination and the two sources. -/
def vfpThree (d : Bool) (vn vd : BitVec 4) (sz n m : Bool) (vm : BitVec 4)
    (f : Format → Nat → Nat → Nat → Fp Nat) : M Unit := do
  checkData (sz && (d || n || m)) sz
  let acc ← readFp sz vd d
  let x ← readFp sz vn n
  let y ← readFp sz vm m
  writeFp sz vd d (← runFp (f (formatOf sz) acc x y))
  fallThrough

/-- A two-register operation (43_vfp_instructions.md R1057). -/
def vfpTwo (d : Bool) (vd : BitVec 4) (sz m : Bool) (vm : BitVec 4) (f : Format → Nat → Fp Nat) : M Unit := do
  checkData (sz && (d || m)) sz
  let x ← readFp sz vm m
  writeFp sz vd d (← runFp (f (formatOf sz) x))
  fallThrough

/-- VADD, R1060. -/
def execVadd (c : Cond) (d : Bool) (vn vd : BitVec 4) (sz n m : Bool) (vm : BitVec 4)
    (st : State) : Host.Outcome State Fault Refusal :=
  conditional c (vfpThree d vn vd sz n m vm fun f _ x y => fpAdd f x y) st

/-- VSUB, R1061. -/
def execVsub (c : Cond) (d : Bool) (vn vd : BitVec 4) (sz n m : Bool) (vm : BitVec 4)
    (st : State) : Host.Outcome State Fault Refusal :=
  conditional c (vfpThree d vn vd sz n m vm fun f _ x y => fpSub f x y) st

/-- VMUL, R1062. -/
def execVmul (c : Cond) (d : Bool) (vn vd : BitVec 4) (sz n m : Bool) (vm : BitVec 4)
    (st : State) : Host.Outcome State Fault Refusal :=
  conditional c (vfpThree d vn vd sz n m vm fun f _ x y => fpMul f x y) st

/-- VNMUL, R1063. -/
def execVnmul (c : Cond) (d : Bool) (vn vd : BitVec 4) (sz n m : Bool) (vm : BitVec 4)
    (st : State) : Host.Outcome State Fault Refusal :=
  conditional c (vfpThree d vn vd sz n m vm fun f _ x y => do pure (fpNeg f (← fpMul f x y))) st

/-- VMLA, R1064: the product is rounded, then the sum. -/
def execVmla (c : Cond) (d : Bool) (vn vd : BitVec 4) (sz n m : Bool) (vm : BitVec 4)
    (st : State) : Host.Outcome State Fault Refusal :=
  conditional c (vfpThree d vn vd sz n m vm fun f acc x y => do fpAdd f acc (← fpMul f x y)) st

/-- VMLS, R1065. -/
def execVmls (c : Cond) (d : Bool) (vn vd : BitVec 4) (sz n m : Bool) (vm : BitVec 4)
    (st : State) : Host.Outcome State Fault Refusal :=
  conditional c (vfpThree d vn vd sz n m vm fun f acc x y => do fpAdd f acc (fpNeg f (← fpMul f x y))) st

/-- VNMLA, R1066. -/
def execVnmla (c : Cond) (d : Bool) (vn vd : BitVec 4) (sz n m : Bool) (vm : BitVec 4)
    (st : State) : Host.Outcome State Fault Refusal :=
  conditional c (vfpThree d vn vd sz n m vm fun f acc x y => do fpAdd f (fpNeg f acc) (fpNeg f (← fpMul f x y))) st

/-- VNMLS, R1067. -/
def execVnmls (c : Cond) (d : Bool) (vn vd : BitVec 4) (sz n m : Bool) (vm : BitVec 4)
    (st : State) : Host.Outcome State Fault Refusal :=
  conditional c (vfpThree d vn vd sz n m vm fun f acc x y => do fpAdd f (fpNeg f acc) (← fpMul f x y)) st

/-- VDIV, R1068. -/
def execVdiv (c : Cond) (d : Bool) (vn vd : BitVec 4) (sz n m : Bool) (vm : BitVec 4)
    (st : State) : Host.Outcome State Fault Refusal :=
  conditional c (vfpThree d vn vd sz n m vm fun f _ x y => fpDiv f x y) st

/-- VMOV (register), R1071. -/
def execVmovReg (c : Cond) (d : Bool) (vd : BitVec 4) (sz m : Bool) (vm : BitVec 4)
    (st : State) : Host.Outcome State Fault Refusal :=
  conditional c (vfpTwo d vd sz m vm (fun _ x => pure x)) st

/-- VABS, R1072. -/
def execVabs (c : Cond) (d : Bool) (vd : BitVec 4) (sz m : Bool) (vm : BitVec 4)
    (st : State) : Host.Outcome State Fault Refusal :=
  conditional c (vfpTwo d vd sz m vm (fun f x => pure (fpAbs f x))) st

/-- VNEG, R1073. -/
def execVneg (c : Cond) (d : Bool) (vd : BitVec 4) (sz m : Bool) (vm : BitVec 4)
    (st : State) : Host.Outcome State Fault Refusal :=
  conditional c (vfpTwo d vd sz m vm (fun f x => pure (fpNeg f x))) st

/-- VSQRT, R1069. -/
def execVsqrt (c : Cond) (d : Bool) (vd : BitVec 4) (sz m : Bool) (vm : BitVec 4)
    (st : State) : Host.Outcome State Fault Refusal :=
  conditional c (vfpTwo d vd sz m vm fpSqrt) st

/-- VMOV (immediate), R1070. -/
def execVmovImm (c : Cond) (d : Bool) (imm4H vd : BitVec 4) (sz sbz sbz1 : Bool) (imm4L : BitVec 4)
    (st : State) : Host.Outcome State Fault Refusal :=
  conditional c (do
    checkData (sz && d) sz
    refuseIf (sbz || sbz1) .vfpUnpredictable
    writeFp sz vd d (expandImm (formatOf sz) (imm4H ++ imm4L))
    fallThrough) st

/-- Write a comparison's result to FPSCR.N, Z, C, V (43_vfp_instructions.md R1074). -/
def setFpscrFlags (nzcv : BitVec 4) : M Unit := modify fun s =>
  { s with fpu := { s.fpu with fpscr := maskWrite s.fpu.fpscr (nzcv.setWidth 32 <<< 28) 0xF0000000 } }

/-- VCMP and VCMPE with a register, R1074. -/
def execVcmpReg (c : Cond) (d : Bool) (vd : BitVec 4) (sz e m : Bool) (vm : BitVec 4)
    (st : State) : Host.Outcome State Fault Refusal :=
  conditional c (do
    checkData (sz && (d || m)) sz
    let x ← readFp sz vd d
    let y ← readFp sz vm m
    setFpscrFlags (← runFp (fpCompare (formatOf sz) x y e))
    fallThrough) st

/-- VCMP and VCMPE with zero, R1075. -/
def execVcmpZero (c : Cond) (d : Bool) (vd : BitVec 4) (sz e sbz : Bool) (sbz1 : BitVec 4)
    (st : State) : Host.Outcome State Fault Refusal :=
  conditional c (do
    checkData (sz && d) sz
    refuseIf (sbz || sbz1 != 0) .vfpUnpredictable
    let x ← readFp sz vd d
    setFpscrFlags (← runFp (fpCompare (formatOf sz) x (fpZero (formatOf sz) false) e))
    fallThrough) st

/-- VCVT between double and single precision, R1076: both directions are double-precision operations. -/
def execVcvtDoubleSingle (c : Cond) (d : Bool) (vd : BitVec 4) (sz m : Bool) (vm : BitVec 4)
    (st : State) : Host.Outcome State Fault Refusal :=
  conditional c (do
    checkData (if sz then m else d) true
    let x ← readFp sz vm m
    writeFp (!sz) vd d (← runFp (fpConvert (formatOf sz) (formatOf (!sz)) x))
    fallThrough) st

/-- VCVT and VCVTR to a 32-bit integer, R1077. -/
def execVcvtFpToInt (c : Cond) (d sgn : Bool) (vd : BitVec 4) (sz op m : Bool) (vm : BitVec 4)
    (st : State) : Host.Outcome State Fault Refusal :=
  conditional c (do
    checkData (sz && m) sz
    let x ← readFp sz vm m
    let i ← runFp (fpToFixed (formatOf sz) x 32 0 (!sgn) op)
    writeFp false vd d (BitVec.ofInt 32 i).toNat
    fallThrough) st

/-- The integer of the low `size` bits of a pattern (43_vfp_instructions.md R1054). -/
def fixedValue (x size : Nat) (uns : Bool) : Int :=
  let low := x % 2 ^ size
  if uns || low < 2 ^ (size - 1) then (low : Int) else (low : Int) - (2 ^ size : Nat)

/-- VCVT from a 32-bit integer, R1078. -/
def execVcvtIntToFp (c : Cond) (d : Bool) (vd : BitVec 4) (sz op m : Bool) (vm : BitVec 4)
    (st : State) : Host.Outcome State Fault Refusal :=
  conditional c (do
    checkData (sz && d) sz
    let x ← readFp false vm m
    writeFp sz vd d (← runFp (fpFromFixed (formatOf sz) (fixedValue x 32 (!op)) 0 false))
    fallThrough) st

/-- VCVT between floating point and fixed point, R1079: to fixed point it rounds towards zero and extends the result to the
whole register, to floating point it rounds to nearest. -/
def execVcvtFixed (c : Cond) (d op u : Bool) (vd : BitVec 4) (sf sx i : Bool) (imm4 : BitVec 4)
    (st : State) : Host.Outcome State Fault Refusal :=
  conditional c (do
    checkData (sf && d) sf
    let size := if sx then 32 else 16
    let imm5 := (imm4 ++ BitVec.ofBool i).toNat
    refuseIf (decide (size < imm5)) .vfpUnpredictable
    let x ← readFp sf vd d
    let r ← if op then do
        let v ← runFp (fpToFixed (formatOf sf) x size (size - imm5) u true)
        pure (BitVec.ofInt 64 v).toNat
      else runFp (fpFromFixed (formatOf sf) (fixedValue x size u) (size - imm5) true)
    writeFp sf vd d r
    fallThrough) st

/-- The half-precision pattern in the bottom or the top half of a single-precision register (43_vfp_instructions.md R1080). -/
def halfOf (x : Word) (top : Bool) : Nat := (x.extractLsb' (if top then 16 else 0) 16).toNat

/-- A single-precision register with one half replaced (43_vfp_instructions.md R1080). -/
def withHalf (x : Word) (top : Bool) (h : Nat) : Word :=
  let v := BitVec.ofNat 16 h
  if top then v ++ x.extractLsb' 0 16 else x.extractLsb' 16 16 ++ v

/-- VCVTB and VCVTT, R1080: FPSCR.AHP selects the half-precision format. -/
def execVcvtbVcvtt (c : Cond) (d op : Bool) (vd : BitVec 4) (t m : Bool) (vm : BitVec 4)
    (st : State) : Host.Outcome State Fault Refusal :=
  conditional c (do
    checkData false false
    let s ← get
    let x := s.single (singleNumber vm m)
    let fmt := half (s.fpu.fpscr.getLsbD 26)
    if op then
      let h ← runFp (fpConvert single32 fmt x.toNat)
      modify fun u => u.setSingle (singleNumber vd d) (withHalf (u.single (singleNumber vd d)) t h)
    else
      writeFp false vd d (← runFp (fpConvert fmt single32 (halfOf x t)))
    fallThrough) st

end Sys2Proof.Machine
end

