-- ==== Sys2Proof/Machine/VfpMemory.lean ====
section
/-! DEFINITION. VFP loads, stores and register transfers (43_vfp_instructions.md R1085 to R1094). -/

namespace Sys2Proof.Machine

/-- A doubleword of two words, the one at the lower address first, in the byte order of CPSR.E (43_vfp_instructions.md
R1085). -/
def joinWords (bigEndian : Bool) (w1 w2 : Word) : BitVec 64 := if bigEndian then w1 ++ w2 else w2 ++ w1

/-- The word of a doubleword that goes to the lower address, or to the upper one (43_vfp_instructions.md R1086). -/
def wordOfDouble (bigEndian upper : Bool) (v : BitVec 64) : Word :=
  if bigEndian == upper then v.extractLsb' 0 32 else v.extractLsb' 32 32

/-- Load one register's worth: a word, or two words of a doubleword, as a pattern; `form` says whether the instruction is a multiple
load, which VLDR is not (43_vfp_instructions.md R1085, R1097). -/
def loadFp (privileged : Bool) (form : AccessForm) (sz : Bool) (a : Word) : M Nat :=
  if sz then do
    let s ← get
    let w1 ← loadValue ⟨4, 4, privileged, form⟩ a
    let w2 ← loadValue ⟨4, 4, privileged, form⟩ (a + 4)
    pure (joinWords s.bigEndian w1 w2).toNat
  else do pure (← loadValue ⟨4, 4, privileged, form⟩ a).toNat

/-- Store one register's worth (43_vfp_instructions.md R1086, R1097): of VSTR two word writes, of VSTM one write of the ITCM's
chunk where the double is one (21_mpu_tcm.md R388; log entry 93). -/
def storeFp (privileged : Bool) (form : AccessForm) (sz : Bool) (a : Word) (x : Nat) : M Unit :=
  if sz then do
    let s ← get
    let v := BitVec.ofNat 64 x
    storeTwo ⟨4, 4, privileged, form⟩ a (wordOfDouble s.bigEndian false v) (wordOfDouble s.bigEndian true v)
  else storeValue ⟨4, 4, privileged, form⟩ a (BitVec.ofNat 32 x)

/-- The offset of VLDR, VSTR and the multiple forms: imm8 words. -/
def wordOffset (imm8 : BitVec 8) : Word := imm8.setWidth 32 <<< 2

/-- VLDR, R1085: an abort leaves the register unchanged. -/
def execVldr (c : Cond) (u d : Bool) (rn : Reg) (vd : BitVec 4) (sz : Bool) (imm8 : BitVec 8)
    (st : State) : Host.Outcome State Fault Refusal :=
  conditional c (do
    checkTransfer (sz && d)
    let s ← get
    let base := baseValue s rn
    let a := if u then base + wordOffset imm8 else base - wordOffset imm8
    writeFp sz vd d (← loadFp s.privileged .single sz a)
    fallThrough) st

/-- VSTR, R1086: R15 as the base is not aligned down. -/
def execVstr (c : Cond) (u d : Bool) (rn : Reg) (vd : BitVec 4) (sz : Bool) (imm8 : BitVec 8)
    (st : State) : Host.Outcome State Fault Refusal :=
  conditional c (do
    checkTransfer (sz && d)
    let s ← get
    let base := s.reg rn
    let a := if u then base + wordOffset imm8 else base - wordOffset imm8
    storeFp s.privileged .single sz a (← readFp sz vd d)
    fallThrough) st

/-- The number of the first register of a list as a Nat (43_vfp_instructions.md R1087). -/
def listFirst (sz : Bool) (vd : BitVec 4) (d : Bool) : Nat := if sz then vd.toNat else (singleNumber vd d).toNat

/-- How many registers a list has: with `sz` and an odd imm8, the FLDMX and FSTMX forms (43_vfp_instructions.md R1089). -/
def listSize (sz : Bool) (imm8 : BitVec 8) : Nat := if sz then imm8.toNat / 2 else imm8.toNat

/-- The cases a register list makes UNPREDICTABLE (43_vfp_instructions.md R1087, U72). -/
def checkList (w d : Bool) (rn : Reg) (vd : BitVec 4) (sz : Bool) (imm8 : BitVec 8) : M Unit := do
  let n := listSize sz imm8
  refuseIf ((rn == 15 && w) || n == 0 || decide ((if sz then 16 else 32) < listFirst sz vd d + n)) .vfpUnpredictable

/-- Read or write register number `r` of a list as its own field pair. -/
def listField (sz : Bool) (r : Nat) : BitVec 4 × Bool :=
  if sz then (BitVec.ofNat 4 r, false) else (BitVec.ofNat 4 (r / 2), r % 2 == 1)

/-- Load `n` registers from `r` on, from rising addresses. -/
def loadFpList (privileged sz : Bool) : Nat → Nat → Word → M Unit
  | _, 0, _ => pure ()
  | r, n + 1, a => do
    let x ← loadFp privileged .multiple sz a
    writeFp sz (listField sz r).1 (listField sz r).2 x
    loadFpList privileged sz (r + 1) n (a + if sz then 8 else 4)

/-- Store `n` registers from `r` on, to rising addresses: of singles, word after word (log entry 93). -/
def storeFpList (privileged sz : Bool) : Nat → Nat → Word → M Unit
  | _, 0, _ => pure ()
  | r, n + 1, a => do
    storeFp privileged .multiple sz a (← readFp sz (listField sz r).1 (listField sz r).2)
    storeFpList privileged sz (r + 1) n (a + if sz then 8 else 4)

/-- Registers left with free values after an aborted VLDM (43_vfp_instructions.md R1087). -/
def scrambleFp (sz : Bool) : Nat → Nat → M Unit
  | _, 0 => pure ()
  | r, n + 1 => do
    let lo ← drawWord
    let hi ← drawWord
    writeFp sz (listField sz r).1 (listField sz r).2 (if sz then (hi ++ lo : BitVec 64).toNat else lo.toNat)
    scrambleFp sz (r + 1) n

/-- VLDM (43_vfp_instructions.md R1087). -/
def vfpLoadMultiple (u d w : Bool) (rn : Reg) (vd : BitVec 4) (sz : Bool) (imm8 : BitVec 8) : M Unit := do
  checkTransfer (sz && d)
  checkList w d rn vd sz imm8
  let s ← get
  let base := baseValue s rn
  let n := listSize sz imm8
  let first := listFirst sz vd d
  onAbort (loadFpList s.privileged sz first n (if u then base else base - wordOffset imm8)) (scrambleFp sz first n)
  if w then writeReg rn (if u then base + wordOffset imm8 else base - wordOffset imm8)
  fallThrough

/-- VSTM (43_vfp_instructions.md R1088). -/
def vfpStoreMultiple (u d w : Bool) (rn : Reg) (vd : BitVec 4) (sz : Bool) (imm8 : BitVec 8) : M Unit := do
  checkTransfer (sz && d)
  checkList w d rn vd sz imm8
  let s ← get
  let base := s.reg rn
  storeFpList s.privileged sz (listFirst sz vd d) (listSize sz imm8) (if u then base else base - wordOffset imm8)
  if w then writeReg rn (if u then base + wordOffset imm8 else base - wordOffset imm8)
  fallThrough

/-- VLDM increment after, R1087. -/
def execVldmIa (c : Cond) (d w : Bool) (rn : Reg) (vd : BitVec 4) (sz : Bool) (imm8 : BitVec 8)
    (st : State) : Host.Outcome State Fault Refusal :=
  conditional c (vfpLoadMultiple true d w rn vd sz imm8) st

/-- VLDM decrement before, R1087. -/
def execVldmDb (c : Cond) (d : Bool) (rn : Reg) (vd : BitVec 4) (sz : Bool) (imm8 : BitVec 8)
    (st : State) : Host.Outcome State Fault Refusal :=
  conditional c (vfpLoadMultiple false d true rn vd sz imm8) st

/-- VPOP, R1087: VLDMIA sp! -/
def execVpop (c : Cond) (d : Bool) (vd : BitVec 4) (sz : Bool) (imm8 : BitVec 8)
    (st : State) : Host.Outcome State Fault Refusal :=
  conditional c (vfpLoadMultiple true d true 13 vd sz imm8) st

/-- VSTM increment after, R1088. -/
def execVstmIa (c : Cond) (d w : Bool) (rn : Reg) (vd : BitVec 4) (sz : Bool) (imm8 : BitVec 8)
    (st : State) : Host.Outcome State Fault Refusal :=
  conditional c (vfpStoreMultiple true d w rn vd sz imm8) st

/-- VSTM decrement before, R1088. -/
def execVstmDb (c : Cond) (d : Bool) (rn : Reg) (vd : BitVec 4) (sz : Bool) (imm8 : BitVec 8)
    (st : State) : Host.Outcome State Fault Refusal :=
  conditional c (vfpStoreMultiple false d true rn vd sz imm8) st

/-- VPUSH, R1088: VSTMDB sp! -/
def execVpush (c : Cond) (d : Bool) (vd : BitVec 4) (sz : Bool) (imm8 : BitVec 8)
    (st : State) : Host.Outcome State Fault Refusal :=
  conditional c (vfpStoreMultiple false d true 13 vd sz imm8) st

/-! ### Transfers -/

/-- R15 in a VFP transfer is UNPREDICTABLE (U72). -/
def notPcVfp (r : Reg) : M Unit := refuseIf (r == 15) .vfpUnpredictable

/-- VMOV between an ARM register and a single-precision register, R1090. -/
def execVmovCoreSingle (c : Cond) (l : Bool) (vn : BitVec 4) (rt : Reg) (n : Bool) (sbz : BitVec 2) (sbz1 : BitVec 4)
    (st : State) : Host.Outcome State Fault Refusal :=
  conditional c (do
    checkTransfer false
    refuseIf (sbz != 0 || sbz1 != 0) .vfpUnpredictable
    notPcVfp rt
    let s ← get
    if l then writeReg rt (s.single (singleNumber vn n))
    else modify fun t => t.setSingle (singleNumber vn n) (s.reg rt)
    fallThrough) st

/-- VMOV between two ARM registers and two single-precision registers, R1091. -/
def execVmovCoreTwoSingles (c : Cond) (l : Bool) (rt2 rt : Reg) (m : Bool) (vm : BitVec 4)
    (st : State) : Host.Outcome State Fault Refusal :=
  conditional c (do
    checkTransfer false
    let k := singleNumber vm m
    refuseIf (k == 31 || (l && rt == rt2)) .vfpUnpredictable
    notPcVfp rt
    notPcVfp rt2
    let s ← get
    if l then
      writeReg rt (s.single k)
      writeReg rt2 (s.single (k + 1))
    else modify fun t => (t.setSingle k (s.reg rt)).setSingle (k + 1) (s.reg rt2)
    fallThrough) st

/-- VMOV between two ARM registers and a double-precision register, R1092. -/
def execVmovCoreDouble (c : Cond) (l : Bool) (rt2 rt : Reg) (m : Bool) (vm : BitVec 4)
    (st : State) : Host.Outcome State Fault Refusal :=
  conditional c (do
    checkTransfer m
    refuseIf (l && rt == rt2) .vfpUnpredictable
    notPcVfp rt
    notPcVfp rt2
    let s ← get
    if l then
      writeReg rt ((s.double vm).extractLsb' 0 32)
      writeReg rt2 ((s.double vm).extractLsb' 32 32)
    else modify fun t => t.setDouble vm (s.reg rt2 ++ s.reg rt)
    fallThrough) st

/-- VMOV from an ARM register to half of a double-precision register, R1093. -/
def execVmovCoreToHalf (c : Cond) (x : Bool) (vd : BitVec 4) (rt : Reg) (d : Bool) (sbz : BitVec 4)
    (st : State) : Host.Outcome State Fault Refusal :=
  conditional c (do
    checkTransfer d
    refuseIf (sbz != 0) .vfpUnpredictable
    notPcVfp rt
    modify fun t => t.setDouble vd (setHalf (t.double vd) x (t.reg rt))
    fallThrough) st

/-- VMOV from half of a double-precision register to an ARM register, R1094. -/
def execVmovHalfToCore (c : Cond) (x : Bool) (vn : BitVec 4) (rt : Reg) (n : Bool) (sbz : BitVec 4)
    (st : State) : Host.Outcome State Fault Refusal :=
  conditional c (do
    checkTransfer n
    refuseIf (sbz != 0) .vfpUnpredictable
    notPcVfp rt
    let s ← get
    writeReg rt ((s.double vn).extractLsb' (if x then 32 else 0) 32)
    fallThrough) st

end Sys2Proof.Machine
end

