-- ==== Sys2Proof/Machine/Dispatch.lean ====
section
/-! DEFINITION. One arm per instruction, each one call of its meaning. -/

namespace Sys2Proof.Machine

def exec (i : Instr) (s : State) : Host.Outcome State Fault Refusal :=
  match i with
  | .clrex => Sys2Proof.Machine.execClrex s
  | .dsb opt => Sys2Proof.Machine.execDsb opt s
  | .dmb opt => Sys2Proof.Machine.execDmb opt s
  | .isb opt => Sys2Proof.Machine.execIsb opt s
  | .setend e => Sys2Proof.Machine.execSetend e s
  | .cps imod m a ibit f mode => Sys2Proof.Machine.execCps imod m a ibit f mode s
  | .rfe p u w rn => Sys2Proof.Machine.execRfe p u w rn s
  | .srs p u w mode => Sys2Proof.Machine.execSrs p u w mode s
  | .pldImm u rn imm12 => Sys2Proof.Machine.execPldImm u rn imm12 s
  | .pldwImm u rn imm12 => Sys2Proof.Machine.execPldwImm u rn imm12 s
  | .pliImm u rn imm12 => Sys2Proof.Machine.execPliImm u rn imm12 s
  | .pldReg u rn imm5 ty rm => Sys2Proof.Machine.execPldReg u rn imm5 ty rm s
  | .pldwReg u rn imm5 ty rm => Sys2Proof.Machine.execPldwReg u rn imm5 ty rm s
  | .pliReg u rn imm5 ty rm => Sys2Proof.Machine.execPliReg u rn imm5 ty rm s
  | .blxImm h imm24 => Sys2Proof.Machine.execBlxImm h imm24 s
  | .advSimdDataProcessing rest => Sys2Proof.Machine.execAdvSimdDataProcessing rest s
  | .advSimdLoadStore rest rest1 => Sys2Proof.Machine.execAdvSimdLoadStore rest rest1 s
  | .coprocTwoSpace rest coproc rest1 => Sys2Proof.Machine.execCoprocTwoSpace rest coproc rest1 s
  | .restOfUnconditional rest => Sys2Proof.Machine.execRestOfUnconditional rest s
  | .nop c => Sys2Proof.Machine.execNop c s
  | .yield c => Sys2Proof.Machine.execYield c s
  | .wfe c => Sys2Proof.Machine.execWfe c s
  | .wfi c => Sys2Proof.Machine.execWfi c s
  | .sev c => Sys2Proof.Machine.execSev c s
  | .hintUnallocated c hint8 => Sys2Proof.Machine.execHintUnallocated c hint8 s
  | .msrImm c r mask4 imm12 => Sys2Proof.Machine.execMsrImm c r mask4 imm12 s
  | .bkpt imm12 imm4 => Sys2Proof.Machine.execBkpt imm12 imm4 s
  | .smc c imm4 => Sys2Proof.Machine.execSmc c imm4 s
  | .bx c rm => Sys2Proof.Machine.execBx c rm s
  | .blxReg c rm => Sys2Proof.Machine.execBlxReg c rm s
  | .clz c rd rm => Sys2Proof.Machine.execClz c rd rm s
  | .mrs c r rd => Sys2Proof.Machine.execMrs c r rd s
  | .msrReg c r mask4 rn => Sys2Proof.Machine.execMsrReg c r mask4 rn s
  | .ldrex c rn rt => Sys2Proof.Machine.execLdrex c rn rt s
  | .strex c rn rd rt => Sys2Proof.Machine.execStrex c rn rd rt s
  | .ldrexd c rn rt => Sys2Proof.Machine.execLdrexd c rn rt s
  | .strexd c rn rd rt => Sys2Proof.Machine.execStrexd c rn rd rt s
  | .ldrexb c rn rt => Sys2Proof.Machine.execLdrexb c rn rt s
  | .strexb c rn rd rt => Sys2Proof.Machine.execStrexb c rn rd rt s
  | .ldrexh c rn rt => Sys2Proof.Machine.execLdrexh c rn rt s
  | .strexh c rn rd rt => Sys2Proof.Machine.execStrexh c rn rd rt s
  | .swp c rn rt rt2 => Sys2Proof.Machine.execSwp c rn rt rt2 s
  | .swpb c rn rt rt2 => Sys2Proof.Machine.execSwpb c rn rt rt2 s
  | .mul c s1 rd rm rn => Sys2Proof.Machine.execMul c s1 rd rm rn s
  | .mla c s1 rd ra rm rn => Sys2Proof.Machine.execMla c s1 rd ra rm rn s
  | .mls c rd ra rm rn => Sys2Proof.Machine.execMls c rd ra rm rn s
  | .umull c s1 rdHi rdLo rm rn => Sys2Proof.Machine.execUmull c s1 rdHi rdLo rm rn s
  | .umlal c s1 rdHi rdLo rm rn => Sys2Proof.Machine.execUmlal c s1 rdHi rdLo rm rn s
  | .smull c s1 rdHi rdLo rm rn => Sys2Proof.Machine.execSmull c s1 rdHi rdLo rm rn s
  | .smlal c s1 rdHi rdLo rm rn => Sys2Proof.Machine.execSmlal c s1 rdHi rdLo rm rn s
  | .strhImm c p u w rn rt imm4H imm4L => Sys2Proof.Machine.execStrhImm c p u w rn rt imm4H imm4L s
  | .strhReg c p u w rn rt rm => Sys2Proof.Machine.execStrhReg c p u w rn rt rm s
  | .ldrhImm c p u w rn rt imm4H imm4L => Sys2Proof.Machine.execLdrhImm c p u w rn rt imm4H imm4L s
  | .ldrhReg c p u w rn rt rm => Sys2Proof.Machine.execLdrhReg c p u w rn rt rm s
  | .ldrsbImm c p u w rn rt imm4H imm4L => Sys2Proof.Machine.execLdrsbImm c p u w rn rt imm4H imm4L s
  | .ldrsbReg c p u w rn rt rm => Sys2Proof.Machine.execLdrsbReg c p u w rn rt rm s
  | .ldrshImm c p u w rn rt imm4H imm4L => Sys2Proof.Machine.execLdrshImm c p u w rn rt imm4H imm4L s
  | .ldrshReg c p u w rn rt rm => Sys2Proof.Machine.execLdrshReg c p u w rn rt rm s
  | .ldrdImm c p u w rn rt imm4H imm4L => Sys2Proof.Machine.execLdrdImm c p u w rn rt imm4H imm4L s
  | .ldrdReg c p u w rn rt rm => Sys2Proof.Machine.execLdrdReg c p u w rn rt rm s
  | .strdImm c p u w rn rt imm4H imm4L => Sys2Proof.Machine.execStrdImm c p u w rn rt imm4H imm4L s
  | .strdReg c p u w rn rt rm => Sys2Proof.Machine.execStrdReg c p u w rn rt rm s
  | .udf c imm12 imm4 => Sys2Proof.Machine.execUdf c imm12 imm4 s
  | .sdiv c rd rm rn => Sys2Proof.Machine.execSdiv c rd rm rn s
  | .udiv c rd rm rn => Sys2Proof.Machine.execUdiv c rd rm rn s
  | .bfc c msb rd lsb => Sys2Proof.Machine.execBfc c msb rd lsb s
  | .bfi c msb rd lsb rn => Sys2Proof.Machine.execBfi c msb rd lsb rn s
  | .ubfx c widthm1 rd lsb rn => Sys2Proof.Machine.execUbfx c widthm1 rd lsb rn s
  | .sbfx c widthm1 rd lsb rn => Sys2Proof.Machine.execSbfx c widthm1 rd lsb rn s
  | .rev c rd rm => Sys2Proof.Machine.execRev c rd rm s
  | .rev16 c rd rm => Sys2Proof.Machine.execRev16 c rd rm s
  | .revsh c rd rm => Sys2Proof.Machine.execRevsh c rd rm s
  | .rbit c rd rm => Sys2Proof.Machine.execRbit c rd rm s
  | .uxtb c rd rotate rm => Sys2Proof.Machine.execUxtb c rd rotate rm s
  | .uxth c rd rotate rm => Sys2Proof.Machine.execUxth c rd rotate rm s
  | .sxtb c rd rotate rm => Sys2Proof.Machine.execSxtb c rd rotate rm s
  | .sxth c rd rotate rm => Sys2Proof.Machine.execSxth c rd rotate rm s
  | .movw c imm4 rd imm12 => Sys2Proof.Machine.execMovw c imm4 rd imm12 s
  | .movt c imm4 rd imm12 => Sys2Proof.Machine.execMovt c imm4 rd imm12 s
  | .andImm c s1 rn rd rotate imm8 => Sys2Proof.Machine.execAndImm c s1 rn rd rotate imm8 s
  | .andReg c s1 rn rd imm5 ty rm => Sys2Proof.Machine.execAndReg c s1 rn rd imm5 ty rm s
  | .andRsr c s1 rn rd rs ty rm => Sys2Proof.Machine.execAndRsr c s1 rn rd rs ty rm s
  | .eorImm c s1 rn rd rotate imm8 => Sys2Proof.Machine.execEorImm c s1 rn rd rotate imm8 s
  | .eorReg c s1 rn rd imm5 ty rm => Sys2Proof.Machine.execEorReg c s1 rn rd imm5 ty rm s
  | .eorRsr c s1 rn rd rs ty rm => Sys2Proof.Machine.execEorRsr c s1 rn rd rs ty rm s
  | .subImm c s1 rn rd rotate imm8 => Sys2Proof.Machine.execSubImm c s1 rn rd rotate imm8 s
  | .subReg c s1 rn rd imm5 ty rm => Sys2Proof.Machine.execSubReg c s1 rn rd imm5 ty rm s
  | .subRsr c s1 rn rd rs ty rm => Sys2Proof.Machine.execSubRsr c s1 rn rd rs ty rm s
  | .rsbImm c s1 rn rd rotate imm8 => Sys2Proof.Machine.execRsbImm c s1 rn rd rotate imm8 s
  | .rsbReg c s1 rn rd imm5 ty rm => Sys2Proof.Machine.execRsbReg c s1 rn rd imm5 ty rm s
  | .rsbRsr c s1 rn rd rs ty rm => Sys2Proof.Machine.execRsbRsr c s1 rn rd rs ty rm s
  | .addImm c s1 rn rd rotate imm8 => Sys2Proof.Machine.execAddImm c s1 rn rd rotate imm8 s
  | .addReg c s1 rn rd imm5 ty rm => Sys2Proof.Machine.execAddReg c s1 rn rd imm5 ty rm s
  | .addRsr c s1 rn rd rs ty rm => Sys2Proof.Machine.execAddRsr c s1 rn rd rs ty rm s
  | .adcImm c s1 rn rd rotate imm8 => Sys2Proof.Machine.execAdcImm c s1 rn rd rotate imm8 s
  | .adcReg c s1 rn rd imm5 ty rm => Sys2Proof.Machine.execAdcReg c s1 rn rd imm5 ty rm s
  | .adcRsr c s1 rn rd rs ty rm => Sys2Proof.Machine.execAdcRsr c s1 rn rd rs ty rm s
  | .sbcImm c s1 rn rd rotate imm8 => Sys2Proof.Machine.execSbcImm c s1 rn rd rotate imm8 s
  | .sbcReg c s1 rn rd imm5 ty rm => Sys2Proof.Machine.execSbcReg c s1 rn rd imm5 ty rm s
  | .sbcRsr c s1 rn rd rs ty rm => Sys2Proof.Machine.execSbcRsr c s1 rn rd rs ty rm s
  | .rscImm c s1 rn rd rotate imm8 => Sys2Proof.Machine.execRscImm c s1 rn rd rotate imm8 s
  | .rscReg c s1 rn rd imm5 ty rm => Sys2Proof.Machine.execRscReg c s1 rn rd imm5 ty rm s
  | .rscRsr c s1 rn rd rs ty rm => Sys2Proof.Machine.execRscRsr c s1 rn rd rs ty rm s
  | .tstImm c rn sbz rotate imm8 => Sys2Proof.Machine.execTstImm c rn sbz rotate imm8 s
  | .tstReg c rn sbz imm5 ty rm => Sys2Proof.Machine.execTstReg c rn sbz imm5 ty rm s
  | .tstRsr c rn sbz rs ty rm => Sys2Proof.Machine.execTstRsr c rn sbz rs ty rm s
  | .teqImm c rn sbz rotate imm8 => Sys2Proof.Machine.execTeqImm c rn sbz rotate imm8 s
  | .teqReg c rn sbz imm5 ty rm => Sys2Proof.Machine.execTeqReg c rn sbz imm5 ty rm s
  | .teqRsr c rn sbz rs ty rm => Sys2Proof.Machine.execTeqRsr c rn sbz rs ty rm s
  | .cmpImm c rn sbz rotate imm8 => Sys2Proof.Machine.execCmpImm c rn sbz rotate imm8 s
  | .cmpReg c rn sbz imm5 ty rm => Sys2Proof.Machine.execCmpReg c rn sbz imm5 ty rm s
  | .cmpRsr c rn sbz rs ty rm => Sys2Proof.Machine.execCmpRsr c rn sbz rs ty rm s
  | .cmnImm c rn sbz rotate imm8 => Sys2Proof.Machine.execCmnImm c rn sbz rotate imm8 s
  | .cmnReg c rn sbz imm5 ty rm => Sys2Proof.Machine.execCmnReg c rn sbz imm5 ty rm s
  | .cmnRsr c rn sbz rs ty rm => Sys2Proof.Machine.execCmnRsr c rn sbz rs ty rm s
  | .orrImm c s1 rn rd rotate imm8 => Sys2Proof.Machine.execOrrImm c s1 rn rd rotate imm8 s
  | .orrReg c s1 rn rd imm5 ty rm => Sys2Proof.Machine.execOrrReg c s1 rn rd imm5 ty rm s
  | .orrRsr c s1 rn rd rs ty rm => Sys2Proof.Machine.execOrrRsr c s1 rn rd rs ty rm s
  | .movImm c s1 sbz rd rotate imm8 => Sys2Proof.Machine.execMovImm c s1 sbz rd rotate imm8 s
  | .movReg c s1 rd rm => Sys2Proof.Machine.execMovReg c s1 rd rm s
  | .rrx c s1 rd rm => Sys2Proof.Machine.execRrx c s1 rd rm s
  | .lslImm c s1 rd imm5 rm => Sys2Proof.Machine.execLslImm c s1 rd imm5 rm s
  | .lsrImm c s1 rd imm5 rm => Sys2Proof.Machine.execLsrImm c s1 rd imm5 rm s
  | .asrImm c s1 rd imm5 rm => Sys2Proof.Machine.execAsrImm c s1 rd imm5 rm s
  | .rorImm c s1 rd imm5 rm => Sys2Proof.Machine.execRorImm c s1 rd imm5 rm s
  | .lslReg c s1 rd rs rm => Sys2Proof.Machine.execLslReg c s1 rd rs rm s
  | .lsrReg c s1 rd rs rm => Sys2Proof.Machine.execLsrReg c s1 rd rs rm s
  | .asrReg c s1 rd rs rm => Sys2Proof.Machine.execAsrReg c s1 rd rs rm s
  | .rorReg c s1 rd rs rm => Sys2Proof.Machine.execRorReg c s1 rd rs rm s
  | .bicImm c s1 rn rd rotate imm8 => Sys2Proof.Machine.execBicImm c s1 rn rd rotate imm8 s
  | .bicReg c s1 rn rd imm5 ty rm => Sys2Proof.Machine.execBicReg c s1 rn rd imm5 ty rm s
  | .bicRsr c s1 rn rd rs ty rm => Sys2Proof.Machine.execBicRsr c s1 rn rd rs ty rm s
  | .mvnImm c s1 sbz rd rotate imm8 => Sys2Proof.Machine.execMvnImm c s1 sbz rd rotate imm8 s
  | .mvnReg c s1 sbz rd imm5 ty rm => Sys2Proof.Machine.execMvnReg c s1 sbz rd imm5 ty rm s
  | .mvnRsr c s1 sbz rd rs ty rm => Sys2Proof.Machine.execMvnRsr c s1 sbz rd rs ty rm s
  | .ldrImm c p u w rn rt imm12 => Sys2Proof.Machine.execLdrImm c p u w rn rt imm12 s
  | .ldrReg c p u w rn rt imm5 ty rm => Sys2Proof.Machine.execLdrReg c p u w rn rt imm5 ty rm s
  | .strImm c p u w rn rt imm12 => Sys2Proof.Machine.execStrImm c p u w rn rt imm12 s
  | .strReg c p u w rn rt imm5 ty rm => Sys2Proof.Machine.execStrReg c p u w rn rt imm5 ty rm s
  | .ldrbImm c p u w rn rt imm12 => Sys2Proof.Machine.execLdrbImm c p u w rn rt imm12 s
  | .ldrbReg c p u w rn rt imm5 ty rm => Sys2Proof.Machine.execLdrbReg c p u w rn rt imm5 ty rm s
  | .strbImm c p u w rn rt imm12 => Sys2Proof.Machine.execStrbImm c p u w rn rt imm12 s
  | .strbReg c p u w rn rt imm5 ty rm => Sys2Proof.Machine.execStrbReg c p u w rn rt imm5 ty rm s
  | .pop c regs => Sys2Proof.Machine.execPop c regs s
  | .push c regs => Sys2Proof.Machine.execPush c regs s
  | .ldm c p u s1 w rn regs => Sys2Proof.Machine.execLdm c p u s1 w rn regs s
  | .stm c p u s1 w rn regs => Sys2Proof.Machine.execStm c p u s1 w rn regs s
  | .b c imm24 => Sys2Proof.Machine.execB c imm24 s
  | .bl c imm24 => Sys2Proof.Machine.execBl c imm24 s
  | .svc c imm24 => Sys2Proof.Machine.execSvc c imm24 s
  | .vmrs c reg rt => Sys2Proof.Machine.execVmrs c reg rt s
  | .vmsr c reg rt => Sys2Proof.Machine.execVmsr c reg rt s
  | .vmrsVmsrSbz c l reg rt sbz sbz1 => Sys2Proof.Machine.execVmrsVmsrSbz c l reg rt sbz sbz1 s
  | .mrcP15 c opc1 crn rt opc2 crm => Sys2Proof.Machine.execMrcP15 c opc1 crn rt opc2 crm s
  | .mcrP15 c opc1 crn rt opc2 crm => Sys2Proof.Machine.execMcrP15 c opc1 crn rt opc2 crm s
  | .mrcP14 c opc1 crn rt opc2 crm => Sys2Proof.Machine.execMrcP14 c opc1 crn rt opc2 crm s
  | .mcrP14 c opc1 crn rt opc2 crm => Sys2Proof.Machine.execMcrP14 c opc1 crn rt opc2 crm s
  | .vmla c d vn vd sz n m vm => Sys2Proof.Machine.execVmla c d vn vd sz n m vm s
  | .vmls c d vn vd sz n m vm => Sys2Proof.Machine.execVmls c d vn vd sz n m vm s
  | .vnmls c d vn vd sz n m vm => Sys2Proof.Machine.execVnmls c d vn vd sz n m vm s
  | .vnmla c d vn vd sz n m vm => Sys2Proof.Machine.execVnmla c d vn vd sz n m vm s
  | .vmul c d vn vd sz n m vm => Sys2Proof.Machine.execVmul c d vn vd sz n m vm s
  | .vnmul c d vn vd sz n m vm => Sys2Proof.Machine.execVnmul c d vn vd sz n m vm s
  | .vadd c d vn vd sz n m vm => Sys2Proof.Machine.execVadd c d vn vd sz n m vm s
  | .vsub c d vn vd sz n m vm => Sys2Proof.Machine.execVsub c d vn vd sz n m vm s
  | .vdiv c d vn vd sz n m vm => Sys2Proof.Machine.execVdiv c d vn vd sz n m vm s
  | .vmovImm c d imm4H vd sz sbz sbz1 imm4L => Sys2Proof.Machine.execVmovImm c d imm4H vd sz sbz sbz1 imm4L s
  | .vmovReg c d vd sz m vm => Sys2Proof.Machine.execVmovReg c d vd sz m vm s
  | .vabs c d vd sz m vm => Sys2Proof.Machine.execVabs c d vd sz m vm s
  | .vneg c d vd sz m vm => Sys2Proof.Machine.execVneg c d vd sz m vm s
  | .vsqrt c d vd sz m vm => Sys2Proof.Machine.execVsqrt c d vd sz m vm s
  | .vcvtbVcvtt c d op vd t m vm => Sys2Proof.Machine.execVcvtbVcvtt c d op vd t m vm s
  | .vcmpReg c d vd sz e m vm => Sys2Proof.Machine.execVcmpReg c d vd sz e m vm s
  | .vcmpZero c d vd sz e sbz sbz1 => Sys2Proof.Machine.execVcmpZero c d vd sz e sbz sbz1 s
  | .vcvtDoubleSingle c d vd sz m vm => Sys2Proof.Machine.execVcvtDoubleSingle c d vd sz m vm s
  | .vcvtIntToFp c d vd sz op m vm => Sys2Proof.Machine.execVcvtIntToFp c d vd sz op m vm s
  | .vcvtFpToInt c d sgn vd sz op m vm => Sys2Proof.Machine.execVcvtFpToInt c d sgn vd sz op m vm s
  | .vcvtFixed c d op u vd sf sx ibit imm4 => Sys2Proof.Machine.execVcvtFixed c d op u vd sf sx ibit imm4 s
  | .vldr c u d rn vd sz imm8 => Sys2Proof.Machine.execVldr c u d rn vd sz imm8 s
  | .vstr c u d rn vd sz imm8 => Sys2Proof.Machine.execVstr c u d rn vd sz imm8 s
  | .vpop c d vd sz imm8 => Sys2Proof.Machine.execVpop c d vd sz imm8 s
  | .vpush c d vd sz imm8 => Sys2Proof.Machine.execVpush c d vd sz imm8 s
  | .vldmIa c d w rn vd sz imm8 => Sys2Proof.Machine.execVldmIa c d w rn vd sz imm8 s
  | .vldmDb c d rn vd sz imm8 => Sys2Proof.Machine.execVldmDb c d rn vd sz imm8 s
  | .vstmIa c d w rn vd sz imm8 => Sys2Proof.Machine.execVstmIa c d w rn vd sz imm8 s
  | .vstmDb c d rn vd sz imm8 => Sys2Proof.Machine.execVstmDb c d rn vd sz imm8 s
  | .vmovCoreSingle c l vn rt n sbz sbz1 => Sys2Proof.Machine.execVmovCoreSingle c l vn rt n sbz sbz1 s
  | .vmovCoreTwoSingles c l rt2 rt m vm => Sys2Proof.Machine.execVmovCoreTwoSingles c l rt2 rt m vm s
  | .vmovCoreDouble c l rt2 rt m vm => Sys2Proof.Machine.execVmovCoreDouble c l rt2 rt m vm s
  | .vmovCoreToHalf c x vd rt d sbz => Sys2Proof.Machine.execVmovCoreToHalf c x vd rt d sbz s
  | .vmovHalfToCore c x vn rt n sbz => Sys2Proof.Machine.execVmovHalfToCore c x vn rt n sbz s
  | .vfpUnallocated c rest rest1 => Sys2Proof.Machine.execVfpUnallocated c rest rest1 s
  | .otherCoproc c rest coproc rest1 => Sys2Proof.Machine.execOtherCoproc c rest coproc rest1 s

end Sys2Proof.Machine
end

