-- ==== Sys2Proof/Machine/Engines.lean ====
section
/-! DEFINITION. What the linefill and eviction engines and the prefetch unit do unprompted (00_scope.md R7 (h); 20_memory.md
R255, R278; 71_timing.md R916): while a cache is on they may fill any line of Cacheable memory that the mode may read or
execute, and evict any line. Which lines, and how many in a step, is free (log entry 84). -/

namespace Sys2Proof.Machine

/-- Do something on the side: an end in an exception or a stop changes nothing, for no instruction asked for it
(60_exceptions.md R527). -/
def quietly {α : Type} (body : M α) (s : State) : State :=
  match body s with
  | .ok _ t => t
  | .error _ _ => s

/-- Whether the line of an address may be fetched speculatively: from Normal memory behind a master port that gives no error
response (20_memory.md R278). -/
def lineIsPlain (s : State) (a : Word) : Bool :=
  !inItcm s a && !inDtcm s a && !inPrivate s.cfg a && !inPeripheral s.cfg a && !inWindow s.cfg a
    && (busError s .single a 32).isNone

/-- An address that the hardware picks, at the start of a line. -/
def pickedLine (s : State) : Word := Config.freeWord s.free &&& 0xFFFFFFE0

/-- A speculative linefill of the data cache (20_memory.md R255, R278). -/
def prefetchData (s : State) : State :=
  let a := pickedLine s
  let t := { s with free := s.free + 1 }
  match lookup t .read t.privileged a with
  | .hit attr true => if cacheable t attr && lineIsPlain t a && !tcmClash t then quietly (dcacheFill a 4 attr) t else t
  | _ => t

/-- An unprompted eviction of a line of the data cache: cleaned if dirty, then removed (20_memory.md R255). -/
def evictData (s : State) : State :=
  quietly (cleanInvalidateLine (Config.freeWay s.free).toNat
    ((Config.freeWord (s.free + 1)).toNat % 2 ^ setBits s.cfg.dcache)) { s with free := s.free + 2 }

/-- A linefill of the instruction cache by the prefetch unit (20_memory.md R278, 71_timing.md R916). -/
def prefetchInstruction (s : State) : State :=
  let a := pickedLine s
  let t := { s with free := s.free + 1 }
  match lookup t .fetch t.privileged a with
  | .hit attr true => if cacheable t attr && lineIsPlain t a && !tcmClash t then quietly (fetchCached a) t else t
  | _ => t

/-- An unprompted removal of a line of the instruction cache, which is never dirty (20_memory.md R253, R255). -/
def evictInstruction (s : State) : State :=
  let line := lineIndex (Config.freeWay s.free).toNat ((Config.freeWord (s.free + 1)).toNat % 2 ^ setBits s.cfg.icache)
  { s with free := s.free + 2, icache := dropILine (eccOn s) s.icache line }

/-- One unprompted fill and one unprompted eviction of the data cache. -/
def dataEngine (s : State) : State := evictData (prefetchData s)

/-- One unprompted fill and one unprompted removal of the instruction cache. -/
def instructionEngine (s : State) : State := evictInstruction (prefetchInstruction s)

/-- What the engines of a running processor do in a step, any number of times while their cache is on. -/
def engineStage (s : State) : State :=
  if s.standby ≠ .running then s
  else
    let s1 := if dcacheOn s then times dataEngine (Config.freeTimes s.free) { s with free := s.free + 1 } else s
    if icacheOn s1 then times instructionEngine (Config.freeTimes s1.free) { s1 with free := s1.free + 1 } else s1

end Sys2Proof.Machine
end

