-- ==== Sys2Proof/Machine/Reset.lean ====
section
/-! DEFINITION. The resets of a running machine, signal by signal (70_reset_and_hazards.md R832 to R845). `State.resetWith` is
the power-up reset; what here stays is what no asserted signal resets. A register without a reset value takes the one it has
at power-up (log entry 77). -/

namespace Sys2Proof.Machine

/-- Whether the processor's field of SCU CPU Power Status says that it went to Dormant mode (65_power_mp.md R806). -/
def wakesDormant (s : State) : Bool := s.scu.power.extractLsb' (if s.cfg.cpu then 8 else 0) 2 == 0b10

/-- nCPURESET (70_reset_and_hazards.md R832, R834, R843): the processor's own state takes its reset values; its RAMs, debug
registers (but HALTED), the SCU, the interrupt controller, the timers, the memory and the output latches stay. DBGPRSR's
Sticky Reset Status is set (64_debug_pmu.md R748). A processor that wakes from Dormant mode finds its caches as it left them
(65_power_mp.md R806; log entry 79). -/
def resetCpu (s : State) : State :=
  let z := State.resetWith s.cfg s.pins
  { s with
    regs := z.regs
    pc := z.pc
    cpsr := z.cpsr
    spsr := z.spsr
    cp15 := z.cp15
    pmu := z.pmu
    dbg := { s.dbg with dscr := setBit s.dbg.dscr 0 false, stickyReset := true }
    fpu := z.fpu
    monitor := z.monitor
    pendingAbort := z.pendingAbort
    eventReg := z.eventReg
    standby := z.standby
    upkeep := if wakesDormant s then .kept else z.upkeep
    unsynced := z.unsynced }

/-- The debug registers after nDBGRESET: HALTED stays. DESIGN CHOICE: the claim tags and the lock word of the PMU block are reset with
them, and nCPURESET keeps them, of which 64_debug_pmu.md R735 and R750 say nothing (log entry 77). -/
def debugReset (d : Debug) : Debug := { Debug.reset with dscr := setBit 0 0 (d.dscr.getLsbD 0) }

/-- nDBGRESET (70_reset_and_hazards.md R837, R843; 64_debug_pmu.md R747, R750): the debug registers take their reset values
(D61), which removes DBGDRCR.HaltReq and clears INTdis; HALTED stays. -/
def resetDbg (s : State) : State :=
  { s with dbg := debugReset s.dbg }

/-- The other processor's nCPURESET, of what the debug window and SCU Configuration show of it (70_reset_and_hazards.md R832;
64_debug_pmu.md R747, R748, R770; 61_scu.md R587). -/
def resetOtherCpu (s : State) : State :=
  { s with
    otherPmu := Pmu.reset
    otherSmp := false
    otherDbg := { s.otherDbg with dscr := setBit s.otherDbg.dscr 0 false, stickyReset := true } }

/-- The other processor's nDBGRESET (70_reset_and_hazards.md R837). -/
def resetOtherDbg (s : State) : State := { s with otherDbg := debugReset s.otherDbg }

/-- nPERIPHRESET (70_reset_and_hazards.md R832; 62_gic.md R675; 63_timers.md R692): the interrupt controller and the timers,
but not the Watchdog Reset Status Register. -/
def resetPeriph (s : State) : State :=
  { s with gic := Gic.reset s.cfg, timers := { Timers.reset with wdReset := s.timers.wdReset } }

/-- nSCURESET (70_reset_and_hazards.md R832; 61_scu.md R584 to R597): the SCU's registers, and with the power status the power
outputs (65_power_mp.md R800; 61_scu.md R589); its tag RAM keeps its contents (R845). DESIGN CHOICE: so it does in a power-up reset
of a running machine, after which it may hold any value (R843, R845; log entry 54). -/
def resetScu (s : State) : State :=
  { s with
    scu := { Scu.reset s.cfg with tags := s.scu.tags, tagChunks := s.scu.tagChunks }
    outs := { s.outs with pwrctlo := 0 } }

/-- nWDRESET (63_timers.md R708; 70_reset_and_hazards.md R839): the Watchdog Reset Status Register alone. -/
def resetWd (s : State) : State := { s with timers := { s.timers with wdReset := 0 } }

/-- The power of the processor's RAMs was removed (65_power_mp.md R807, 70_reset_and_hazards.md R845): caches and TCMs hold
what they hold at power-up (log entries 10, 11). -/
def loseRams (s : State) : State :=
  { s with
    itcm := Tcm.reset
    dtcm := Tcm.reset
    dcache := CacheRam.reset
    icache := CacheRam.reset
    upkeep := CacheUpkeep.reset }

/-- Do `f` if `b`. -/
def doIf (b : Bool) (f : State → State) (s : State) : State := if b then f s else s

/-- The asserted resets, signal by signal (70_reset_and_hazards.md R832, R833, R843). -/
def applyResets (r : Resets) (s : State) : State :=
  doIf r.ramsLost loseRams (doIf r.cpu resetCpu (doIf r.dbg resetDbg (doIf r.periph resetPeriph (doIf r.scu resetScu
    (doIf r.wd resetWd (doIf r.otherCpu resetOtherCpu (doIf r.otherDbg resetOtherDbg s)))))))

/-- Signals asserted by one source or another. -/
def mergeResets (a b : Resets) : Resets :=
  ⟨a.cpu || b.cpu, a.dbg || b.dbg, a.periph || b.periph, a.scu || b.scu, a.wd || b.wd,
    a.otherCpu || b.otherCpu, a.otherDbg || b.otherDbg, a.ramsLost || b.ramsLost⟩

/-- The reset with which the platform answers the watchdog's request of the step before, if its policy is to
(70_reset_and_hazards.md R839, D52): not nWDRESET, and with the RAMs powered. -/
def watchdogAnswer (s : State) : Resets :=
  match s.cfg.wdResetPolicy with
  | some c => if s.outs.wdResetReq then { c.signals with wd := false, ramsLost := false } else .none
  | none => .none

/-- The resets asserted in a step: by the pins, and by the platform's answer to the watchdog. -/
def resetsOf (s : State) : Resets := mergeResets s.pins.resets (watchdogAnswer s)

/-- What this processor sees of the columns of Table 2-1 in which the other processor receives the reset: its power-up, software
and debug resets (70_reset_and_hazards.md R833). -/
def otherResets : List Resets :=
  [{ Resets.none with otherCpu := true, otherDbg := true }, { Resets.none with otherCpu := true },
    { Resets.none with otherDbg := true }]

/-- The columns of Table 2-1, the individual ones with and without the nWDRESET that they may assert
(70_reset_and_hazards.md R833). -/
def supportedResets : List Resets :=
  [ResetCombo.mpcorePowerup, .mpcoreSoftware, .individualPowerup false, .individualPowerup true, .individualSoftware false,
    .individualSoftware true, .mpcoreDebug, .individualDebug, .watchdogFlag].map ResetCombo.signals ++ otherResets

/-- Signals as a build has them: one processor has no signals of another. -/
def resetsInBuild (cfg : Config) (r : Resets) : Resets :=
  if cfg.twoCpus then r else { r with otherCpu := false, otherDbg := false }

/-- Whether signals are a column of Table 2-1 (70_reset_and_hazards.md R833). A power-up reset of this processor comes with the
power of its RAMs removed or kept (65_power_mp.md R801, R806, R807), no other one with it removed. -/
def supportedReset (cfg : Config) (r : Resets) : Bool :=
  supportedResets.any fun c =>
    resetsInBuild cfg c == resetsInBuild cfg { r with ramsLost := if c.cpu && c.dbg then c.ramsLost else r.ramsLost }

/-- Whether the pins assert resets that are, with the platform's answer to the watchdog, no column of Table 2-1
(70_reset_and_hazards.md R833; 93_implementation_defined.md). The answer alone is a column but for nWDRESET, which it must leave
out (R839). -/
def unsupportedReset (s : State) : Bool := s.pins.resets != .none && !supportedReset s.cfg (resetsOf s)

/-- Whether a line of the data cache is valid, dirty and shareable (20_memory.md R265). -/
def dirtyShareable (t : Word) : Bool := tagValid t && tagDirty t && t.getLsbD 24

/-- Whether a reset takes a processor away that is in the coherency domain or, of this one, holds dirty shareable lines
(65_power_mp.md R803, U70; log entry 78). -/
def leavesCoherency (r : Resets) (s : State) : Bool :=
  (r.cpu && (s.cp15.actlr.getLsbD 6 || s.dcache.tag.any fun e => dirtyShareable e.2)) ||
    (r.otherCpu && s.cfg.twoCpus && s.otherSmp)

end Sys2Proof.Machine
end

