-- ==== Sys2Proof/Machine/Boundary.lean ====
section
/-! DEFINITION. What a step does around an instruction: the hardware that runs beside the processor, the resets, standby, the
exceptions taken between instructions (60_exceptions.md R540 to R544), the fetch, and the run of a fetched word. -/

namespace Sys2Proof.Machine

/-! ### Beside the processor -/

/-- The pulses of the last step end (65_power_mp.md R796; 63_timers.md R705; 20_memory.md R261; log entry 48). -/
def clearPulses (s : State) : State :=
  { s with outs := { s.outs with eventO := false, wdResetReq := false, ramErr := false, fatalRamErr := false } }

/-- A HIGH sample of EVENTI sets the event register (65_power_mp.md R797). -/
def sampleEvent (s : State) : State := if s.pins.eventI then { s with eventReg := true } else s

/-- A wake-up event of WFE sets the event register (10_state.md R52). DEDUCED: it does so in each step in which it is there, which
the step rule of WFE does not say (65_power_mp.md R795; log entry 115). -/
def sampleWakeup (s : State) : State := if wfeWakeup s then { s with eventReg := true } else s

/-- What the hardware beside the processor does in a step: the event input, the timers, the interrupt inputs, the
counters, the linefill and eviction engines. -/
def hardwareStage (s : State) : State :=
  engineStage (pmuStage (sampleWakeup (sampleInputs (timerStage (sampleEvent (clearPulses s))))))

/-- A step of a processor that is not running: it leaves standby or stays (65_power_mp.md R793, R795;
70_reset_and_hazards.md R836). -/
def wait (s : State) : State :=
  match s.standby with
  | .running => s
  | .wfi => if wfiWakeup s then { s with standby := .running } else s
  | .wfe =>
    if s.eventReg then { s with eventReg := false, standby := .running }
    else if wfeWakeup s then { s with standby := .running }
    else s
  | .halted => if s.pins.nCpuHalt then { s with standby := .running } else s

/-! ### Between instructions -/

/-- DBGDSCR.INTdis: interrupts are masked (70_reset_and_hazards.md R838; its place is the family's, log entry 89). -/
def intDis (s : State) : Bool := s.dbg.dscr.getLsbD 11

/-- The interrupt that is ready at this boundary: requested and not masked, FIQ before IRQ (60_exceptions.md R540, R541,
R544). -/
def readyInterrupt (s : State) : Option Exc :=
  if fiqRequest s && !s.maskF && !intDis s then some .fiq
  else if irqRequest s && !s.maskI && !intDis s then some .irq
  else none

/-- The asynchronous abort taken before the next instruction, if one is pending and not masked (60_exceptions.md R526). -/
def takeAbort (s : State) : Option State :=
  match s.pendingAbort with
  | some slverr => if s.maskA then none else some (takeAsyncAbort slverr s)
  | none => none

/-- Run the word fetched from the pc (30_encoding.md R429). A word that no row matches has no meaning, unless its condition
fails (60_exceptions.md R545: such an instruction raises nothing). -/
def runWord (w : Word) (s : State) : Host.Outcome State Fault Refusal :=
  match decode w with
  | .ok i => exec i s
  | .error _ => if condPassed (condOf w) s.cpsr then .refused .noRow else finish (fallThrough s)

/-- Fetch the instruction at the pc and run it; a fetch that faults is a Prefetch Abort (60_exceptions.md R525, R528). -/
def runNext (s : State) : Host.Outcome State Fault Refusal :=
  if notArm s.cpsr then .refused .thumbState
  else if !lowZero s.pc 2 then .refused .pcMisaligned
  else match fetchWord s.pc s with
    | .error e t => finish (.error e t)
    | .ok (.error f) t => entered (takePrefetchAbort f s.pc t)
    | .ok (.ok w) t => runWord w t

/-- A boundary at which no interrupt is taken: an asynchronous abort, or the next instruction (60_exceptions.md R544). -/
def goOn (t : State) : Host.Outcome State Fault Refusal :=
  match takeAbort t with
  | some u => entered u
  | none => runNext t

/-- What a processor that is not held in reset does in a step, once the hardware beside it has: standby, an exception, or an
instruction. An interrupt that is ready is taken at this boundary or at a later one: a free choice in each step
(71_timing.md R921; log entry 29). -/
def proceed (t : State) : Host.Outcome State Fault Refusal :=
  if t.standby ≠ .running then .next (wait t)
  else match readyInterrupt t with
    | none => goOn t
    | some e =>
      let u := { t with free := t.free + 1 }
      if Config.freeBool t.free then entered (takeInterrupt e u) else goOn u

/-- One step: the hardware beside the processor, then the resets (the exception of the highest priority, 60_exceptions.md
R544), if they are a combination of Table 2-1 (70_reset_and_hazards.md R833), then the processor. -/
def advance (s : State) : Host.Outcome State Fault Refusal :=
  let r := resetsOf s
  let t := hardwareStage s
  if r = .none then proceed t
  else if unsupportedReset s then .refused .unsupportedReset
  else if leavesCoherency r t then .refused .coherentReset
  else if r.cpu then .next (applyResets r t)
  else proceed (applyResets r t)

/-- Store an instruction word where the fetch at the pc reads it: in the ITCM if it serves the pc, else in main memory, and
in the instruction cache line that holds the pc if the cache is on; the word counts as synchronised (log entry 44). -/
def placeWord (w : Word) (s : State) : State :=
  let bs := bytesOfWord w
  let s := { s with unsynced := s.unsynced.filter fun u => !(codePlace s s.pc).any u.standsAt }
  if inItcm s s.pc then
    match tcmOffset s.cfg.itcmBuild s.pc with
    | some off =>
      let t := { s.itcm with bytes := storeBytes s.itcm.bytes off bs }
      { s with itcm := if s.cfg.ecc then encodeItcm t (off / 8) else t }
    | none => s
  else
    let t := { s with mem := storeBytes s.mem s.pc.toNat bs }
    let k := setBits s.cfg.icache
    match (if icacheOn s then hitWay s.icache s.cp15.ieer k s.pc else none) with
    | some way =>
      { t with icache := setILineBytes (eccOn s) t.icache (lineIndex way (setOf k s.pc)) (s.pc.toNat % 32) bs }
    | none => t

end Sys2Proof.Machine
end

