-- ==== Sys2Proof/Machine/Step.lean ====
section
/-! DEFINITION. The step of the machine, and where it fetches its next instruction. -/

namespace Sys2Proof.Machine

/-- One step of the machine. -/
def step (s : State) : Host.Outcome State Fault Refusal := advance s

/-- The state with an instruction's `nbits` low bits `w` stored where the next step fetches it, the bits above zero. -/
def State.withFetchWord (s : State) (nbits w : Nat) : State := placeWord (BitVec.ofNat 32 (w % 2 ^ nbits)) s

end Sys2Proof.Machine
end

