-- ==== Sys2Proof/Machine/Outputs.lean ====
section
/-! DEFINITION. The signals the machine drives and a platform may observe (00_scope.md R12), as functions of the state; log
entry 83 names those a model of one processor leaves out. -/

namespace Sys2Proof.Machine

/-- The output signals of this processor and of the cluster, true for HIGH but for the active-LOW `nIrqOut`, `nFiqOut` and
`nPmuIrq`, which are HIGH when not asserted. -/
structure Signals where
  nIrqOut : Bool
  nFiqOut : Bool
  eventO : Bool
  standbyWfi : Bool
  standbyWfe : Bool
  pwrctlo : BitVec 2
  scuIdle : Bool
  smpNAmp : Bool
  wdResetReq : Bool
  pmuEvent : BitVec 56
  nPmuIrq : Bool
  pmuPriv : Bool
  scuEvAbort : Bool
  fpuFlags : BitVec 6
  ramErr : Bool
  fatalRamErr : Bool
  dcEbEmpty : Bool
  icEbEmpty : Bool
  dtcmEbEmpty : Bool
  itcmEbEmpty : Bool
  scuEbEmpty : Bool
  dbgAck : Bool
  dbgCpuDone : Bool
  dbgRestarted : Bool
  dbgNoPwrDwn : Bool
  commRx : Bool
  commTx : Bool
  deriving DecidableEq, Repr

/-- Whether an error bank entry's status is 0b00 (11_cp15_registers.md R185). -/
def entryEmpty (e : Word) : Bool := e &&& 3 == 0

/-- Whether every entry of a bank is empty (20_memory.md R263). -/
def bankEmpty (bank : Vector Word 3) : Bool := bank.toList.all entryEmpty

/-- FPUFLAGS: FPSCR[7] in bit [5], FPSCR[4:0] below (12_fpu_registers.md R212, 43_vfp_instructions.md R1047). -/
def fpuFlags (s : State) : BitVec 6 := BitVec.ofBool (s.fpu.fpscr.getLsbD 7) ++ s.fpu.fpscr.extractLsb' 0 5

/-- The SCU is idle when every processor is in WFI or powered down; no transaction is pending between steps
(65_power_mp.md R799). -/
def scuIdle (s : State) : Bool := s.standby == .wfi && (!s.cfg.twoCpus || s.pins.otherIdle)

/-- PMUEVENT: the events of the step, exported while PMCR.X is set, the reserved bits [55:48] LOW (64_debug_pmu.md R737; the place
of PMCR.X by log entry 58). Where in a step an event shows is timing, so that the levels are free (log entry 83). -/
def pmuEvents (s : State) : BitVec 56 :=
  if s.pmu.pmcr.getLsbD 4 then 0#8 ++ Config.freeEvents s.free else 0

/-- The output signals in a state (00_scope.md R12): the interrupt requests (62_gic.md R637, 60_exceptions.md R540, R541),
standby (65_power_mp.md R792, R800), SMPnAMP (R815), the PMU interrupt (64_debug_pmu.md R738), the FPU flags, the error banks
(20_memory.md R261, R263), and the debug outputs (64_debug_pmu.md R747, R748, R772). nIRQOUT and nFIQOUT are the requests to
the processor (log entry 90). SCUEVABORT pulses for a coherency writeback (20_memory.md R272), which only another agent's access
asks for, and no other agent acts here (log entry 2). DESIGN CHOICE: DBGRESTARTED shows bit 1 of DBGDSCR, which no rule says (log
entry 96). -/
def State.signals (s : State) : Signals where
  nIrqOut := !irqRequest s
  nFiqOut := !fiqRequest s
  eventO := s.outs.eventO
  standbyWfi := s.standby == .wfi
  standbyWfe := s.standby == .wfe
  pwrctlo := s.outs.pwrctlo
  scuIdle := scuIdle s
  smpNAmp := s.cp15.actlr.getLsbD 6
  wdResetReq := s.outs.wdResetReq
  pmuEvent := pmuEvents s
  nPmuIrq := !pmuInterrupt s.pmu
  pmuPriv := s.privileged
  scuEvAbort := false
  fpuFlags := fpuFlags s
  ramErr := s.outs.ramErr
  fatalRamErr := s.outs.fatalRamErr
  dcEbEmpty := bankEmpty s.cp15.deer
  icEbEmpty := bankEmpty s.cp15.ieer
  dtcmEbEmpty := entryEmpty s.cp15.dtcmeer
  itcmEbEmpty := entryEmpty s.cp15.itcmeer
  scuEbEmpty := entryEmpty s.scu.err0 && entryEmpty s.scu.err1
  dbgAck := s.dbg.dscr.getLsbD 0 || s.dbg.dscr.getLsbD 10
  dbgCpuDone := s.dbg.dscr.getLsbD 0
  dbgRestarted := s.dbg.dscr.getLsbD 1
  dbgNoPwrDwn := s.dbg.prcr.getLsbD 0
  commRx := s.dbg.dscr.getLsbD 30
  commTx := !s.dbg.dscr.getLsbD 29

end Sys2Proof.Machine
end

