-- ==== Sys2Proof/Safety.lean ====
section
/-! DEFINITION. What holds of every state a run reaches, and the terms the statements use. -/

namespace Sys2Proof.Machine

/-- Every sparse memory is in canonical form: keys strictly rising, no entry equal to what an unlisted key reads as. -/
structure Canonical (s : State) : Prop where
  mem : Memory.wf s.mem = true
  itcmBytes : Memory.wf s.itcm.bytes = true
  itcmEcc : sparseWf 0 s.itcm.ecc = true
  dtcmBytes : Memory.wf s.dtcm.bytes = true
  dtcmEcc : sparseWf 0 s.dtcm.ecc = true
  dTag : sparseWf 0 s.dcache.tag = true
  dData : sparseWf 0 s.dcache.data = true
  dTagEcc : sparseWf 0 s.dcache.tagEcc = true
  dDataEcc : sparseWf 0 s.dcache.dataEcc = true
  iTag : sparseWf 0 s.icache.tag = true
  iData : sparseWf 0 s.icache.data = true
  iTagEcc : sparseWf 0 s.icache.tagEcc = true
  iDataEcc : sparseWf 0 s.icache.dataEcc = true
  scuTags : sparseWf 0 s.scu.tags = true
  scuTagChunks : sparseWf 0 s.scu.tagChunks = true
  gicPrio : sparseWf 0 s.gic.prio = true
  gicTarget : sparseWf 0 s.gic.target = true
  gicSgi : sparseWf 0 s.gic.sgiFrom = true

/-- The invariant of the machine. -/
structure Inv (s : State) : Prop where
  canonical : Canonical s
  /-- CPSR.M names one of the seven modes (10_state.md R35). -/
  legalMode : (Mode.ofBits (modeField s.cpsr)).isSome = true
  /-- The pc is word-aligned in ARM state (10_state.md R32). -/
  pcAligned : s.pc &&& 3 = 0
  /-- CPSR.J and the reserved bits [23:20] are 0 (10_state.md R33, R36). -/
  cpsrReserved : s.cpsr &&& 0x01F00000 = 0
  /-- The bits of SCTLR that are fixed: neither read/write nor set by a pin (11_cp15_registers.md R120). -/
  sctlrFixed : s.cp15.sctlr &&& 0xB5D5C3F8 = 0x00C50078
  /-- RGNR names a region of the MPU (11_cp15_registers.md R148, U13). -/
  regionInRange : s.cp15.rgnr.toNat < regionCount s.cfg
  /-- The reserved bits of FPSCR are 0 (12_fpu_registers.md R210). -/
  fpscrReserved : s.fpu.fpscr &&& 0x0808FF60 = 0
  /-- FPEXC has its two bits only (12_fpu_registers.md R220). -/
  fpexcReserved : s.fpu.fpexc &&& 0x9FFFFFFF = 0

/-! ### Terms of the statements -/

/-- The instruction's condition passes, and there is a next address (10_state.md R32). -/
def Runs (c : Cond) (s : State) : Prop := condPassed c s.cpsr = true ∧ s.pc ≠ 0xFFFFFFFC

/-- The state with the pc moved past the instruction. -/
def State.past (s : State) : State := s.setPc (s.pc + 4)

/-- An exception entered now is taken in ARM state: SCTLR.TE is 0. With TE 1 it would go on in Thumb state, of which the spec
has no rules (30_encoding.md R401). -/
def ArmEntry (s : State) : Prop := s.cp15.sctlr.getLsbD 30 = false

/-- The state with the count of free values advanced. -/
def State.drew (s : State) (n : Nat) : State := { s with free := s.free + n }

/-- A step of `s` goes past the interrupts in the state `t`: the hardware beside the processor did its part, the processor runs,
and no interrupt is ready, or the one that is waits for a later boundary (60_exceptions.md R540, R541; 71_timing.md R921). -/
def GoesOn (s t : State) : Prop :=
  (hardwareStage s).standby = .running ∧
    (readyInterrupt (hardwareStage s) = none ∧ t = hardwareStage s ∨
      readyInterrupt (hardwareStage s) ≠ none ∧ Config.freeBool (hardwareStage s).free = false ∧ t = (hardwareStage s).drew 1)

/-- The state with DBGDSCR.PipeAdv set (64_debug_pmu.md R747). -/
def State.resolved (s : State) : State := { s with dbg := { s.dbg with dscr := s.dbg.dscr ||| 0x02000000 } }

/-- What entry of an exception leaves of the status and the banked registers (60_exceptions.md R520 to R523): the mode, the
vector, CPSR, the SPSR and R14 of the mode entered; the banked registers of the other modes stay. -/
def Took (e : Exc) (s t : State) : Prop :=
  t.mode = e.mode ∧ t.pc = s.vectorBase + e.offset ∧ t.cpsr = entryCpsr e s.cp15.sctlr s.cpsr ∧
  (∀ j, spsrIndex e.mode = some j → t.spsr = s.spsr.set j s.cpsr) ∧
  t.regs[bankIndex e.mode 14] = s.pc + (if e = .dataAbort then 8 else 4) ∧
  ∀ i : Fin 30, 15 ≤ i.val → i ≠ bankIndex e.mode 14 → t.regs[i] = s.regs[i]

/-- The flexible second operand of a data-processing instruction (42_a32_core_subset.md R953). -/
inductive Operand2 where
  | imm (rotate : BitVec 4) (imm8 : BitVec 8)
  | reg (imm5 : BitVec 5) (ty : ShiftType) (rm : Reg)
  | rsr (rs : Reg) (ty : ShiftType) (rm : Reg)
  deriving DecidableEq, Repr

/-- The value of an operand and its shifter carry. -/
def Operand2.value (s : State) : Operand2 → Word × Bool
  | .imm rotate imm8 => modifiedImm rotate imm8 s.flagC
  | .reg imm5 ty rm => immShiftC (s.reg rm) ty imm5 s.flagC
  | .rsr rs ty rm => shiftC (s.reg rm) ty ((s.reg rs).extractLsb' 0 8).toNat s.flagC

/-- No R15 where it is UNPREDICTABLE: nowhere in a register-shifted form (42_a32_core_subset.md R953). -/
def Operand2.allowed (rd rn : Reg) : Operand2 → Prop
  | .rsr rs _ rm => rd ≠ 15 ∧ rn ≠ 15 ∧ rs ≠ 15 ∧ rm ≠ 15
  | _ => True

/-- The data-processing operations with two sources and a destination (42_a32_core_subset.md R960 to R967, R972, R974). -/
inductive Op3 where
  | and | eor | orr | bic | add | sub | rsb | adc | sbc | rsc
  deriving DecidableEq, Repr

/-- The logical operations: their carry is the shifter's (42_a32_core_subset.md R959). -/
def Op3.logical : Op3 → Bool
  | .and | .eor | .orr | .bic => true
  | _ => false

/-- The instruction of an operation, a destination, a first source and a second operand. -/
def Op3.instr (c : Cond) (S : Bool) (rn rd : Reg) : Op3 → Operand2 → Instr
  | .and, .imm r i => .andImm c S rn rd r i
  | .and, .reg i t m => .andReg c S rn rd i t m
  | .and, .rsr rs t m => .andRsr c S rn rd rs t m
  | .eor, .imm r i => .eorImm c S rn rd r i
  | .eor, .reg i t m => .eorReg c S rn rd i t m
  | .eor, .rsr rs t m => .eorRsr c S rn rd rs t m
  | .orr, .imm r i => .orrImm c S rn rd r i
  | .orr, .reg i t m => .orrReg c S rn rd i t m
  | .orr, .rsr rs t m => .orrRsr c S rn rd rs t m
  | .bic, .imm r i => .bicImm c S rn rd r i
  | .bic, .reg i t m => .bicReg c S rn rd i t m
  | .bic, .rsr rs t m => .bicRsr c S rn rd rs t m
  | .add, .imm r i => .addImm c S rn rd r i
  | .add, .reg i t m => .addReg c S rn rd i t m
  | .add, .rsr rs t m => .addRsr c S rn rd rs t m
  | .sub, .imm r i => .subImm c S rn rd r i
  | .sub, .reg i t m => .subReg c S rn rd i t m
  | .sub, .rsr rs t m => .subRsr c S rn rd rs t m
  | .rsb, .imm r i => .rsbImm c S rn rd r i
  | .rsb, .reg i t m => .rsbReg c S rn rd i t m
  | .rsb, .rsr rs t m => .rsbRsr c S rn rd rs t m
  | .adc, .imm r i => .adcImm c S rn rd r i
  | .adc, .reg i t m => .adcReg c S rn rd i t m
  | .adc, .rsr rs t m => .adcRsr c S rn rd rs t m
  | .sbc, .imm r i => .sbcImm c S rn rd r i
  | .sbc, .reg i t m => .sbcReg c S rn rd i t m
  | .sbc, .rsr rs t m => .sbcRsr c S rn rd rs t m
  | .rsc, .imm r i => .rscImm c S rn rd r i
  | .rsc, .reg i t m => .rscReg c S rn rd i t m
  | .rsc, .rsr rs t m => .rscRsr c S rn rd rs t m

/-- The comparisons: two sources, no destination (42_a32_core_subset.md R968 to R971). -/
inductive Op2 where
  | tst | teq | cmp | cmn
  deriving DecidableEq, Repr

/-- The instruction of a comparison, with its should-be-zero field 0. -/
def Op2.instr (c : Cond) (rn : Reg) : Op2 → Operand2 → Instr
  | .tst, .imm r i => .tstImm c rn 0 r i
  | .tst, .reg i t m => .tstReg c rn 0 i t m
  | .tst, .rsr rs t m => .tstRsr c rn 0 rs t m
  | .teq, .imm r i => .teqImm c rn 0 r i
  | .teq, .reg i t m => .teqReg c rn 0 i t m
  | .teq, .rsr rs t m => .teqRsr c rn 0 rs t m
  | .cmp, .imm r i => .cmpImm c rn 0 r i
  | .cmp, .reg i t m => .cmpReg c rn 0 i t m
  | .cmp, .rsr rs t m => .cmpRsr c rn 0 rs t m
  | .cmn, .imm r i => .cmnImm c rn 0 r i
  | .cmn, .reg i t m => .cmnReg c rn 0 i t m
  | .cmn, .rsr rs t m => .cmnRsr c rn 0 rs t m

/-- MOV and the shifts, by their operand (42_a32_core_subset.md R973). -/
def movInstr (c : Cond) (S : Bool) (rd : Reg) : Operand2 → Instr
  | .imm r i => .movImm c S 0 rd r i
  | .reg i t m => match t with
    | .lsl => if i = 0 then .movReg c S rd m else .lslImm c S rd i m
    | .lsr => .lsrImm c S rd i m
    | .asr => .asrImm c S rd i m
    | .ror => if i = 0 then .rrx c S rd m else .rorImm c S rd i m
  | .rsr rs t m => match t with
    | .lsl => .lslReg c S rd rs m
    | .lsr => .lsrReg c S rd rs m
    | .asr => .asrReg c S rd rs m
    | .ror => .rorReg c S rd rs m

/-- MVN, by its operand (42_a32_core_subset.md R975). -/
def mvnInstr (c : Cond) (S : Bool) (rd : Reg) : Operand2 → Instr
  | .imm r i => .mvnImm c S 0 rd r i
  | .reg i t m => .mvnReg c S 0 rd i t m
  | .rsr rs t m => .mvnRsr c S 0 rd rs t m

/-- An unsigned sum does not fit in 32 bits. -/
def carryOut (x y : Word) (c : Bool) : Bool := decide (2 ^ 32 ≤ x.toNat + y.toNat + c.toNat)

/-- An unsigned difference, less a borrow, is not negative. -/
def noBorrow (x y : Word) (borrow : Bool) : Bool := decide (y.toNat + borrow.toNat ≤ x.toNat)

/-- An exact signed result does not fit in 32 bits. -/
def signedOverflow (exact : Int) : Bool := decide (exact < -(2 ^ 31) ∨ 2 ^ 31 ≤ exact)

/-- The result of an operation on the two sources and the old carry (42_a32_core_subset.md R960 to R967, R972, R974). -/
def Op3.value (x y : Word) (c : Bool) : Op3 → Word
  | .and => x &&& y
  | .eor => x ^^^ y
  | .orr => x ||| y
  | .bic => x &&& ~~~ y
  | .add => x + y
  | .sub => x - y
  | .rsb => y - x
  | .adc => x + y + BitVec.ofNat 32 c.toNat
  | .sbc => x - y - BitVec.ofNat 32 (!c).toNat
  | .rsc => y - x - BitVec.ofNat 32 (!c).toNat

/-- The new C flag: of the exact unsigned result, or the shifter's carry `sc`. -/
def Op3.carry (x y : Word) (c sc : Bool) : Op3 → Bool
  | .add => carryOut x y false
  | .sub => noBorrow x y false
  | .rsb => noBorrow y x false
  | .adc => carryOut x y c
  | .sbc => noBorrow x y (!c)
  | .rsc => noBorrow y x (!c)
  | _ => sc

/-- The new V flag: of the exact signed result, or the old V. -/
def Op3.overflow (x y : Word) (c v : Bool) : Op3 → Bool
  | .add => signedOverflow (x.toInt + y.toInt)
  | .sub => signedOverflow (x.toInt - y.toInt)
  | .rsb => signedOverflow (y.toInt - x.toInt)
  | .adc => signedOverflow (x.toInt + y.toInt + c.toNat)
  | .sbc => signedOverflow (x.toInt - y.toInt - (!c).toNat)
  | .rsc => signedOverflow (y.toInt - x.toInt - (!c).toNat)
  | _ => v

/-- The operation whose result a comparison tests (42_a32_core_subset.md R968 to R971). -/
def Op2.op3 : Op2 → Op3
  | .tst => .and | .teq => .eor | .cmp => .sub | .cmn => .add

/-- The state after a result goes to a register (42_a32_core_subset.md R959): with S the flags, then the pc. -/
def State.result (s : State) (S : Bool) (rd : Reg) (r : Word) (c v : Bool) : State :=
  let t := s.setReg rd r
  ((if S then t.setFlags (r.getLsbD 31) (decide (r = 0)) c v else t).setPc (s.pc + 4))

/-- The state after a comparison: the flags, then the pc. -/
def State.compared (s : State) (r : Word) (c v : Bool) : State :=
  (s.setFlags (r.getLsbD 31) (decide (r = 0)) c v).setPc (s.pc + 4)

/-- The state after a value goes to a register, no flag. -/
def State.wrote (s : State) (rd : Reg) (v : Word) : State := (s.setReg rd v).setPc (s.pc + 4)

/-! ### Memory accesses -/

/-- An access is admitted and main memory serves it: aligned to its size, in no TCM, not through the data cache, not in the
peripheral-port range or the debug window, with no error response (20_memory.md R289 lines 5 to 7), and its lookup in the
duplicate tag RAM finds no error (61_scu.md R582). -/
def Plain (s : State) (k : AccessKind) (acc : Access) (a : Word) : Prop :=
  a.toNat % acc.size = 0 ∧ tcmClash s = false ∧ inItcm s a = false ∧ inDtcm s a = false ∧ inPeripheral s.cfg a = false ∧
    inWindow s.cfg a = false ∧ busError s acc.form a acc.size = none ∧ scuFinds s a = false ∧
    ∃ attr, admission k acc a s = .ok attr ∧ (dcacheOn s && cacheable s attr) = false

/-- The value main memory holds at an address, in the byte order of CPSR.E. -/
def State.memValue (s : State) (a : Word) (n : Nat) : Word := valueOf s.bigEndian (memBytes s.mem a.toNat n)

/-- The state with a value stored in main memory, in the byte order of CPSR.E; its word is not synchronised with instruction
fetch, which may find the old or the new one (20_memory.md R281, U26; log entry 80), and no DSB came since
(70_reset_and_hazards.md R862; log entry 79). -/
def State.stored (s : State) (a : Word) (n : Nat) (v : Word) : State :=
  let m := storeBytes s.mem a.toNat (bytesOf s.bigEndian n v)
  let k := a.toNat / 4
  { s with mem := m
           upkeep := { s.upkeep with dsb := false }
           unsynced := noteStored (codeMemory s (BitVec.ofNat 32 (4 * k))) k (leWord (memBytes s.mem (4 * k) 4))
             (leWord (memBytes m (4 * k) 4)) s.unsynced }

/-- With write-back, the base is neither R15 nor the register loaded or stored (42_a32_core_subset.md R957). -/
def baseAllowed (p w : Bool) (rn rt : Reg) : Prop := (!p || w) = true → rn ≠ 15 ∧ rn ≠ rt

/-- The state with an access's write-back done. -/
def State.withBase (s : State) (rn : Reg) (ad : Address) : State :=
  if ad.writeback then s.setReg rn ad.offsetAddr else s

/-- The single loads by their offset form (42_a32_core_subset.md R1014, R1016, R1018, R1020, R1021). -/
inductive SingleLoad where
  | ldrImm (imm12 : BitVec 12) | ldrReg (imm5 : BitVec 5) (ty : ShiftType) (rm : Reg)
  | ldrbImm (imm12 : BitVec 12) | ldrbReg (imm5 : BitVec 5) (ty : ShiftType) (rm : Reg)
  | ldrhImm (imm4H imm4L : BitVec 4) | ldrhReg (rm : Reg)
  | ldrsbImm (imm4H imm4L : BitVec 4) | ldrsbReg (rm : Reg)
  | ldrshImm (imm4H imm4L : BitVec 4) | ldrshReg (rm : Reg)
  deriving DecidableEq, Repr

/-- The instruction of a single load. -/
def SingleLoad.instr (c : Cond) (p u w : Bool) (rn rt : Reg) : SingleLoad → Instr
  | .ldrImm i => .ldrImm c p u w rn rt i
  | .ldrReg i t m => .ldrReg c p u w rn rt i t m
  | .ldrbImm i => .ldrbImm c p u w rn rt i
  | .ldrbReg i t m => .ldrbReg c p u w rn rt i t m
  | .ldrhImm h l => .ldrhImm c p u w rn rt h l
  | .ldrhReg m => .ldrhReg c p u w rn rt m
  | .ldrsbImm h l => .ldrsbImm c p u w rn rt h l
  | .ldrsbReg m => .ldrsbReg c p u w rn rt m
  | .ldrshImm h l => .ldrshImm c p u w rn rt h l
  | .ldrshReg m => .ldrshReg c p u w rn rt m

/-- The bytes a single load reads. -/
def SingleLoad.size : SingleLoad → Nat
  | .ldrImm _ | .ldrReg _ _ _ => 4
  | .ldrbImm _ | .ldrbReg _ _ _ | .ldrsbImm _ _ | .ldrsbReg _ => 1
  | _ => 2

/-- The register of what a single load read: signed loads extend the sign. -/
def SingleLoad.extend (v : Word) : SingleLoad → Word
  | .ldrsbImm _ _ | .ldrsbReg _ => BitVec.ofInt 32 (v.setWidth 8).toInt
  | .ldrshImm _ _ | .ldrshReg _ => BitVec.ofInt 32 (v.setWidth 16).toInt
  | _ => v

/-- The offset of a single load. -/
def SingleLoad.offset (s : State) : SingleLoad → Word
  | .ldrImm i | .ldrbImm i => i.setWidth 32
  | .ldrReg i t m | .ldrbReg i t m => (immShiftC (s.reg m) t i s.flagC).1
  | .ldrhImm h l | .ldrsbImm h l | .ldrshImm h l => (h ++ l).setWidth 32
  | .ldrhReg m | .ldrsbReg m | .ldrshReg m => s.reg m

/-- The forms whose privilege is the mode's: not P = 0 with W = 1 (42_a32_core_subset.md R957). -/
def ordinary (p w : Bool) : Prop := p = true ∨ w = false

/-- The offset register is not R15. -/
def SingleLoad.allowed : SingleLoad → Prop
  | .ldrReg _ _ m | .ldrbReg _ _ m | .ldrhReg m | .ldrsbReg m | .ldrshReg m => m ≠ 15
  | _ => True

/-- The single stores by their offset form (42_a32_core_subset.md R1015, R1017, R1019). -/
inductive SingleStore where
  | strImm (imm12 : BitVec 12) | strReg (imm5 : BitVec 5) (ty : ShiftType) (rm : Reg)
  | strbImm (imm12 : BitVec 12) | strbReg (imm5 : BitVec 5) (ty : ShiftType) (rm : Reg)
  | strhImm (imm4H imm4L : BitVec 4) | strhReg (rm : Reg)
  deriving DecidableEq, Repr

/-- The instruction of a single store. -/
def SingleStore.instr (c : Cond) (p u w : Bool) (rn rt : Reg) : SingleStore → Instr
  | .strImm i => .strImm c p u w rn rt i
  | .strReg i t m => .strReg c p u w rn rt i t m
  | .strbImm i => .strbImm c p u w rn rt i
  | .strbReg i t m => .strbReg c p u w rn rt i t m
  | .strhImm h l => .strhImm c p u w rn rt h l
  | .strhReg m => .strhReg c p u w rn rt m

/-- The bytes a single store writes. -/
def SingleStore.size : SingleStore → Nat
  | .strImm _ | .strReg _ _ _ => 4
  | .strbImm _ | .strbReg _ _ _ => 1
  | _ => 2

/-- The offset of a single store. -/
def SingleStore.offset (s : State) : SingleStore → Word
  | .strImm i | .strbImm i => i.setWidth 32
  | .strReg i t m | .strbReg i t m => (immShiftC (s.reg m) t i s.flagC).1
  | .strhImm h l => (h ++ l).setWidth 32
  | .strhReg m => s.reg m

/-- No R15 where it is UNPREDICTABLE: the offset register, and Rt of the narrow stores. -/
def SingleStore.allowed (rt : Reg) : SingleStore → Prop
  | .strImm _ => True
  | .strReg _ _ m => m ≠ 15
  | .strbImm _ | .strhImm _ _ => rt ≠ 15
  | .strbReg _ _ m | .strhReg m => rt ≠ 15 ∧ m ≠ 15

/-- The registers of a list with the addresses of their words, the lowest register at the lowest address
(42_a32_core_subset.md R1024). -/
def listAddresses (a : Word) : List Reg → List (Reg × Word)
  | [] => []
  | r :: rs => (r, a) :: listAddresses (a + 4) rs

/-- The state with the words of a list loaded into the registers of a mode. -/
def State.loadedFrom (m : Mode) (mem : State) : List (Reg × Word) → State → State
  | [], s => s
  | (r, a) :: rest, s => State.loadedFrom m mem rest (s.setRegIn m r (mem.memValue a 4))

/-- The state with the registers of a mode stored at the addresses of a list; R15 as the instruction's address plus 8. -/
def State.storedTo (m : Mode) (regs : State) : List (Reg × Word) → State → State
  | [], s => s
  | (r, a) :: rest, s => State.storedTo m regs rest (s.stored a 4 (regs.regIn m r))

/-! ### VFP -/

/-- The FPU is built, and CPACR gives the mode access (12_fpu_registers.md R231). -/
def VfpAdmitted (s : State) : Prop :=
  s.cfg.fpu ≠ .none ∧ s.cp15.cpacr.extractLsb' 20 2 = s.cp15.cpacr.extractLsb' 22 2 ∧
    (s.cp15.cpacr.extractLsb' 20 2 = 3 ∨ s.cp15.cpacr.extractLsb' 20 2 = 1 ∧ s.privileged = true)

/-- The FPU is built, CPACR gives the mode access, and it is enabled (43_vfp_instructions.md R1042). -/
def VfpReady (s : State) : Prop := VfpAdmitted s ∧ s.fpu.fpexc.getLsbD 30 = true

/-- A data-processing instruction of the precision `sz` runs: no short vectors, and the FPU has the precision. -/
def VfpRuns (s : State) (sz : Bool) : Prop :=
  VfpReady s ∧ s.fpu.fpscr.extractLsb' 16 3 = 0 ∧ (sz = true → s.cfg.fpu = .double)

/-- CPACR denies the mode, or there is no FPU (12_fpu_registers.md R231). -/
def VfpDenied (s : State) : Prop :=
  s.cfg.fpu = .none ∨ s.cp15.cpacr.extractLsb' 20 2 = s.cp15.cpacr.extractLsb' 22 2 ∧
    (s.cp15.cpacr.extractLsb' 20 2 = 0 ∨ s.cp15.cpacr.extractLsb' 20 2 = 1 ∧ s.privileged = false)

/-- The instruction is no Undefined Instruction for FPEXC.EN being 0: VMRS or VMSR of FPSID, MVFR1, MVFR0 or FPEXC in a
privileged mode (12_fpu_registers.md R221, R230), or of a number that names no register, which is UNPREDICTABLE
(40_system_register_access.md R450, R451; 93_implementation_defined.md U61; log entry 21). -/
def reachesDisabled (s : State) : Instr → Bool
  | .vmrs _ reg _ | .vmsr _ reg _ => reg != 1 && (s.privileged || !([0, 6, 7, 8].contains reg.toNat))
  | _ => false

/-- The instruction names a register D16 to D31, or computes in double precision where the FPU has single precision only
(43_vfp_instructions.md R1041, R1042). -/
def lacksRegister (cfg : Config) : Instr → Bool
  | .vadd _ d _ _ sz n m _ | .vsub _ d _ _ sz n m _ | .vmul _ d _ _ sz n m _ | .vnmul _ d _ _ sz n m _
  | .vmla _ d _ _ sz n m _ | .vmls _ d _ _ sz n m _ | .vnmla _ d _ _ sz n m _ | .vnmls _ d _ _ sz n m _
  | .vdiv _ d _ _ sz n m _ => sz && (d || n || m || cfg.fpu == .single)
  | .vmovReg _ d _ sz m _ | .vabs _ d _ sz m _ | .vneg _ d _ sz m _ | .vsqrt _ d _ sz m _
  | .vcmpReg _ d _ sz _ m _ => sz && (d || m || cfg.fpu == .single)
  | .vmovImm _ d _ _ sz _ _ _ | .vcmpZero _ d _ sz _ _ _ | .vcvtIntToFp _ d _ sz _ _ _
  | .vcvtFixed _ d _ _ _ sz _ _ _ => sz && (d || cfg.fpu == .single)
  | .vcvtDoubleSingle _ d _ sz m _ => (if sz then m else d) || cfg.fpu == .single
  | .vcvtFpToInt _ _ _ _ sz _ m _ => sz && (m || cfg.fpu == .single)
  | .vldr _ _ d _ _ sz _ | .vstr _ _ d _ _ sz _ | .vldmIa _ d _ _ _ sz _ | .vldmDb _ d _ _ sz _ | .vstmIa _ d _ _ _ sz _
  | .vstmDb _ d _ _ sz _ | .vpop _ d _ sz _ | .vpush _ d _ sz _ => sz && d
  | .vmovCoreDouble _ _ _ _ m _ => m
  | .vmovCoreToHalf _ _ _ _ d _ => d
  | .vmovHalfToCore _ _ _ _ n _ => n
  | _ => false

/-- The state with another FPSCR. -/
def State.setFpscr (s : State) (w : Word) : State := { s with fpu := { s.fpu with fpscr := w } }

/-- The pattern in the register a field pair names. -/
def State.fp (s : State) (sz : Bool) (v : BitVec 4) (b : Bool) : Nat :=
  if sz then (s.double v).toNat else (s.single (singleNumber v b)).toNat

/-- The state with a pattern in the register a field pair names. -/
def State.setFp (s : State) (sz : Bool) (v : BitVec 4) (b : Bool) (x : Nat) : State :=
  if sz then s.setDouble v (BitVec.ofNat 64 x) else s.setSingle (singleNumber v b) (BitVec.ofNat 32 x)

/-- The state after a result with its FPSCR goes to the register a field pair names. -/
def State.fpResult (s : State) (sz : Bool) (v : BitVec 4) (b : Bool) (r : Nat × Word) : State :=
  ((s.setFpscr r.2).setFp sz v b r.1).setPc (s.pc + 4)

/-- The VFP operations on three registers (43_vfp_instructions.md R1060 to R1068). -/
inductive VfpOp where
  | vadd | vsub | vmul | vnmul | vmla | vmls | vnmla | vnmls | vdiv
  deriving DecidableEq, Repr

/-- The instruction of an operation on three registers. -/
def VfpOp.instr (c : Cond) (d : Bool) (vn vd : BitVec 4) (sz n m : Bool) (vm : BitVec 4) : VfpOp → Instr
  | .vadd => .vadd c d vn vd sz n m vm
  | .vsub => .vsub c d vn vd sz n m vm
  | .vmul => .vmul c d vn vd sz n m vm
  | .vnmul => .vnmul c d vn vd sz n m vm
  | .vmla => .vmla c d vn vd sz n m vm
  | .vmls => .vmls c d vn vd sz n m vm
  | .vnmla => .vnmla c d vn vd sz n m vm
  | .vnmls => .vnmls c d vn vd sz n m vm
  | .vdiv => .vdiv c d vn vd sz n m vm

/-- What an operation on three registers computes of the destination and the sources: each product is rounded before the
sum (43_vfp_instructions.md R1060 to R1068). -/
def VfpOp.compute (f : Format) (acc x y : Nat) : VfpOp → Fp Nat
  | .vadd => fpAdd f x y
  | .vsub => fpSub f x y
  | .vmul => fpMul f x y
  | .vnmul => fpMul f x y >>= fun p => pure (fpNeg f p)
  | .vmla => fpMul f x y >>= fun p => fpAdd f acc p
  | .vmls => fpMul f x y >>= fun p => fpAdd f acc (fpNeg f p)
  | .vnmla => fpMul f x y >>= fun p => fpAdd f (fpNeg f acc) (fpNeg f p)
  | .vnmls => fpMul f x y >>= fun p => fpAdd f (fpNeg f acc) p
  | .vdiv => fpDiv f x y

/-- A VFP instruction by its word: the coprocessor classes with coprocessor 10 or 11, not SVC, not unconditional
(30_encoding.md R426). -/
def InVfpSpace (i : Instr) : Prop :=
  encode i &&& 0x0C000E00 = 0x0C000A00 ∧ encode i &&& 0x0F000000 ≠ 0x0F000000 ∧ encode i &&& 0xF0000000 ≠ 0xF0000000

/-- The pattern of one register's worth of main memory: a word, or the two words of a doubleword. -/
def State.fpMem (s : State) (sz : Bool) (a : Word) : Nat :=
  if sz then (joinWords s.bigEndian (s.memValue a 4) (s.memValue (a + 4) 4)).toNat else (s.memValue a 4).toNat

/-- The state with one register's worth stored in main memory. -/
def State.fpStored (s : State) (sz : Bool) (a : Word) (x : Nat) : State :=
  if sz then
    (s.stored a 4 (wordOfDouble s.bigEndian false (BitVec.ofNat 64 x))).stored (a + 4) 4
      (wordOfDouble s.bigEndian true (BitVec.ofNat 64 x))
  else s.stored a 4 (BitVec.ofNat 32 x)

/-- The bytes of one VFP register. -/
def fpBytes (sz : Bool) : Word := if sz then 8 else 4

/-- The state with `n` VFP registers from number `r` on loaded from rising addresses of the memory of `m`. -/
def State.fpLoaded (m : State) (sz : Bool) : Nat → Nat → Word → State → State
  | _, 0, _, s => s
  | r, n + 1, a, s =>
    State.fpLoaded m sz (r + 1) n (a + fpBytes sz) (s.setFp sz (listField sz r).1 (listField sz r).2 (m.fpMem sz a))

/-- The state with `n` VFP registers of `m` from number `r` on stored at rising addresses. -/
def State.fpStoredList (m : State) (sz : Bool) : Nat → Nat → Word → State → State
  | _, 0, _, s => s
  | r, n + 1, a, s =>
    State.fpStoredList m sz (r + 1) n (a + fpBytes sz) (s.fpStored sz a (m.fp sz (listField sz r).1 (listField sz r).2))

/-- The addresses of the words of an access of `n` words. -/
def wordAddresses (a : Word) : Nat → List Word
  | 0 => []
  | n + 1 => a :: wordAddresses (a + 4) n

/-- Every word of an access of `n` words is admitted and served by main memory. -/
def PlainWords (s : State) (k : AccessKind) (a : Word) (n : Nat) : Prop :=
  ∀ x ∈ wordAddresses a n, Plain s k (multiple s.privileged) x

/-! ### Shifts, data processing and returns -/

/-- One step of a shift by a register, by one place, on a value and its shifter carry (42_a32_core_subset.md R952). -/
def shiftStep (ty : ShiftType) (p : Word × Bool) : Word × Bool :=
  match ty with
  | .lsl => (p.1 <<< 1, p.1.getLsbD 31)
  | .lsr => (p.1 >>> 1, p.1.getLsbD 0)
  | .asr => (p.1.sshiftRight 1, p.1.getLsbD 0)
  | .ror => (p.1.rotateRight 1, p.1.getLsbD 0)

/-- A shift by `n` places, one place at a time. -/
def shiftSteps (ty : ShiftType) : Nat → Word × Bool → Word × Bool
  | 0, p => p
  | n + 1, p => shiftSteps ty n (shiftStep ty p)

/-- The data-processing instructions with a destination. -/
inductive Compute where
  | op (o : Op3) (rn : Reg)
  | mov
  | mvn
  deriving DecidableEq, Repr

/-- The instruction of a computation. -/
def Compute.instr (c : Cond) (S : Bool) (rd : Reg) : Compute → Operand2 → Instr
  | .op o rn, x => o.instr c S rn rd x
  | .mov, x => movInstr c S rd x
  | .mvn, x => mvnInstr c S rd x

/-- The result of a computation. -/
def Compute.value (s : State) (x : Operand2) : Compute → Word
  | .op o rn => o.value (s.reg rn) (x.value s).1 s.flagC
  | .mov => (x.value s).1
  | .mvn => ~~~ (x.value s).1

/-- The operand is not the register-shifted form. -/
def Operand2.notShiftedByRegister : Operand2 → Prop
  | .rsr _ _ _ => False
  | _ => True

/-- A status word that a return may put in CPSR: ARM state, a mode (60_exceptions.md R565, U10, D83). -/
def Returnable (psr : Word) : Prop := notArm psr = false ∧ (Mode.ofBits (modeField psr)).isSome = true

/-- The state after a return: CPSR whole but for its reserved bits, F not set under NMFI, and the pc aligned
(60_exceptions.md R541, R565). -/
def State.returned (s : State) (psr target : Word) : State :=
  { s with cpsr := setBit (psr &&& 0xFF0FFFFF) 6 (psr.getLsbD 6 && (!s.nmfi || s.cpsr.getLsbD 6)),
           pc := target &&& 0xFFFFFFFC }

/-- A 64-bit result in two registers, with S its N and Z, then the pc (42_a32_core_subset.md R996). -/
def State.wide (s : State) (S : Bool) (rdHi rdLo : Reg) (p : BitVec 64) : State :=
  let t := (s.setReg rdHi (p.extractLsb' 32 32)).setReg rdLo (p.extractLsb' 0 32)
  ((if S then t.setFlags (p.getLsbD 63) (decide (p = 0)) s.flagC s.flagV else t).setPc (s.pc + 4))

/-! ### System registers -/

/-- A register of the error checking: without ECC it reads as zero (11_cp15_registers.md R178, R182, R183). -/
def ifEcc (s : State) (v : Word) : Word := if s.cfg.ecc then v else 0

/-- CCSIDR: the cache that CSSELR selects (11_cp15_registers.md R111; D1). -/
def ccsidr (s : State) : Word :=
  if s.cp15.csselr.getLsbD 0 then
    if s.cfg.icache = .none then Config.ccsidrUnbuilt true else ccsidrValue s.cfg.icache true
  else if s.cfg.dcache = .none then Config.ccsidrUnbuilt false else ccsidrValue s.cfg.dcache false

/-- What a privileged MRC reads from the selectors (op1, CRn, CRm, op2) of CP15 that are plain registers
(11_cp15_registers.md R103 to R190). -/
def cp15Values (s : State) : List ((Nat × Nat × Nat × Nat) × Word) := [
  ((0, 0, 0, 2), tcmtrValue s.cfg), ((0, 0, 1, 2), 0x10404), ((0, 0, 1, 3), 0), ((0, 0, 1, 5), 0),
  ((0, 0, 1, 6), 0x01200000), ((0, 0, 1, 7), 0x2111), ((0, 0, 2, 1), 0x13112111), ((0, 0, 2, 2), 0x21232141),
  ((0, 0, 2, 3), 0x01112131), ((1, 0, 0, 0), ccsidr s), ((1, 0, 0, 7), 0), ((0, 15, 1, 3), ifEcc s s.cp15.raeccr),
  ((0, 15, 2, 0), ifEcc s s.cp15.deer[0]), ((0, 15, 2, 1), ifEcc s s.cp15.deer[1]), ((0, 15, 2, 2), ifEcc s s.cp15.deer[2]),
  ((0, 15, 3, 0), ifEcc s s.cp15.ieer[0]), ((0, 15, 3, 1), ifEcc s s.cp15.ieer[1]), ((0, 15, 3, 2), ifEcc s s.cp15.ieer[2]),
  ((0, 15, 4, 0), ifEcc s (if s.cfg.dtcm = .none then 0 else s.cp15.dtcmeer &&& 0x0201FFFF)),
  ((0, 15, 5, 0), ifEcc s (if s.cfg.itcm = .none then 0 else s.cp15.itcmeer &&& 0x0201FFFF)),
  ((4, 15, 0, 0), privateBase s.cfg),
  ((0, 0, 0, 0), 0x410FC171), ((0, 0, 0, 1), 0x8333C003), ((0, 0, 0, 4), mpuirValue s.cfg),
  ((0, 0, 0, 5), mpidrValue s.cfg), ((0, 0, 0, 6), s.cfg.revidr), ((0, 0, 1, 0), 0x131), ((0, 0, 1, 1), 0x1),
  ((0, 0, 1, 4), 0x110130), ((0, 0, 2, 0), 0x02101111), ((0, 0, 2, 4), 0x10142), ((1, 0, 0, 1), clidrValue s.cfg),
  ((2, 0, 0, 0), s.cp15.csselr), ((0, 1, 0, 0), s.cp15.sctlr), ((0, 1, 0, 1), s.cp15.actlr),
  ((0, 1, 0, 2), s.cp15.cpacr), ((0, 5, 0, 0), s.cp15.dfsr), ((0, 5, 0, 1), s.cp15.ifsr), ((0, 6, 0, 0), s.cp15.dfar),
  ((0, 6, 0, 2), s.cp15.ifar), ((0, 6, 2, 0), s.cp15.rgnr), ((0, 9, 1, 0), s.cp15.dtcmrr), ((0, 9, 1, 1), s.cp15.itcmrr),
  ((0, 9, 12, 0), s.pmu.pmcr), ((0, 9, 12, 1), s.pmu.cnten), ((0, 9, 12, 2), s.pmu.cnten), ((0, 9, 12, 3), s.pmu.ovsr),
  ((0, 9, 12, 5), s.pmu.selr), ((0, 9, 13, 0), s.pmu.ccntr), ((0, 9, 14, 0), s.pmu.userenr), ((0, 9, 14, 1), s.pmu.inten),
  ((0, 9, 14, 2), s.pmu.inten), ((0, 13, 0, 1), s.cp15.contextidr), ((0, 13, 0, 2), s.cp15.tpidrurw),
  ((0, 13, 0, 3), s.cp15.tpidruro), ((0, 13, 0, 4), s.cp15.tpidrprw), ((0, 15, 0, 0), s.cp15.pcr),
  ((0, 15, 1, 1), s.cp15.radrlo), ((0, 15, 1, 2), s.cp15.radrhi)]

/-- What a privileged MCR of `v` to a selector of CP15 makes of the CP15 registers, where it is plain storage of the bits
the register has (11_cp15_registers.md R120 to R184). -/
def cp15Stores (s : State) (v : Word) : List ((Nat × Nat × Nat × Nat) × Cp15) := [
  ((2, 0, 0, 0), { s.cp15 with csselr := maskWrite s.cp15.csselr v 1 }),
  ((0, 5, 0, 0), { s.cp15 with dfsr := maskWrite s.cp15.dfsr v 0x1C0F }),
  ((0, 5, 0, 1), { s.cp15 with ifsr := maskWrite s.cp15.ifsr v 0x140F }),
  ((0, 6, 0, 0), { s.cp15 with dfar := v }), ((0, 6, 0, 2), { s.cp15 with ifar := v }),
  ((0, 13, 0, 1), { s.cp15 with contextidr := v }), ((0, 13, 0, 2), { s.cp15 with tpidrurw := v }),
  ((0, 13, 0, 3), { s.cp15 with tpidruro := v }), ((0, 13, 0, 4), { s.cp15 with tpidrprw := v }),
  ((0, 15, 0, 0), { s.cp15 with pcr := maskWrite s.cp15.pcr v 1 }),
  ((0, 15, 1, 1), { s.cp15 with radrlo := v }), ((0, 15, 1, 2), { s.cp15 with radrhi := v }),
  ((0, 15, 1, 3), { s.cp15 with raeccr := ifEcc s (v &&& 0x7F) }),
  ((0, 15, 2, 0), if s.cfg.ecc then { s.cp15 with deer := s.cp15.deer.set 0 (v &&& 0xF2073FFF) } else s.cp15),
  ((0, 15, 2, 1), if s.cfg.ecc then { s.cp15 with deer := s.cp15.deer.set 1 (v &&& 0xF2073FFF) } else s.cp15),
  ((0, 15, 2, 2), if s.cfg.ecc then { s.cp15 with deer := s.cp15.deer.set 2 (v &&& 0xF2073FFF) } else s.cp15),
  ((0, 15, 3, 0), if s.cfg.ecc then { s.cp15 with ieer := s.cp15.ieer.set 0 (v &&& 0xF2003FFF) } else s.cp15),
  ((0, 15, 3, 1), if s.cfg.ecc then { s.cp15 with ieer := s.cp15.ieer.set 1 (v &&& 0xF2003FFF) } else s.cp15),
  ((0, 15, 3, 2), if s.cfg.ecc then { s.cp15 with ieer := s.cp15.ieer.set 2 (v &&& 0xF2003FFF) } else s.cp15),
  ((0, 15, 4, 0), { s.cp15 with dtcmeer := ifEcc s (if s.cfg.dtcm = .none then 0 else v &&& 0x0201FFFF) }),
  ((0, 15, 5, 0), { s.cp15 with itcmeer := ifEcc s (if s.cfg.itcm = .none then 0 else v &&& 0x0201FFFF) })]

/-- What a privileged MCR of `v` to a selector makes of the PMU's registers: PMCR stores E, D, X and DP and with P and C
clears the counters, the enables and flags are set or cleared by ones, PMSELR keeps five bits (64_debug_pmu.md R731, R738; the
fields by log entry 58). -/
def pmuStores (s : State) (v : Word) : List ((Nat × Nat × Nat × Nat) × Pmu) := [
  ((0, 9, 12, 0), { s.pmu with
    pmcr := maskWrite s.pmu.pmcr v 0x39
    evcntr := if v.getLsbD 1 then Vector.replicate 8 0 else s.pmu.evcntr
    ccntr := if v.getLsbD 2 then 0 else s.pmu.ccntr }),
  ((0, 9, 12, 1), { s.pmu with cnten := s.pmu.cnten ||| (v &&& 0x800000FF) }),
  ((0, 9, 12, 2), { s.pmu with cnten := s.pmu.cnten &&& ~~~ v }),
  ((0, 9, 12, 3), { s.pmu with ovsr := s.pmu.ovsr &&& ~~~ v }),
  ((0, 9, 12, 5), { s.pmu with selr := v &&& 0x1F }), ((0, 9, 13, 0), { s.pmu with ccntr := v }),
  ((0, 9, 14, 0), { s.pmu with userenr := v &&& 1 }),
  ((0, 9, 14, 1), { s.pmu with inten := s.pmu.inten ||| (v &&& 0x800000FF) }),
  ((0, 9, 14, 2), { s.pmu with inten := s.pmu.inten &&& ~~~ v })]

/-- The selectors of CP15 that User mode may read whatever PMUSERENR says (40_system_register_access.md R434). -/
def userReads : List (Nat × Nat × Nat × Nat) := [(0, 13, 0, 2), (0, 13, 0, 3), (0, 9, 14, 0)]

/-- The selectors of CP15 that User mode may write whatever PMUSERENR says (40_system_register_access.md R434). -/
def userWrites : List (Nat × Nat × Nat × Nat) := [(0, 13, 0, 2), (0, 7, 5, 4), (0, 7, 10, 4), (0, 7, 10, 5)]

/-- The PMU selectors that PMUSERENR.EN opens to User mode (40_system_register_access.md R434). -/
def userPmu : List (Nat × Nat × Nat × Nat) := [(0, 9, 12, 0), (0, 9, 12, 1), (0, 9, 12, 2), (0, 9, 12, 3), (0, 9, 12, 4),
  (0, 9, 12, 5), (0, 9, 13, 0), (0, 9, 13, 1), (0, 9, 13, 2)]

/-- A selector as the four numbers of its fields. -/
def selectorOf (op1 : BitVec 3) (crn crm : BitVec 4) (op2 : BitVec 3) : Nat × Nat × Nat × Nat :=
  (op1.toNat, crn.toNat, crm.toNat, op2.toNat)

/-- MRC p15 of a selector. -/
def mrcOf (c : Cond) (rt : Reg) (x : Nat × Nat × Nat × Nat) : Instr :=
  .mrcP15 c (BitVec.ofNat 3 x.1) (BitVec.ofNat 4 x.2.1) rt (BitVec.ofNat 3 x.2.2.2) (BitVec.ofNat 4 x.2.2.1)

/-- MCR p15 of a selector. -/
def mcrOf (c : Cond) (rt : Reg) (x : Nat × Nat × Nat × Nat) : Instr :=
  .mcrP15 c (BitVec.ofNat 3 x.1) (BitVec.ofNat 4 x.2.1) rt (BitVec.ofNat 3 x.2.2.2) (BitVec.ofNat 4 x.2.2.1)

/-- The state with other CP15 registers. -/
def State.setCp15 (s : State) (c : Cp15) : State := { s with cp15 := c }

/-- The state with other debug registers. -/
def State.setDebug (s : State) (d : Debug) : State := { s with dbg := d }

/-- The state with the local exclusive monitor open or exclusive. -/
def State.setMonitor (s : State) (b : Bool) : State := { s with monitor := b }

/-- The state with another CPSR. -/
def State.setCpsr (s : State) (w : Word) : State := { s with cpsr := w }

/-- The state with other PMU registers. -/
def State.setPmuRegs (s : State) (p : Pmu) : State := { s with pmu := p }

/-! ### Cache maintenance -/

/-- A write-back of the line at an address goes to main memory, and its lookup in the duplicate tag RAM finds no error
(61_scu.md R582). -/
def LinePlain (s : State) (a : Word) : Prop :=
  inPeripheral s.cfg a = false ∧ inWindow s.cfg a = false ∧ busError s .single a 32 = none ∧ scuFinds s a = false

/-- The address of the line in a way and set of the data cache. -/
def State.lineAt (s : State) (way set : Nat) : Word :=
  lineAddress (setBits s.cfg.dcache) (sparseRead s.dcache.tag (lineIndex way set)) set

/-- The line in a way and set of the data cache is valid and dirty (20_memory.md R265). -/
def State.lineDirty (s : State) (way set : Nat) : Bool :=
  let t := sparseRead s.dcache.tag (lineIndex way set)
  t.getLsbD 22 && t.getLsbD 25

/-- The bit of a line in one bit a line. -/
def lineBit (v : Vector Word 64) (line : Nat) : Bool := (v[Fin.ofNat 64 (line / 32)]).getLsbD (line % 32)

/-- `t` is `s` after the line in a way and set of the data cache was cleaned, dropped (invalidated), or both
(20_memory.md R255): a dirty line is written to memory by a clean; a drop takes its entry out of the duplicate tag RAM too
(61_scu.md R582). Nothing else changes. -/
structure LineDone (s t : State) (way set : Nat) (clean drop : Bool) : Prop where
  mem : t.mem = if clean && s.lineDirty way set then
    storeBytes s.mem (s.lineAt way set).toNat (lineBytes s.dcache (lineIndex way set) 0 32) else s.mem
  tag : sparseRead t.dcache.tag (lineIndex way set) =
    sparseRead s.dcache.tag (lineIndex way set) &&&
      (if drop then 0xFDBFFFFF else if clean && s.lineDirty way set then 0xFDFFFFFF else 0xFFFFFFFF)
  otherTags : ∀ k, k ≠ lineIndex way set → sparseRead t.dcache.tag k = sparseRead s.dcache.tag k
  entry : drop = true → sparseRead t.scu.tags (((if s.cfg.cpu then 1 else 0) * 4 + way) * 512 + set) = 0
  otherEntries : ∀ k, (drop = true → k ≠ ((if s.cfg.cpu then 1 else 0) * 4 + way) * 512 + set) →
    sparseRead t.scu.tags k = sparseRead s.scu.tags k
  rest : t = { s with
    mem := t.mem
    dcache := { s.dcache with tag := t.dcache.tag }
    scu := { s.scu with tags := t.scu.tags, tagChunks := t.scu.tagChunks } }

/-- What a direct access `v` to a RAM word leaves when it reads and when it writes, in a build without ECC
(11_cp15_registers.md R176, R177): a word of the DTCM, a doubleword of the ITCM, a word or a tag of the data cache, a
doubleword of the instruction cache. A TCM's hole and an address past its size are as log entry 68 has them. -/
inductive DirectAccess (s : State) (v : Word) : State → State → Prop where
  | dtcm (off : Nat) (unit : v.getLsbD 22 = true ∧ v.getLsbD 20 = false) (built : s.cfg.dtcm ≠ .none)
      (place : tcmPlace s.cfg.dtcmBuild ((v.extractLsb' 2 15).toNat * 4) = some off) :
      DirectAccess s v
        (s.setCp15 { s.cp15 with radrlo := tcmWord s.dtcm.bytes off, radrhi := 0, raeccr := 0 })
        { s with dtcm := { s.dtcm with bytes := storeBytes s.dtcm.bytes off (bytesOfWord s.cp15.radrlo) }
                 cp15 := { s.cp15 with radrhi := 0 } }
  | itcm (off : Nat) (unit : v.getLsbD 22 = true ∧ v.getLsbD 20 = true) (built : s.cfg.itcm ≠ .none)
      (place : tcmPlace s.cfg.itcmBuild ((v.extractLsb' 3 14).toNat * 8) = some off) :
      DirectAccess s v
        (s.setCp15 { s.cp15 with radrlo := tcmWord s.itcm.bytes off, radrhi := tcmWord s.itcm.bytes (off + 4), raeccr := 0 })
        { s with itcm := { s.itcm with
            bytes := storeBytes s.itcm.bytes off (bytesOfWord s.cp15.radrlo ++ bytesOfWord s.cp15.radrhi) } }
  | dtcmHole (unit : v.getLsbD 22 = true ∧ v.getLsbD 20 = false) (built : s.cfg.dtcm ≠ .none)
      (place : tcmPlace s.cfg.dtcmBuild ((v.extractLsb' 2 15).toNat * 4) = none) :
      DirectAccess s v (s.setCp15 { s.cp15 with radrlo := 0, radrhi := 0, raeccr := 0 })
        (s.setCp15 { s.cp15 with radrhi := 0 })
  | itcmHole (unit : v.getLsbD 22 = true ∧ v.getLsbD 20 = true) (built : s.cfg.itcm ≠ .none)
      (place : tcmPlace s.cfg.itcmBuild ((v.extractLsb' 3 14).toNat * 8) = none) :
      DirectAccess s v (s.setCp15 { s.cp15 with radrlo := 0, radrhi := 0, raeccr := 0 }) s
  | data (line key : Nat) (unit : v.getLsbD 22 = false ∧ v.getLsbD 20 = false) (array : v.getLsbD 21 = true)
      (built : s.cfg.dcache ≠ .none) (inside : (v.extractLsb' 5 9).toNat < 2 ^ setBits s.cfg.dcache)
      (place : line = lineIndex (v.extractLsb' 30 2).toNat (v.extractLsb' 5 9).toNat)
      (word : key = line * 8 + (v.extractLsb' 2 3).toNat) :
      DirectAccess s v
        (s.setCp15 { s.cp15 with radrlo := sparseRead s.dcache.data key, radrhi := 0, raeccr := 0 })
        { s with dcache := { s.dcache with data := sparseWrite s.dcache.data key s.cp15.radrlo }
                 cp15 := { s.cp15 with radrhi := 0 } }
  | tag (line : Nat) (unit : v.getLsbD 22 = false ∧ v.getLsbD 20 = false) (array : v.getLsbD 21 = false)
      (built : s.cfg.dcache ≠ .none) (inside : (v.extractLsb' 5 9).toNat < 2 ^ setBits s.cfg.dcache)
      (place : line = lineIndex (v.extractLsb' 30 2).toNat (v.extractLsb' 5 9).toNat) :
      DirectAccess s v
        (s.setCp15 { s.cp15 with radrlo := sparseRead s.dcache.tag line, radrhi := 0, raeccr := 0 })
        { s with dcache := { s.dcache with
                   tag := sparseWrite s.dcache.tag line (s.cp15.radrlo &&& dTagMask (setBits s.cfg.dcache)) }
                 cp15 := { s.cp15 with radrhi := 0 } }
  | instruction (line key : Nat) (unit : v.getLsbD 22 = false ∧ v.getLsbD 20 = true) (array : v.getLsbD 21 = true)
      (built : s.cfg.icache ≠ .none) (inside : (v.extractLsb' 5 9).toNat < 2 ^ setBits s.cfg.icache)
      (place : line = lineIndex (v.extractLsb' 30 2).toNat (v.extractLsb' 5 9).toNat)
      (word : key = line * 8 + (v.extractLsb' 3 2).toNat * 2) :
      DirectAccess s v
        (s.setCp15 { s.cp15 with
          radrlo := sparseRead s.icache.data key, radrhi := sparseRead s.icache.data (key + 1), raeccr := 0 })
        { s with icache := { s.icache with
            data := sparseWrite (sparseWrite s.icache.data key s.cp15.radrlo) (key + 1) s.cp15.radrhi } }

/-! ### Exact floating-point results -/

/-- The number an operand that is finite stands for (43_vfp_instructions.md R1043, R1044). -/
def FpValue.value (a : FpValue) : ℚ := (if a.sign then -1 else 1) * ((a.sig : ℚ) * (2 : ℚ) ^ a.exp)

/-- A class of numbers: neither infinite nor a NaN. -/
def FpClass.finite : FpClass → Bool
  | .zero | .nonzero => true
  | _ => false

/-- `m` is the magnitude `x` rounded to an integer, of a number with this sign (43_vfp_instructions.md R1046): to the nearest,
ties to even; up or down in magnitude as the direction and the sign ask. -/
def RoundedInt (rm : Rounding) (sign : Bool) (x : ℝ) (m : ℕ) : Prop :=
  match rm with
  | .nearest => |x - m| ≤ 1 / 2 ∧ (|x - m| = 1 / 2 → m % 2 = 0)
  | .plus => if sign then (m : ℝ) ≤ x ∧ x < m + 1 else x ≤ m ∧ (m : ℝ) < x + 1
  | .minus => if sign then x ≤ m ∧ (m : ℝ) < x + 1 else (m : ℝ) ≤ x ∧ x < m + 1
  | .zero => (m : ℝ) ≤ x ∧ x < m + 1

/-- `2^e` is the unit in the last place of the magnitude `q` in a format (43_vfp_instructions.md R1046): it has the format's
precision, or it is denormal. -/
def UnitOf (f : Format) (q : ℝ) (e : ℤ) : Prop :=
  f.emin - f.fracBits ≤ e ∧ q < 2 ^ (f.fracBits + 1) * (2 : ℝ) ^ e ∧
    (2 ^ f.fracBits * (2 : ℝ) ^ e ≤ q ∨ e = f.emin - f.fracBits)

/-- A pattern stands for the number with this sign and magnitude, read without flush-to-zero. -/
def Represents (f : Format) (x : Nat) (sign : Bool) (v : ℝ) : Prop :=
  x < 2 ^ (1 + f.expBits + f.fracBits) ∧
    ∃ a, fpUnpack f x 0 = (a, 0) ∧ a.cls.finite = true ∧ a.sign = sign ∧ ((|a.value| : ℚ) : ℝ) = v

/-- `r` is the number with this sign and the magnitude `q` above 0 rounded to a format, with FPSCR after it: under
flush-to-zero a result below the least normal number is a zero, with Underflow; else it is rounded to its unit, Inexact if
that changed it and then Underflow if it was below the least normal number; a result too large gives, with Overflow and
Inexact, an infinity or the largest number, and in the alternative half-precision format the largest pattern with Invalid
Operation (43_vfp_instructions.md R1046, R1055). -/
def Rounded (f : Format) (rm : Rounding) (sign : Bool) (q : ℝ) (w : Word) (r : Nat × Word) : Prop :=
  let tiny := q < (2 : ℝ) ^ f.emin
  let flushed := w.getLsbD 24 = true ∧ f.isHalf = false ∧ tiny
  (flushed → r = (fpZero f sign, w ||| ufc)) ∧
  (¬ flushed → ∃ (m : ℕ) (e : ℤ), UnitOf f q e ∧ RoundedInt rm sign (q / (2 : ℝ) ^ e) m ∧
    let v := (m : ℝ) * (2 : ℝ) ^ e
    let limit := (2 : ℝ) ^ (f.bias + if f.alternative then 2 else 1)
    (v < limit → Represents f r.1 sign v ∧ (v = q → r.2 = w) ∧ (v ≠ q → tiny → r.2 = w ||| ixc ||| ufc) ∧
      (v ≠ q → ¬ tiny → r.2 = w ||| ixc)) ∧
    (limit ≤ v → r = if f.alternative then (packFp f sign f.maxExp (2 ^ f.fracBits - 1), w ||| ioc)
      else (if overflowsToInfinity rm sign then fpInfinity f sign else fpMaxNormal f sign, w ||| ofc ||| ixc)))

/-! ### Interrupts -/

/-- An interrupt is pending, enabled and targeted at this processor (62_gic.md R644, R647, R662). -/
def Forwarded (s : State) (id : Nat) : Prop :=
  id < idCount s.cfg ∧ isPending s id = true ∧ idBit s.gic.enabled id = true ∧
    (id < 32 ∨ s.cfg.twoCpus = false ∨ (sparseRead s.gic.target id).getLsbD (if s.cfg.cpu then 1 else 0) = true)

/-- An interrupt's priority passes the mask and, in its group, what is active (62_gic.md R662, R663, R672). -/
def Preempts (s : State) (id : Nat) : Prop :=
  (idPriority s id).toNat < (s.gic.pmr &&& 0xF0).toNat ∧
    ∀ e rest, s.gic.stack = e :: rest →
      (idPriority s id).toNat / 2 ^ (s.gic.bpr.toNat % 8 + 1) < e.2.toNat / 2 ^ (s.gic.bpr.toNat % 8 + 1)

end Sys2Proof.Machine
end

