-- ==== Sys2Proof/Certificates/Slice0/Obligations.lean ====
section
/-! DEFINITION. The statements about the model. A statement about a next state gives that state whole, as the old state with
updates: what the updates do not name is unchanged. `Runs c s` says that the condition passes and that there is a next
address; `State.past` moves the pc past the instruction; `State.accessed` and `State.stored` record that a DSB is due before
SCTLR.C changes (log entry 79). -/

open Sys2Proof Sys2Proof.Machine

/-! ### Encoding -/

/-- Decoding the word of a well-formed instruction gives that instruction, with every operand (30_encoding.md R429). -/
def Obligations.DecodeOfEncode : Prop :=
  ∀ i : Instr, WellFormed i → decode (encode i) = .ok i

/-- Words that the spec writes out decode to the instructions they stand for (30_encoding.md R410 to R418, R420 to R426). -/
def Obligations.SpecWordsDecode : Prop :=
  decode 0xE3A01005 = .ok (.movImm .al false 0 1 0 5) ∧
  decode 0xE0821003 = .ok (.addReg .al false 2 1 0 .lsl 3) ∧
  decode 0xE5912008 = .ok (.ldrImm .al true true false 1 2 8) ∧
  decode 0xE8BD8010 = .ok (.pop .al 0x8010) ∧
  decode 0xEAFFFFFE = .ok (.b .al 0xFFFFFE) ∧
  decode 0xE320F003 = .ok (.wfi .al) ∧
  decode 0xEE110F10 = .ok (.mrcP15 .al 0 1 0 0 0) ∧
  decode 0xEEF1FA10 = .ok (.vmrs .al 1 15) ∧
  decode 0xF57FF01F = .ok .clrex

/-! ### Steps -/

/-- A step of a running processor that takes no exception first, with no reset asserted, fetches the word at the pc and runs the
instruction it decodes to; a word of no row is refused if its condition passes; a fetch that faults is a Prefetch Abort; a
word in main memory is fetched as it stands, or, if it was stored and not synchronised since, as it stands or as it once was
(30_encoding.md R429, 60_exceptions.md R528, 20_memory.md R281; 93_implementation_defined.md U26; which words count as
synchronised by log entry 80). The advance of the pc is part of `exec`. -/
def Obligations.StepRunsDecoded : Prop :=
  ∀ s t : State, resetsOf s = .none → GoesOn s t → takeAbort t = none →
    notArm t.cpsr = false → t.pc &&& 3 = 0 →
    (∀ w i u, fetchWord t.pc t = .ok (.ok w) u → decode w = .ok i → step s = exec i u) ∧
    (∀ w e u, fetchWord t.pc t = .ok (.ok w) u → decode w = .error e → condPassed (condOf w) u.cpsr = true →
      step s = .refused .noRow) ∧
    (∀ f u, fetchWord t.pc t = .ok (.error f) u → ArmEntry u → step s = .next (takePrefetchAbort f t.pc u)) ∧
    (∀ attr, checkAccess t .fetch t.privileged t.pc 4 = .ok attr → tcmClash t = false → inItcm t t.pc = false →
      (icacheOn t && cacheable t attr && !inDtcm t t.pc) = false → inPeripheral t.cfg t.pc = false →
      inWindow t.cfg t.pc = false → busError t .single t.pc 4 = none → scuFinds t t.pc = false →
      (∀ i, (∀ x ∈ t.unsynced, x.memory ≠ .itcm → x.word ≠ t.pc.toNat / 4) → WellFormed i →
        memBytes t.mem t.pc.toNat 4 = bytesOfWord (encode i) → step s = exec i t) ∧
      (∀ x, t.unsynced.find? (fun x => x.memory != .itcm && x.word == t.pc.toNat / 4) = some x →
        ∃ w, (w = leWord (memBytes t.mem t.pc.toNat 4) ∨ w ∈ x.values) ∧
          ∀ i, decode w = .ok i → step s = exec i (t.drew 1)))

/-- Every conditional instruction whose condition fails only advances the pc (30_encoding.md R403). -/
def Obligations.FailedConditionOnlyAdvances : Prop :=
  ∀ (i : Instr) (s : State), WellFormed i → encode i &&& 0xF0000000 ≠ 0xF0000000 →
    condPassed (condOf (encode i)) s.cpsr = false → s.pc ≠ 0xFFFFFFFC →
    exec i s = .next s.past

/-- Every step keeps the invariant: memories in canonical form, a legal mode, an aligned pc, reserved and fixed bits of
CPSR, SCTLR, FPSCR and FPEXC as the spec has them, RGNR in range. -/
def Obligations.StepKeepsInvariant : Prop :=
  ∀ s t : State, Inv s → step s = .next t → Inv t

/-- The machine after reset meets the invariant, in every build and with every setting of the pins. -/
def Obligations.ResetMeetsInvariant : Prop :=
  ∀ (cfg : Config) (pins : Pins), Inv (State.resetWith cfg pins)

/-- No step from User mode, without a reset, changes a control register, the MPU, a TCM region, a thread register User mode may
not write, FPEXC.EN, or, in a build without the debug window, who may use the PMU and its interrupts; and either it took an
exception, whose entry says what became of the mode, CPSR, the SPSRs and the banked registers, or it left the mode, the masks,
the SPSRs and the registers of the other modes alone (60_exceptions.md R561, R562). -/
def Obligations.UserModeChangesNoControl : Prop :=
  ∀ s t : State, s.privileged = false → resetsOf s = .none → step s = .next t →
    t.cp15.sctlr = s.cp15.sctlr ∧ t.cp15.actlr = s.cp15.actlr ∧ t.cp15.cpacr = s.cp15.cpacr ∧
    t.cp15.csselr = s.cp15.csselr ∧ t.cp15.pcr = s.cp15.pcr ∧
    t.cp15.rgnr = s.cp15.rgnr ∧ t.cp15.drbar = s.cp15.drbar ∧ t.cp15.drsr = s.cp15.drsr ∧
    t.cp15.dracr = s.cp15.dracr ∧ t.cp15.itcmrr = s.cp15.itcmrr ∧ t.cp15.dtcmrr = s.cp15.dtcmrr ∧
    t.cp15.contextidr = s.cp15.contextidr ∧ t.cp15.tpidruro = s.cp15.tpidruro ∧ t.cp15.tpidrprw = s.cp15.tpidrprw ∧
    t.fpu.fpexc.getLsbD 30 = s.fpu.fpexc.getLsbD 30 ∧
    (s.cfg.dbgSelfAddrV = false → t.pmu.userenr = s.pmu.userenr ∧ t.pmu.inten = s.pmu.inten) ∧
    ((∃ e, Took e s t) ∨
      t.cpsr &&& 0x010001FF = s.cpsr &&& 0x010001FF ∧ t.spsr = s.spsr ∧
        ∀ i : Fin 30, 15 ≤ i.val → t.regs[i] = s.regs[i])

/-- What reset leaves where the spec gives a value, in every build and with every setting of the pins: the pc at the vector
the pin selects, Supervisor mode with A, I and F set, T and E from the pins, SCTLR, CPACR, the TCM regions, PMCR, the SCU
access bits, the interrupt controller off, the timers at zero (10_state.md R61, R62; 11_cp15_registers.md R120, R132, R155, R156;
61_scu.md R595; 62_gic.md R660; 63_timers.md R692). -/
def Obligations.ResetValues : Prop :=
  ∀ (cfg : Config) (pins : Pins),
    let s := State.resetWith cfg pins
    s.pc = (if cfg.vinithi then 0xFFFF0000 else 0) ∧ s.mode = .svc ∧
    s.maskA = true ∧ s.maskI = true ∧ s.maskF = true ∧ s.cpsr.getLsbD 5 = cfg.teinit ∧ s.bigEndian = cfg.cfgend ∧
    s.cp15.sctlr.getLsbD 30 = cfg.teinit ∧ s.nmfi = cfg.cfgnmfi ∧ s.cp15.sctlr.getLsbD 25 = cfg.cfgend ∧
    s.cp15.sctlr.getLsbD 13 = cfg.vinithi ∧ s.cp15.sctlr &&& 0xB5FFDFFF = 0x00C50078 ∧
    s.cp15.cpacr = 0 ∧ s.cp15.dtcmrr.getLsbD 0 = false ∧
    s.cp15.itcmrr.getLsbD 0 = (cfg.initram && cfg.itcm != .none) ∧
    s.cp15.itcmrr.extractLsb' 12 20 = (if cfg.initram && cfg.vinithi then 0xFFFF0 else 0) ∧
    s.cp15.itcmrr.extractLsb' 2 4 = (tcmSizeCode cfg.itcm).extractLsb' 0 4 ∧ s.pmu.pmcr = 0x41174000 ∧ s.scu.access = 3 ∧
    s.gic.distEnable = false ∧ s.gic.ifEnable = false ∧ s.gic.pmr = 0 ∧ s.gic.bpr = 3 ∧
    s.timers.counter = 0 ∧ s.timers.wdCounter = 0 ∧ s.timers.gCounter = 0 ∧
    s.fpu.fpexc.getLsbD 30 = false ∧ s.monitor = false ∧ s.pendingAbort = none

/-- The resets of a running machine, signal by signal. The combinations of Table 2-1 are accepted, and one that the pins
assert outside it is refused; one that resets the interrupt controller without the SCU, or the SCU without it, is such. A
reset, an MPCore one too, that takes either processor out of the coherency domain, or this one with dirty shareable lines, is
refused. Another in which the processor's reset is asserted leaves the processor's own state as after power-up, and keeps what
no asserted signal resets: memory, and the RAMs unless their power went; the debug registers (but HALTED), the interrupt
controller and the timers, the SCU's registers with the power outputs, the watchdog's reset flag. A step with only the others
asserted resets just those and goes on: a debug reset keeps HALTED and clears DBGDRCR and INTdis; the other processor's resets
touch what the debug window and SCU Configuration show of it (70_reset_and_hazards.md R832 to R835, R837, R838, R843;
93_implementation_defined.md; 64_debug_pmu.md R750, R770; 63_timers.md R692, R708; 61_scu.md R587, R589; 62_gic.md R675;
65_power_mp.md R800). The model's choices: that a combination outside Table 2-1 is refused, though R833 lets a model apply
R832 to it (log entry 45), that RAMs which lost their power, of which R845 lets every bit have any value, hold what they hold
at power-up, the TCMs log entry 10's bytes and the caches log entry 11's, the values after reset of registers whose values the
spec leaves open, which reset takes the claim tags and the lock word of the PMU block, and the order hardware stage, then
resets (log entry 77), the debug registers 0 and Sticky Reset Status set (log entry 8), the coherency refusal (log entry 78),
that the SCU's tag RAM keeps its entries over a power-up reset too, after which R843 and R845 let it hold any value (log entry
54), what the caches' upkeep keeps after Dormant mode (log entry 79), where INTdis stands (log entry 89). -/
def Obligations.ResetSignals : Prop :=
  ∀ (s u : State) (r : Resets), r = resetsOf s → r ≠ .none → u = hardwareStage s →
    (unsupportedReset s = true → step s = .refused .unsupportedReset) ∧
    (watchdogAnswer s = .none → (∃ c : ResetCombo, s.pins.resets = c.signals) → unsupportedReset s = false) ∧
    (watchdogAnswer s = .none → s.pins.resets.periph ≠ s.pins.resets.scu → unsupportedReset s = true) ∧
    (unsupportedReset s = false → leavesCoherency r u = true → step s = .refused .coherentReset) ∧
    (leavesCoherency r u = true ↔
      r.cpu = true ∧ (u.cp15.actlr.getLsbD 6 = true ∨ ∃ e ∈ u.dcache.tag, ∀ k ∈ [22, 24, 25], e.2.getLsbD k = true) ∨
        r.otherCpu = true ∧ u.cfg.twoCpus = true ∧ u.otherSmp = true) ∧
    (unsupportedReset s = false → leavesCoherency r u = false →
      ∃ t, (r.cpu = true → step s = .next t) ∧ (r.cpu = false → step s = proceed t) ∧
        (r.cpu = true → ∀ z, z = State.resetWith s.cfg s.pins →
          t.regs = z.regs ∧ t.pc = z.pc ∧ t.cpsr = z.cpsr ∧ t.spsr = z.spsr ∧ t.cp15 = z.cp15 ∧ t.pmu = z.pmu ∧
          t.fpu = z.fpu ∧ t.monitor = z.monitor ∧ t.pendingAbort = z.pendingAbort ∧ t.eventReg = z.eventReg ∧
          t.standby = z.standby ∧ t.dbg.stickyReset = true ∧ t.dbg.dscr.getLsbD 0 = false) ∧
        (r.cpu = false → t = { u with
          itcm := t.itcm, dtcm := t.dtcm, dcache := t.dcache, icache := t.icache, dbg := t.dbg, otherDbg := t.otherDbg,
          otherPmu := t.otherPmu, otherSmp := t.otherSmp, scu := t.scu, gic := t.gic, timers := t.timers, upkeep := t.upkeep, outs := t.outs }) ∧
        (r.cpu = false → r.ramsLost = false → t.upkeep = u.upkeep) ∧
        t.otherPmu = (if r.otherCpu then Pmu.reset else u.otherPmu) ∧
        t.otherSmp = (!r.otherCpu && u.otherSmp) ∧
        (if r.otherDbg then t.otherDbg.bvr = Vector.replicate 6 0 ∧ t.otherDbg.drcr = 0
          else t.otherDbg = if r.otherCpu then { u.otherDbg with dscr := t.otherDbg.dscr, stickyReset := true }
            else u.otherDbg) ∧
        t.cfg = s.cfg ∧ t.pins = s.pins ∧ t.mem = u.mem ∧ t.free = u.free ∧
        t.outs = (if r.scu then { u.outs with pwrctlo := 0 } else u.outs) ∧
        (if r.ramsLost then t.itcm = Tcm.reset ∧ t.dtcm = Tcm.reset ∧ t.dcache = CacheRam.reset ∧ t.icache = CacheRam.reset
          else t.itcm = u.itcm ∧ t.dtcm = u.dtcm ∧ t.dcache = u.dcache ∧ t.icache = u.icache) ∧
        (if r.dbg then t.dbg.bvr = Vector.replicate 6 0 ∧ t.dbg.wvr = Vector.replicate 4 0 ∧ t.dbg.drcr = 0 ∧
            t.dbg.dscr.getLsbD 11 = false ∧ t.dbg.pmuClaim = 0 ∧ t.dbg.pmuLock = 0
          else t.dbg.bvr = u.dbg.bvr ∧ t.dbg.bcr = u.dbg.bcr ∧ t.dbg.wvr = u.dbg.wvr ∧ t.dbg.wcr = u.dbg.wcr ∧
            t.dbg.vcr = u.dbg.vcr ∧ t.dbg.drcr = u.dbg.drcr ∧ t.dbg.claim = u.dbg.claim ∧ t.dbg.pmuClaim = u.dbg.pmuClaim ∧
            t.dbg.pmuLock = u.dbg.pmuLock) ∧
        (r.cpu = false → t.dbg.dscr.getLsbD 0 = u.dbg.dscr.getLsbD 0) ∧
        t.gic = (if r.periph then Gic.reset s.cfg else u.gic) ∧
        t.timers.wdReset = (if r.wd then 0 else u.timers.wdReset) ∧
        { t.timers with wdReset := 0 } = (if r.periph then Timers.reset else { u.timers with wdReset := 0 }) ∧
        t.scu.tags = u.scu.tags ∧ (if r.scu then t.scu.power = 0 ∧ t.scu.access = 3 else t.scu = u.scu))

/-! ### Registers -/

/-- A register of a mode holds what was last written to it under any mode that shares it, and no write reaches another:
R0 to R7 are one for all modes, R8 to R12 one for all but FIQ, R13 and R14 one a mode but for User and System. R15 reads as
the instruction's address plus 8 (10_state.md R30, R31). -/
def Obligations.BankedRegisters : Prop :=
  ∀ (s : State) (m m' : Mode) (r r' : Reg) (v : Word), r ≠ 15 → r' ≠ 15 →
    ((r = r' ∧ (r.toNat < 8 ∨ r.toNat < 13 ∧ (m = .fiq ↔ m' = .fiq) ∨
        m = m' ∨ (m = .usr ∨ m = .sys) ∧ (m' = .usr ∨ m' = .sys))) →
      (s.setRegIn m r v).regIn m' r' = v) ∧
    (¬ (r = r' ∧ (r.toNat < 8 ∨ r.toNat < 13 ∧ (m = .fiq ↔ m' = .fiq) ∨
        m = m' ∨ (m = .usr ∨ m = .sys) ∧ (m' = .usr ∨ m' = .sys))) →
      (s.setRegIn m r v).regIn m' r' = s.regIn m' r') ∧
    s.regIn m 15 = s.pc + 8 ∧ (s.setRegIn m r v).regIn m' 15 = s.pc + 8

/-! ### Data processing -/

/-- AND, EOR, ORR, BIC, ADD, SUB, RSB, ADC, SBC and RSC in their three forms, to a register: the result of the two sources,
and with S the flags of the exact result (42_a32_core_subset.md R959 to R967, R972, R974). -/
def Obligations.ComputationResults : Prop :=
  ∀ (o : Op3) (c : Cond) (S : Bool) (rn rd : Reg) (x : Operand2) (s : State), Runs c s → rd ≠ 15 → x.allowed rd rn →
    exec (o.instr c S rn rd x) s =
      .next (s.result S rd (o.value (s.reg rn) (x.value s).1 s.flagC)
        (o.carry (s.reg rn) (x.value s).1 s.flagC (x.value s).2)
        (o.overflow (s.reg rn) (x.value s).1 s.flagC s.flagV))

/-- TST, TEQ, CMP and CMN in their three forms set the flags of the result they do not keep (42_a32_core_subset.md R968 to
R971). -/
def Obligations.ComparisonsSetFlags : Prop :=
  ∀ (o : Op2) (c : Cond) (rn : Reg) (x : Operand2) (s : State), Runs c s → x.allowed 0 rn →
    exec (o.instr c rn x) s =
      .next (s.compared (o.op3.value (s.reg rn) (x.value s).1 s.flagC)
        (o.op3.carry (s.reg rn) (x.value s).1 s.flagC (x.value s).2)
        (o.op3.overflow (s.reg rn) (x.value s).1 s.flagC s.flagV))

/-- MOV, the shifts and MVN, to a register: the operand or its complement, with S its N, Z and shifter carry
(42_a32_core_subset.md R973, R975). -/
def Obligations.MovesAndShifts : Prop :=
  ∀ (c : Cond) (S : Bool) (rd : Reg) (x : Operand2) (s : State), Runs c s → rd ≠ 15 → x.allowed rd 0 →
    exec (movInstr c S rd x) s = .next (s.result S rd (x.value s).1 (x.value s).2 s.flagV) ∧
    exec (mvnInstr c S rd x) s = .next (s.result S rd (~~~ (x.value s).1) (x.value s).2 s.flagV)

/-- A data-processing result for R15 is a branch, to a word-aligned address only; with S it is an exception return, in a mode
that has an SPSR only. R15 in any register field of a register-shifted form, the comparisons' too, is refused
(42_a32_core_subset.md R953, R955, R956, R959; 30_encoding.md R404; 60_exceptions.md R565; 93_implementation_defined.md U60). Either
branch sets DBGDSCR.PipeAdv (64_debug_pmu.md R747; log entry 87). -/
def Obligations.ResultInPc : Prop :=
  ∀ (k : Compute) (c : Cond) (x : Operand2) (s : State), condPassed c s.cpsr = true → x.notShiftedByRegister →
    (k.value s x &&& 3 = 0 → exec (k.instr c false 15 x) s = .next (s.resolved.setPc (k.value s x))) ∧
    ((k.value s x).getLsbD 0 = true → exec (k.instr c false 15 x) s = .refused .toThumb) ∧
    ((k.value s x).getLsbD 0 = false → (k.value s x).getLsbD 1 = true →
      exec (k.instr c false 15 x) s = .refused .unpredictable) ∧
    (∀ j, spsrIndex s.mode = some j → Returnable s.spsr[j] →
      exec (k.instr c true 15 x) s = .next (s.resolved.returned s.spsr[j] (k.value s x))) ∧
    (spsrIndex s.mode = none → exec (k.instr c true 15 x) s = .refused .noSpsr) ∧
    (∀ S rd rs ty rm, rd = 15 ∨ rs = 15 ∨ rm = 15 →
      exec (k.instr c S rd (.rsr rs ty rm)) s = .refused .unpredictable) ∧
    (∀ (o : Op3) S rn rd rs ty rm, rn = 15 ∨ rd = 15 ∨ rs = 15 ∨ rm = 15 →
      exec (o.instr c S rn rd (.rsr rs ty rm)) s = .refused .unpredictable) ∧
    (∀ (o : Op2) rn rs ty rm, rn = 15 ∨ rs = 15 ∨ rm = 15 →
      exec (o.instr c rn (.rsr rs ty rm)) s = .refused .unpredictable)

/-- Shifting by any amount is shifting by one place as often, the carry being the last bit shifted out; LSR and ASR by an
immediate 0 are by 32, ROR by 0 is RRX, and a modified immediate is a rotation by twice its field (42_a32_core_subset.md
R952; 30_encoding.md R405). -/
def Obligations.ShiftsPlaceByPlace : Prop :=
  (∀ (ty : ShiftType) (x : Word) (n : Nat) (c : Bool), shiftC x ty n c = shiftSteps ty n (x, c)) ∧
  (∀ (ty : ShiftType) (x : Word) (k : BitVec 5) (c : Bool), k ≠ 0 →
    immShiftC x ty k c = shiftSteps ty k.toNat (x, c)) ∧
  (∀ (x : Word) (c : Bool), immShiftC x .lsl 0 c = (x, c) ∧ immShiftC x .lsr 0 c = shiftSteps .lsr 32 (x, c) ∧
    immShiftC x .asr 0 c = shiftSteps .asr 32 (x, c) ∧
    (immShiftC x .ror 0 c).2 = x.getLsbD 0 ∧ (immShiftC x .ror 0 c).1.getLsbD 31 = c ∧
    ∀ i, i < 31 → (immShiftC x .ror 0 c).1.getLsbD i = x.getLsbD (i + 1)) ∧
  (∀ (r : BitVec 4) (b : BitVec 8) (c : Bool),
    modifiedImm r b c = shiftSteps .ror (2 * r.toNat) (b.setWidth 32, c))

/-- MOVW, MOVT and the extensions: a half is written, or the low byte or halfword of the rotated source is extended
(42_a32_core_subset.md R976, R977, R987 to R990). -/
def Obligations.WideMovesAndExtensions : Prop :=
  ∀ (c : Cond) (rd rm : Reg) (i4 : BitVec 4) (i12 : BitVec 12) (rot : BitVec 2) (s : State),
    Runs c s → rd ≠ 15 → rm ≠ 15 →
    exec (.movw c i4 rd i12) s = .next (s.wrote rd (BitVec.ofNat 32 (i4.toNat * 4096 + i12.toNat))) ∧
    exec (.movt c i4 rd i12) s =
      .next (s.wrote rd (BitVec.ofNat 32 ((i4.toNat * 4096 + i12.toNat) * 65536 + (s.reg rd).toNat % 65536))) ∧
    (let x := (s.reg rm).rotateRight (8 * rot.toNat)
     exec (.uxtb c rd rot rm) s = .next (s.wrote rd (BitVec.ofNat 32 (x.toNat % 256))) ∧
     exec (.uxth c rd rot rm) s = .next (s.wrote rd (BitVec.ofNat 32 (x.toNat % 65536))) ∧
     exec (.sxtb c rd rot rm) s = .next (s.wrote rd (BitVec.ofInt 32 ((x.toNat : Int).bmod 256))) ∧
     exec (.sxth c rd rot rm) s = .next (s.wrote rd (BitVec.ofInt 32 ((x.toNat : Int).bmod 65536))))

/-- UBFX, SBFX, BFI and BFC bit by bit, and their refusal where the field runs past bit 31 or is inside out
(42_a32_core_subset.md R983 to R986). -/
def Obligations.BitFields : Prop :=
  ∀ (c : Cond) (k lsb : BitVec 5) (rd rn : Reg) (s : State), Runs c s → rd ≠ 15 → rn ≠ 15 →
    (lsb.toNat + k.toNat ≤ 31 →
      (∃ v, exec (.ubfx c k rd lsb rn) s = .next (s.wrote rd v) ∧
        ∀ i, i < 32 → v.getLsbD i = (decide (i ≤ k.toNat) && (s.reg rn).getLsbD (lsb.toNat + i))) ∧
      (∃ v, exec (.sbfx c k rd lsb rn) s = .next (s.wrote rd v) ∧
        ∀ i, i < 32 → v.getLsbD i = (s.reg rn).getLsbD (lsb.toNat + min i k.toNat))) ∧
    (31 < lsb.toNat + k.toNat →
      exec (.ubfx c k rd lsb rn) s = .refused .unpredictable ∧
      exec (.sbfx c k rd lsb rn) s = .refused .unpredictable) ∧
    (lsb.toNat ≤ k.toNat →
      (∃ v, exec (.bfi c k rd lsb rn) s = .next (s.wrote rd v) ∧
        ∀ i, i < 32 → v.getLsbD i = if lsb.toNat ≤ i ∧ i ≤ k.toNat then (s.reg rn).getLsbD (i - lsb.toNat)
          else (s.reg rd).getLsbD i) ∧
      (∃ v, exec (.bfc c k rd lsb) s = .next (s.wrote rd v) ∧
        ∀ i, i < 32 → v.getLsbD i = if lsb.toNat ≤ i ∧ i ≤ k.toNat then false else (s.reg rd).getLsbD i)) ∧
    (k.toNat < lsb.toNat →
      exec (.bfi c k rd lsb rn) s = .refused .unpredictable ∧ exec (.bfc c k rd lsb) s = .refused .unpredictable)

/-- REV, REV16, REVSH and RBIT bit by bit, and CLZ: as many zeros as it says, then a one (42_a32_core_subset.md R978 to
R982). -/
def Obligations.ReversalsAndLeadingZeros : Prop :=
  ∀ (c : Cond) (rd rm : Reg) (s : State), Runs c s → rd ≠ 15 → rm ≠ 15 →
    (∃ v, exec (.rev c rd rm) s = .next (s.wrote rd v) ∧
      ∀ i, i < 32 → v.getLsbD i = (s.reg rm).getLsbD (8 * (3 - i / 8) + i % 8)) ∧
    (∃ v, exec (.rev16 c rd rm) s = .next (s.wrote rd v) ∧
      ∀ i, i < 32 → v.getLsbD i = (s.reg rm).getLsbD (16 * (i / 16) + 8 * (1 - i % 16 / 8) + i % 8)) ∧
    (∃ v, exec (.revsh c rd rm) s = .next (s.wrote rd v) ∧
      ∀ i, i < 32 → v.getLsbD i = (s.reg rm).getLsbD (if i < 8 then i + 8 else if i < 16 then i - 8 else 7)) ∧
    (∃ v, exec (.rbit c rd rm) s = .next (s.wrote rd v) ∧
      ∀ i, i < 32 → v.getLsbD i = (s.reg rm).getLsbD (31 - i)) ∧
    (∃ n, exec (.clz c rd rm) s = .next (s.wrote rd (BitVec.ofNat 32 n)) ∧ n ≤ 32 ∧
      (∀ j, j < n → (s.reg rm).getLsbD (31 - j) = false) ∧ (n < 32 → (s.reg rm).getLsbD (31 - n) = true))

/-- MUL, MLA and MLS modulo 2^32, and the long multiplies exactly, with S their N and Z only; one register for both halves is
refused (42_a32_core_subset.md R993 to R999). -/
def Obligations.Multiplies : Prop :=
  ∀ (c : Cond) (S : Bool) (rd ra rm rn : Reg) (s : State), Runs c s → rd ≠ 15 → ra ≠ 15 → rm ≠ 15 → rn ≠ 15 →
    let x := s.reg rn
    let y := s.reg rm
    let p := BitVec.ofNat 32 (x.toNat * y.toNat)
    let q := BitVec.ofNat 32 (x.toNat * y.toNat + (s.reg ra).toNat)
    let acc := (s.reg rd).toNat * 2 ^ 32 + (s.reg ra).toNat
    exec (.mul c S rd rm rn) s = .next (s.result S rd p s.flagC s.flagV) ∧
    exec (.mla c S rd ra rm rn) s = .next (s.result S rd q s.flagC s.flagV) ∧
    exec (.mls c rd ra rm rn) s = .next (s.wrote rd (s.reg ra - p)) ∧
    (rd ≠ ra →
      exec (.umull c S rd ra rm rn) s = .next (s.wide S rd ra (BitVec.ofNat 64 (x.toNat * y.toNat))) ∧
      exec (.umlal c S rd ra rm rn) s = .next (s.wide S rd ra (BitVec.ofNat 64 (x.toNat * y.toNat + acc))) ∧
      exec (.smull c S rd ra rm rn) s = .next (s.wide S rd ra (BitVec.ofInt 64 (x.toInt * y.toInt))) ∧
      exec (.smlal c S rd ra rm rn) s = .next (s.wide S rd ra (BitVec.ofInt 64 (x.toInt * y.toInt + acc)))) ∧
    (rd = ra → ∀ i ∈ [Instr.umull c S rd ra rm rn, .umlal c S rd ra rm rn, .smull c S rd ra rm rn, .smlal c S rd ra rm rn],
      exec i s = .refused .unpredictable)

/-- SDIV and UDIV: the quotient of the division whose remainder is smaller than the divisor and, for SDIV, has the
dividend's sign; a zero divisor gives 0, or an Undefined Instruction exception under SCTLR.DZ (42_a32_core_subset.md R991,
R992; 41_instruction_classes.md R488). -/
def Obligations.Divisions : Prop :=
  ∀ (c : Cond) (rd rm rn : Reg) (s : State), Runs c s → rd ≠ 15 → rm ≠ 15 → rn ≠ 15 →
    (s.reg rm ≠ 0 →
      (∃ q r : Nat, exec (.udiv c rd rm rn) s = .next (s.wrote rd (BitVec.ofNat 32 q)) ∧
        (s.reg rn).toNat = q * (s.reg rm).toNat + r ∧ r < (s.reg rm).toNat) ∧
      (∃ q r : Int, exec (.sdiv c rd rm rn) s = .next (s.wrote rd (BitVec.ofInt 32 q)) ∧
        (s.reg rn).toInt = q * (s.reg rm).toInt + r ∧ r.natAbs < (s.reg rm).toInt.natAbs ∧
        (r = 0 ∨ (r < 0 ↔ (s.reg rn).toInt < 0)))) ∧
    (s.reg rm = 0 → s.cp15.sctlr.getLsbD 19 = false →
      exec (.udiv c rd rm rn) s = .next (s.wrote rd 0) ∧ exec (.sdiv c rd rm rn) s = .next (s.wrote rd 0)) ∧
    (s.reg rm = 0 → s.cp15.sctlr.getLsbD 19 = true → ArmEntry s →
      exec (.udiv c rd rm rn) s = .next (takeException .undefined (s.pc + 4) s) ∧
      exec (.sdiv c rd rm rn) s = .next (takeException .undefined (s.pc + 4) s))

/-- R15 where it is UNPREDICTABLE is refused: in the multiplies, divisions, bit operations and wide moves, in BX, as the
register of a narrow load or store or its offset; so are write-back of R15 or of the register moved, and the unprivileged
loads and stores, with P = 0 and W = 1 (30_encoding.md R404; 42_a32_core_subset.md R957, R976 to R999;
41_instruction_classes.md R515; 93_implementation_defined.md U60). -/
def Obligations.UnpredictableRegisters : Prop :=
  ∀ (c : Cond) (S p u w : Bool) (rd ra rm rn rt : Reg) (rot : BitVec 2) (k lsb : BitVec 5) (i4 : BitVec 4) (i12 : BitVec 12)
    (s : State), condPassed c s.cpsr = true →
    (rd = 15 ∨ rm = 15 →
      ∀ i ∈ [Instr.clz c rd rm, .rev c rd rm, .rev16 c rd rm, .revsh c rd rm, .rbit c rd rm, .uxtb c rd rot rm,
        .uxth c rd rot rm, .sxtb c rd rot rm, .sxth c rd rot rm, .ubfx c k rd lsb rm, .sbfx c k rd lsb rm,
        .bfi c k rd lsb rm, .sdiv c rd rm rn, .udiv c rd rm rn, .mul c S rd rm rn, .mla c S rd ra rm rn,
        .mls c rd ra rm rn, .umull c S rd ra rm rn, .umlal c S rd ra rm rn, .smull c S rd ra rm rn,
        .smlal c S rd ra rm rn], exec i s = .refused .unpredictable) ∧
    (ra = 15 → ∀ i ∈ [Instr.mla c S rd ra rm rn, .mls c rd ra rm rn, .umull c S rd ra rm rn, .umlal c S rd ra rm rn,
      .smull c S rd ra rm rn, .smlal c S rd ra rm rn], exec i s = .refused .unpredictable) ∧
    (rd = 15 → ∀ i ∈ [Instr.movw c i4 rd i12, .movt c i4 rd i12, .bfc c k rd lsb], exec i s = .refused .unpredictable) ∧
    (rn = 15 → ∀ i ∈ [Instr.sdiv c rd rm rn, .udiv c rd rm rn, .mul c S rd rm rn, .mla c S rd ra rm rn,
      .mls c rd ra rm rn, .umull c S rd ra rm rn, .umlal c S rd ra rm rn, .smull c S rd ra rm rn, .smlal c S rd ra rm rn],
      exec i s = .refused .unpredictable) ∧
    exec (.bx c 15) s = .refused .unpredictable ∧
    (∀ l : SingleLoad, l.allowed → p = false → w = true → exec (l.instr c p u w rn rt) s = .refused .unprivilegedAccess) ∧
    (∀ l : SingleStore, l.allowed rt → p = false → w = true →
      exec (l.instr c p u w rn rt) s = .refused .unprivilegedAccess) ∧
    (∀ l : SingleLoad, ordinary p w → ¬ l.allowed ∨ ¬ baseAllowed p w rn rt ∨ rt = 15 ∧ l.size ≠ 4 →
      exec (l.instr c p u w rn rt) s = .refused .unpredictable) ∧
    (∀ l : SingleStore, ordinary p w → ¬ l.allowed rt ∨ ¬ baseAllowed p w rn rt →
      exec (l.instr c p u w rn rt) s = .refused .unpredictable)

/-! ### Status registers -/

/-- MRS reads the CPSR with IT, J and T as zero, or the SPSR of the mode, which User and System mode lack. MSR writes of the
CPSR the flags and Q by f, GE by s, E by x, and A by x, I, F and M by c in a privileged mode only, and sets no non-maskable F;
of the SPSR it writes the bytes selected (42_a32_core_subset.md R1000 to R1002; 60_exceptions.md R541). -/
def Obligations.StatusReadsAndWrites : Prop :=
  (∀ (c : Cond) (rd : Reg) (s : State), Runs c s →
    (rd ≠ 15 →
      (∃ v, exec (.mrs c false rd) s = .next (s.wrote rd v) ∧
        ∀ i, i < 32 → v.getLsbD i = (s.cpsr.getLsbD i &&
          !(i == 5 || i == 24 || i == 25 || i == 26 || (decide (10 ≤ i) && decide (i ≤ 15))))) ∧
      (∀ j, spsrIndex s.mode = some j → exec (.mrs c true rd) s = .next (s.wrote rd s.spsr[j])) ∧
      (spsrIndex s.mode = none → exec (.mrs c true rd) s = .refused .noSpsr)) ∧
    (rd = 15 → ∀ r, exec (.mrs c r rd) s = .refused .unpredictable)) ∧
  (∀ (c : Cond) (m : BitVec 4) (rn : Reg) (i12 : BitVec 12) (s : State), Runs c s → rn ≠ 15 →
    ∀ (i : Instr) (v : Word) (r : Bool),
      (i = .msrReg c r m rn ∧ v = s.reg rn) ∨
        (i = .msrImm c r m i12 ∧ v = ((i12.extractLsb' 0 8).setWidth 32).rotateRight (2 * (i12.extractLsb' 8 4).toNat)) →
      (r = false → ¬ (m.getLsbD 0 = true ∧ s.privileged = true ∧ (Mode.ofBits (v.extractLsb' 0 5)).isNone = true) →
        ∃ w, exec i s = .next (s.setCpsr w).past ∧
          ∀ k, k < 32 → w.getLsbD k =
            if (27 ≤ k ∧ m.getLsbD 3 = true) ∨ (16 ≤ k ∧ k ≤ 19 ∧ m.getLsbD 2 = true) ∨
                (k = 9 ∧ m.getLsbD 1 = true) ∨ (k = 8 ∧ m.getLsbD 1 = true ∧ s.privileged = true) ∨
                ((k = 7 ∨ k ≤ 4) ∧ m.getLsbD 0 = true ∧ s.privileged = true) ∨
                (k = 6 ∧ m.getLsbD 0 = true ∧ s.privileged = true ∧ (s.nmfi = false ∨ v.getLsbD 6 = false))
            then v.getLsbD k else s.cpsr.getLsbD k) ∧
      (r = false → m.getLsbD 0 = true → s.privileged = true → (Mode.ofBits (v.extractLsb' 0 5)).isNone = true →
        exec i s = .refused .reservedMode) ∧
      (r = true → ∀ j, spsrIndex s.mode = some j →
        ∃ w, exec i s = .next (State.past { s with spsr := s.spsr.set j w }) ∧
          ∀ k, k < 32 → w.getLsbD k = if m.getLsbD (k / 8) = true then v.getLsbD k else s.spsr[j].getLsbD k) ∧
      (r = true → spsrIndex s.mode = none → exec i s = .refused .noSpsr))

/-- CPS changes the mask bits it names and the mode, in a privileged mode only, and sets no non-maskable F; SETEND changes
CPSR.E only (42_a32_core_subset.md R1003, R1004). -/
def Obligations.StateChanges : Prop :=
  ∀ (imod : BitVec 2) (m a i f e : Bool) (mode : BitVec 5) (s : State), s.pc ≠ 0xFFFFFFFC →
    (s.privileged = false → exec (.cps imod m a i f mode) s = .next s.past) ∧
    (s.privileged = true → (imod = 1 ∨ imod = 0 ∧ m = false) →
      exec (.cps imod m a i f mode) s = .refused .unpredictable) ∧
    (s.privileged = true → ¬ (imod = 1 ∨ imod = 0 ∧ m = false) → m = true → (Mode.ofBits mode).isNone = true →
      exec (.cps imod m a i f mode) s = .refused .reservedMode) ∧
    (s.privileged = true → ¬ (imod = 1 ∨ imod = 0 ∧ m = false) → (m = true → (Mode.ofBits mode).isSome = true) →
      ∃ w, exec (.cps imod m a i f mode) s = .next (s.setCpsr w).past ∧
        ∀ k, k < 32 → w.getLsbD k =
          if k ≤ 4 ∧ m = true then mode.getLsbD k
          else if imod = 2 ∧ (k = 8 ∧ a = true ∨ k = 7 ∧ i = true ∨ k = 6 ∧ f = true) then false
          else if imod = 3 ∧ (k = 8 ∧ a = true ∨ k = 7 ∧ i = true ∨ k = 6 ∧ f = true ∧ s.nmfi = false) then true
          else s.cpsr.getLsbD k) ∧
    (∃ w, exec (.setend e) s = .next (s.setCpsr w).past ∧
      ∀ k, k < 32 → w.getLsbD k = if k = 9 then e else s.cpsr.getLsbD k)

/-- NOP, YIELD, the unallocated hints, the preloads and DMB only advance the pc; so do DSB and ISB, but that a DSB completes
the loads, stores, cleans and invalidations before it, and an ISB ends the sequence of the stored words for which all else was done:
of the ITCM and of Non-cacheable memory a DSB, of Cacheable memory the clean, a DSB, the invalidation and a DSB, and but for the
ITCM the branch predictor invalidated (42_a32_core_subset.md R1027, 20_memory.md R280, R281; that the barriers do no more, and how
accesses are tracked, by log entries 40, 79 and 80, the preloads by log entry 53: the model's choice). -/
def Obligations.HintsAndBarriers : Prop :=
  ∀ (c : Cond) (h : BitVec 8) (o : BitVec 4) (u : Bool) (rn rm : Reg) (i12 : BitVec 12) (i5 : BitVec 5) (ty : ShiftType)
    (s : State), Runs c s →
    (∀ i ∈ [Instr.nop c, .yield c, .hintUnallocated c h, .dmb o, .pldImm u rn i12, .pldwImm u rn i12,
      .pliImm u rn i12, .pldReg u rn i5 ty rm, .pldwReg u rn i5 ty rm, .pliReg u rn i5 ty rm], exec i s = .next s.past) ∧
    (∃ l, exec (.dsb o) s = .next (State.past { s with unsynced := l, upkeep := { s.upkeep with dsb := true } }) ∧ l.length = s.unsynced.length ∧
      ∀ (n : Nat) (x : Unsynced), s.unsynced[n]? = some x → l[n]? = some { x with
        pushed := x.pushed || x.cleaned
        finished := x.finished || decide (x.memory ≠ .cached ∨ x.pushed = true ∧ x.dropped = true ∧ x.forgotten = true) }) ∧
    ∃ l, exec (.isb o) s = .next (State.past { s with unsynced := l, upkeep := { s.upkeep with isb := true } }) ∧
      ∀ x, x ∈ l ↔ x ∈ s.unsynced ∧ ¬ (x.finished = true ∧ (x.memory = .itcm ∨ x.forgotten = true))

/-! ### Control flow and exceptions -/

/-- B and BL go to the instruction's address plus 8 plus the signed word offset, BX and BLX to a word-aligned register value;
BL and BLX leave the next address in R14; a value with bit 0 set would enter Thumb state and is refused
(42_a32_core_subset.md R1010 to R1013, R955). Each sets DBGDSCR.PipeAdv (64_debug_pmu.md R747; log entry 87). -/
def Obligations.Branches : Prop :=
  ∀ (c : Cond) (off : BitVec 24) (rm : Reg) (s : State), condPassed c s.cpsr = true →
    (let t := BitVec.ofInt 32 (s.pc.toNat + 8 + 4 * off.toInt) &&& 0xFFFFFFFC
     exec (.b c off) s = .next (s.resolved.setPc t) ∧
     exec (.bl c off) s = .next ((s.resolved.setReg 14 (s.pc + 4)).setPc t)) ∧
    (rm ≠ 15 → s.reg rm &&& 3 = 0 →
      exec (.bx c rm) s = .next (s.resolved.setPc (s.reg rm)) ∧
      exec (.blxReg c rm) s = .next ((s.resolved.setReg 14 (s.pc + 4)).setPc (s.reg rm))) ∧
    (rm ≠ 15 → (s.reg rm).getLsbD 0 = true →
      exec (.bx c rm) s = .refused .toThumb ∧ exec (.blxReg c rm) s = .refused .toThumb) ∧
    (rm ≠ 15 → (s.reg rm).getLsbD 0 = false → (s.reg rm).getLsbD 1 = true →
      exec (.bx c rm) s = .refused .unpredictable ∧ exec (.blxReg c rm) s = .refused .unpredictable) ∧
    (rm = 15 → exec (.bx c rm) s = .refused .unpredictable ∧ exec (.blxReg c rm) s = .refused .unpredictable)

/-- Taking an exception: the old CPSR and the link go to the SPSR and R14 of the mode entered; the mode, I, and as the
exception asks A and F are set, IT and J cleared, T and E taken from SCTLR.TE and EE; the flags stay; the pc is the vector;
nothing else changes (60_exceptions.md R520 to R522). With SCTLR.TE 1 the machine would go on in Thumb state, which is refused
(30_encoding.md R401). -/
def Obligations.ExceptionEntry : Prop :=
  ∀ (e : Exc) (ret : Word) (s : State),
    let t := takeException e ret s
    t.pc = (if s.cp15.sctlr.getLsbD 13 then 0xFFFF0000 else 0) +
      (match e with
        | .undefined => 0x04 | .supervisorCall => 0x08 | .prefetchAbort => 0x0C | .dataAbort => 0x10
        | .irq => 0x18 | .fiq => 0x1C) ∧
    t.mode = (match e with
      | .undefined => .und | .supervisorCall => .svc | .prefetchAbort => .abt | .dataAbort => .abt
      | .irq => .irq | .fiq => .fiq) ∧
    (∀ j, spsrIndex t.mode = some j → t.spsr[j] = s.cpsr ∧ ∀ k, k ≠ j → t.spsr[k] = s.spsr[k]) ∧
    t.reg 14 = ret ∧
    (∀ (m : Mode) (r : Reg), r ≠ 15 → bankIndex m r ≠ bankIndex t.mode 14 → t.regIn m r = s.regIn m r) ∧
    t.maskI = true ∧ t.maskF = (s.maskF || e == .fiq) ∧
    t.maskA = (s.maskA || !(e == .undefined || e == .supervisorCall)) ∧
    t.cpsr.getLsbD 5 = s.cp15.sctlr.getLsbD 30 ∧ t.bigEndian = s.cp15.sctlr.getLsbD 25 ∧
    t.cpsr &&& 0x0700FC00 = 0 ∧ t.cpsr &&& 0xF80F0000 = s.cpsr &&& 0xF80F0000 ∧
    entered t = (if s.cp15.sctlr.getLsbD 30 then .refused .toThumb else .next t) ∧
    ∃ regs spsr cpsr pc, t = { s with regs := regs, spsr := spsr, cpsr := cpsr, pc := pc }

/-- SVC enters Supervisor mode with the next address in R14; BKPT is a Prefetch Abort with the debug-event status, and IFAR
then holds a value that is not fixed (60_exceptions.md R546, R547, R524; IFAR by log entry 36). -/
def Obligations.SupervisorCallAndBreakpoint : Prop :=
  ∀ (c : Cond) (k : BitVec 24) (a : BitVec 12) (b : BitVec 4) (s : State), ArmEntry s →
    (condPassed c s.cpsr = true → exec (.svc c k) s = .next (takeException .supervisorCall (s.pc + 4) s)) ∧
    ∃ w, exec (.bkpt a b) s = .next ((takeException .prefetchAbort (s.pc + 4) (s.drew 1)).setCp15
      { s.cp15 with ifsr := 0x002, ifar := w })

/-- The spaces without a meaning of their own. What the processor does not have is an Undefined Instruction: UDF, SMC,
Advanced SIMD, the other coprocessors, and, past the access checks, the unallocated VFP space (42_a32_core_subset.md R1028;
60_exceptions.md R520, R545; 30_encoding.md R428; 43_vfp_instructions.md R1095). What stops on every path: BLX (immediate),
which always enters Thumb state; the catch-all row of the unconditional space; and, past the access checks, VMRS and VMSR
with should-be-zero bits (42_a32_core_subset.md R1013; 30_encoding.md R401, R428; 93_implementation_defined.md U72). -/
def Obligations.SpacesWithoutMeaning : Prop :=
  ∀ (s : State) (c : Cond) (a : BitVec 12) (b cp : BitVec 4) (r25 : BitVec 25) (r3 : BitVec 3) (r20 : BitVec 20)
    (r14 : BitVec 14) (r8 : BitVec 8) (r9 : BitVec 9) (h l : Bool) (off : BitVec 24) (rest : BitVec 28),
    (ArmEntry s → ∀ i ∈ [Instr.advSimdDataProcessing r25, .advSimdLoadStore r3 r20, .coprocTwoSpace r14 cp r8],
      exec i s = .next (takeException .undefined (s.pc + 4) s)) ∧
    exec (.blxImm h off) s = .refused .toThumb ∧ exec (.restOfUnconditional rest) s = .refused .unconditionalSpace ∧
    (condPassed c s.cpsr = true →
      (ArmEntry s → ∀ i ∈ [Instr.udf c a b, .smc c b, .otherCoproc c r14 cp r8],
        exec i s = .next (takeException .undefined (s.pc + 4) s)) ∧
      (VfpReady s → (ArmEntry s → exec (.vfpUnallocated c r14 r9) s = .next (takeException .undefined (s.pc + 4) s)) ∧
        exec (.vmrsVmsrSbz c l b cp r3 (r8.extractLsb' 0 4)) s = .refused .vfpUnpredictable))

/-- RFE loads the pc and the CPSR from two words; SRS stores R14 and the SPSR on the stack of the mode it names; W writes the
base back. RFE is refused in User mode and with R15 as its base, SRS in User and in System mode (42_a32_core_subset.md R1005,
R1006; 93_implementation_defined.md U10, U60). The model's choice: RFE, whose pseudocode reads no SPSR, runs in System mode too,
where 60_exceptions.md R565 calls every return UNPREDICTABLE (log entry 98), and it sets DBGDSCR.PipeAdv as a branch does
(64_debug_pmu.md R747; log entry 87). -/
def Obligations.ReturnStateLoadsAndStores : Prop :=
  ∀ (p u w : Bool) (rn : Reg) (mode : BitVec 5) (s : State),
    (∀ psr target, s.privileged = true → rn ≠ 15 →
      PlainWords s .read (pairAddress (s.reg rn) p u) 2 → psr = s.memValue (pairAddress (s.reg rn) p u + 4) 4 →
      target = s.memValue (pairAddress (s.reg rn) p u) 4 → Returnable psr →
      exec (.rfe p u w rn) s =
        .next ((if w then s.accessed.setReg rn (if u then s.reg rn + 8 else s.reg rn - 8)
          else s.accessed).resolved.returned psr target)) ∧
    (s.privileged = false → exec (.rfe p u w rn) s = .refused .noSpsr) ∧
    (s.privileged = true → rn = 15 → exec (.rfe p u w rn) s = .refused .unpredictable) ∧
    (∀ m j, Mode.ofBits mode = some m → spsrIndex s.mode = some j → s.pc ≠ 0xFFFFFFFC → s.privileged = true →
      PlainWords s .write (pairAddress (s.regIn m 13) p u) 2 →
      let a := pairAddress (s.regIn m 13) p u
      let t := (s.stored a 4 (s.reg 14)).stored (a + 4) 4 s.spsr[j]
      exec (.srs p u w mode) s =
        .next (if w then t.setRegIn m 13 (if u then s.regIn m 13 + 8 else s.regIn m 13 - 8) else t).past) ∧
    (spsrIndex s.mode = none → exec (.srs p u w mode) s = .refused .noSpsr)

/-- Exceptions between instructions: an unmasked FIQ, then an unmasked IRQ, each at this boundary or left for a later one, then
an unmasked asynchronous abort, then the instruction; each with its link value; the FIQ request is the pin, the IRQ request the pin while the interface is disabled (60_exceptions.md R523,
R526, R540, R541, R544; 62_gic.md R636, R637; 71_timing.md R921; the boundary by log entry 29). DFSR.WnR is not fixed then (R524, log entry 36). DBGDSCR.INTdis masks the
interrupts (70_reset_and_hazards.md R838; that it is bit 11, and masks both, by log entry 89). -/
def Obligations.PendingExceptionsTaken : Prop :=
  ∀ s t : State, t = hardwareStage s → resetsOf s = .none → t.standby = .running → ArmEntry t →
    (t.dbg.dscr.getLsbD 11 = false →
      (t.pins.nFiq = false → t.maskF = false →
        step s = .next (takeException .fiq (t.pc + 4) (t.drew 1)) ∨ step s = goOn (t.drew 1)) ∧
      ((t.pins.nFiq = true ∨ t.maskF = true) → t.maskI = false →
        (t.gic.ifEnable = false ∧ t.pins.nIrq = false ∨ t.gic.ifEnable = true ∧ (signalled t).isSome = true) →
        step s = .next (takeException .irq (t.pc + 4) (t.drew 1)) ∨ step s = goOn (t.drew 1))) ∧
    ((t.dbg.dscr.getLsbD 11 = true ∨
        (t.pins.nFiq = true ∨ t.maskF = true) ∧ (irqRequest t = false ∨ t.maskI = true)) → step s = goOn t) ∧
    (∀ u, u = t ∨ u = t.drew 1 →
      (u.maskA = true ∨ u.pendingAbort = none → goOn u = runNext u) ∧
      (∀ x, u.maskA = false → u.pendingAbort = some x →
        ∃ b, goOn u = .next { (takeException .dataAbort (u.pc + 8) u).setCp15
          { u.cp15 with dfsr := 0x406 ||| bitAt x 12 ||| bitAt b 11 } with pendingAbort := none, free := u.free + 1 }))

/-- WFI and WFE stop the processor unless a wake-up event is there, WFE clearing the event register; SEV sets it and pulses
EVENTO; a step of a stopped processor only lets it go on when its event comes (65_power_mp.md R793 to R796; 10_state.md
R53; that it stays stopped till then, though R794 and R795 allow it to go on earlier, is the model's choice, log entry 41). -/
def Obligations.WaitsAndEvents : Prop :=
  ∀ (c : Cond) (s : State), Runs c s →
    (wfiWakeup s = true → exec (.wfi c) s = .next s.past) ∧
    (wfiWakeup s = false → exec (.wfi c) s = .next (State.past { s with
      standby := .wfi, outs := { s.outs with pwrctlo := s.scu.power.extractLsb' (if s.cfg.cpu then 8 else 0) 2 } })) ∧
    (s.eventReg = true → exec (.wfe c) s = .next (State.past { s with eventReg := false })) ∧
    (s.eventReg = false → wfeWakeup s = true → exec (.wfe c) s = .next s.past) ∧
    (s.eventReg = false → wfeWakeup s = false → exec (.wfe c) s = .next (State.past { s with standby := .wfe })) ∧
    exec (.sev c) s = .next (State.past { s with eventReg := true, outs := { s.outs with eventO := true } }) ∧
    (∀ u t : State, t = hardwareStage u → resetsOf u = .none →
      (t.standby = .wfi → step u = .next (if wfiWakeup t then { t with standby := .running } else t)) ∧
      (t.standby = .wfe → step u = .next
        (if t.eventReg then { t with eventReg := false, standby := .running }
         else if wfeWakeup t then { t with standby := .running } else t)) ∧
      (t.standby = .halted → step u = .next (if t.pins.nCpuHalt then { t with standby := .running } else t)))

/-! ### Memory -/

/-- Main memory: an access it serves reads or writes the bytes at the address, in the byte order of CPSR.E; a value stored is
the value then read; every byte outside is unchanged; the canonical form is kept (20_memory.md R240, R241, R243). An access in the
enabled region of a TCM reads or writes the bytes of that TCM's RAM, whatever the MPU's attributes and the caches say, and one that
hits the data cache those of the line, which a store makes dirty; either store leaves main memory and all other bytes alone
(20_memory.md R251, R252, R255, R289 lines 1 to 3; 21_mpu_tcm.md R380 to R383). Here the error checking of the RAM is off; where it
is on but finds no error the bytes are the same. `unsynced` and `upkeep` are the model's own fields (log entries 79, 80). -/
def Obligations.MainMemory : Prop :=
  (∀ (s : State) (acc : Access) (a : Word), Plain s .read acc a →
    loadValue acc a s = .ok (s.memValue a acc.size) s.accessed) ∧
  (∀ (s : State) (acc : Access) (a v : Word), Plain s .write acc a → acc.size ≤ 4 →
    storeValue acc a v s = .ok () (s.stored a acc.size v)) ∧
  (∀ (s : State) (a v : Word) (n : Nat), n = 1 ∨ n = 2 ∨ n = 4 → Memory.wf s.mem = true →
    (s.stored a n v).memValue a n = BitVec.ofNat 32 (v.toNat % 2 ^ (8 * n)) ∧
    (∀ x, x < a.toNat ∨ a.toNat + n ≤ x → sparseRead (s.stored a n v).mem x = sparseRead s.mem x) ∧
    Memory.wf (s.stored a n v).mem = true) ∧
  (∀ (s : State) (a : Word), s.bigEndian = false → ∀ k, k < 4 →
    (s.memValue a 4).extractLsb' (8 * k) 8 = sparseRead s.mem (a.toNat + k)) ∧
  (∀ (s : State) (a : Word), s.bigEndian = true → ∀ k, k < 4 →
    (s.memValue a 4).extractLsb' (8 * k) 8 = sparseRead s.mem (a.toNat + 3 - k)) ∧
  (∀ (s : State) (acc : Access) (a v : Word) (off : Nat) (attr : Attr), acc.size = 1 ∨ acc.size = 2 ∨ acc.size = 4 →
    a.toNat % acc.size = 0 → tcmClash s = false →
    (inItcm s a = true → eccItcmOn s = false → tcmOffset s.cfg.itcmBuild a = some off →
      (admission .read acc a s = .ok attr →
        loadValue acc a s = .ok (valueOf s.bigEndian (memBytes s.itcm.bytes off acc.size)) s.accessed) ∧
      (admission .write acc a s = .ok attr → ∃ t, storeValue acc a v s = .ok () t ∧
        t = { s.accessed with itcm := t.itcm, unsynced := t.unsynced } ∧
        t.itcm.bytes = storeBytes s.itcm.bytes off (bytesOf s.bigEndian acc.size v))) ∧
    (inItcm s a = false → inDtcm s a = true → eccOn s = false → tcmOffset s.cfg.dtcmBuild a = some off →
      (admission .read acc a s = .ok attr →
        loadValue acc a s = .ok (valueOf s.bigEndian (memBytes s.dtcm.bytes off acc.size)) s.accessed) ∧
      (admission .write acc a s = .ok attr → ∃ t, storeValue acc a v s = .ok () t ∧
        t = { s.accessed with dtcm := t.dtcm } ∧
        t.dtcm.bytes = storeBytes s.dtcm.bytes off (bytesOf s.bigEndian acc.size v)))) ∧
  (∀ (s : State) (acc : Access) (a v : Word) (attr : Attr) (k way line : Nat), acc.size = 1 ∨ acc.size = 2 ∨ acc.size = 4 →
    a.toNat % acc.size = 0 → tcmClash s = false → inItcm s a = false → inDtcm s a = false → inPeripheral s.cfg a = false →
    dcacheOn s = true → cacheable s attr = true → eccOn s = false → k = setBits s.cfg.dcache →
    hitWay s.dcache s.cp15.deer k a = some way → line = lineIndex way (setOf k a) →
    (admission .read acc a s = .ok attr →
      loadValue acc a s = .ok (valueOf s.bigEndian (lineBytes s.dcache line (a.toNat % 32) acc.size)) s.accessed) ∧
    (admission .write acc a s = .ok attr → Canonical s → ∃ t, storeValue acc a v s = .ok () t ∧
      t = { s.accessed with dcache := { s.dcache with tag := t.dcache.tag, data := t.dcache.data }, unsynced := t.unsynced } ∧
      lineBytes t.dcache line (a.toNat % 32) acc.size = bytesOf s.bigEndian acc.size v ∧
      (∀ j, j < 32 → j < a.toNat % 32 ∨ a.toNat % 32 + acc.size ≤ j →
        lineByte t.dcache line j = lineByte s.dcache line j) ∧
      (∀ l j, l ≠ line → j < 32 → lineByte t.dcache l j = lineByte s.dcache l j) ∧
      sparseRead t.dcache.tag line = sparseRead s.dcache.tag line ||| 0x02000000 ∧
      ∀ l, l ≠ line → sparseRead t.dcache.tag l = sparseRead s.dcache.tag l))

/-- LDR, LDRB, LDRH, LDRSB and LDRSH in both offset forms: the address by P, U and W, the value extended, the base written
back; an access that aborts leaves the registers alone; for main memory the result is given outright. LDR to R15 is a branch,
to a word-aligned value, from a word-aligned address only, and sets DBGDSCR.PipeAdv; else it is refused (42_a32_core_subset.md R955,
R957, R958, R1014, R1016, R1018, R1020, R1021; 93_implementation_defined.md U60; 64_debug_pmu.md R747 by log entry 87). -/
def Obligations.SingleLoads : Prop :=
  (∀ (l : SingleLoad) (c : Cond) (p u w : Bool) (rn rt : Reg) (s : State) (ad : Address), Runs c s → rt ≠ 15 → l.allowed →
    ordinary p w → baseAllowed p w rn rt → ad = indexed (baseValue s rn) (l.offset s) p u w →
    (∀ v m, loadValue (single s l.size s.privileged) ad.address s = .ok v m →
      exec (l.instr c p u w rn rt) s = .next (((m.withBase rn ad).setReg rt (l.extend v)).setPc (s.pc + 4))) ∧
    (∀ f a m, loadValue (single s l.size s.privileged) ad.address s = .error (.dataAbort f false a) m → ArmEntry m →
      exec (l.instr c p u w rn rt) s = .next (takeDataAbort f false a m)) ∧
    (Plain s .read (single s l.size s.privileged) ad.address →
      exec (l.instr c p u w rn rt) s =
        .next (((s.accessed.withBase rn ad).setReg rt (l.extend (s.memValue ad.address l.size))).setPc (s.pc + 4)))) ∧
  (∀ (c : Cond) (p u w : Bool) (rn : Reg) (i12 : BitVec 12) (i5 : BitVec 5) (ty : ShiftType) (rm : Reg) (s : State)
    (i : Instr) (off : Word), condPassed c s.cpsr = true →
    (i = .ldrImm c p u w rn 15 i12 ∧ off = i12.setWidth 32) ∨
      (i = .ldrReg c p u w rn 15 i5 ty rm ∧ rm ≠ 15 ∧ off = (immShiftC (s.reg rm) ty i5 s.flagC).1) →
    baseAllowed p w rn 15 → ordinary p w →
    ∀ ad, ad = indexed (baseValue s rn) off p u w →
      (Plain s .read (single s 4 s.privileged) ad.address →
        (s.memValue ad.address 4 &&& 3 = 0 →
          exec i s = .next ((s.accessed.withBase rn ad).resolved.setPc (s.memValue ad.address 4))) ∧
        ((s.memValue ad.address 4).getLsbD 0 = true → exec i s = .refused .toThumb) ∧
        ((s.memValue ad.address 4).getLsbD 0 = false → (s.memValue ad.address 4).getLsbD 1 = true →
          exec i s = .refused .unpredictable)) ∧
      (∀ v m, loadValue (single s 4 s.privileged) ad.address s = .ok v m → ad.address &&& 3 ≠ 0 →
        exec i s = .refused .unpredictable))

/-- STR, STRB and STRH in both offset forms: the low bytes of the register go to the address, the base is written back; an
access that aborts leaves the registers alone; for main memory the result is given outright (42_a32_core_subset.md R957,
R958, R1015, R1017, R1019). -/
def Obligations.SingleStores : Prop :=
  ∀ (l : SingleStore) (c : Cond) (p u w : Bool) (rn rt : Reg) (s : State) (ad : Address), Runs c s → l.allowed rt →
    ordinary p w → baseAllowed p w rn rt → ad = indexed (baseValue s rn) (l.offset s) p u w →
    (∀ m, storeValue (single s l.size s.privileged) ad.address (s.reg rt) s = .ok () m →
      exec (l.instr c p u w rn rt) s = .next ((m.withBase rn ad).setPc (s.pc + 4))) ∧
    (∀ f a m, storeValue (single s l.size s.privileged) ad.address (s.reg rt) s = .error (.dataAbort f true a) m →
      ArmEntry m → exec (l.instr c p u w rn rt) s = .next (takeDataAbort f true a m)) ∧
    (Plain s .write (single s l.size s.privileged) ad.address →
      exec (l.instr c p u w rn rt) s =
        .next (((s.stored ad.address l.size (s.reg rt)).withBase rn ad).setPc (s.pc + 4)))

/-- LDRD and STRD move two words, the even register's at the lower address (42_a32_core_subset.md R1022, R1023); an odd
register, or R14, is refused. -/
def Obligations.Doublewords : Prop :=
  ∀ (c : Cond) (p u w : Bool) (rn rt rm : Reg) (h l : BitVec 4) (s : State) (off : Word) (ld st : Instr), Runs c s →
    (ld = .ldrdImm c p u w rn rt h l ∧ st = .strdImm c p u w rn rt h l ∧ off = (h ++ l).setWidth 32) ∨
      (ld = .ldrdReg c p u w rn rt rm ∧ st = .strdReg c p u w rn rt rm ∧ rm ≠ 15 ∧ off = s.reg rm) →
    ((rt.getLsbD 0 = true ∨ rt = 14) → exec ld s = .refused .unpredictable ∧ exec st s = .refused .unpredictable) ∧
    (rt.getLsbD 0 = false → rt ≠ 14 → ordinary p w → baseAllowed p w rn rt → baseAllowed p w rn (rt + 1) →
      ∀ ad, ad = indexed (baseValue s rn) off p u w →
        (PlainWords s .read ad.address 2 →
          exec ld s = .next ((((s.accessed.withBase rn ad).setReg rt (s.memValue ad.address 4)).setReg (rt + 1)
            (s.memValue (ad.address + 4) 4)).setPc (s.pc + 4))) ∧
        (PlainWords s .write ad.address 2 →
          exec st s = .next ((((s.stored ad.address 4 (s.reg rt)).stored (ad.address + 4) 4 (s.reg (rt + 1))).withBase rn
            ad).setPc (s.pc + 4))))

/-- LDM and POP load the registers of the list from rising words, the lowest register from the lowest address; the user-bank
form loads User's; R15 in the list is a branch, or with the S bit an exception return, and sets DBGDSCR.PipeAdv
(42_a32_core_subset.md R1024, R1026; 64_debug_pmu.md R747 by log entry 87). -/
def Obligations.LoadMultiples : Prop :=
  ∀ (c : Cond) (p u S w : Bool) (rn : Reg) (regs : BitVec 16) (s : State) (i : Instr), condPassed c s.cpsr = true →
    i = .ldm c p u S w rn regs ∨ (i = .pop c regs ∧ p = false ∧ u = true ∧ S = false ∧ w = true ∧ rn = 13) →
    rn ≠ 15 → regs ≠ 0 → (w = true → regs.getLsbD rn.toNat = false) →
    (S = true → regs.getLsbD 15 = false → spsrIndex s.mode ≠ none) →
    ∀ a n, n = listCount regs → a = multipleStart (s.reg rn) p u n → PlainWords s .read a n →
      ∀ t, t = State.loadedFrom (listMode s (S && !regs.getLsbD 15)) s (listAddresses a (listRegs regs)) s.accessed →
      ∀ b, b = (if w then t.setReg rn (multipleEnd (s.reg rn) u n) else t) →
        (regs.getLsbD 15 = false → s.pc ≠ 0xFFFFFFFC → exec i s = .next b.past) ∧
        (regs.getLsbD 15 = true →
          let v := s.memValue (a + BitVec.ofNat 32 (4 * (n - 1))) 4
          (S = false → v &&& 3 = 0 → exec i s = .next (b.resolved.setPc v)) ∧
          (S = false → v.getLsbD 0 = true → exec i s = .refused .toThumb) ∧
          (S = false → v.getLsbD 0 = false → v.getLsbD 1 = true → exec i s = .refused .unpredictable) ∧
          (∀ j, S = true → spsrIndex s.mode = some j → Returnable s.spsr[j] →
            exec i s = .next (b.resolved.returned s.spsr[j] v)))

/-- STM and PUSH store the registers of the list to rising words; R15 as the instruction's address plus 8; the user-bank form
User's; a base that is written back and is not the lowest of the list is stored as a value that is not fixed
(42_a32_core_subset.md R1025, R1026). -/
def Obligations.StoreMultiples : Prop :=
  ∀ (c : Cond) (p u S w : Bool) (rn : Reg) (regs : BitVec 16) (s : State) (i : Instr), Runs c s →
    i = .stm c p u S w rn regs ∨ (i = .push c regs ∧ p = true ∧ u = false ∧ S = false ∧ w = true ∧ rn = 13) →
    rn ≠ 15 → regs ≠ 0 →
    ∀ a n, n = listCount regs → a = multipleStart (s.reg rn) p u n → PlainWords s .write a n →
      ((w = true → regs.getLsbD rn.toNat = true → (listRegs regs).head? = some rn) →
        ∀ t, t = State.storedTo (listMode s S) s (listAddresses a (listRegs regs)) s →
          exec i s = .next ((if w then t.setReg rn (multipleEnd (s.reg rn) u n) else t).past)) ∧
      (w = true → regs.getLsbD rn.toNat = true → (listRegs regs).head? ≠ some rn → PlainWords (s.drew 1) .write a n →
        ∃ x, exec i s = .next (((State.storedTo (listMode s S) (s.setRegIn (listMode s S) rn x)
          (listAddresses a (listRegs regs)) (s.drew 1)).setReg rn (multipleEnd (s.reg rn) u n)).past))

/-- The load-exclusives load, aligned, and move the monitor to the exclusive state. The store-exclusives, while the monitor is
open, fail and store nothing; while it is exclusive either outcome is possible in memory that the local monitor alone checks
or the platform's global monitor serves, without the global monitor it needs the store fails, and one that goes out on a port as
exclusive and is answered with an error fails and stores nothing; all leave it open. CLREX
opens it. SWP and SWPB are Undefined while SCTLR.SW is 0; else the register takes the old memory value and memory the
register's (20_memory.md R283, R284, R285, R287; 11_cp15_registers.md R120). The model's choices: the outcome (log entry 14),
that a STREX to any address may succeed, where U27 offers a refusal (log entry 15), the even register of LDREXD and STREXD at the
lower address whatever CPSR.E is (log entry 55). -/
def Obligations.ExclusivesAndSwaps : Prop :=
  (∀ (c : Cond) (rn rt : Reg) (s : State), Runs c s → rn ≠ 15 → rt ≠ 15 →
    let a := s.reg rn
    let t := s.accessed.setMonitor true
    (Plain s .read (exclusive 4 s .read a) a → exec (.ldrex c rn rt) s = .next (t.wrote rt (s.memValue a 4))) ∧
    (Plain s .read (exclusive 1 s .read a) a → exec (.ldrexb c rn rt) s = .next (t.wrote rt (s.memValue a 1))) ∧
    (Plain s .read (exclusive 2 s .read a) a → exec (.ldrexh c rn rt) s = .next (t.wrote rt (s.memValue a 2))) ∧
    (Plain s .read (exclusive 8 s .read a) a → rt.getLsbD 0 = false → rt ≠ 14 →
      exec (.ldrexd c rn rt) s = .next ((t.setReg rt (s.memValue a 4)).wrote (rt + 1) (s.memValue (a + 4) 4)))) ∧
  (∀ (c : Cond) (rn rd rt : Reg) (s : State), Runs c s → rn ≠ 15 → rd ≠ 15 → rt ≠ 15 → rd ≠ rn → rd ≠ rt →
    (∀ (i : Instr) (n : Nat) (stored : State),
      (i = .strex c rn rd rt ∧ n = 4 ∧ stored = s.stored (s.reg rn) 4 (s.reg rt)) ∨
      (i = .strexb c rn rd rt ∧ n = 1 ∧ stored = s.stored (s.reg rn) 1 (s.reg rt)) ∨
      (i = .strexh c rn rd rt ∧ n = 2 ∧ stored = s.stored (s.reg rn) 2 (s.reg rt)) ∨
      (i = .strexd c rn rd rt ∧ n = 8 ∧ rt.getLsbD 0 = false ∧ rt ≠ 14 ∧ rd ≠ rt + 1 ∧
        stored = (s.stored (s.reg rn) 4 (s.reg rt)).stored (s.reg rn + 4) 4 (s.reg (rt + 1))) →
      ∀ acc attr, acc = exclusive n s .write (s.reg rn) → admission .write acc (s.reg rn) s = .ok attr →
        (s.monitor = false → exec i s = .next ((s.setMonitor false).wrote rd 1)) ∧
        (s.monitor = true → (cacheable s attr = true ∨ s.cfg.globalMonitor = true) → Plain s .write acc (s.reg rn) →
          exec i s = .next (((stored.drew 1).setMonitor false).wrote rd 0) ∨
          exec i s = .next (((s.drew 1).setMonitor false).wrote rd 1)) ∧
        (cacheable s attr = false → s.cfg.globalMonitor = false → Plain s .write acc (s.reg rn) →
          exec i s = .next ((s.setMonitor false).wrote rd 1)) ∧
        (∀ x, s.monitor = true → cacheable s attr = false → acc.form = .locked → busError s .locked (s.reg rn) n = some x →
          tcmClash s = false → inItcm s (s.reg rn) = false → inDtcm s (s.reg rn) = false →
          inPeripheral s.cfg (s.reg rn) = false → inWindow s.cfg (s.reg rn) = false → scuFinds s (s.reg rn) = false →
          ∃ t : State, exec i s = .next ((t.setMonitor false).wrote rd 1) ∧
            t = { s with free := t.free, upkeep := t.upkeep, unsynced := t.unsynced, pendingAbort := t.pendingAbort })) ∧
    exec .clrex s = .next (s.setMonitor false).past) ∧
  (∀ (c : Cond) (rn rt rt2 : Reg) (s : State), Runs c s →
    (s.cp15.sctlr.getLsbD 10 = false → ArmEntry s →
      exec (.swp c rn rt rt2) s = .next (takeException .undefined (s.pc + 4) s) ∧
      exec (.swpb c rn rt rt2) s = .next (takeException .undefined (s.pc + 4) s)) ∧
    (s.cp15.sctlr.getLsbD 10 = true → rn ≠ 15 → rt ≠ 15 → rt2 ≠ 15 → rn ≠ rt → rn ≠ rt2 →
      (Plain s .read (swapRead 4 s (s.reg rn)) (s.reg rn) → Plain s .write (swapWrite 4 s) (s.reg rn) →
        exec (.swp c rn rt rt2) s = .next ((s.stored (s.reg rn) 4 (s.reg rt2)).wrote rt (s.memValue (s.reg rn) 4))) ∧
      (Plain s .read (swapRead 1 s (s.reg rn)) (s.reg rn) → Plain s .write (swapWrite 1 s) (s.reg rn) →
        exec (.swpb c rn rt rt2) s = .next ((s.stored (s.reg rn) 1 (s.reg rt2)).wrote rt (s.memValue (s.reg rn) 1)))))

/-- A misaligned access where alignment is required is a Data Abort with the alignment status, its address in DFAR, and no
other effect: single accesses under SCTLR.A; doubleword, multiple, exclusive, swap, return-state and VFP ones always. An
aborted VLDM leaves the registers of its list, and no others, at values that are not fixed (20_memory.md R242, R287;
60_exceptions.md R524, R529; 43_vfp_instructions.md R1087). -/
def Obligations.MisalignedAccesses : Prop :=
  ∀ (c : Cond) (p u w : Bool) (rn rt rd rm : Reg) (s : State), condPassed c s.cpsr = true → ArmEntry s →
    let loads (a : Word) : Host.Outcome State Fault Refusal := .next (takeDataAbort .alignment false a s)
    let stores (a : Word) : Host.Outcome State Fault Refusal := .next (takeDataAbort .alignment true a s)
    (∀ (l : SingleLoad) (a : Word), s.cp15.sctlr.getLsbD 1 = true → rt ≠ 15 → l.allowed → ordinary p w →
      baseAllowed p w rn rt → a = (indexed (baseValue s rn) (l.offset s) p u w).address → a.toNat % l.size ≠ 0 →
      exec (l.instr c p u w rn rt) s = loads a) ∧
    (∀ (l : SingleStore) (a : Word), s.cp15.sctlr.getLsbD 1 = true → l.allowed rt → ordinary p w → baseAllowed p w rn rt →
      a = (indexed (baseValue s rn) (l.offset s) p u w).address → a.toNat % l.size ≠ 0 →
      exec (l.instr c p u w rn rt) s = stores a) ∧
    (∀ (h l : BitVec 4) (off a : Word) (ld st : Instr),
      (ld = .ldrdImm c p u w rn rt h l ∧ st = .strdImm c p u w rn rt h l ∧ off = (h ++ l).setWidth 32) ∨
        (ld = .ldrdReg c p u w rn rt rm ∧ st = .strdReg c p u w rn rt rm ∧ rm ≠ 15 ∧ off = s.reg rm) →
      rt.getLsbD 0 = false → rt ≠ 14 → ordinary p w → baseAllowed p w rn rt → baseAllowed p w rn (rt + 1) →
      a = (indexed (baseValue s rn) off p u w).address → a.toNat % 4 ≠ 0 →
      exec ld s = loads a ∧ exec st s = stores a) ∧
    (rn ≠ 15 → rt ≠ 15 → rd ≠ 15 → rd ≠ rn → rd ≠ rt →
      ((s.reg rn).toNat % 4 ≠ 0 → exec (.ldrex c rn rt) s = loads (s.reg rn) ∧ exec (.strex c rn rd rt) s = stores (s.reg rn)) ∧
      ((s.reg rn).toNat % 2 ≠ 0 →
        exec (.ldrexh c rn rt) s = loads (s.reg rn) ∧ exec (.strexh c rn rd rt) s = stores (s.reg rn)) ∧
      ((s.reg rn).toNat % 8 ≠ 0 → rt.getLsbD 0 = false → rt ≠ 14 → rd ≠ rt + 1 →
        exec (.ldrexd c rn rt) s = loads (s.reg rn) ∧ exec (.strexd c rn rd rt) s = stores (s.reg rn)) ∧
      ((s.reg rn).toNat % 4 ≠ 0 → rn ≠ rt → s.cp15.sctlr.getLsbD 10 = true →
        exec (.swp c rn rt rd) s = loads (s.reg rn))) ∧
    (∀ (regs : BitVec 16) (a : Word) (ld st : Instr), regs ≠ 0 →
      (ld = .ldm c p u false w rn regs ∧ st = .stm c p u false w rn regs ∧ rn ≠ 15 ∧ regs.getLsbD rn.toNat = false ∧
          a = multipleStart (s.reg rn) p u (listCount regs)) ∨
        (ld = .pop c regs ∧ st = .stm c false true false true 13 regs ∧ regs.getLsbD 13 = false ∧ a = s.reg 13) ∨
        (ld = .ldm c true false false true 13 regs ∧ st = .push c regs ∧ regs.getLsbD 13 = false ∧
          a = multipleStart (s.reg 13) true false (listCount regs)) →
      a.toNat % 4 ≠ 0 → exec ld s = loads a ∧ exec st s = stores a) ∧
    (∀ (a : Word), s.privileged = true → rn ≠ 15 → a = pairAddress (s.reg rn) p u → a.toNat % 4 ≠ 0 →
      exec (.rfe p u w rn) s = loads a) ∧
    (∀ (a : Word) (mode : BitVec 5) (m : Mode) (j : Fin 5), s.privileged = true → Mode.ofBits mode = some m →
      spsrIndex s.mode = some j → a = pairAddress (s.regIn m 13) p u → a.toNat % 4 ≠ 0 →
      exec (.srs p u w mode) s = stores a) ∧
    (VfpReady s → ∀ (d sz : Bool) (vd : BitVec 4) (k : BitVec 8), (sz && d) = false →
      (∀ off, off = BitVec.ofNat 32 (4 * k.toNat) →
        (∀ a, a = (if u then baseValue s rn + off else baseValue s rn - off) → a.toNat % 4 ≠ 0 →
          exec (.vldr c u d rn vd sz k) s = loads a) ∧
        (∀ a, a = (if u then s.reg rn + off else s.reg rn - off) → a.toNat % 4 ≠ 0 →
          exec (.vstr c u d rn vd sz k) s = stores a)) ∧
      (∀ n first, n = listSize sz k → n ≠ 0 → first = (if sz then vd.toNat else 2 * vd.toNat + d.toNat) →
        first + n ≤ (if sz then 16 else 32) → rn ≠ 15 → (s.reg rn).toNat % 4 ≠ 0 →
        ∀ ld st a, (ld = .vldmIa c d w rn vd sz k ∧ st = .vstmIa c d w rn vd sz k ∧ a = s.reg rn) ∨
            (ld = .vldmDb c d rn vd sz k ∧ st = .vstmDb c d rn vd sz k ∧ a = s.reg rn - BitVec.ofNat 32 (4 * k.toNat)) ∨
            (ld = .vpop c d vd sz k ∧ st = .vstmIa c d w rn vd sz k ∧ rn = 13 ∧ a = s.reg rn) ∨
            (ld = .vldmDb c d rn vd sz k ∧ st = .vpush c d vd sz k ∧ rn = 13 ∧
              a = s.reg rn - BitVec.ofNat 32 (4 * k.toNat)) →
          exec st s = stores a ∧
          ∃ (t : State), exec ld s = .next (takeDataAbort .alignment false a t) ∧
            t = { s with fpu := { s.fpu with d := t.fpu.d }, free := t.free } ∧
            ∀ r : BitVec 5, r.toNat < (if sz then 2 * first else first) ∨
              (if sz then 2 * (first + n) else first + n) ≤ r.toNat → t.single r = s.single r)) ∧
    (∀ (f : FaultStatus) (wr : Bool) (a : Word), takeDataAbort f wr a s =
      (takeException .dataAbort (s.pc + 8) s).setCp15 { s.cp15 with dfsr := f.bits ||| bitAt wr 11, dfar := a })

/-! ### System registers -/

/-- A privileged MRC reads each plain register of CP15 into Rt, or with Rt = 15 its top bits into the flags: identification,
control, fault, thread and error registers; the region registers of the region RGNR names; the selected PMU counter. So does a User
MRC of the two user thread registers and PMUSERENR, and, while PMUSERENR.EN is 1, of the PMU's. CTDOR reads as a value that is not
fixed; PMSWINC is an Undefined Instruction in every mode (40_system_register_access.md R431, R432, R434, R437; 11_cp15_registers.md
R103 to R113, R144, R176, R178, R182 to R184; that PMSELR selects by its five low bits, and that PMCNTENCLR and PMINTENCLR read the
enables, is the family's, log entry 58: the model's choice). -/
def Obligations.SystemRegisterReads : Prop :=
  ∀ (c : Cond) (rt : Reg) (s : State), Runs c s →
    (∀ e ∈ cp15Values s,
      s.privileged = true ∨ e.1 ∈ userReads ∨ e.1 ∈ userPmu ∧ s.pmu.userenr.getLsbD 0 = true →
      (rt ≠ 15 → exec (mrcOf c rt e.1) s = .next (s.wrote rt e.2)) ∧
      exec (mrcOf c 15 e.1) s =
        .next (s.setFlags (e.2.getLsbD 31) (e.2.getLsbD 30) (e.2.getLsbD 29) (e.2.getLsbD 28)).past) ∧
    (∀ n : Fin 16, s.privileged = true → rt ≠ 15 → s.cp15.rgnr.toNat = n.val → n.val < regionCount s.cfg →
      exec (mrcOf c rt (0, 6, 1, 0)) s = .next (s.wrote rt s.cp15.drbar[n]) ∧
      exec (mrcOf c rt (0, 6, 1, 2)) s = .next (s.wrote rt s.cp15.drsr[n]) ∧
      exec (mrcOf c rt (0, 6, 1, 4)) s = .next (s.wrote rt s.cp15.dracr[n])) ∧
    (∀ n : Fin 8, s.privileged = true ∨ s.pmu.userenr.getLsbD 0 = true → rt ≠ 15 → s.pmu.selr.toNat % 32 = n.val →
      exec (mrcOf c rt (0, 9, 13, 1)) s = .next (s.wrote rt s.pmu.evtyper[n]) ∧
      exec (mrcOf c rt (0, 9, 13, 2)) s = .next (s.wrote rt s.pmu.evcntr[n])) ∧
    (s.privileged = true → ∃ w : Word,
      (rt ≠ 15 → exec (mrcOf c rt (0, 15, 1, 0)) s = .next ((s.drew 1).wrote rt w)) ∧
      exec (mrcOf c 15 (0, 15, 1, 0)) s =
        .next ((s.drew 1).setFlags (w.getLsbD 31) (w.getLsbD 30) (w.getLsbD 29) (w.getLsbD 28)).past) ∧
    (ArmEntry s → exec (mrcOf c rt (0, 9, 12, 4)) s = .next (takeException .undefined (s.pc + 4) s))

/-- A privileged MCR writes the bits each register of CP15 has: plain storage, the writable bits of SCTLR, ACTLR, CPACR and the
TCM regions, the registers of the region RGNR names, the PMU registers (their fields by log entry 58); so does a User MCR of
TPIDRURW, of the three barriers (log entry 103) and, while PMUSERENR.EN is 1, of the PMU's registers. A region number out of
range is refused (the whole write, log entry 63); so are a change of SCTLR.C or I outside its sequence (before the ISB after a
change of I, of C with no DSB since the last load or store, maintenance of the data cache while on, or change of C, of a cache turned on that was not invalidated and, if turned off before,
cleaned) and a change of the error checking with a cache on or its sequence not finished (U22; how the model tells, log entry
79). NOP and DMB do nothing, DSB and ISB what the instructions do (log entry 40); an operation of c7 has its effect
(40_system_register_access.md R433, R434, R438; 11_cp15_registers.md R120, R131, R132, R144 to R148, R150, R155, R156, R178, R182 to
R185; 64_debug_pmu.md R738; 70_reset_and_hazards.md R861 to R863; 93_implementation_defined.md U22). -/
def Obligations.SystemRegisterWrites : Prop :=
  (∀ (c : Cond) (rt : Reg) (s : State) (v : Word), Runs c s → rt ≠ 15 → v = s.reg rt →
    (∀ e ∈ cp15Stores s v, s.privileged = true ∨ e.1 ∈ userWrites →
      exec (mcrOf c rt e.1) s = .next (s.setCp15 e.2).past) ∧
    (∀ e ∈ pmuStores s v, s.privileged = true ∨ e.1 ∈ userPmu ∧ s.pmu.userenr.getLsbD 0 = true →
      exec (mcrOf c rt e.1) s = .next (s.setPmuRegs e.2).past) ∧
    (s.privileged = true ∨ s.pmu.userenr.getLsbD 0 = true →
      (∀ n : Fin 8, s.pmu.selr.toNat % 32 = n.val →
        exec (mcrOf c rt (0, 9, 13, 1)) s =
          .next (s.setPmuRegs { s.pmu with evtyper := s.pmu.evtyper.set n (v &&& 0xFF) }).past ∧
        exec (mcrOf c rt (0, 9, 13, 2)) s = .next (s.setPmuRegs { s.pmu with evcntr := s.pmu.evcntr.set n v }).past) ∧
      ∃ p : Pmu, exec (mcrOf c rt (0, 9, 12, 4)) s = .next (s.setPmuRegs p).past ∧
        p = { s.pmu with evcntr := p.evcntr, ovsr := p.ovsr } ∧
        (∀ n : Fin 8, ∀ up, up = (v.getLsbD n.val && s.pmu.pmcr.getLsbD 0 && s.pmu.cnten.getLsbD n.val &&
            decide (s.pmu.evtyper[n] &&& 0xFF = 0)) →
          p.evcntr[n] = s.pmu.evcntr[n] + BitVec.ofNat 32 up.toNat ∧
          p.ovsr.getLsbD n.val = (s.pmu.ovsr.getLsbD n.val || (up && decide (s.pmu.evcntr[n] = 0xFFFFFFFF)))) ∧
        p.ovsr &&& 0xFFFFFF00 = s.pmu.ovsr &&& 0xFFFFFF00) ∧
    exec (mcrOf c rt (0, 7, 10, 5)) s = .next s.past ∧ exec (mcrOf c rt (0, 7, 10, 4)) s = exec (.dsb 15) s ∧
    exec (mcrOf c rt (0, 7, 5, 4)) s = exec (.isb 15) s) ∧
  ∀ (c : Cond) (rt : Reg) (s : State) (v : Word), Runs c s → s.privileged = true → rt ≠ 15 → v = s.reg rt →
    (∃ w, (∀ k, k < 32 → w.getLsbD k =
        if k ∈ [30, 25, 21, 19, 17, 13, 11, 10, 1, 0] ∨ k = 12 ∧ s.cfg.icache ≠ .none ∨ k = 2 ∧ s.cfg.dcache ≠ .none
        then v.getLsbD k else s.cp15.sctlr.getLsbD k) ∧
      ∀ d i : Prop, (d ↔ w.getLsbD 2 ≠ s.cp15.sctlr.getLsbD 2) → (i ↔ w.getLsbD 12 ≠ s.cp15.sctlr.getLsbD 12) →
        ∀ bad : Prop, (bad ↔ (d ∨ i) ∧ s.upkeep.isb = false ∨ d ∧ s.upkeep.dsb = false ∨
          i ∧ w.getLsbD 12 = true ∧ s.upkeep.instruction = false ∨
          d ∧ w.getLsbD 2 = true ∧ (dataInvalidated s = false ∨ dataCleaned s = false)) →
        (bad → exec (mcrOf c rt (0, 1, 0, 0)) s = .refused .cacheSequence) ∧
        (¬ bad → ∃ k : CacheUpkeep, exec (mcrOf c rt (0, 1, 0, 0)) s =
            .next (State.past { s with cp15 := { s.cp15 with sctlr := w }, upkeep := k }) ∧
          (k.instruction = true ↔ s.upkeep.instruction = true ∧ ¬ (i ∧ w.getLsbD 12 = false)) ∧
          (k.isb = true ↔ s.upkeep.isb = true ∧ ¬ i) ∧ (k.dsb = true ↔ s.upkeep.dsb = true ∧ ¬ d) ∧
          (d → w.getLsbD 2 = false → k.data = Vector.replicate 64 0 ∧ k.cleaned = Vector.replicate 64 0) ∧
          (¬ d ∨ w.getLsbD 2 = true → k.data = s.upkeep.data ∧ k.cleaned = s.upkeep.cleaned))) ∧
    (∃ w, (∀ k, k < 32 → w.getLsbD k =
        if k ∈ [3, 6, 8, 11] ∨ (k = 9 ∨ k = 10) ∧ s.cfg.ecc = true ∨ k = 0 ∧ s.cfg.twoCpus = true
        then v.getLsbD k else s.cp15.actlr.getLsbD k) ∧
      (w &&& 0x600 = s.cp15.actlr &&& 0x600 →
        exec (mcrOf c rt (0, 1, 0, 1)) s = .next (s.setCp15 { s.cp15 with actlr := w }).past) ∧
      (w &&& 0x600 ≠ s.cp15.actlr &&& 0x600 → s.cp15.sctlr &&& 0x1004 = 0 → s.upkeep.isb = true → dataCleaned s = true →
        exec (mcrOf c rt (0, 1, 0, 1)) s = .next (State.past { s with
          cp15 := { s.cp15 with actlr := w }, upkeep := CacheUpkeep.reset })) ∧
      (w &&& 0x600 ≠ s.cp15.actlr &&& 0x600 →
        s.cp15.sctlr &&& 0x1004 ≠ 0 ∨ s.upkeep.isb = false ∨ dataCleaned s = false →
        exec (mcrOf c rt (0, 1, 0, 1)) s = .refused .cacheSequence)) ∧
    (∃ w, (∀ k, k < 32 → w.getLsbD k =
        if 20 ≤ k ∧ k ≤ 23 ∧ s.cfg.fpu ≠ .none then v.getLsbD k else s.cp15.cpacr.getLsbD k) ∧
      exec (mcrOf c rt (0, 1, 0, 2)) s = .next (s.setCp15 { s.cp15 with cpacr := w }).past) ∧
    (∃ d i, (∀ k, k < 32 →
        d.getLsbD k = (if 12 ≤ k ∨ k = 0 ∧ s.cfg.dtcm ≠ .none then v.getLsbD k else s.cp15.dtcmrr.getLsbD k) ∧
        i.getLsbD k = (if 12 ≤ k ∨ k = 0 ∧ s.cfg.itcm ≠ .none then v.getLsbD k else s.cp15.itcmrr.getLsbD k)) ∧
      exec (mcrOf c rt (0, 9, 1, 0)) s = .next (s.setCp15 { s.cp15 with dtcmrr := d }).past ∧
      exec (mcrOf c rt (0, 9, 1, 1)) s = .next (s.setCp15 { s.cp15 with itcmrr := i }).past) ∧
    (v.toNat < regionCount s.cfg → exec (mcrOf c rt (0, 6, 2, 0)) s = .next (s.setCp15 { s.cp15 with rgnr := v }).past) ∧
    (regionCount s.cfg ≤ v.toNat → exec (mcrOf c rt (0, 6, 2, 0)) s = .refused .regionNumber) ∧
    (∀ n : Fin 16, s.cp15.rgnr.toNat = n.val → n.val < regionCount s.cfg →
      exec (mcrOf c rt (0, 6, 1, 0)) s =
        .next (s.setCp15 { s.cp15 with drbar := s.cp15.drbar.set n (v &&& 0xFFFFFFE0) }).past ∧
      exec (mcrOf c rt (0, 6, 1, 2)) s =
        .next (s.setCp15 { s.cp15 with drsr := s.cp15.drsr.set n (v &&& 0x0000FF3F) }).past ∧
      exec (mcrOf c rt (0, 6, 1, 4)) s =
        .next (s.setCp15 { s.cp15 with dracr := s.cp15.dracr.set n (v &&& 0x0000173F) }).past) ∧
    exec (mcrOf c rt (0, 7, 0, 4)) s = .next s.past ∧
    (∀ op1 crn crm op2 o t, cp15Sel op1 crn crm op2 = some (.op o) → performOp o v s = .ok () t →
      exec (.mcrP15 c op1 crn rt op2 crm) s = .next (t.setPc (s.pc + 4)))

/-- The cache operations of c7. By address, and by set and way, they do nothing to a cache that is not built. With error checking
off: invalidate all drops every line of the instruction cache, invalidate by
address the line that holds it; clean, invalidate, and both, by address act on the line of the data cache that holds it, if
any, and by set and way on that line; a reserved set/way argument is refused, without a data cache too. Of the stored words that are not synchronised, a
clean by address cleans those in the line, an invalidation by address after a DSB drops those in the line, and an operation of the
branch predictor has it forget the word or all, of Cacheable memory those that were dropped. Direct access reads and writes the words of the DTCM, the ITCM and the caches'
RAMs (20_memory.md R255, R257, R258, R281; 11_cp15_registers.md R176, R177; 93_implementation_defined.md U23). The model's choices:
the layout of the instruction cache's tag word, valid in bit 22 (log entry 25), the SCU's tag copy cleared with the line (log entry
33), a TCM's hole (log entry 68), the sets that a set/way argument may name without a data cache (log entry 72), what counts as invalidated and cleaned (log entry 79), how stored words are followed (log entry
80), RADRHI after a data-side operation (log entry 88), the doubleword of an odd word (log entry 104). `State.maintained` says that maintenance of a data cache that is on asks for a
DSB before SCTLR.C changes (log entry 79). -/
def Obligations.CacheOperations : Prop :=
  ∀ (c : Cond) (rt : Reg) (s : State) (v : Word), Runs c s → s.privileged = true → rt ≠ 15 → v = s.reg rt → Canonical s →
    (s.cfg.icache = .none → exec (mcrOf c rt (0, 7, 5, 1)) s = .next (State.past { s with
      unsynced := s.unsynced.map fun x => { x with
        dropped := x.dropped || (x.pushed && decide (x.memory ≠ .itcm ∧ x.word / 8 = v.toNat / 32)) } })) ∧
    (s.cfg.dcache = .none →
      (∀ e ∈ [((0, 7, 6, 1), false), ((0, 7, 10, 1), true), ((0, 7, 11, 1), true), ((0, 7, 14, 1), true)],
        exec (mcrOf c rt e.1) s = .next (State.past { s.maintained with
          unsynced := s.unsynced.map fun x => { x with
            cleaned := x.cleaned || (e.2 && decide (x.memory ≠ .itcm ∧ x.word / 8 = v.toNat / 32)) } })) ∧
      ∀ x ∈ [(0, 7, 6, 2), (0, 7, 10, 2), (0, 7, 14, 2)],
        (v.extractLsb' 0 5 = 0 ∧ (v.extractLsb' 5 25).toNat < 512 → exec (mcrOf c rt x) s = .next s.maintained.past) ∧
        (v.extractLsb' 0 5 ≠ 0 ∨ 512 ≤ (v.extractLsb' 5 25).toNat → exec (mcrOf c rt x) s = .refused .setWay)) ∧
    (eccOn s = false →
    (∀ x ∈ [(0, 7, 5, 0), (0, 7, 1, 0)], ∃ m, (∀ k, sparseRead m k = sparseRead s.icache.tag k &&& 0xFDBFFFFF) ∧
      exec (mcrOf c rt x) s = .next (State.past { s with
        icache := { s.icache with tag := m }, upkeep := { s.upkeep with instruction := true }
        unsynced := s.unsynced.map fun x => { x with
          dropped := x.dropped || x.pushed
          forgotten := x.forgotten || decide (x.memory ≠ .cached ∨ x.dropped = true ∨ x.pushed = true) } })) ∧
    (∀ k set l, k = setBits s.cfg.icache → set = setOf k v →
      l = (s.unsynced.map fun x => { x with
        dropped := x.dropped || (x.pushed && decide (x.memory ≠ .itcm ∧ x.word / 8 = v.toNat / 32)) }) →
      (hitWay s.icache s.cp15.ieer k v = none →
        exec (mcrOf c rt (0, 7, 5, 1)) s = .next (State.past { s with unsynced := l })) ∧
      (∀ way line, s.cfg.icache ≠ .none → hitWay s.icache s.cp15.ieer k v = some way → line = lineIndex way set →
        exec (mcrOf c rt (0, 7, 5, 1)) s = .next (State.past { s with unsynced := l, icache := { s.icache with
          tag := sparseWrite s.icache.tag line (sparseRead s.icache.tag line &&& 0xFDBFFFFF) } }))) ∧
    (∀ e ∈ [((0, 7, 1, 6), true), ((0, 7, 5, 6), true), ((0, 7, 5, 7), false)],
      exec (mcrOf c rt e.1) s = .next (State.past { s with unsynced := s.unsynced.map fun x =>
        { x with forgotten := x.forgotten || (decide (x.memory ≠ .cached ∨ x.dropped = true) &&
          (e.2 || decide (x.memory ≠ .itcm ∧ x.word = v.toNat / 4))) } })) ∧
    (∀ e ∈ [((0, 7, 6, 1), false, true), ((0, 7, 10, 1), true, false), ((0, 7, 11, 1), true, false),
        ((0, 7, 14, 1), true, true)], ∀ k set l, k = setBits s.cfg.dcache → set = setOf k v →
      l = (s.unsynced.map fun x => { x with
        cleaned := x.cleaned || (e.2.1 && decide (x.memory ≠ .itcm ∧ x.word / 8 = v.toNat / 32)) }) →
      (hitWay s.dcache s.cp15.deer k v = none →
        exec (mcrOf c rt e.1) s = .next (State.past { s.maintained with unsynced := l })) ∧
      (∀ way, s.cfg.dcache ≠ .none → hitWay s.dcache s.cp15.deer k v = some way → (e.2.1 = true → LinePlain s (s.lineAt way set)) →
        ∃ t, exec (mcrOf c rt e.1) s = .next (State.past { t with unsynced := l }) ∧
          LineDone s.maintained t way set e.2.1 e.2.2)) ∧
    (∀ e ∈ [((0, 7, 6, 2), false, true), ((0, 7, 10, 2), true, false), ((0, 7, 14, 2), true, true)], s.cfg.dcache ≠ .none →
      ∀ way set, way = (v.extractLsb' 30 2).toNat → set = (v.extractLsb' 5 25).toNat →
      (v.extractLsb' 0 5 ≠ 0 ∨ 2 ^ setBits s.cfg.dcache ≤ set → exec (mcrOf c rt e.1) s = .refused .setWay) ∧
      (v.extractLsb' 0 5 = 0 → set < 2 ^ setBits s.cfg.dcache → (e.2.1 = true → LinePlain s (s.lineAt way set)) →
        ∃ t i, LineDone s.maintained t way set e.2.1 e.2.2 ∧ exec (mcrOf c rt e.1) s = .next (State.past { t with upkeep := i }) ∧
          i = { s.maintained.upkeep with data := i.data, cleaned := i.cleaned } ∧ ∀ line, line < 2048 →
            lineBit i.data line = (lineBit s.upkeep.data line || (e.2.2 && decide (line = lineIndex way set))) ∧
            lineBit i.cleaned line = (lineBit s.upkeep.cleaned line || (e.2.1 && decide (line = lineIndex way set))))) ∧
    (dataInvalidated s = true ↔ ∀ way set, way < 4 → set < 2 ^ setBits s.cfg.dcache →
      lineBit s.upkeep.data (lineIndex way set) = true) ∧
    (dataCleaned s = true ↔ ∀ way set, way < 4 → set < 2 ^ setBits s.cfg.dcache →
      lineBit s.upkeep.cleaned (lineIndex way set) = true) ∧
    (s.cfg.ecc = false → ∀ r w : State, DirectAccess s v r w →
      exec (mcrOf c rt (0, 15, 1, 0)) s = .next (if v.getLsbD 0 then w else r).past))

/-- An access to a selector CP15 does not have, a User access to a register User mode may not use, a write of an
identification register and a read of a c7 operation are Undefined Instructions (40_system_register_access.md R434 to
R437; 60_exceptions.md R545, R561). -/
def Obligations.SystemRegistersDenied : Prop :=
  ∀ (c : Cond) (op1 op2 : BitVec 3) (crn crm : BitVec 4) (rt : Reg) (s : State), condPassed c s.cpsr = true →
    ArmEntry s →
    let u := takeException .undefined (s.pc + 4) s
    let x := selectorOf op1 crn crm op2
    (cp15Sel op1 crn crm op2 = none →
      exec (.mrcP15 c op1 crn rt op2 crm) s = .next u ∧ exec (.mcrP15 c op1 crn rt op2 crm) s = .next u) ∧
    (s.privileged = false → x ∉ userReads → (x ∉ userPmu ∨ s.pmu.userenr.getLsbD 0 = false) →
      exec (.mrcP15 c op1 crn rt op2 crm) s = .next u) ∧
    (s.privileged = false → x ∉ userWrites → (x ∉ userPmu ∨ s.pmu.userenr.getLsbD 0 = false) →
      exec (.mcrP15 c op1 crn rt op2 crm) s = .next u) ∧
    (crn = 0 → op1 ≠ 2 → exec (.mcrP15 c op1 crn rt op2 crm) s = .next u) ∧
    (crn = 7 → exec (.mrcP15 c op1 crn rt op2 crm) s = .next u)

/-- The identification registers with one fixed or pin-given value, read-only and for privileged modes: MPUIR, AIDR, CBAR,
and in the private region the SCU's filter start and the distributor's ICDICTR and ICDIIDR (11_cp15_registers.md R107, R113,
R175; 61_scu.md R593; 62_gic.md R641, R642). -/
def Obligations.IdentificationRegisters : Prop :=
  (∀ (c : Cond) (rt : Reg) (s : State), Runs c s → ArmEntry s →
    ∀ e ∈ [((0, 0, 0, 4), if s.cfg.mpu16 then 0x00001000#32 else 0x00000C00#32), ((1, 0, 0, 7), 0#32),
        ((4, 15, 0, 0), s.cfg.periphBase ++ 0#13)],
      (s.privileged = true → rt ≠ 15 → exec (mrcOf c rt e.1) s = .next (s.wrote rt e.2)) ∧
      (s.privileged = false → exec (mrcOf c rt e.1) s = .next (takeException .undefined (s.pc + 4) s)) ∧
      exec (mcrOf c rt e.1) s = .next (takeException .undefined (s.pc + 4) s)) ∧
  (∀ (s : State) (v : Word),
    scuRead s 0x48 = s.cfg.pfilterStart ++ 0#20 ∧ scuWrite 0x48 v s = s ∧
    distRead s 0x004 = BitVec.ofNat 32 ((if s.cfg.twoCpus then 1 else 0) * 32 + s.cfg.spiBlocks.toNat) ∧
    distWrite 0x004 v s = s ∧ distRead s 0x008 = 0x0300043B ∧ distWrite 0x008 v s = s)

/-- CP14: the breakpoint, watchpoint, fault address and vector catch registers are read and written, each of them, BVR0 to
BVR3 without their two low bits; the claim tags are set and cleared; the data transfer registers move their full bits; a selector without
a register is Undefined, and for User mode all but two registers (64_debug_pmu.md R745 to R749;
40_system_register_access.md R445; the debug logic itself, and the full bits of the data transfer registers and DBGPRSR, by log
entry 34). Where the platform maps the debug window, its bus
reads and writes the same registers, and the PMU's, at the offsets of their blocks in the debug address map, and those of the other
processor at its blocks'; a read of a write-only register gives 0, a write of the ROM table does nothing; the CTI and ETM of each
processor built, whose registers are out of scope, stop by name; a place with no unit gets an error response, the blocks of a
processor that is not built among them: a read then gives values that are not fixed, and reads and writes make an abort pending unless
one is (64_debug_pmu.md R734 to R736, R746, R751, R752, R770; 00_scope.md R6; where the map stands, the other processor's registers
and the response by log entry 81, its authentication status by log entry 35, the write-only registers by log entry 75, that accesses
of User mode are served as privileged ones are by log entry 111, that loads and stores reach the blocks at all by log entry 114). -/
def Obligations.DebugRegisters : Prop :=
  ∀ (c : Cond) (rt : Reg) (s : State) (v : Word), Runs c s → rt ≠ 15 → v = s.reg rt →
    (s.privileged = true →
      (∀ n : Fin 6, exec (.mrcP14 c 0 0 rt 4 (BitVec.ofNat 4 n.val)) s = .next (s.wrote rt s.dbg.bvr[n]) ∧
        exec (.mrcP14 c 0 0 rt 5 (BitVec.ofNat 4 n.val)) s = .next (s.wrote rt s.dbg.bcr[n]) ∧
        exec (.mcrP14 c 0 0 rt 4 (BitVec.ofNat 4 n.val)) s = .next (s.setDebug
          { s.dbg with bvr := s.dbg.bvr.set n (if n.val < 4 then v &&& 0xFFFFFFFC else v) }).past ∧
        exec (.mcrP14 c 0 0 rt 5 (BitVec.ofNat 4 n.val)) s =
          .next (s.setDebug { s.dbg with bcr := s.dbg.bcr.set n v }).past) ∧
      (∀ n : Fin 4, exec (.mrcP14 c 0 0 rt 6 (BitVec.ofNat 4 n.val)) s = .next (s.wrote rt s.dbg.wvr[n]) ∧
        exec (.mrcP14 c 0 0 rt 7 (BitVec.ofNat 4 n.val)) s = .next (s.wrote rt s.dbg.wcr[n]) ∧
        exec (.mcrP14 c 0 0 rt 6 (BitVec.ofNat 4 n.val)) s =
          .next (s.setDebug { s.dbg with wvr := s.dbg.wvr.set n v }).past ∧
        exec (.mcrP14 c 0 0 rt 7 (BitVec.ofNat 4 n.val)) s =
          .next (s.setDebug { s.dbg with wcr := s.dbg.wcr.set n v }).past) ∧
      exec (.mrcP14 c 0 0 rt 0 6) s = .next (s.wrote rt s.dbg.wfar) ∧
      exec (.mcrP14 c 0 0 rt 0 6) s = .next (s.setDebug { s.dbg with wfar := v }).past ∧
      exec (.mrcP14 c 0 0 rt 0 7) s = .next (s.wrote rt s.dbg.vcr) ∧
      exec (.mcrP14 c 0 0 rt 0 7) s = .next (s.setDebug { s.dbg with vcr := v }).past ∧
      exec (.mrcP14 c 0 7 rt 6 9) s = .next (s.wrote rt s.dbg.claim) ∧
      exec (.mcrP14 c 0 7 rt 6 8) s = .next (s.setDebug { s.dbg with claim := s.dbg.claim ||| (v &&& 0xFF) }).past ∧
      exec (.mcrP14 c 0 7 rt 6 9) s = .next (s.setDebug { s.dbg with claim := s.dbg.claim &&& ~~~ v }).past ∧
      exec (.mrcP14 c 0 0 rt 0 5) s =
        .next ((s.setDebug { s.dbg with dscr := setBit s.dbg.dscr 30 false }).wrote rt s.dbg.dtrrx) ∧
      exec (.mcrP14 c 0 0 rt 0 5) s =
        .next (s.setDebug { s.dbg with dtrtx := v, dscr := setBit s.dbg.dscr 29 true }).past ∧
      exec (.mcrP14 c 0 0 rt 2 0) s =
        .next (s.setDebug { s.dbg with dtrrx := v, dscr := setBit s.dbg.dscr 30 true }).past ∧
      exec (.mrcP14 c 0 0 rt 2 3) s =
        .next ((s.setDebug { s.dbg with dscr := setBit s.dbg.dscr 29 false }).wrote rt s.dbg.dtrtx)) ∧
    (∀ (op1 op2 : BitVec 3) (crn crm : BitVec 4),
      ArmEntry s → cp14Sel op1 crn crm op2 = none ∨
        (s.privileged = false ∧ ¬ (op1 = 0 ∧ crn = 0 ∧ op2 = 0 ∧ (crm = 0 ∨ crm = 1))) →
      exec (.mrcP14 c op1 crn rt op2 crm) s = .next (takeException .undefined (s.pc + 4) s) ∧
      exec (.mcrP14 c op1 crn rt op2 crm) s = .next (takeException .undefined (s.pc + 4) s)) ∧
    (∀ (k : Nat), (s.cfg.dbgSelfAddrV = false → ∀ a, windowOffset s.cfg a = none) ∧
      (s.cfg.dbgSelfAddrV = true →
        (k < 0x8000 → windowOffset s.cfg
          ((s.cfg.dbgRomAddr ++ 0#12) + (s.cfg.dbgSelfAddr ++ 0#15) + BitVec.ofNat 32 k) = some (0x10000 + k)) ∧
        (∀ a, k < 0x20000 → a = (s.cfg.dbgRomAddr ++ 0#12) + BitVec.ofNat 32 k →
          0x8000 ≤ (a - (s.cfg.dbgRomAddr ++ 0#12) - (s.cfg.dbgSelfAddr ++ 0#15)).toNat → windowOffset s.cfg a = some k))) ∧
    (∀ (a : Word) (attr : Attr) (form : AccessForm) (off : Nat), inPeripheral s.cfg a = false →
      windowOffset s.cfg a = some off →
      (∀ own, own = (if s.cfg.cpu then 0x12000 else 0x10000) →
        (∀ n : Fin 6, off = own + 4 * (64 + n.val) →
          busRead a 4 attr form s = .ok (bytesOfWord s.dbg.bvr[n]) s ∧
          busWrite a (bytesOfWord v) attr form s = .ok ()
            (s.setDebug { s.dbg with bvr := s.dbg.bvr.set n (if n.val < 4 then v &&& 0xFFFFFFFC else v) })) ∧
        (∀ e ∈ [(36, 0#32), (1004, 0), (832, 0x410FC171#32), (833, 0x8333C003), (835, 0x410FC171), (837, mpidrValue s.cfg), (838, 0),
            (839, 0x410FC171), (840, 0x131), (1001, s.dbg.claim), (1012, 0x04), (1016, 0x17), (1017, 0xBC), (1018, 0x0B),
            (1023, 0xB1)], off = own + 4 * e.1 → busRead a 4 attr form s = .ok (bytesOfWord e.2) s) ∧
        (∀ e ∈ [(0x07C, s.pmu.ccntr), (0xC00, s.pmu.cnten), (0xC80, s.pmu.ovsr), (0xE04, s.pmu.pmcr), (0xD00, mpidrValue s.cfg),
            (0xFA4, s.dbg.pmuClaim), (0xCA0, 0), (0xFB0, 0), (0xFE0, 0xB7), (0xFE4, 0xB9), (0xFFC, 0xB1)],
          off = own + 0x1000 + e.1 → busRead a 4 attr form s = .ok (bytesOfWord e.2) s) ∧
        (off = own + 0x1000 + 0xC80 → busWrite a (bytesOfWord v) attr form s = .ok ()
          (s.setPmuRegs { s.pmu with ovsr := s.pmu.ovsr &&& ~~~ v }))) ∧
      (s.cfg.twoCpus = true → ∀ other, other = (if s.cfg.cpu then 0x10000 else 0x12000) →
        (∀ n : Fin 6, off = other + 4 * (64 + n.val) →
          busRead a 4 attr form s = .ok (bytesOfWord s.otherDbg.bvr[n]) s ∧
          busWrite a (bytesOfWord v) attr form s = .ok () { s with otherDbg := { s.otherDbg with
            bvr := s.otherDbg.bvr.set n (if n.val < 4 then v &&& 0xFFFFFFFC else v) } }) ∧
        (off = other + 4 * 837 → busRead a 4 attr form s =
          .ok (bytesOfWord (mpidrValue { s.cfg with cpu := !s.cfg.cpu })) s) ∧
        (off = other + 4 * 834 → busRead a 4 attr form s = .ok (bytesOfWord (tcmtrValue
          { s.cfg with itcmBuild := s.cfg.otherItcmBuild, dtcmBuild := s.cfg.otherDtcmBuild })) s) ∧
        (off = other + 4 * 1006 → busRead a 4 attr form s = .ok (bytesOfWord (authStatus
          { s.pins with dbgEn := s.pins.otherDbgEn, nidEn := s.pins.otherNidEn })) s) ∧
        (off = other + 4 * 197 → busRead a 4 attr form s =
          .ok (bytesOfWord (bitAt s.otherDbg.stickyReset 3 ||| bitAt s.pins.resets.otherCpu 2 ||| 1))
            { s with otherDbg := { s.otherDbg with stickyReset := s.otherDbg.stickyReset && s.pins.resets.otherCpu } }) ∧
        (off = other + 0x1000 + 0x07C → busRead a 4 attr form s = .ok (bytesOfWord s.otherPmu.ccntr) s ∧
          busWrite a (bytesOfWord v) attr form s = .ok () { s with otherPmu := { s.otherPmu with ccntr := v } })) ∧
      (off < 0x1000 → busRead a 4 attr form s = .ok (bytesOfWord (Config.dbgRomEntry (off / 4))) s ∧
        busWrite a (bytesOfWord v) attr form s = .ok () s) ∧
      (∀ built block, built = (s.cfg.twoCpus || s.cfg.cpu) → block = off / 0x1000 →
        (block ∈ [0x18, 0x1C] ∨ (block ∈ [0x19, 0x1D] ∧ built = true) →
          busRead a 4 attr form s = .error (.refuse .debugUnit) s ∧
          busWrite a (bytesOfWord v) attr form s = .error (.refuse .debugUnit) s) ∧
        (block ∉ [0x00, 0x10, 0x11, 0x12, 0x13, 0x18, 0x19, 0x1C, 0x1D] ∨
            (block ∈ [0x12, 0x13, 0x19, 0x1D] ∧ built = false) →
          (∃ bs, bs.length = 4 ∧ busRead a 4 attr form s =
            .ok bs { s with pendingAbort := some (s.pendingAbort.getD true), free := s.free + 4 }) ∧
          busWrite a (bytesOfWord v) attr form s =
            .ok () { s with pendingAbort := some (s.pendingAbort.getD true) })))

/-- The FPU system registers: VMRS and VMSR are permitted as Table 5-3 says, and raise Undefined Instruction where they are
not; VMRS of FPSCR to R15 takes the flags; VMSR writes the bits of FPSCR and FPEXC that are there; a number that names no
register stops by name, in every mode and whatever FPEXC.EN is; the cumulative flags are what FPUFLAGS shows (12_fpu_registers.md
R212, R230; 40_system_register_access.md R450 to R453; 60_exceptions.md R545; 93_implementation_defined.md U61, over
12_fpu_registers.md R204 and R221 by log entry 21). -/
def Obligations.FpuSystemRegisters : Prop :=
  ∀ (c : Cond) (rt : Reg) (s : State), Runs c s → s.cfg.fpu ≠ .none → s.cp15.cpacr.extractLsb' 20 4 = 0xF → rt ≠ 15 →
    (∀ e ∈ [(0#4, 0x41023170#32, s), (6#4, 0x01000011#32, s),
        (7#4, if s.cfg.fpu = .double then 0x10110221#32 else 0x10110021#32, s),
        (8#4, s.fpu.fpexc, { s with fpu := { s.fpu with fpexc := maskWrite s.fpu.fpexc (s.reg rt) 0x60000000 } })],
      (s.privileged = true →
        exec (.vmrs c e.1 rt) s = .next (s.wrote rt e.2.1) ∧ exec (.vmsr c e.1 rt) s = .next e.2.2.past) ∧
      (s.privileged = false → ArmEntry s →
        exec (.vmrs c e.1 rt) s = .next (takeException .undefined (s.pc + 4) s) ∧
        exec (.vmsr c e.1 rt) s = .next (takeException .undefined (s.pc + 4) s))) ∧
    (s.fpu.fpexc.getLsbD 30 = true →
      exec (.vmrs c 1 rt) s = .next (s.wrote rt s.fpu.fpscr) ∧
      exec (.vmrs c 1 15) s = .next (s.setFlags (s.fpu.fpscr.getLsbD 31) (s.fpu.fpscr.getLsbD 30)
        (s.fpu.fpscr.getLsbD 29) (s.fpu.fpscr.getLsbD 28)).past ∧
      exec (.vmsr c 1 rt) s = .next (s.setFpscr (maskWrite s.fpu.fpscr (s.reg rt) 0xF7F7009F)).past) ∧
    (s.fpu.fpexc.getLsbD 30 = false → ArmEntry s →
      exec (.vmrs c 1 rt) s = .next (takeException .undefined (s.pc + 4) s) ∧
      exec (.vmsr c 1 rt) s = .next (takeException .undefined (s.pc + 4) s)) ∧
    (∀ reg : BitVec 4, reg.toNat ∉ [0, 1, 6, 7, 8] →
      exec (.vmrs c reg rt) s = .refused .vfpRegister ∧ exec (.vmsr c reg rt) s = .refused .vfpRegister) ∧
    (s.signals.fpuFlags.getLsbD 5 = s.fpu.fpscr.getLsbD 7 ∧
      ∀ k, k < 5 → s.signals.fpuFlags.getLsbD k = s.fpu.fpscr.getLsbD k)

/-! ### VFP -/

/-- Where CPACR denies the mode access to cp10 and cp11, or there is no FPU, every instruction of the VFP space is an
Undefined Instruction; so are, while FPEXC.EN is 0, all but VMRS and VMSR of FPSID, MVFR0, MVFR1 and FPEXC in privileged modes and of a number
that names no register (log entry 21), and those that name a register D16 to D31 or compute in double precision where the FPU has
single precision only (12_fpu_registers.md R221, R231; 43_vfp_instructions.md R1041, R1042; 60_exceptions.md R545). -/
def Obligations.VfpDeniedIsUndefined : Prop :=
  ∀ (i : Instr) (s : State), WellFormed i → InVfpSpace i → condPassed (condOf (encode i)) s.cpsr = true → ArmEntry s →
    VfpDenied s ∨ (VfpAdmitted s ∧ s.fpu.fpexc.getLsbD 30 = false ∧ reachesDisabled s i = false) ∨
      (VfpReady s ∧ lacksRegister s.cfg i = true) →
    exec i s = .next (takeException .undefined (s.pc + 4) s)

/-- The operations on three registers: the result of the operation on the sources and, for the multiply-accumulates, the
destination, with its flags in FPSCR; with FPSCR.Len not 0 they set FPEXC.DEX and are Undefined Instructions
(43_vfp_instructions.md R1057, R1060 to R1068; 12_fpu_registers.md R213). -/
def Obligations.VfpThreeRegisters : Prop :=
  ∀ (o : VfpOp) (c : Cond) (d : Bool) (vn vd : BitVec 4) (sz n m : Bool) (vm : BitVec 4) (s : State),
    (sz && (d || n || m)) = false →
    (Runs c s → VfpRuns s sz →
      exec (o.instr c d vn vd sz n m vm) s = .next (s.fpResult sz vd d
        (o.compute (formatOf sz) (s.fp sz vd d) (s.fp sz vn n) (s.fp sz vm m) s.fpu.fpscr))) ∧
    (condPassed c s.cpsr = true → VfpReady s → s.fpu.fpscr.extractLsb' 16 3 ≠ 0 → (sz = true → s.cfg.fpu = .double) →
      ArmEntry s →
      exec (o.instr c d vn vd sz n m vm) s = .next (takeException .undefined (s.pc + 4)
        { s with fpu := { s.fpu with fpexc := s.fpu.fpexc ||| 0x20000000 } }))

/-- VMOV, VABS, VNEG, VSQRT and VMOV of an immediate (43_vfp_instructions.md R1069 to R1073): VABS and VNEG change the sign
bit only and no flag. -/
def Obligations.VfpTwoRegisters : Prop :=
  ∀ (c : Cond) (d : Bool) (vd : BitVec 4) (sz m : Bool) (vm h l : BitVec 4) (s : State), Runs c s → VfpRuns s sz →
    ((sz && (d || m)) = false →
      let x := s.fp sz vm m
      let top := if sz then 2 ^ 63 else 2 ^ 31
      exec (.vmovReg c d vd sz m vm) s = .next (s.fpResult sz vd d (x, s.fpu.fpscr)) ∧
      exec (.vabs c d vd sz m vm) s = .next (s.fpResult sz vd d (x % top, s.fpu.fpscr)) ∧
      exec (.vneg c d vd sz m vm) s =
        .next (s.fpResult sz vd d (if top ≤ x then x - top else x + top, s.fpu.fpscr)) ∧
      exec (.vsqrt c d vd sz m vm) s = .next (s.fpResult sz vd d (fpSqrt (formatOf sz) x s.fpu.fpscr))) ∧
    ((sz && d) = false →
      exec (.vmovImm c d h vd sz false false l) s =
        .next (s.fpResult sz vd d (expandImm (formatOf sz) (h ++ l), s.fpu.fpscr)))

/-- VCMP and VCMPE put the comparison's N, Z, C and V in FPSCR and change nothing else but its flags
(43_vfp_instructions.md R1074, R1075). -/
def Obligations.VfpComparisons : Prop :=
  ∀ (c : Cond) (d : Bool) (vd : BitVec 4) (sz e m : Bool) (vm : BitVec 4) (s : State), Runs c s → VfpRuns s sz →
    ((sz && (d || m)) = false →
      let r := fpCompare (formatOf sz) (s.fp sz vd d) (s.fp sz vm m) e s.fpu.fpscr
      exec (.vcmpReg c d vd sz e m vm) s =
        .next (s.setFpscr ((r.2 &&& 0x0FFFFFFF) ||| (r.1 ++ 0#28))).past) ∧
    ((sz && d) = false →
      let r := fpCompare (formatOf sz) (s.fp sz vd d) 0 e s.fpu.fpscr
      exec (.vcmpZero c d vd sz e false 0) s = .next (s.setFpscr ((r.2 &&& 0x0FFFFFFF) ||| (r.1 ++ 0#28))).past)

/-- The conversions: between the two precisions, to and from integers, to and from fixed point, and of half-precision halves
of a register (43_vfp_instructions.md R1076 to R1080). That a conversion of a double to fixed point writes all 64 bits of the
register is R1079 over vectors V43-229 and V43-230 (log entry 43). -/
def Obligations.VfpConversions : Prop :=
  ∀ (c : Cond) (d : Bool) (vd : BitVec 4) (sz m b x : Bool) (vm k : BitVec 4) (s : State), Runs c s →
    (VfpRuns s true → (if sz then m else d) = false →
      exec (.vcvtDoubleSingle c d vd sz m vm) s =
        .next (s.fpResult (!sz) vd d (fpConvert (formatOf sz) (formatOf (!sz)) (s.fp sz vm m) s.fpu.fpscr))) ∧
    (VfpRuns s sz → (sz && m) = false →
      ∀ r, r = fpToFixed (formatOf sz) (s.fp sz vm m) 32 0 (!b) x s.fpu.fpscr →
      exec (.vcvtFpToInt c d b vd sz x m vm) s =
        .next (s.fpResult false vd d ((BitVec.ofInt 32 r.1).toNat, r.2))) ∧
    (VfpRuns s sz → (sz && d) = false →
      ∀ w, w = s.single (singleNumber vm m) →
      exec (.vcvtIntToFp c d vd sz b m vm) s =
        .next (s.fpResult sz vd d (fpFromFixed (formatOf sz) (if b then w.toInt else w.toNat) 0 false s.fpu.fpscr))) ∧
    (VfpRuns s sz → (sz && d) = false → ∀ (sx i : Bool) (size n : Nat), size = (if sx then 32 else 16) →
      n = k.toNat * 2 + i.toNat → n ≤ size →
      (∀ r, r = fpToFixed (formatOf sz) (s.fp sz vd d) size (size - n) b true s.fpu.fpscr →
        exec (.vcvtFixed c d true b vd sz sx i k) s = .next (s.fpResult sz vd d ((BitVec.ofInt 64 r.1).toNat, r.2))) ∧
      (∀ low, low = s.fp sz vd d % 2 ^ size →
        exec (.vcvtFixed c d false b vd sz sx i k) s = .next (s.fpResult sz vd d (fpFromFixed (formatOf sz)
          (if b = true ∨ low < 2 ^ (size - 1) then (low : Int) else (low : Int) - 2 ^ size) (size - n) true
          s.fpu.fpscr)))) ∧
    (VfpRuns s false →
      ∀ fmt, fmt = half (s.fpu.fpscr.getLsbD 26) →
      exec (.vcvtbVcvtt c d false vd x m vm) s = .next (s.fpResult false vd d
        (fpConvert fmt single32 ((s.single (singleNumber vm m)).extractLsb' (if x then 16 else 0) 16).toNat
          s.fpu.fpscr)) ∧
      ∀ r old, r = fpConvert single32 fmt (s.single (singleNumber vm m)).toNat s.fpu.fpscr →
        old = s.single (singleNumber vd d) →
        exec (.vcvtbVcvtt c d true vd x m vm) s = .next (((s.setFpscr r.2).setSingle (singleNumber vd d)
          (if x then BitVec.ofNat 16 r.1 ++ old.extractLsb' 0 16 else old.extractLsb' 16 16 ++ BitVec.ofNat 16 r.1)).past))

/-- Floating-point arithmetic: addition and multiplication do not depend on the order of operands that are not NaNs,
subtraction is addition of the negated operand, swapping the operands swaps less and greater, and rounding a number that the
format can represent gives that number and no flag, in every rounding mode. Of NaN operands the first signalling one, else the
first quiet one, is the result, made quiet, or the default NaN; an infinity is the result but where the operation is invalid
(43_vfp_instructions.md R1044 to R1052). -/
def Obligations.FloatingPointLaws : Prop :=
  (∀ (sz : Bool) (x y : Nat) (w : Word), x < 2 ^ (if sz then 64 else 32) → y < 2 ^ (if sz then 64 else 32) →
    (fpUnpack (formatOf sz) x w).1.cls.isNaN = false → (fpUnpack (formatOf sz) y w).1.cls.isNaN = false →
    fpAdd (formatOf sz) x y w = fpAdd (formatOf sz) y x w ∧ fpMul (formatOf sz) x y w = fpMul (formatOf sz) y x w ∧
    fpSub (formatOf sz) x y w = fpAdd (formatOf sz) x (fpNeg (formatOf sz) y) w ∧
    ((fpCompare (formatOf sz) x y false w).1 = 0b1000 ↔ (fpCompare (formatOf sz) y x false w).1 = 0b0010)) ∧
  (∀ (f : Format) (x : Nat) (w : Word) (a : FpValue), f = single32 ∨ f = double64 ∨ f = half false ∨ f = half true →
    x < 2 ^ (1 + f.expBits + f.fracBits) → fpUnpack f x w = (a, w) → a.cls = .nonzero →
    fpRound f a.sign a.sig a.exp false w = (x, w)) ∧
  (∀ (sz : Bool) (f : Format) (x y : Nat) (w w1 w2 : Word) (a b : FpValue), f = formatOf sz → x < 2 ^ (if sz then 64 else 32) →
    y < 2 ^ (if sz then 64 else 32) → fpUnpack f x w = (a, w1) → fpUnpack f y w1 = (b, w2) →
    (∀ op ∈ [fpAdd, fpSub, fpMul, fpDiv], a.cls.isNaN = true ∨ b.cls.isNaN = true →
      ∀ n, n = (if a.cls = .signalling then x else if b.cls = .signalling then y else if a.cls = .quiet then x else y) →
        op f x y w = (if w.getLsbD 25 then fpDefaultNaN f
            else if n / 2 ^ (f.fracBits - 1) % 2 = 0 then n + 2 ^ (f.fracBits - 1) else n,
          if a.cls = .signalling ∨ b.cls = .signalling then w2 ||| ioc else w2)) ∧
    (a.cls = .infinity → b.cls.isNaN = false →
      fpAdd f x y w = (if b.cls = .infinity ∧ a.sign ≠ b.sign then (fpDefaultNaN f, w2 ||| ioc)
        else (fpInfinity f a.sign, w2)) ∧
      fpMul f x y w = (if b.cls = .zero then (fpDefaultNaN f, w2 ||| ioc) else (fpInfinity f (a.sign != b.sign), w2)) ∧
      fpDiv f x y w = (if b.cls = .infinity then (fpDefaultNaN f, w2 ||| ioc)
        else (fpInfinity f (a.sign != b.sign), w2))) ∧
    (a.cls.finite = true → b.cls = .infinity →
      fpDiv f x y w = (fpZero f (a.sign != b.sign), w2)) ∧
    (a.cls.isNaN = true ∨ b.cls.isNaN = true → ∀ e,
      fpCompare f x y e w = (0b0011, if a.cls = .signalling ∨ b.cls = .signalling ∨ e = true then w2 ||| ioc else w2)))

/-- The result of an operation on finite numbers is the exact result correctly rounded: addition, subtraction, multiplication,
division and square root, each rounded once, in every rounding mode, with and without flush-to-zero; an exact zero has the
sign the rules give; a division by zero and the root of a negative number raise their exceptions; a comparison orders the
exact numbers (43_vfp_instructions.md R1046, R1048 to R1052). -/
def Obligations.CorrectRounding : Prop :=
  ∀ (sz : Bool) (f : Format) (x y : Nat) (w w1 w2 : Word) (a b : FpValue) (rm : Rounding), f = formatOf sz →
    x < 2 ^ (if sz then 64 else 32) → y < 2 ^ (if sz then 64 else 32) → fpUnpack f x w = (a, w1) →
    fpUnpack f y w1 = (b, w2) → a.cls.finite = true → b.cls.finite = true → rm = roundingOf w →
    (∀ q : ℚ, q = a.value + b.value →
      (q ≠ 0 → Rounded f rm (decide (q < 0)) (|q| : ℚ) w2 (fpAdd f x y w)) ∧
      (q = 0 → fpAdd f x y w = (fpZero f
        (if a.cls = .zero ∧ b.cls = .zero ∧ a.sign = b.sign then a.sign else rm == .minus), w2))) ∧
    (∀ q : ℚ, q = a.value - b.value →
      (q ≠ 0 → Rounded f rm (decide (q < 0)) (|q| : ℚ) w2 (fpSub f x y w)) ∧
      (q = 0 → fpSub f x y w = (fpZero f
        (if a.cls = .zero ∧ b.cls = .zero ∧ a.sign ≠ b.sign then a.sign else rm == .minus), w2))) ∧
    (∀ q : ℚ, q = a.value * b.value →
      (q ≠ 0 → Rounded f rm (a.sign != b.sign) (|q| : ℚ) w2 (fpMul f x y w)) ∧
      (q = 0 → fpMul f x y w = (fpZero f (a.sign != b.sign), w2))) ∧
    (b.cls = .nonzero → ∀ q : ℚ, q = a.value / b.value →
      (q ≠ 0 → Rounded f rm (a.sign != b.sign) (|q| : ℚ) w2 (fpDiv f x y w)) ∧
      (q = 0 → fpDiv f x y w = (fpZero f (a.sign != b.sign), w2))) ∧
    (b.cls = .zero → fpDiv f x y w =
      if a.cls = .zero then (fpDefaultNaN f, w2 ||| ioc) else (fpInfinity f (a.sign != b.sign), w2 ||| dzc)) ∧
    (a.cls = .nonzero → a.sign = false → Rounded f rm false (Real.sqrt (a.value : ℝ)) w1 (fpSqrt f x w)) ∧
    (a.cls = .nonzero → a.sign = true → fpSqrt f x w = (fpDefaultNaN f, w1 ||| ioc)) ∧
    (a.cls = .zero → fpSqrt f x w = (fpZero f a.sign, w1)) ∧
    (∀ e, fpCompare f x y e w =
      (if a.value = b.value then 0b0110 else if a.value < b.value then 0b1000 else 0b0010, w2))

/-- The conversions round the exact number once: between formats, from an integer over a power of two, and to one, where a
result out of the range is the nearest bound and a NaN is 0, both with Invalid Operation (43_vfp_instructions.md R1053 to
R1055). -/
def Obligations.ConversionsRound : Prop :=
  (∀ (src dst : Format) (x : Nat) (w w1 : Word) (a : FpValue),
    src ∈ [single32, double64, half false, half true] → dst ∈ [single32, double64, half false, half true] →
    x < 2 ^ (1 + src.expBits + src.fracBits) → fpUnpack src x w = (a, w1) →
    (a.cls = .nonzero → Rounded dst (roundingOf w) a.sign (|a.value| : ℚ) w1 (fpConvert src dst x w)) ∧
    (a.cls = .zero → fpConvert src dst x w = (fpZero dst a.sign, w1))) ∧
  (∀ (f : Format) (i : Int) (fb : Nat) (nearest : Bool) (w : Word), f = single32 ∨ f = double64 →
    (i ≠ 0 → Rounded f (if nearest then .nearest else roundingOf w) (decide (i < 0)) ((|i| : ℤ) / (2 : ℝ) ^ fb) w
      (fpFromFixed f i fb nearest w)) ∧
    (i = 0 → fpFromFixed f i fb nearest w = (fpZero f false, w))) ∧
  (∀ (sz : Bool) (f : Format) (x m fb : Nat) (uns zero : Bool) (w w1 : Word) (a : FpValue) (lo hi : Int), f = formatOf sz →
    x < 2 ^ (if sz then 64 else 32) → m = 16 ∨ m = 32 → fpUnpack f x w = (a, w1) →
    lo = (if uns then 0 else -(2 ^ (m - 1))) → hi = (if uns then 2 ^ m - 1 else 2 ^ (m - 1) - 1) →
    ∀ r, r = fpToFixed f x m fb uns zero w →
    (a.cls.isNaN = true → r = (0, w1 ||| ioc)) ∧
    (a.cls = .infinity → r = (if a.sign then lo else hi, w1 ||| ioc)) ∧
    (a.cls.finite = true → ∃ k : ℕ,
      RoundedInt (if zero then .zero else roundingOf w) a.sign ((|a.value| : ℚ) * (2 : ℝ) ^ fb) k ∧
      ∀ i : Int, i = (if a.sign then -(k : Int) else k) →
        (i < lo → r = (lo, w1 ||| ioc)) ∧ (hi < i → r = (hi, w1 ||| ioc)) ∧
        (lo ≤ i → i ≤ hi → r.1 = i ∧ ((k : ℝ) = (|a.value| : ℚ) * (2 : ℝ) ^ fb → r.2 = w1) ∧
          ((k : ℝ) ≠ (|a.value| : ℚ) * (2 : ℝ) ^ fb → r.2 = w1 ||| ixc))))

/-- The transfers between ARM registers and FPU registers, one or two words, both ways (43_vfp_instructions.md R1090 to
R1094). -/
def Obligations.VfpTransfers : Prop :=
  ∀ (c : Cond) (v : BitVec 4) (rt rt2 : Reg) (n x : Bool) (s : State), Runs c s → VfpReady s → rt ≠ 15 → rt2 ≠ 15 →
    exec (.vmovCoreSingle c true v rt n 0 0) s = .next (s.wrote rt (s.single (singleNumber v n))) ∧
    exec (.vmovCoreSingle c false v rt n 0 0) s = .next (s.setSingle (singleNumber v n) (s.reg rt)).past ∧
    (singleNumber v n ≠ 31 →
      (rt ≠ rt2 → exec (.vmovCoreTwoSingles c true rt2 rt n v) s =
        .next ((s.setReg rt (s.single (singleNumber v n))).wrote rt2 (s.single (singleNumber v n + 1)))) ∧
      exec (.vmovCoreTwoSingles c false rt2 rt n v) s =
        .next ((s.setSingle (singleNumber v n) (s.reg rt)).setSingle (singleNumber v n + 1) (s.reg rt2)).past) ∧
    (rt ≠ rt2 → exec (.vmovCoreDouble c true rt2 rt false v) s =
      .next ((s.setReg rt ((s.double v).extractLsb' 0 32)).wrote rt2 ((s.double v).extractLsb' 32 32))) ∧
    exec (.vmovCoreDouble c false rt2 rt false v) s = .next (s.setDouble v (s.reg rt2 ++ s.reg rt)).past ∧
    exec (.vmovCoreToHalf c x v rt false 0) s = .next (s.setSingle (singleNumber v x) (s.reg rt)).past ∧
    exec (.vmovHalfToCore c x v rt false 0) s = .next (s.wrote rt (s.single (singleNumber v x)))

/-- VLDR and VSTR move one register's worth of main memory; VLDM, VPOP, VSTM and VPUSH move the registers of a list in rising
order and write the base back; an odd count of words in the doubleword forms moves the base only (43_vfp_instructions.md R1085
to R1089). -/
def Obligations.VfpLoadsAndStores : Prop :=
  (∀ (c : Cond) (u d : Bool) (rn : Reg) (vd : BitVec 4) (sz : Bool) (k : BitVec 8) (s : State), Runs c s → VfpReady s →
    (sz && d) = false →
    (∀ a, a = (if u then baseValue s rn + BitVec.ofNat 32 (4 * k.toNat) else baseValue s rn - BitVec.ofNat 32 (4 * k.toNat)) →
      PlainWords s .read a (if sz then 2 else 1) →
      exec (.vldr c u d rn vd sz k) s = .next (s.accessed.setFp sz vd d (s.fpMem sz a)).past) ∧
    (∀ a, a = (if u then s.reg rn + BitVec.ofNat 32 (4 * k.toNat) else s.reg rn - BitVec.ofNat 32 (4 * k.toNat)) →
      PlainWords s .write a (if sz then 2 else 1) →
      exec (.vstr c u d rn vd sz k) s = .next (s.fpStored sz a (s.fp sz vd d)).past)) ∧
  (∀ (c : Cond) (u d w : Bool) (rn : Reg) (vd : BitVec 4) (sz : Bool) (k : BitVec 8) (s : State) (ld st : Instr), Runs c s →
    VfpReady s → (sz && d) = false →
    (ld = .vldmIa c d w rn vd sz k ∧ st = .vstmIa c d w rn vd sz k ∧ u = true) ∨
      (ld = .vldmDb c d rn vd sz k ∧ st = .vstmDb c d rn vd sz k ∧ u = false ∧ w = true) ∨
      (ld = .vpop c d vd sz k ∧ st = .vstmIa c d w rn vd sz k ∧ u = true ∧ w = true ∧ rn = 13) ∨
      (ld = .vldmDb c d rn vd sz k ∧ st = .vpush c d vd sz k ∧ u = false ∧ w = true ∧ rn = 13) →
    ¬ (rn = 15 ∧ w = true) →
    ∀ n first off, n = listSize sz k → n ≠ 0 → first = (if sz then vd.toNat else 2 * vd.toNat + d.toNat) →
      first + n ≤ (if sz then 16 else 32) → off = BitVec.ofNat 32 (4 * k.toNat) →
      (∀ base, base = baseValue s rn →
        PlainWords s .read (if u then base else base - off) (if sz then 2 * n else n) →
        ∀ t, t = State.fpLoaded s sz first n (if u then base else base - off) s.accessed →
          exec ld s = .next (if w then t.setReg rn (if u then base + off else base - off) else t).past) ∧
      (∀ base, base = s.reg rn →
        PlainWords s .write (if u then base else base - off) (if sz then 2 * n else n) →
        ∀ t, t = State.fpStoredList s sz first n (if u then base else base - off) s →
          exec st s = .next (if w then t.setReg rn (if u then base + off else base - off) else t).past))

/-! ### MPU, interrupt controller, timers, SCU -/

/-- The highest-numbered region that an address hits decides its attributes and permission (21_mpu_tcm.md R342). Where none is hit
the default map serves privileged accesses under SCTLR.BR, and any access while the MPU is off; else there is a background fault.
An access that its region does not permit is a Data Abort with the permission status, one of the background a Data Abort with
that status, before any effect; a fetch is the Prefetch Abort with the same; one that straddles two blocks must pass in both
(R350, R352, R356, R361; 60_exceptions.md R524). -/
def Obligations.HighestRegionDecides : Prop :=
  (∀ (p : Cp15) (a : Word) (n : Nat), n ≤ 16 →
    (∀ r, topRegion p a n = some r ↔
      r.val < n ∧ regionHits p a r = true ∧ ∀ q : Fin 16, r < q → q.val < n → regionHits p a q = false) ∧
    (topRegion p a n = none ↔ ∀ q : Fin 16, q.val < n → regionHits p a q = false)) ∧
  (∀ (s : State) (k : AccessKind) (privileged : Bool) (a : Word) (r : Fin 16) (attr : Attr),
    s.cp15.sctlr.getLsbD 0 = true → smallRegion s.cp15 (regionCount s.cfg) = false →
    topRegion s.cp15 a (regionCount s.cfg) = some r → decodeAttr s.cp15.dracr[r] = some attr →
    let ap := (s.cp15.dracr[r].extractLsb' 8 3).toNat
    ap ≠ 4 → ap ≠ 7 →
    lookupRegion s k privileged a = .hit attr (match k with
      | .read => ap == 2 || ap == 3 || ap == 6 || ((ap == 1 || ap == 5) && privileged)
      | .write => ap == 3 || ((ap == 1 || ap == 2) && privileged)
      | .fetch => (ap == 2 || ap == 3 || ap == 6 || ((ap == 1 || ap == 5) && privileged)) &&
          !s.cp15.dracr[r].getLsbD 12)) ∧
  (∀ (s : State) (k : AccessKind) (privileged : Bool) (a : Word) (m : Lookup),
    m = .hit (defaultMap s k a).1 (!(k == .fetch && (defaultMap s k a).2)) →
    (s.cp15.sctlr.getLsbD 0 = false → lookupRegion s k privileged a = m) ∧
    (s.cp15.sctlr.getLsbD 0 = true → smallRegion s.cp15 (regionCount s.cfg) = false →
      topRegion s.cp15 a (regionCount s.cfg) = none →
      lookupRegion s k privileged a = if s.cp15.sctlr.getLsbD 17 = true ∧ privileged = true then m else .background)) ∧
  (∀ (s : State) (k : AccessKind) (acc : Access) (a : Word), k ≠ .fetch → a.toNat % acc.align = 0 →
    (acc.size ∈ [1, 2, 4, 8] → a.toNat % acc.size = 0 →
      (∀ attr, lookupRegion s k acc.privileged a = .hit attr false →
        admission k acc a s = .error (.dataAbort .permission (k == .write) a)) ∧
      (lookupRegion s k acc.privileged a = .background →
        admission k acc a s = .error (.dataAbort .background (k == .write) a)) ∧
      (∀ attr, lookupRegion s k acc.privileged a = .hit attr true →
        admission k acc a s = .ok (if inItcm s a || inDtcm s a then normalNc false else attr))) ∧
    (∀ attr, admission k acc a s = .ok attr → a.toNat / 32 ≠ (a.toNat + acc.size - 1) / 32 →
      ∃ x y, lookupRegion s k acc.privileged a = .hit x true ∧
        lookupRegion s k acc.privileged (a + BitVec.ofNat 32 (acc.size - 1)) = .hit y true)) ∧
  (∀ (s : State) (acc : Access) (a v : Word) (e : Stop),
    (admission .read acc a s = .error e → loadValue acc a s = .error e s) ∧
    (admission .write acc a s = .error e → storeValue acc a v s = .error e s)) ∧
  (∀ (s : State) (a : Word), a.toNat % 4 = 0 →
    (∀ attr, lookupRegion s .fetch s.privileged a = .hit attr false → fetchWord a s = .ok (.error .permission) s) ∧
    (lookupRegion s .fetch s.privileged a = .background → fetchWord a s = .ok (.error .background) s)) ∧
  FaultStatus.permission.bits = 0x00D ∧ FaultStatus.background.bits = 0x000

/-- The interrupt that is signalled is pending, enabled and targeted at this processor, passes the mask and preempts what is
active, and among all that are pending, enabled and targeted here has the lowest priority value and then the lowest ID; some
interrupt is signalled just if the interface and the distributor are enabled and there is one that passes. Reading ICCIAR
gives its ID and makes it active, or gives 0x3FF and does nothing (62_gic.md R640, R647, R662, R663, R664, R672; that in a
one-processor build every SPI targets the processor, whatever R644 and R647 leave it at, is log entry 32, DEDUCED; that the read
gives 0x3FF while the interface is disabled is the model's choice, log entry 101). -/
def Obligations.BestInterruptSignalled : Prop :=
  ∀ s : State, (s.cfg.cpu = true → s.cfg.twoCpus = true) →
    (∀ id, signalled s = some id →
      s.gic.ifEnable = true ∧ s.gic.distEnable = true ∧ Forwarded s id ∧ Preempts s id ∧
      (∀ j, Forwarded s j →
        (idPriority s id).toNat < (idPriority s j).toNat ∨ idPriority s id = idPriority s j ∧ id ≤ j) ∧
      ∃ v t, iccRead 0x0C s = .ok v t ∧ (v &&& 0x3FF).toNat = id ∧ idBit t.gic.active id = true) ∧
    ((signalled s).isSome = true ↔
      s.gic.ifEnable = true ∧ s.gic.distEnable = true ∧ ∃ id, Forwarded s id ∧ Preempts s id) ∧
    (signalled s = none → iccRead 0x0C s = .ok 0x3FF s)

/-- A write of a timer's load register also writes its counter, which reloads from it after zero under auto-reload; in
watchdog mode no other write changes the watchdog's counter; the event flag of the private timer, and of the watchdog in timer mode,
is set when the counter reaches zero, with its interrupt where enabled, ID29 and ID30, and cleared by writing 1; in watchdog mode the
counter reaching zero sets the reset flag, which writing 1 clears, asserts WDRESETREQ and nothing else, and the counter stays at zero. The global timer:
the halves of its counter, which each tick counts up, and of the comparator are read and written, the control holds the prescaler and
four bits, three of them this processor's; where the comparison is enabled and the counter has reached the comparator, a tick, a write
of the control and a write of the comparator set the event flag and with auto-increment move the comparator, else not; the flag is
cleared by writing 1, and with the interrupt enabled it is the level of ID27 (63_timers.md R691, R693, R694, R696, R700, R701, R702,
R705 to R708, R710 to R716). The model's choices: a write of the control compares whenever it leaves the comparison enabled (log entry 102),
writes of reserved bits are ignored (log entry 118), and what a prescaler has counted stays over a write of its block (log entry 30).
That writes compare at all is the spec's reading of R712, which it marks as derived. That the reload takes a tick of its own is the spec's reading of R694, which it marks as derived; R701 and R702,
which have the other writes ignored, it marks so too. -/
def Obligations.TimerRegisters : Prop :=
  (∀ (t : Timers) (v : Word),
    (privateTimerWrite 0x00 v t).load = v ∧ (privateTimerWrite 0x00 v t).counter = v ∧
    (privateTimerWrite 0x20 v t).wdLoad = v ∧ (privateTimerWrite 0x20 v t).wdCounter = v ∧
    (t.wdControl.getLsbD 3 = true → ∀ off, off ≠ 0x20 → (privateTimerWrite off v t).wdCounter = t.wdCounter) ∧
    (∀ k, k < 32 → (privateTimerWrite 0x2C v t).wdStatus.getLsbD k =
      if k = 0 ∧ v.getLsbD 0 = true then false else t.wdStatus.getLsbD k)) ∧
  (∀ s : State, s.timers.counter = 1 → s.timers.control.getLsbD 1 = true →
    (timerTick s).timers.counter = 0 ∧ (timerTick (timerTick s)).timers.counter = s.timers.load) ∧
  (∀ s : State,
    (s.timers.counter = 1 → (timerTick s).timers.status = s.timers.status ||| 1 ∧
      (s.timers.control.getLsbD 2 = true → s.gic.distEnable = true → idBit (timerTick s).gic.pending 29 = true)) ∧
    (s.timers.counter ≠ 1 → (timerTick s).timers.status = s.timers.status ∧ (timerTick s).gic = s.gic) ∧
    (s.timers.counter = 0 → s.timers.control.getLsbD 1 = false → timerTick s = s)) ∧
  (∀ (t : Timers) (v : Word) (k : Nat), k < 32 →
    ((privateTimerWrite 0x0C v t).status.getLsbD k = if k = 0 ∧ v.getLsbD 0 = true then false else t.status.getLsbD k) ∧
    ((globalWrite 0x0C v t).gStatus.getLsbD k = if k = 0 ∧ v.getLsbD 0 = true then false else t.gStatus.getLsbD k)) ∧
  (∀ t : Timers,
    globalRead t 0x00 = BitVec.ofNat 32 t.gCounter.toNat ∧ globalRead t 0x04 = BitVec.ofNat 32 (t.gCounter.toNat / 2 ^ 32) ∧
    globalRead t 0x08 = t.gControl ∧ globalRead t 0x0C = t.gStatus ∧ globalRead t 0x18 = t.autoInc ∧
    globalRead t 0x10 = BitVec.ofNat 32 t.comparator.toNat ∧
    globalRead t 0x14 = BitVec.ofNat 32 (t.comparator.toNat / 2 ^ 32)) ∧
  (∀ (s : State) (t : Timers) (v : Word), t = s.timers →
    globalWrite 0x00 v t = { t with gCounter := BitVec.ofNat 64 (t.gCounter.toNat / 2 ^ 32 * 2 ^ 32 + v.toNat) } ∧
    globalWrite 0x04 v t = { t with gCounter := BitVec.ofNat 64 (v.toNat * 2 ^ 32 + t.gCounter.toNat % 2 ^ 32) } ∧
    globalWrite 0x18 v t = { t with autoInc := v } ∧
    ∀ u r : Timers, (u = { t with gCounter := BitVec.ofNat 64 (t.gCounter.toNat + 1) } ∧ globalTick s = { s with timers := r }) ∨
        (u = { t with gControl := v &&& 0x0000FF0F } ∧ r = globalWrite 0x08 v t) ∨
        (u = { t with comparator := BitVec.ofNat 64 (t.comparator.toNat / 2 ^ 32 * 2 ^ 32 + v.toNat) } ∧
          r = globalWrite 0x10 v t) ∨
        (u = { t with comparator := BitVec.ofNat 64 (v.toNat * 2 ^ 32 + t.comparator.toNat % 2 ^ 32) } ∧
          r = globalWrite 0x14 v t) →
      (¬ (u.gControl.getLsbD 1 = true ∧ u.comparator.toNat ≤ u.gCounter.toNat) → r = u) ∧
      (u.gControl.getLsbD 1 = true → u.comparator.toNat ≤ u.gCounter.toNat → r = { u with
        gStatus := u.gStatus ||| 1
        comparator := if u.gControl.getLsbD 3 = true then BitVec.ofNat 64 (u.comparator.toNat + u.autoInc.toNat)
          else u.comparator })) ∧
  (∀ s : State, s.gic.distEnable = true →
    idBit (sampleInputs s).gic.level 27 = (s.timers.gStatus.getLsbD 0 && s.timers.gControl.getLsbD 2) ∧
    (s.timers.gStatus.getLsbD 0 = true → s.timers.gControl.getLsbD 2 = true → isPending (sampleInputs s) 27 = true)) ∧
  (∀ s : State, s.timers.wdCounter = 1 → s.timers.wdControl.getLsbD 3 = false →
    (watchdogTick s).timers.wdStatus.getLsbD 0 = true ∧ (watchdogTick s).timers.wdCounter = 0 ∧
    (s.timers.wdControl.getLsbD 1 = true → (watchdogTick (watchdogTick s)).timers.wdCounter = s.timers.wdLoad) ∧
    (s.timers.wdControl.getLsbD 2 = true → s.gic.distEnable = true → idBit (watchdogTick s).gic.pending 30 = true)) ∧
  (∀ s t : State, t = watchdogTick s → s.timers.wdControl.getLsbD 3 = true →
    (s.timers.wdCounter = 1 → t.timers.wdReset.getLsbD 0 = true ∧ t.signals.wdResetReq = true ∧
      t.timers = { s.timers with wdCounter := 0, wdReset := t.timers.wdReset } ∧
      t = { s with timers := t.timers, outs := { s.outs with wdResetReq := true } } ∧ watchdogTick t = t) ∧
    (s.timers.wdCounter ≠ 1 → t.timers.wdReset = s.timers.wdReset ∧ t.outs = s.outs) ∧
    (s.timers.wdCounter = 0 → t = s)) ∧
  (∀ (t : Timers) (v : Word) (k : Nat), k < 32 →
    (privateTimerWrite 0x30 v t).wdReset.getLsbD k = if k = 0 ∧ v.getLsbD 0 = true then false else t.wdReset.getLsbD k)

/-- The SCU: the access register takes the writes of every processor; the gated registers ignore those of a processor whose
bit is clear; of a tag written through the debug registers the bits that the data cache size of its processor uses are read
back from its entry, and no other entry changes. An access in the peripheral filter range leaves on the peripheral port, where a
doubleword or multiple one outside the private region stops by name whatever its attributes (93_implementation_defined.md U28);
another on master port 0 where port 1 is not built or, with the filtering of port 1 on, the address is outside its range; in the
range on port 1; with the filtering off a locked or exclusive one on port 0, any other on either. A word load or store of Device or
Strongly Ordered memory at the base of the private region plus an offset reaches the register of the block that has the offset: the
SCU, the interrupt controller's interface, the global timer, the private timer and watchdog, the distributor, little-endian
(61_scu.md R583, R592 to R596, R600, R601, R603; 20_memory.md R285, R289, R291, R292, R300 to R304; 62_gic.md R631; 63_timers.md R690;
that port 1 has the locked accesses of its range too, as R291 says, is the model's reading of R592, log entry 95, and that a set past
those of the target's cache names an entry like the others is the model's choice, log entry 99). -/
def Obligations.ScuRegisters : Prop :=
  ∀ (s : State) (v op op' : Word),
    (scuWrite 0x50 v s).scu.access = v &&& 3 ∧
    (s.scu.access.getLsbD (if s.cfg.cpu then 1 else 0) = false →
      ∀ off ∈ [0x00, 0x08, 0x0C, 0x60, 0x64], scuWrite off v s = s) ∧
    (sparseWf 0 s.scu.tags = true → op.getLsbD 0 = true → op'.getLsbD 0 = false →
      (op.getLsbD 24 = true → s.cfg.twoCpus = true) →
      ∀ t : State, t.scu.tags = (scuWrite 0x70 op (scuWrite 0x74 v s)).scu.tags →
        (op &&& 0xC1003FE0 = op' &&& 0xC1003FE0 →
          ∀ e ∈ [(RamSize.kb4, 0x00600000#32), (.kb8, 0x00700000), (.kb16, 0x00780000), (.kb32, 0x007C0000),
            (.kb64, 0x007E0000)], dcacheOf s.cfg (op.getLsbD 24) = e.1 →
            scuRead (scuWrite 0x70 op' t) 0x74 = v &&& e.2) ∧
        (op &&& 0xC1003FE0 ≠ op' &&& 0xC1003FE0 →
          scuRead (scuWrite 0x70 op' t) 0x74 = scuRead (scuWrite 0x70 op' s) 0x74)) ∧
    (∀ (form : AccessForm) (a : Word) (m : Nat), m = a.toNat / 2 ^ 20 →
      (s.cfg.pfilterStart.toNat ≤ m ∧ m ≤ s.cfg.pfilterEnd.toNat → portOf s form a = .peripheral) ∧
      (¬ (s.cfg.pfilterStart.toNat ≤ m ∧ m ≤ s.cfg.pfilterEnd.toNat) →
        (s.cfg.axiMaster1 = false → portOf s form a = .master0) ∧
        (s.scu.ctrl.getLsbD 1 = false → form = .locked → portOf s form a = .master0) ∧
        (s.cfg.axiMaster1 = true → s.scu.ctrl.getLsbD 1 = true →
          (¬ (s.cfg.mfilterStart.toNat ≤ m ∧ m ≤ s.cfg.mfilterEnd.toNat) → portOf s form a = .master0) ∧
          (s.cfg.mfilterStart.toNat ≤ m ∧ m ≤ s.cfg.mfilterEnd.toNat →
            portOf s form a = .master1)) ∧
        portOf s form a ≠ .peripheral)) ∧
    (∀ (a : Word) (n : Nat) (attr : Attr) (bs : List Byte), tcmClash s = false → inItcm s a = false → inDtcm s a = false →
      inPeripheral s.cfg a = true → inPrivate s.cfg a = false →
      readRouted a n attr .multiple s = .error (.refuse .peripheralMultiple) s ∧
      writeRouted a bs attr .multiple s = .error (.refuse .peripheralMultiple) s) ∧
    (∀ (acc : Access) (a : Word) (attr : Attr) (off : Nat), acc.size = 4 → acc.form ≠ .multiple → off % 4 = 0 → off < 0x2000 →
      a = (s.cfg.periphBase ++ 0#13) + BitVec.ofNat 32 off →
      s.cfg.pfilterStart.toNat ≤ a.toNat / 2 ^ 20 → a.toNat / 2 ^ 20 ≤ s.cfg.pfilterEnd.toNat → attr.type ≠ .normal →
      tcmClash s = false → inItcm s a = false → inDtcm s a = false → scuFinds s a = false →
      (admission .read acc a s = .ok attr → ∀ w t,
        (off < 0x100 ∧ w = scuRead s off ∧ t = s.accessed) ∨
          (0x100 ≤ off ∧ off < 0x200 ∧ iccRead (off - 0x100) s.accessed = .ok w t) ∨
          (0x200 ≤ off ∧ off < 0x300 ∧ w = globalRead s.timers (off - 0x200) ∧ t = s.accessed) ∨
          (0x600 ≤ off ∧ off < 0x700 ∧ w = privateTimerRead s.timers (off - 0x600) ∧ t = s.accessed) ∨
          (0x1000 ≤ off ∧ w = distRead s (off - 0x1000) ∧ t = s.accessed) →
        loadValue acc a s = .ok (valueOf s.bigEndian (bytesOfWord w)) t) ∧
      (admission .write acc a s = .ok attr → ∀ w t, w = leWord (bytesOf s.bigEndian 4 v) →
        (off < 0x100 ∧ t = scuWrite off w s.accessed) ∨
          (0x100 ≤ off ∧ off < 0x200 ∧ iccWrite (off - 0x100) w s.accessed = .ok () t) ∨
          (0x200 ≤ off ∧ off < 0x300 ∧ t = { s.accessed with timers := globalWrite (off - 0x200) w s.timers }) ∨
          (0x600 ≤ off ∧ off < 0x700 ∧ t = { s.accessed with timers := privateTimerWrite (off - 0x600) w s.timers }) ∨
          (0x1000 ≤ off ∧ t = distWrite (off - 0x1000) w s.accessed) →
        storeValue acc a v s = .ok () t) ∧
      (s.bigEndian = false → leWord (bytesOf s.bigEndian 4 v) = v ∧ valueOf s.bigEndian (bytesOfWord v) = v))
end

