-- ==== Sys2Proof/Laws/State.lean ====
section
/-! SUPPORT. What each update of the state leaves alone: one lemma per field per update; and what a read gives after an
update. -/

namespace Sys2Proof.Machine

/-! ### setPc -/

@[simp] theorem State.setPc_cfg (s : State) (v : Word) : (s.setPc v).cfg = s.cfg := rfl
@[simp] theorem State.setPc_pins (s : State) (v : Word) : (s.setPc v).pins = s.pins := rfl
@[simp] theorem State.setPc_regs (s : State) (v : Word) : (s.setPc v).regs = s.regs := rfl
@[simp] theorem State.setPc_cpsr (s : State) (v : Word) : (s.setPc v).cpsr = s.cpsr := rfl
@[simp] theorem State.setPc_spsr (s : State) (v : Word) : (s.setPc v).spsr = s.spsr := rfl
@[simp] theorem State.setPc_cp15 (s : State) (v : Word) : (s.setPc v).cp15 = s.cp15 := rfl
@[simp] theorem State.setPc_pmu (s : State) (v : Word) : (s.setPc v).pmu = s.pmu := rfl
@[simp] theorem State.setPc_dbg (s : State) (v : Word) : (s.setPc v).dbg = s.dbg := rfl
@[simp] theorem State.setPc_otherPmu (s : State) (v : Word) : (s.setPc v).otherPmu = s.otherPmu := rfl
@[simp] theorem State.setPc_otherDbg (s : State) (v : Word) : (s.setPc v).otherDbg = s.otherDbg := rfl
@[simp] theorem State.setPc_otherSmp (s : State) (v : Word) : (s.setPc v).otherSmp = s.otherSmp := rfl
@[simp] theorem State.setPc_fpu (s : State) (v : Word) : (s.setPc v).fpu = s.fpu := rfl
@[simp] theorem State.setPc_monitor (s : State) (v : Word) : (s.setPc v).monitor = s.monitor := rfl
@[simp] theorem State.setPc_pendingAbort (s : State) (v : Word) : (s.setPc v).pendingAbort = s.pendingAbort := rfl
@[simp] theorem State.setPc_eventReg (s : State) (v : Word) : (s.setPc v).eventReg = s.eventReg := rfl
@[simp] theorem State.setPc_standby (s : State) (v : Word) : (s.setPc v).standby = s.standby := rfl
@[simp] theorem State.setPc_mem (s : State) (v : Word) : (s.setPc v).mem = s.mem := rfl
@[simp] theorem State.setPc_itcm (s : State) (v : Word) : (s.setPc v).itcm = s.itcm := rfl
@[simp] theorem State.setPc_dtcm (s : State) (v : Word) : (s.setPc v).dtcm = s.dtcm := rfl
@[simp] theorem State.setPc_dcache (s : State) (v : Word) : (s.setPc v).dcache = s.dcache := rfl
@[simp] theorem State.setPc_icache (s : State) (v : Word) : (s.setPc v).icache = s.icache := rfl
@[simp] theorem State.setPc_scu (s : State) (v : Word) : (s.setPc v).scu = s.scu := rfl
@[simp] theorem State.setPc_gic (s : State) (v : Word) : (s.setPc v).gic = s.gic := rfl
@[simp] theorem State.setPc_timers (s : State) (v : Word) : (s.setPc v).timers = s.timers := rfl
@[simp] theorem State.setPc_outs (s : State) (v : Word) : (s.setPc v).outs = s.outs := rfl
@[simp] theorem State.setPc_upkeep (s : State) (v : Word) : (s.setPc v).upkeep = s.upkeep := rfl
@[simp] theorem State.setPc_unsynced (s : State) (v : Word) : (s.setPc v).unsynced = s.unsynced := rfl
@[simp] theorem State.setPc_free (s : State) (v : Word) : (s.setPc v).free = s.free := rfl

/-! ### setPipeAdv -/

@[simp] theorem setPipeAdv_cfg (s : State) : (setPipeAdv s).cfg = s.cfg := rfl
@[simp] theorem setPipeAdv_pins (s : State) : (setPipeAdv s).pins = s.pins := rfl
@[simp] theorem setPipeAdv_regs (s : State) : (setPipeAdv s).regs = s.regs := rfl
@[simp] theorem setPipeAdv_pc (s : State) : (setPipeAdv s).pc = s.pc := rfl
@[simp] theorem setPipeAdv_cpsr (s : State) : (setPipeAdv s).cpsr = s.cpsr := rfl
@[simp] theorem setPipeAdv_spsr (s : State) : (setPipeAdv s).spsr = s.spsr := rfl
@[simp] theorem setPipeAdv_cp15 (s : State) : (setPipeAdv s).cp15 = s.cp15 := rfl
@[simp] theorem setPipeAdv_pmu (s : State) : (setPipeAdv s).pmu = s.pmu := rfl
@[simp] theorem setPipeAdv_otherPmu (s : State) : (setPipeAdv s).otherPmu = s.otherPmu := rfl
@[simp] theorem setPipeAdv_otherDbg (s : State) : (setPipeAdv s).otherDbg = s.otherDbg := rfl
@[simp] theorem setPipeAdv_otherSmp (s : State) : (setPipeAdv s).otherSmp = s.otherSmp := rfl
@[simp] theorem setPipeAdv_fpu (s : State) : (setPipeAdv s).fpu = s.fpu := rfl
@[simp] theorem setPipeAdv_monitor (s : State) : (setPipeAdv s).monitor = s.monitor := rfl
@[simp] theorem setPipeAdv_pendingAbort (s : State) : (setPipeAdv s).pendingAbort = s.pendingAbort := rfl
@[simp] theorem setPipeAdv_eventReg (s : State) : (setPipeAdv s).eventReg = s.eventReg := rfl
@[simp] theorem setPipeAdv_standby (s : State) : (setPipeAdv s).standby = s.standby := rfl
@[simp] theorem setPipeAdv_mem (s : State) : (setPipeAdv s).mem = s.mem := rfl
@[simp] theorem setPipeAdv_itcm (s : State) : (setPipeAdv s).itcm = s.itcm := rfl
@[simp] theorem setPipeAdv_dtcm (s : State) : (setPipeAdv s).dtcm = s.dtcm := rfl
@[simp] theorem setPipeAdv_dcache (s : State) : (setPipeAdv s).dcache = s.dcache := rfl
@[simp] theorem setPipeAdv_icache (s : State) : (setPipeAdv s).icache = s.icache := rfl
@[simp] theorem setPipeAdv_scu (s : State) : (setPipeAdv s).scu = s.scu := rfl
@[simp] theorem setPipeAdv_gic (s : State) : (setPipeAdv s).gic = s.gic := rfl
@[simp] theorem setPipeAdv_timers (s : State) : (setPipeAdv s).timers = s.timers := rfl
@[simp] theorem setPipeAdv_outs (s : State) : (setPipeAdv s).outs = s.outs := rfl
@[simp] theorem setPipeAdv_upkeep (s : State) : (setPipeAdv s).upkeep = s.upkeep := rfl
@[simp] theorem setPipeAdv_unsynced (s : State) : (setPipeAdv s).unsynced = s.unsynced := rfl
@[simp] theorem setPipeAdv_free (s : State) : (setPipeAdv s).free = s.free := rfl
@[simp] theorem setPipeAdv_mode (s : State) : (setPipeAdv s).mode = s.mode := rfl
@[simp] theorem setPipeAdv_reg (s : State) (r : Reg) : (setPipeAdv s).reg r = s.reg r := rfl

/-! ### accessed -/

@[simp] theorem State.accessed_cfg (s : State) : s.accessed.cfg = s.cfg := rfl
@[simp] theorem State.accessed_pins (s : State) : s.accessed.pins = s.pins := rfl
@[simp] theorem State.accessed_regs (s : State) : s.accessed.regs = s.regs := rfl
@[simp] theorem State.accessed_pc (s : State) : s.accessed.pc = s.pc := rfl
@[simp] theorem State.accessed_cpsr (s : State) : s.accessed.cpsr = s.cpsr := rfl
@[simp] theorem State.accessed_spsr (s : State) : s.accessed.spsr = s.spsr := rfl
@[simp] theorem State.accessed_cp15 (s : State) : s.accessed.cp15 = s.cp15 := rfl
@[simp] theorem State.accessed_pmu (s : State) : s.accessed.pmu = s.pmu := rfl
@[simp] theorem State.accessed_dbg (s : State) : s.accessed.dbg = s.dbg := rfl
@[simp] theorem State.accessed_otherPmu (s : State) : s.accessed.otherPmu = s.otherPmu := rfl
@[simp] theorem State.accessed_otherDbg (s : State) : s.accessed.otherDbg = s.otherDbg := rfl
@[simp] theorem State.accessed_otherSmp (s : State) : s.accessed.otherSmp = s.otherSmp := rfl
@[simp] theorem State.accessed_fpu (s : State) : s.accessed.fpu = s.fpu := rfl
@[simp] theorem State.accessed_monitor (s : State) : s.accessed.monitor = s.monitor := rfl
@[simp] theorem State.accessed_pendingAbort (s : State) : s.accessed.pendingAbort = s.pendingAbort := rfl
@[simp] theorem State.accessed_eventReg (s : State) : s.accessed.eventReg = s.eventReg := rfl
@[simp] theorem State.accessed_standby (s : State) : s.accessed.standby = s.standby := rfl
@[simp] theorem State.accessed_mem (s : State) : s.accessed.mem = s.mem := rfl
@[simp] theorem State.accessed_itcm (s : State) : s.accessed.itcm = s.itcm := rfl
@[simp] theorem State.accessed_dtcm (s : State) : s.accessed.dtcm = s.dtcm := rfl
@[simp] theorem State.accessed_dcache (s : State) : s.accessed.dcache = s.dcache := rfl
@[simp] theorem State.accessed_icache (s : State) : s.accessed.icache = s.icache := rfl
@[simp] theorem State.accessed_scu (s : State) : s.accessed.scu = s.scu := rfl
@[simp] theorem State.accessed_gic (s : State) : s.accessed.gic = s.gic := rfl
@[simp] theorem State.accessed_timers (s : State) : s.accessed.timers = s.timers := rfl
@[simp] theorem State.accessed_outs (s : State) : s.accessed.outs = s.outs := rfl
@[simp] theorem State.accessed_unsynced (s : State) : s.accessed.unsynced = s.unsynced := rfl
@[simp] theorem State.accessed_free (s : State) : s.accessed.free = s.free := rfl
@[simp] theorem State.accessed_upkeep (s : State) : s.accessed.upkeep = { s.upkeep with dsb := false } := rfl
@[simp] theorem State.accessed_accessed (s : State) : s.accessed.accessed = s.accessed := rfl

/-! ### maintained -/

@[simp] theorem State.maintained_cfg (s : State) : s.maintained.cfg = s.cfg := rfl
@[simp] theorem State.maintained_pins (s : State) : s.maintained.pins = s.pins := rfl
@[simp] theorem State.maintained_regs (s : State) : s.maintained.regs = s.regs := rfl
@[simp] theorem State.maintained_pc (s : State) : s.maintained.pc = s.pc := rfl
@[simp] theorem State.maintained_cpsr (s : State) : s.maintained.cpsr = s.cpsr := rfl
@[simp] theorem State.maintained_spsr (s : State) : s.maintained.spsr = s.spsr := rfl
@[simp] theorem State.maintained_cp15 (s : State) : s.maintained.cp15 = s.cp15 := rfl
@[simp] theorem State.maintained_pmu (s : State) : s.maintained.pmu = s.pmu := rfl
@[simp] theorem State.maintained_dbg (s : State) : s.maintained.dbg = s.dbg := rfl
@[simp] theorem State.maintained_otherPmu (s : State) : s.maintained.otherPmu = s.otherPmu := rfl
@[simp] theorem State.maintained_otherDbg (s : State) : s.maintained.otherDbg = s.otherDbg := rfl
@[simp] theorem State.maintained_otherSmp (s : State) : s.maintained.otherSmp = s.otherSmp := rfl
@[simp] theorem State.maintained_fpu (s : State) : s.maintained.fpu = s.fpu := rfl
@[simp] theorem State.maintained_monitor (s : State) : s.maintained.monitor = s.monitor := rfl
@[simp] theorem State.maintained_pendingAbort (s : State) : s.maintained.pendingAbort = s.pendingAbort := rfl
@[simp] theorem State.maintained_eventReg (s : State) : s.maintained.eventReg = s.eventReg := rfl
@[simp] theorem State.maintained_standby (s : State) : s.maintained.standby = s.standby := rfl
@[simp] theorem State.maintained_mem (s : State) : s.maintained.mem = s.mem := rfl
@[simp] theorem State.maintained_itcm (s : State) : s.maintained.itcm = s.itcm := rfl
@[simp] theorem State.maintained_dtcm (s : State) : s.maintained.dtcm = s.dtcm := rfl
@[simp] theorem State.maintained_dcache (s : State) : s.maintained.dcache = s.dcache := rfl
@[simp] theorem State.maintained_icache (s : State) : s.maintained.icache = s.icache := rfl
@[simp] theorem State.maintained_scu (s : State) : s.maintained.scu = s.scu := rfl
@[simp] theorem State.maintained_gic (s : State) : s.maintained.gic = s.gic := rfl
@[simp] theorem State.maintained_timers (s : State) : s.maintained.timers = s.timers := rfl
@[simp] theorem State.maintained_outs (s : State) : s.maintained.outs = s.outs := rfl
@[simp] theorem State.maintained_unsynced (s : State) : s.maintained.unsynced = s.unsynced := rfl
@[simp] theorem State.maintained_free (s : State) : s.maintained.free = s.free := rfl
@[simp] theorem State.maintained_upkeep (s : State) :
    s.maintained.upkeep = { s.upkeep with dsb := s.upkeep.dsb && !s.cp15.sctlr.getLsbD 2 } := rfl

/-! ### setFlags -/

@[simp] theorem State.setFlags_cfg (s : State) (n z c v : Bool) : (s.setFlags n z c v).cfg = s.cfg := rfl
@[simp] theorem State.setFlags_pins (s : State) (n z c v : Bool) : (s.setFlags n z c v).pins = s.pins := rfl
@[simp] theorem State.setFlags_regs (s : State) (n z c v : Bool) : (s.setFlags n z c v).regs = s.regs := rfl
@[simp] theorem State.setFlags_pc (s : State) (n z c v : Bool) : (s.setFlags n z c v).pc = s.pc := rfl
@[simp] theorem State.setFlags_spsr (s : State) (n z c v : Bool) : (s.setFlags n z c v).spsr = s.spsr := rfl
@[simp] theorem State.setFlags_cp15 (s : State) (n z c v : Bool) : (s.setFlags n z c v).cp15 = s.cp15 := rfl
@[simp] theorem State.setFlags_pmu (s : State) (n z c v : Bool) : (s.setFlags n z c v).pmu = s.pmu := rfl
@[simp] theorem State.setFlags_dbg (s : State) (n z c v : Bool) : (s.setFlags n z c v).dbg = s.dbg := rfl
@[simp] theorem State.setFlags_otherPmu (s : State) (n z c v : Bool) : (s.setFlags n z c v).otherPmu = s.otherPmu := rfl
@[simp] theorem State.setFlags_otherDbg (s : State) (n z c v : Bool) : (s.setFlags n z c v).otherDbg = s.otherDbg := rfl
@[simp] theorem State.setFlags_otherSmp (s : State) (n z c v : Bool) : (s.setFlags n z c v).otherSmp = s.otherSmp := rfl
@[simp] theorem State.setFlags_fpu (s : State) (n z c v : Bool) : (s.setFlags n z c v).fpu = s.fpu := rfl
@[simp] theorem State.setFlags_monitor (s : State) (n z c v : Bool) : (s.setFlags n z c v).monitor = s.monitor := rfl
@[simp] theorem State.setFlags_pendingAbort (s : State) (n z c v : Bool) : (s.setFlags n z c v).pendingAbort = s.pendingAbort := rfl
@[simp] theorem State.setFlags_eventReg (s : State) (n z c v : Bool) : (s.setFlags n z c v).eventReg = s.eventReg := rfl
@[simp] theorem State.setFlags_standby (s : State) (n z c v : Bool) : (s.setFlags n z c v).standby = s.standby := rfl
@[simp] theorem State.setFlags_mem (s : State) (n z c v : Bool) : (s.setFlags n z c v).mem = s.mem := rfl
@[simp] theorem State.setFlags_itcm (s : State) (n z c v : Bool) : (s.setFlags n z c v).itcm = s.itcm := rfl
@[simp] theorem State.setFlags_dtcm (s : State) (n z c v : Bool) : (s.setFlags n z c v).dtcm = s.dtcm := rfl
@[simp] theorem State.setFlags_dcache (s : State) (n z c v : Bool) : (s.setFlags n z c v).dcache = s.dcache := rfl
@[simp] theorem State.setFlags_icache (s : State) (n z c v : Bool) : (s.setFlags n z c v).icache = s.icache := rfl
@[simp] theorem State.setFlags_scu (s : State) (n z c v : Bool) : (s.setFlags n z c v).scu = s.scu := rfl
@[simp] theorem State.setFlags_gic (s : State) (n z c v : Bool) : (s.setFlags n z c v).gic = s.gic := rfl
@[simp] theorem State.setFlags_timers (s : State) (n z c v : Bool) : (s.setFlags n z c v).timers = s.timers := rfl
@[simp] theorem State.setFlags_outs (s : State) (n z c v : Bool) : (s.setFlags n z c v).outs = s.outs := rfl
@[simp] theorem State.setFlags_upkeep (s : State) (n z c v : Bool) : (s.setFlags n z c v).upkeep = s.upkeep := rfl
@[simp] theorem State.setFlags_unsynced (s : State) (n z c v : Bool) : (s.setFlags n z c v).unsynced = s.unsynced := rfl
@[simp] theorem State.setFlags_free (s : State) (n z c v : Bool) : (s.setFlags n z c v).free = s.free := rfl

/-! ### setRegIn -/

@[simp] theorem State.setRegIn_cfg (s : State) (m : Mode) (r : Reg) (v : Word) : (s.setRegIn m r v).cfg = s.cfg := by unfold State.setRegIn; split <;> rfl
@[simp] theorem State.setRegIn_pins (s : State) (m : Mode) (r : Reg) (v : Word) : (s.setRegIn m r v).pins = s.pins := by unfold State.setRegIn; split <;> rfl
@[simp] theorem State.setRegIn_pc (s : State) (m : Mode) (r : Reg) (v : Word) : (s.setRegIn m r v).pc = s.pc := by unfold State.setRegIn; split <;> rfl
@[simp] theorem State.setRegIn_cpsr (s : State) (m : Mode) (r : Reg) (v : Word) : (s.setRegIn m r v).cpsr = s.cpsr := by unfold State.setRegIn; split <;> rfl
@[simp] theorem State.setRegIn_spsr (s : State) (m : Mode) (r : Reg) (v : Word) : (s.setRegIn m r v).spsr = s.spsr := by unfold State.setRegIn; split <;> rfl
@[simp] theorem State.setRegIn_cp15 (s : State) (m : Mode) (r : Reg) (v : Word) : (s.setRegIn m r v).cp15 = s.cp15 := by unfold State.setRegIn; split <;> rfl
@[simp] theorem State.setRegIn_pmu (s : State) (m : Mode) (r : Reg) (v : Word) : (s.setRegIn m r v).pmu = s.pmu := by unfold State.setRegIn; split <;> rfl
@[simp] theorem State.setRegIn_dbg (s : State) (m : Mode) (r : Reg) (v : Word) : (s.setRegIn m r v).dbg = s.dbg := by unfold State.setRegIn; split <;> rfl
@[simp] theorem State.setRegIn_otherPmu (s : State) (m : Mode) (r : Reg) (v : Word) : (s.setRegIn m r v).otherPmu = s.otherPmu := by unfold State.setRegIn; split <;> rfl
@[simp] theorem State.setRegIn_otherDbg (s : State) (m : Mode) (r : Reg) (v : Word) : (s.setRegIn m r v).otherDbg = s.otherDbg := by unfold State.setRegIn; split <;> rfl
@[simp] theorem State.setRegIn_otherSmp (s : State) (m : Mode) (r : Reg) (v : Word) : (s.setRegIn m r v).otherSmp = s.otherSmp := by unfold State.setRegIn; split <;> rfl
@[simp] theorem State.setRegIn_fpu (s : State) (m : Mode) (r : Reg) (v : Word) : (s.setRegIn m r v).fpu = s.fpu := by unfold State.setRegIn; split <;> rfl
@[simp] theorem State.setRegIn_monitor (s : State) (m : Mode) (r : Reg) (v : Word) : (s.setRegIn m r v).monitor = s.monitor := by unfold State.setRegIn; split <;> rfl
@[simp] theorem State.setRegIn_pendingAbort (s : State) (m : Mode) (r : Reg) (v : Word) : (s.setRegIn m r v).pendingAbort = s.pendingAbort := by unfold State.setRegIn; split <;> rfl
@[simp] theorem State.setRegIn_eventReg (s : State) (m : Mode) (r : Reg) (v : Word) : (s.setRegIn m r v).eventReg = s.eventReg := by unfold State.setRegIn; split <;> rfl
@[simp] theorem State.setRegIn_standby (s : State) (m : Mode) (r : Reg) (v : Word) : (s.setRegIn m r v).standby = s.standby := by unfold State.setRegIn; split <;> rfl
@[simp] theorem State.setRegIn_mem (s : State) (m : Mode) (r : Reg) (v : Word) : (s.setRegIn m r v).mem = s.mem := by unfold State.setRegIn; split <;> rfl
@[simp] theorem State.setRegIn_itcm (s : State) (m : Mode) (r : Reg) (v : Word) : (s.setRegIn m r v).itcm = s.itcm := by unfold State.setRegIn; split <;> rfl
@[simp] theorem State.setRegIn_dtcm (s : State) (m : Mode) (r : Reg) (v : Word) : (s.setRegIn m r v).dtcm = s.dtcm := by unfold State.setRegIn; split <;> rfl
@[simp] theorem State.setRegIn_dcache (s : State) (m : Mode) (r : Reg) (v : Word) : (s.setRegIn m r v).dcache = s.dcache := by unfold State.setRegIn; split <;> rfl
@[simp] theorem State.setRegIn_icache (s : State) (m : Mode) (r : Reg) (v : Word) : (s.setRegIn m r v).icache = s.icache := by unfold State.setRegIn; split <;> rfl
@[simp] theorem State.setRegIn_scu (s : State) (m : Mode) (r : Reg) (v : Word) : (s.setRegIn m r v).scu = s.scu := by unfold State.setRegIn; split <;> rfl
@[simp] theorem State.setRegIn_gic (s : State) (m : Mode) (r : Reg) (v : Word) : (s.setRegIn m r v).gic = s.gic := by unfold State.setRegIn; split <;> rfl
@[simp] theorem State.setRegIn_timers (s : State) (m : Mode) (r : Reg) (v : Word) : (s.setRegIn m r v).timers = s.timers := by unfold State.setRegIn; split <;> rfl
@[simp] theorem State.setRegIn_outs (s : State) (m : Mode) (r : Reg) (v : Word) : (s.setRegIn m r v).outs = s.outs := by unfold State.setRegIn; split <;> rfl
@[simp] theorem State.setRegIn_upkeep (s : State) (m : Mode) (r : Reg) (v : Word) : (s.setRegIn m r v).upkeep = s.upkeep := by unfold State.setRegIn; split <;> rfl
@[simp] theorem State.setRegIn_unsynced (s : State) (m : Mode) (r : Reg) (v : Word) : (s.setRegIn m r v).unsynced = s.unsynced := by unfold State.setRegIn; split <;> rfl
@[simp] theorem State.setRegIn_free (s : State) (m : Mode) (r : Reg) (v : Word) : (s.setRegIn m r v).free = s.free := by unfold State.setRegIn; split <;> rfl

/-! ### setReg -/

@[simp] theorem State.setReg_cfg (s : State) (r : Reg) (v : Word) : (s.setReg r v).cfg = s.cfg := by unfold State.setReg State.setRegIn; split <;> rfl
@[simp] theorem State.setReg_pins (s : State) (r : Reg) (v : Word) : (s.setReg r v).pins = s.pins := by unfold State.setReg State.setRegIn; split <;> rfl
@[simp] theorem State.setReg_pc (s : State) (r : Reg) (v : Word) : (s.setReg r v).pc = s.pc := by unfold State.setReg State.setRegIn; split <;> rfl
@[simp] theorem State.setReg_cpsr (s : State) (r : Reg) (v : Word) : (s.setReg r v).cpsr = s.cpsr := by unfold State.setReg State.setRegIn; split <;> rfl
@[simp] theorem State.setReg_spsr (s : State) (r : Reg) (v : Word) : (s.setReg r v).spsr = s.spsr := by unfold State.setReg State.setRegIn; split <;> rfl
@[simp] theorem State.setReg_cp15 (s : State) (r : Reg) (v : Word) : (s.setReg r v).cp15 = s.cp15 := by unfold State.setReg State.setRegIn; split <;> rfl
@[simp] theorem State.setReg_pmu (s : State) (r : Reg) (v : Word) : (s.setReg r v).pmu = s.pmu := by unfold State.setReg State.setRegIn; split <;> rfl
@[simp] theorem State.setReg_dbg (s : State) (r : Reg) (v : Word) : (s.setReg r v).dbg = s.dbg := by unfold State.setReg State.setRegIn; split <;> rfl
@[simp] theorem State.setReg_otherPmu (s : State) (r : Reg) (v : Word) : (s.setReg r v).otherPmu = s.otherPmu := by unfold State.setReg State.setRegIn; split <;> rfl
@[simp] theorem State.setReg_otherDbg (s : State) (r : Reg) (v : Word) : (s.setReg r v).otherDbg = s.otherDbg := by unfold State.setReg State.setRegIn; split <;> rfl
@[simp] theorem State.setReg_otherSmp (s : State) (r : Reg) (v : Word) : (s.setReg r v).otherSmp = s.otherSmp := by unfold State.setReg State.setRegIn; split <;> rfl
@[simp] theorem State.setReg_fpu (s : State) (r : Reg) (v : Word) : (s.setReg r v).fpu = s.fpu := by unfold State.setReg State.setRegIn; split <;> rfl
@[simp] theorem State.setReg_monitor (s : State) (r : Reg) (v : Word) : (s.setReg r v).monitor = s.monitor := by unfold State.setReg State.setRegIn; split <;> rfl
@[simp] theorem State.setReg_pendingAbort (s : State) (r : Reg) (v : Word) : (s.setReg r v).pendingAbort = s.pendingAbort := by unfold State.setReg State.setRegIn; split <;> rfl
@[simp] theorem State.setReg_eventReg (s : State) (r : Reg) (v : Word) : (s.setReg r v).eventReg = s.eventReg := by unfold State.setReg State.setRegIn; split <;> rfl
@[simp] theorem State.setReg_standby (s : State) (r : Reg) (v : Word) : (s.setReg r v).standby = s.standby := by unfold State.setReg State.setRegIn; split <;> rfl
@[simp] theorem State.setReg_mem (s : State) (r : Reg) (v : Word) : (s.setReg r v).mem = s.mem := by unfold State.setReg State.setRegIn; split <;> rfl
@[simp] theorem State.setReg_itcm (s : State) (r : Reg) (v : Word) : (s.setReg r v).itcm = s.itcm := by unfold State.setReg State.setRegIn; split <;> rfl
@[simp] theorem State.setReg_dtcm (s : State) (r : Reg) (v : Word) : (s.setReg r v).dtcm = s.dtcm := by unfold State.setReg State.setRegIn; split <;> rfl
@[simp] theorem State.setReg_dcache (s : State) (r : Reg) (v : Word) : (s.setReg r v).dcache = s.dcache := by unfold State.setReg State.setRegIn; split <;> rfl
@[simp] theorem State.setReg_icache (s : State) (r : Reg) (v : Word) : (s.setReg r v).icache = s.icache := by unfold State.setReg State.setRegIn; split <;> rfl
@[simp] theorem State.setReg_scu (s : State) (r : Reg) (v : Word) : (s.setReg r v).scu = s.scu := by unfold State.setReg State.setRegIn; split <;> rfl
@[simp] theorem State.setReg_gic (s : State) (r : Reg) (v : Word) : (s.setReg r v).gic = s.gic := by unfold State.setReg State.setRegIn; split <;> rfl
@[simp] theorem State.setReg_timers (s : State) (r : Reg) (v : Word) : (s.setReg r v).timers = s.timers := by unfold State.setReg State.setRegIn; split <;> rfl
@[simp] theorem State.setReg_outs (s : State) (r : Reg) (v : Word) : (s.setReg r v).outs = s.outs := by unfold State.setReg State.setRegIn; split <;> rfl
@[simp] theorem State.setReg_upkeep (s : State) (r : Reg) (v : Word) : (s.setReg r v).upkeep = s.upkeep := by unfold State.setReg State.setRegIn; split <;> rfl
@[simp] theorem State.setReg_unsynced (s : State) (r : Reg) (v : Word) : (s.setReg r v).unsynced = s.unsynced := by unfold State.setReg State.setRegIn; split <;> rfl
@[simp] theorem State.setReg_free (s : State) (r : Reg) (v : Word) : (s.setReg r v).free = s.free := by unfold State.setReg State.setRegIn; split <;> rfl

/-! ### setSpsr -/

@[simp] theorem State.setSpsr_cfg (s : State) (m : Mode) (v : Word) : (s.setSpsr m v).cfg = s.cfg := by unfold State.setSpsr; split <;> rfl
@[simp] theorem State.setSpsr_pins (s : State) (m : Mode) (v : Word) : (s.setSpsr m v).pins = s.pins := by unfold State.setSpsr; split <;> rfl
@[simp] theorem State.setSpsr_regs (s : State) (m : Mode) (v : Word) : (s.setSpsr m v).regs = s.regs := by unfold State.setSpsr; split <;> rfl
@[simp] theorem State.setSpsr_pc (s : State) (m : Mode) (v : Word) : (s.setSpsr m v).pc = s.pc := by unfold State.setSpsr; split <;> rfl
@[simp] theorem State.setSpsr_cpsr (s : State) (m : Mode) (v : Word) : (s.setSpsr m v).cpsr = s.cpsr := by unfold State.setSpsr; split <;> rfl
@[simp] theorem State.setSpsr_cp15 (s : State) (m : Mode) (v : Word) : (s.setSpsr m v).cp15 = s.cp15 := by unfold State.setSpsr; split <;> rfl
@[simp] theorem State.setSpsr_pmu (s : State) (m : Mode) (v : Word) : (s.setSpsr m v).pmu = s.pmu := by unfold State.setSpsr; split <;> rfl
@[simp] theorem State.setSpsr_dbg (s : State) (m : Mode) (v : Word) : (s.setSpsr m v).dbg = s.dbg := by unfold State.setSpsr; split <;> rfl
@[simp] theorem State.setSpsr_otherPmu (s : State) (m : Mode) (v : Word) : (s.setSpsr m v).otherPmu = s.otherPmu := by unfold State.setSpsr; split <;> rfl
@[simp] theorem State.setSpsr_otherDbg (s : State) (m : Mode) (v : Word) : (s.setSpsr m v).otherDbg = s.otherDbg := by unfold State.setSpsr; split <;> rfl
@[simp] theorem State.setSpsr_otherSmp (s : State) (m : Mode) (v : Word) : (s.setSpsr m v).otherSmp = s.otherSmp := by unfold State.setSpsr; split <;> rfl
@[simp] theorem State.setSpsr_fpu (s : State) (m : Mode) (v : Word) : (s.setSpsr m v).fpu = s.fpu := by unfold State.setSpsr; split <;> rfl
@[simp] theorem State.setSpsr_monitor (s : State) (m : Mode) (v : Word) : (s.setSpsr m v).monitor = s.monitor := by unfold State.setSpsr; split <;> rfl
@[simp] theorem State.setSpsr_pendingAbort (s : State) (m : Mode) (v : Word) : (s.setSpsr m v).pendingAbort = s.pendingAbort := by unfold State.setSpsr; split <;> rfl
@[simp] theorem State.setSpsr_eventReg (s : State) (m : Mode) (v : Word) : (s.setSpsr m v).eventReg = s.eventReg := by unfold State.setSpsr; split <;> rfl
@[simp] theorem State.setSpsr_standby (s : State) (m : Mode) (v : Word) : (s.setSpsr m v).standby = s.standby := by unfold State.setSpsr; split <;> rfl
@[simp] theorem State.setSpsr_mem (s : State) (m : Mode) (v : Word) : (s.setSpsr m v).mem = s.mem := by unfold State.setSpsr; split <;> rfl
@[simp] theorem State.setSpsr_itcm (s : State) (m : Mode) (v : Word) : (s.setSpsr m v).itcm = s.itcm := by unfold State.setSpsr; split <;> rfl
@[simp] theorem State.setSpsr_dtcm (s : State) (m : Mode) (v : Word) : (s.setSpsr m v).dtcm = s.dtcm := by unfold State.setSpsr; split <;> rfl
@[simp] theorem State.setSpsr_dcache (s : State) (m : Mode) (v : Word) : (s.setSpsr m v).dcache = s.dcache := by unfold State.setSpsr; split <;> rfl
@[simp] theorem State.setSpsr_icache (s : State) (m : Mode) (v : Word) : (s.setSpsr m v).icache = s.icache := by unfold State.setSpsr; split <;> rfl
@[simp] theorem State.setSpsr_scu (s : State) (m : Mode) (v : Word) : (s.setSpsr m v).scu = s.scu := by unfold State.setSpsr; split <;> rfl
@[simp] theorem State.setSpsr_gic (s : State) (m : Mode) (v : Word) : (s.setSpsr m v).gic = s.gic := by unfold State.setSpsr; split <;> rfl
@[simp] theorem State.setSpsr_timers (s : State) (m : Mode) (v : Word) : (s.setSpsr m v).timers = s.timers := by unfold State.setSpsr; split <;> rfl
@[simp] theorem State.setSpsr_outs (s : State) (m : Mode) (v : Word) : (s.setSpsr m v).outs = s.outs := by unfold State.setSpsr; split <;> rfl
@[simp] theorem State.setSpsr_upkeep (s : State) (m : Mode) (v : Word) : (s.setSpsr m v).upkeep = s.upkeep := by unfold State.setSpsr; split <;> rfl
@[simp] theorem State.setSpsr_unsynced (s : State) (m : Mode) (v : Word) : (s.setSpsr m v).unsynced = s.unsynced := by unfold State.setSpsr; split <;> rfl
@[simp] theorem State.setSpsr_free (s : State) (m : Mode) (v : Word) : (s.setSpsr m v).free = s.free := by unfold State.setSpsr; split <;> rfl

/-! ### setDouble -/

@[simp] theorem State.setDouble_cfg (s : State) (n : BitVec 4) (v : BitVec 64) : (s.setDouble n v).cfg = s.cfg := rfl
@[simp] theorem State.setDouble_pins (s : State) (n : BitVec 4) (v : BitVec 64) : (s.setDouble n v).pins = s.pins := rfl
@[simp] theorem State.setDouble_regs (s : State) (n : BitVec 4) (v : BitVec 64) : (s.setDouble n v).regs = s.regs := rfl
@[simp] theorem State.setDouble_pc (s : State) (n : BitVec 4) (v : BitVec 64) : (s.setDouble n v).pc = s.pc := rfl
@[simp] theorem State.setDouble_cpsr (s : State) (n : BitVec 4) (v : BitVec 64) : (s.setDouble n v).cpsr = s.cpsr := rfl
@[simp] theorem State.setDouble_spsr (s : State) (n : BitVec 4) (v : BitVec 64) : (s.setDouble n v).spsr = s.spsr := rfl
@[simp] theorem State.setDouble_cp15 (s : State) (n : BitVec 4) (v : BitVec 64) : (s.setDouble n v).cp15 = s.cp15 := rfl
@[simp] theorem State.setDouble_pmu (s : State) (n : BitVec 4) (v : BitVec 64) : (s.setDouble n v).pmu = s.pmu := rfl
@[simp] theorem State.setDouble_dbg (s : State) (n : BitVec 4) (v : BitVec 64) : (s.setDouble n v).dbg = s.dbg := rfl
@[simp] theorem State.setDouble_otherPmu (s : State) (n : BitVec 4) (v : BitVec 64) : (s.setDouble n v).otherPmu = s.otherPmu := rfl
@[simp] theorem State.setDouble_otherDbg (s : State) (n : BitVec 4) (v : BitVec 64) : (s.setDouble n v).otherDbg = s.otherDbg := rfl
@[simp] theorem State.setDouble_otherSmp (s : State) (n : BitVec 4) (v : BitVec 64) : (s.setDouble n v).otherSmp = s.otherSmp := rfl
@[simp] theorem State.setDouble_monitor (s : State) (n : BitVec 4) (v : BitVec 64) : (s.setDouble n v).monitor = s.monitor := rfl
@[simp] theorem State.setDouble_pendingAbort (s : State) (n : BitVec 4) (v : BitVec 64) : (s.setDouble n v).pendingAbort = s.pendingAbort := rfl
@[simp] theorem State.setDouble_eventReg (s : State) (n : BitVec 4) (v : BitVec 64) : (s.setDouble n v).eventReg = s.eventReg := rfl
@[simp] theorem State.setDouble_standby (s : State) (n : BitVec 4) (v : BitVec 64) : (s.setDouble n v).standby = s.standby := rfl
@[simp] theorem State.setDouble_mem (s : State) (n : BitVec 4) (v : BitVec 64) : (s.setDouble n v).mem = s.mem := rfl
@[simp] theorem State.setDouble_itcm (s : State) (n : BitVec 4) (v : BitVec 64) : (s.setDouble n v).itcm = s.itcm := rfl
@[simp] theorem State.setDouble_dtcm (s : State) (n : BitVec 4) (v : BitVec 64) : (s.setDouble n v).dtcm = s.dtcm := rfl
@[simp] theorem State.setDouble_dcache (s : State) (n : BitVec 4) (v : BitVec 64) : (s.setDouble n v).dcache = s.dcache := rfl
@[simp] theorem State.setDouble_icache (s : State) (n : BitVec 4) (v : BitVec 64) : (s.setDouble n v).icache = s.icache := rfl
@[simp] theorem State.setDouble_scu (s : State) (n : BitVec 4) (v : BitVec 64) : (s.setDouble n v).scu = s.scu := rfl
@[simp] theorem State.setDouble_gic (s : State) (n : BitVec 4) (v : BitVec 64) : (s.setDouble n v).gic = s.gic := rfl
@[simp] theorem State.setDouble_timers (s : State) (n : BitVec 4) (v : BitVec 64) : (s.setDouble n v).timers = s.timers := rfl
@[simp] theorem State.setDouble_outs (s : State) (n : BitVec 4) (v : BitVec 64) : (s.setDouble n v).outs = s.outs := rfl
@[simp] theorem State.setDouble_upkeep (s : State) (n : BitVec 4) (v : BitVec 64) : (s.setDouble n v).upkeep = s.upkeep := rfl
@[simp] theorem State.setDouble_unsynced (s : State) (n : BitVec 4) (v : BitVec 64) : (s.setDouble n v).unsynced = s.unsynced := rfl
@[simp] theorem State.setDouble_free (s : State) (n : BitVec 4) (v : BitVec 64) : (s.setDouble n v).free = s.free := rfl

/-! ### setSingle -/

@[simp] theorem State.setSingle_cfg (s : State) (n : BitVec 5) (v : Word) : (s.setSingle n v).cfg = s.cfg := rfl
@[simp] theorem State.setSingle_pins (s : State) (n : BitVec 5) (v : Word) : (s.setSingle n v).pins = s.pins := rfl
@[simp] theorem State.setSingle_regs (s : State) (n : BitVec 5) (v : Word) : (s.setSingle n v).regs = s.regs := rfl
@[simp] theorem State.setSingle_pc (s : State) (n : BitVec 5) (v : Word) : (s.setSingle n v).pc = s.pc := rfl
@[simp] theorem State.setSingle_cpsr (s : State) (n : BitVec 5) (v : Word) : (s.setSingle n v).cpsr = s.cpsr := rfl
@[simp] theorem State.setSingle_spsr (s : State) (n : BitVec 5) (v : Word) : (s.setSingle n v).spsr = s.spsr := rfl
@[simp] theorem State.setSingle_cp15 (s : State) (n : BitVec 5) (v : Word) : (s.setSingle n v).cp15 = s.cp15 := rfl
@[simp] theorem State.setSingle_pmu (s : State) (n : BitVec 5) (v : Word) : (s.setSingle n v).pmu = s.pmu := rfl
@[simp] theorem State.setSingle_dbg (s : State) (n : BitVec 5) (v : Word) : (s.setSingle n v).dbg = s.dbg := rfl
@[simp] theorem State.setSingle_otherPmu (s : State) (n : BitVec 5) (v : Word) : (s.setSingle n v).otherPmu = s.otherPmu := rfl
@[simp] theorem State.setSingle_otherDbg (s : State) (n : BitVec 5) (v : Word) : (s.setSingle n v).otherDbg = s.otherDbg := rfl
@[simp] theorem State.setSingle_otherSmp (s : State) (n : BitVec 5) (v : Word) : (s.setSingle n v).otherSmp = s.otherSmp := rfl
@[simp] theorem State.setSingle_monitor (s : State) (n : BitVec 5) (v : Word) : (s.setSingle n v).monitor = s.monitor := rfl
@[simp] theorem State.setSingle_pendingAbort (s : State) (n : BitVec 5) (v : Word) : (s.setSingle n v).pendingAbort = s.pendingAbort := rfl
@[simp] theorem State.setSingle_eventReg (s : State) (n : BitVec 5) (v : Word) : (s.setSingle n v).eventReg = s.eventReg := rfl
@[simp] theorem State.setSingle_standby (s : State) (n : BitVec 5) (v : Word) : (s.setSingle n v).standby = s.standby := rfl
@[simp] theorem State.setSingle_mem (s : State) (n : BitVec 5) (v : Word) : (s.setSingle n v).mem = s.mem := rfl
@[simp] theorem State.setSingle_itcm (s : State) (n : BitVec 5) (v : Word) : (s.setSingle n v).itcm = s.itcm := rfl
@[simp] theorem State.setSingle_dtcm (s : State) (n : BitVec 5) (v : Word) : (s.setSingle n v).dtcm = s.dtcm := rfl
@[simp] theorem State.setSingle_dcache (s : State) (n : BitVec 5) (v : Word) : (s.setSingle n v).dcache = s.dcache := rfl
@[simp] theorem State.setSingle_icache (s : State) (n : BitVec 5) (v : Word) : (s.setSingle n v).icache = s.icache := rfl
@[simp] theorem State.setSingle_scu (s : State) (n : BitVec 5) (v : Word) : (s.setSingle n v).scu = s.scu := rfl
@[simp] theorem State.setSingle_gic (s : State) (n : BitVec 5) (v : Word) : (s.setSingle n v).gic = s.gic := rfl
@[simp] theorem State.setSingle_timers (s : State) (n : BitVec 5) (v : Word) : (s.setSingle n v).timers = s.timers := rfl
@[simp] theorem State.setSingle_outs (s : State) (n : BitVec 5) (v : Word) : (s.setSingle n v).outs = s.outs := rfl
@[simp] theorem State.setSingle_upkeep (s : State) (n : BitVec 5) (v : Word) : (s.setSingle n v).upkeep = s.upkeep := rfl
@[simp] theorem State.setSingle_unsynced (s : State) (n : BitVec 5) (v : Word) : (s.setSingle n v).unsynced = s.unsynced := rfl
@[simp] theorem State.setSingle_free (s : State) (n : BitVec 5) (v : Word) : (s.setSingle n v).free = s.free := rfl

@[simp] theorem State.setPc_pc (s : State) (v : Word) : (s.setPc v).pc = v := rfl

@[simp] theorem State.setFlags_cpsr (s : State) (n z c v : Bool) :
    (s.setFlags n z c v).cpsr = withFlags s.cpsr n z c v := rfl

@[simp] theorem State.setPc_setPc (s : State) (v w : Word) : (s.setPc v).setPc w = s.setPc w := rfl

/-! ### Derived reads -/

@[simp] theorem State.setPc_mode (s : State) (v : Word) : (s.setPc v).mode = s.mode := rfl
@[simp] theorem State.setPc_privileged (s : State) (v : Word) : (s.setPc v).privileged = s.privileged := rfl
@[simp] theorem State.setReg_mode (s : State) (r : Reg) (v : Word) : (s.setReg r v).mode = s.mode := by
  simp [State.mode]
@[simp] theorem State.setRegIn_mode (s : State) (m : Mode) (r : Reg) (v : Word) : (s.setRegIn m r v).mode = s.mode := by
  simp [State.mode]
@[simp] theorem State.setReg_privileged (s : State) (r : Reg) (v : Word) :
    (s.setReg r v).privileged = s.privileged := by simp [State.privileged]
@[simp] theorem State.setDouble_mode (s : State) (n : BitVec 4) (v : BitVec 64) : (s.setDouble n v).mode = s.mode := rfl
@[simp] theorem State.setSingle_mode (s : State) (n : BitVec 5) (v : Word) : (s.setSingle n v).mode = s.mode := rfl

/-- The N, Z, C and V bits change in a write of the flags, no other bit. -/
theorem withFlags_bit (psr : Word) (n z c v : Bool) (i : Nat) (h : i < 28) :
    (withFlags psr n z c v).getLsbD i = psr.getLsbD i := by
  have h31 : i ≠ 31 := by omega
  have h30 : i ≠ 30 := by omega
  have h29 : i ≠ 29 := by omega
  have h28 : i ≠ 28 := by omega
  have hm : (0x0FFFFFFF#32).getLsbD i = true := by
    have : ∀ j : Fin 28, (0x0FFFFFFF#32).getLsbD j.val = true := by decide
    exact this ⟨i, h⟩
  cases n <;> cases z <;> cases c <;> cases v <;>
    simp only [withFlags, bitAt, if_true, if_false, BitVec.getLsbD_or, BitVec.getLsbD_and, hm, Bool.and_true,
      BitVec.getLsbD_shiftLeft, BitVec.getLsbD_zero, Bool.or_false, Bool.false_eq_true, BitVec.ofNat_eq_ofNat] <;>
    (simp only [BitVec.getLsbD_one]; grind)

@[simp] theorem modeField_withFlags (psr : Word) (n z c v : Bool) :
    modeField (withFlags psr n z c v) = modeField psr := by
  apply BitVec.eq_of_getLsbD_eq
  intro i hi
  simp [modeField, hi, withFlags_bit psr n z c v i (by omega)]

@[simp] theorem State.setFlags_mode (s : State) (n z c v : Bool) : (s.setFlags n z c v).mode = s.mode := by
  simp [State.mode]

@[simp] theorem State.setFlags_privileged (s : State) (n z c v : Bool) :
    (s.setFlags n z c v).privileged = s.privileged := by simp [State.privileged]

/-- A register of a mode after a write of a register of a mode: the written one if the two share storage. -/
theorem State.regIn_setRegIn (s : State) (m m' : Mode) (r r' : Reg) (v : Word) (h : r ≠ 15) (h' : r' ≠ 15) :
    (s.setRegIn m r v).regIn m' r' = if bankIndex m r = bankIndex m' r' then v else s.regIn m' r' := by
  simp only [State.setRegIn, State.regIn, h, h', if_false, Fin.getElem_fin, Vector.getElem_set, Fin.ext_iff]

/-- R15 does not change with a register write. -/
theorem State.regIn_pc_setRegIn (s : State) (m m' : Mode) (r : Reg) (v : Word) :
    (s.setRegIn m r v).regIn m' 15 = s.regIn m' 15 := by
  simp [State.regIn]

/-- The register written reads back. -/
theorem State.reg_setReg_same (s : State) (r : Reg) (v : Word) (h : r ≠ 15) : (s.setReg r v).reg r = v := by
  unfold State.reg
  rw [State.setReg_mode]
  exact (State.regIn_setRegIn s s.mode s.mode r r v h h).trans (if_pos rfl)

/-- In one mode two registers never share storage. -/
theorem bankIndex_injective (m : Mode) (r r' : Reg) (h : r ≠ 15) (h' : r' ≠ 15) (e : bankIndex m r = bankIndex m r') :
    r = r' := by
  cases m <;> revert r r' <;> decide

/-- The other registers keep their values. -/
theorem State.reg_setReg_ne (s : State) (r r' : Reg) (v : Word) (h : r' ≠ r) : (s.setReg r v).reg r' = s.reg r' := by
  by_cases h15 : r = 15
  · simp [State.setReg, State.setRegIn, h15]
  by_cases h15' : r' = 15
  · subst h15'; simp [State.reg, State.regIn]
  unfold State.reg
  rw [State.setReg_mode]
  refine (State.regIn_setRegIn s s.mode s.mode r r' v h15 h15').trans (if_neg ?_)
  exact fun e => h (bankIndex_injective _ _ _ h15 h15' e).symm

@[simp] theorem State.reg_setPc (s : State) (v : Word) (r : Reg) (h : r ≠ 15) : (s.setPc v).reg r = s.reg r := by
  simp only [State.reg, State.regIn, h, if_false]
  rfl

@[simp] theorem State.reg_setFlags (s : State) (n z c v : Bool) (r : Reg) : (s.setFlags n z c v).reg r = s.reg r := by
  simp [State.reg, State.regIn]

/-- A double-precision register reads back; the others keep their values. -/
theorem State.double_setDouble (s : State) (n k : BitVec 4) (v : BitVec 64) :
    (s.setDouble n v).double k = if n = k then v else s.double k := by
  simp only [State.setDouble, State.double, Fin.getElem_fin, Vector.getElem_set]
  congr 1
  simp [Fin.ofNat, BitVec.toNat_eq, Nat.mod_eq_of_lt n.isLt, Nat.mod_eq_of_lt k.isLt]

end Sys2Proof.Machine
end

