-- ==== Sys2Proof/Laws/Run.lean ====
section
/-! SUPPORT. How the body of an instruction runs: what each building block does to a state, stated once. A proof about one
instruction rewrites with these and never unfolds the monad. -/

namespace Sys2Proof.Machine

/-! ### The monad -/

/-- Running a sequence: the second part runs on what the first one leaves. -/
theorem bind_apply {α β : Type} (x : M α) (f : α → M β) (s : State) :
    (x >>= f) s = match x s with
      | .ok a t => f a t
      | .error e t => .error e t := by
  simp only [bind, EStateM.bind]
  cases x s <;> rfl

/-- A first part that completes. -/
theorem bind_ok {α β : Type} {x : M α} {f : α → M β} {s t : State} {a : α} (h : x s = .ok a t) :
    (x >>= f) s = f a t := by
  rw [bind_apply, h]

/-- A first part that stops. -/
theorem bind_error {α β : Type} {x : M α} {f : α → M β} {s t : State} {e : Stop} (h : x s = .error e t) :
    (x >>= f) s = .error e t := by
  rw [bind_apply, h]

/-- A sequence that completes: both parts complete. -/
theorem bind_ok_cases {α β : Type} {x : M α} {f : α → M β} {s u : State} {b : β} (h : (x >>= f) s = .ok b u) :
    ∃ a t, x s = .ok a t ∧ f a t = .ok b u := by
  rw [bind_apply] at h
  cases hx : x s with
  | ok a t => rw [hx] at h; exact ⟨a, t, rfl, h⟩
  | error e t => rw [hx] at h; cases h

theorem pure_apply {α : Type} (a : α) (s : State) : (pure a : M α) s = .ok a s := rfl
theorem get_apply (s : State) : (get : M State) s = .ok s s := rfl
theorem set_apply (t s : State) : (set t : M PUnit) s = .ok ⟨⟩ t := rfl
theorem modify_apply (f : State → State) (s : State) : (modify f : M PUnit) s = .ok ⟨⟩ (f s) := rfl
theorem throw_apply {α : Type} (e : Stop) (s : State) : (throw e : M α) s = .error e s := rfl

theorem ite_apply {α : Type} (p : Prop) [Decidable p] (x y : M α) (s : State) :
    (if p then x else y) s = if p then x s else y s := by
  split <;> rfl

/-! ### Registers, refusals, the pc -/

theorem readReg_apply (r : Reg) (s : State) : readReg r s = .ok (s.reg r) s := rfl
theorem writeReg_apply (r : Reg) (v : Word) (s : State) : writeReg r v s = .ok () (s.setReg r v) := rfl
theorem writePc_apply (v : Word) (s : State) : writePc v s = .ok () (s.setPc v) := rfl
theorem drawWord_apply (s : State) : drawWord s = .ok (Config.freeWord s.free) { s with free := s.free + 1 } := rfl
theorem drawBool_apply (s : State) : drawBool s = .ok (Config.freeBool s.free) { s with free := s.free + 1 } := rfl
theorem undefined_apply {α : Type} (s : State) : (undefined : M α) s = .error .undefined s := rfl
theorem refuse_apply {α : Type} (r : Refusal) (s : State) : (refuse r : M α) s = .error (.refuse r) s := rfl

theorem refuseIf_apply (b : Bool) (r : Refusal) (s : State) :
    refuseIf b r s = if b then .error (.refuse r) s else .ok () s := by
  cases b <;> rfl

theorem undefinedIf_apply (b : Bool) (s : State) :
    undefinedIf b s = if b then .error .undefined s else .ok () s := by
  cases b <;> rfl

theorem notPc_of_ne {r : Reg} (h : r ≠ 15) (s : State) : notPc r s = .ok () s := by
  have : (r == 15) = false := by simpa using h
  rw [notPc, this]
  rfl

theorem notPc_of_eq {r : Reg} (h : r = 15) (s : State) : notPc r s = .error (.refuse .unpredictable) s := by
  subst h; rfl

theorem fallThrough_of_ne {s : State} (h : s.pc ≠ 0xFFFFFFFC) : fallThrough s = .ok () (s.setPc (s.pc + 4)) :=
  if_neg h

theorem fallThrough_of_eq {s : State} (h : s.pc = 0xFFFFFFFC) : fallThrough s = .error (.fault .pcWrap) s :=
  if_pos h

theorem branchWritePc_apply (v : Word) (s : State) :
    branchWritePc v s = .ok () ((setPipeAdv s).setPc (v &&& 0xFFFFFFFC)) := rfl

/-- A branch to a word-aligned address. -/
theorem bxWritePc_of_aligned {v : Word} (h0 : v.getLsbD 0 = false) (h1 : v.getLsbD 1 = false) (s : State) :
    bxWritePc v s = .ok () ((setPipeAdv s).setPc v) := by
  unfold bxWritePc
  rw [h0, h1]
  rfl

/-! ### Whole instructions -/

theorem finish_ok (t : State) : finish (.ok () t) = .next t := rfl
/-- An exception entry goes on in ARM state just if SCTLR.TE is 0. -/
theorem notArm_entryCpsr (e : Exc) (sctlr cpsr : Word) : notArm (entryCpsr e sctlr cpsr) = sctlr.getLsbD 30 := by
  unfold notArm entryCpsr
  generalize sctlr.getLsbD 30 = te
  generalize sctlr.getLsbD 25 = ee
  cases e <;> cases te <;> cases ee <;> simp [bitAt, Exc.mode, Mode.bits, Exc.masksA, Exc.masksF]

theorem entered_of_arm {t : State} (h : notArm t.cpsr = false) : entered t = .next t := if_neg (by simp [h])

theorem entered_of_thumb {t : State} (h : notArm t.cpsr = true) : entered t = .refused .toThumb := if_pos h

/-- An entry that goes on is the state it was given, in ARM state. -/
theorem entered_next {t u : State} (h : entered t = .next u) : u = t ∧ notArm t.cpsr = false := by
  by_cases hn : notArm t.cpsr = true
  · rw [entered_of_thumb hn] at h; cases h
  · have hn : notArm t.cpsr = false := by simpa using hn
    rw [entered_of_arm hn] at h; cases h; exact ⟨rfl, hn⟩

theorem finish_undefined (t : State) : finish (.error .undefined t) = entered (takeUndefined t) := by
  unfold finish; rfl
theorem finish_dataAbort (f : FaultStatus) (w : Bool) (a : Word) (t : State) :
    finish (.error (.dataAbort f w a) t) = entered (takeDataAbort f w a t) := by
  unfold finish; rfl

/-- With SCTLR.TE 0 an Undefined Instruction exception is taken. -/
theorem finish_undefined_next {t : State} (h : t.cp15.sctlr.getLsbD 30 = false) :
    finish (.error .undefined t) = .next (takeUndefined t) := by
  rw [finish_undefined]
  exact entered_of_arm ((notArm_entryCpsr _ _ _).trans h)

/-- With SCTLR.TE 0 a Data Abort is taken. -/
theorem finish_dataAbort_next {t : State} (h : t.cp15.sctlr.getLsbD 30 = false) (f : FaultStatus) (w : Bool) (a : Word) :
    finish (.error (.dataAbort f w a) t) = .next (takeDataAbort f w a t) := by
  rw [finish_dataAbort]
  exact entered_of_arm ((notArm_entryCpsr _ _ _).trans h)
theorem finish_refuse (r : Refusal) (t : State) : finish (.error (.refuse r) t) = .refused r := rfl
theorem finish_fault (f : Fault) (t : State) : finish (.error (.fault f) t) = .fault f := rfl

/-- A body that ends in a next state: it completed, or it ended in an exception that was taken. -/
theorem finish_next {r : EStateM.Result Stop State Unit} {t : State} (h : finish r = .next t) :
    (∃ u, r = .ok u t) ∨ (∃ u, r = .error .undefined u ∧ t = takeUndefined u) ∨
      (∃ f w a u, r = .error (.dataAbort f w a) u ∧ t = takeDataAbort f w a u) := by
  cases r with
  | ok a u => cases h; exact .inl ⟨(), rfl⟩
  | error e u =>
    cases e with
    | undefined => rw [finish_undefined] at h; exact .inr (.inl ⟨u, rfl, (entered_next h).1⟩)
    | dataAbort f w a => rw [finish_dataAbort] at h; exact .inr (.inr ⟨f, w, a, u, rfl, (entered_next h).1⟩)
    | fault f => cases h
    | refuse r => cases h

theorem conditional_passed {c : Cond} {s : State} (h : condPassed c s.cpsr = true) (body : M Unit) :
    conditional c body s = finish (body s) := if_pos h

theorem conditional_failed {c : Cond} {s : State} (h : condPassed c s.cpsr = false) (body : M Unit) :
    conditional c body s = finish (fallThrough s) := if_neg (by simp [h])

/-- The end of a result in a register: Rd takes it, the flags are set if S says so, the pc advances. -/
theorem writeResult_of_ne {rd : Reg} (hd : rd ≠ 15) (S : Bool) (r : Word) (flags : M Unit) (f : State → State)
    (hf : ∀ t, flags t = .ok () (f t)) (hpc : ∀ t, (f t).pc = t.pc) {s : State} (hp : s.pc ≠ 0xFFFFFFFC) :
    writeResult S rd r flags s =
      .ok () ((if S then f (s.setReg rd r) else s.setReg rd r).setPc (s.pc + 4)) := by
  unfold writeResult
  rw [if_neg hd, bind_ok (writeReg_apply rd r s)]
  cases S with
  | true =>
    rw [if_pos rfl, bind_ok (hf _)]
    refine (fallThrough_of_ne (s := f (s.setReg rd r)) (by rw [hpc, State.setReg_pc]; exact hp)).trans ?_
    rw [hpc, State.setReg_pc]
    rfl
  | false =>
    rw [if_neg (by decide)]
    refine (fallThrough_of_ne (s := s.setReg rd r) (by rw [State.setReg_pc]; exact hp)).trans ?_
    rw [State.setReg_pc]
    rfl

theorem setResultFlags_apply (r : Word) (c v : Bool) (s : State) :
    setResultFlags r c v s = .ok () (s.setFlags (r.getLsbD 31) (decide (r = 0)) c v) := rfl

theorem setLogicalFlags_apply (r : Word) (c : Bool) (s : State) :
    setLogicalFlags r c s = .ok () (s.setFlags (r.getLsbD 31) (decide (r = 0)) c s.flagV) := rfl

theorem setNZ_apply (n z : Bool) (s : State) : setNZ n z s = .ok () (s.setFlags n z s.flagC s.flagV) := rfl

/-- An arithmetic result in a register. -/
theorem arithmetic_of_ne {rd : Reg} (hd : rd ≠ 15) (S : Bool) (sum : Sum) {s : State} (hp : s.pc ≠ 0xFFFFFFFC) :
    arithmetic S rd sum s = .ok () ((if S then
      (s.setReg rd sum.value).setFlags (sum.value.getLsbD 31) (decide (sum.value = 0)) sum.carry sum.overflow
      else s.setReg rd sum.value).setPc (s.pc + 4)) :=
  writeResult_of_ne hd S sum.value _
    (fun t => t.setFlags (sum.value.getLsbD 31) (decide (sum.value = 0)) sum.carry sum.overflow)
    (fun _ => rfl) (fun _ => rfl) hp

/-- A logical result in a register. -/
theorem logical_of_ne {rd : Reg} (hd : rd ≠ 15) (S : Bool) (r : Word) (carry : Bool) {s : State}
    (hp : s.pc ≠ 0xFFFFFFFC) :
    logical S rd r carry s = .ok () ((if S then
      (s.setReg rd r).setFlags (r.getLsbD 31) (decide (r = 0)) carry (s.setReg rd r).flagV
      else s.setReg rd r).setPc (s.pc + 4)) :=
  writeResult_of_ne hd S r _
    (fun t => t.setFlags (r.getLsbD 31) (decide (r = 0)) carry t.flagV) (fun _ => rfl) (fun _ => rfl) hp

/-! ### Arithmetic -/

/-- AddWithCarry: the value is the sum modulo 2^32, the carry tells of an unsigned overflow, V of a signed one. -/
theorem addWithCarry_value (x y : Word) (c : Bool) :
    (addWithCarry x y c).value = x + y + BitVec.ofNat 32 c.toNat := by
  simp only [addWithCarry, BitVec.ofNat_add, BitVec.ofNat_toNat, BitVec.setWidth_eq]

theorem addWithCarry_carry (x y : Word) (c : Bool) :
    (addWithCarry x y c).carry = decide (2 ^ 32 ≤ x.toNat + y.toNat + c.toNat) := rfl

theorem addWithCarry_overflow (x y : Word) (c : Bool) :
    (addWithCarry x y c).overflow =
      decide ((addWithCarry x y c).value.toInt ≠ x.toInt + y.toInt + (c.toNat : Int)) := rfl

/-! ### A step -/

/-- A step with no reset: the hardware beside the processor, then the processor. -/
theorem step_proceeds {s : State} (h : resetsOf s = .none) : step s = proceed (hardwareStage s) := by
  unfold step advance
  exact if_pos h

/-- A processor that does not run waits. -/
theorem proceed_standby {t : State} (h : t.standby ≠ .running) : proceed t = .next (wait t) := if_pos h

/-- A running processor with no interrupt ready goes on. -/
theorem proceed_goesOn {t : State} (h : t.standby = .running) (hr : readyInterrupt t = none) : proceed t = goOn t := by
  unfold proceed
  rw [if_neg (fun c => c h), hr]

/-- A running processor with an interrupt ready takes it, or leaves it for a later boundary. -/
theorem proceed_ready {t : State} {e : Exc} (h : t.standby = .running) (hr : readyInterrupt t = some e) :
    proceed t = entered (takeInterrupt e { t with free := t.free + 1 }) ∨ proceed t = goOn { t with free := t.free + 1 } := by
  unfold proceed
  rw [if_neg (fun c => c h), hr]
  cases Config.freeBool t.free
  · exact .inr rfl
  · exact .inl rfl

/-- Past the interrupts a pending asynchronous abort that is not masked is taken. -/
theorem goOn_abort {t u : State} (h : takeAbort t = some u) : goOn t = entered u := by
  unfold goOn
  rw [h]

/-- With none the next instruction runs. -/
theorem goOn_runs {t : State} (h : takeAbort t = none) : goOn t = runNext t := by
  unfold goOn
  rw [h]

/-- What a processor does that is not held in reset: it waits, takes an interrupt, or goes on, where the count of free values
may have advanced. -/
theorem proceed_cases (t : State) :
    proceed t = .next (wait t) ∨ (∃ e, proceed t = entered (takeInterrupt e { t with free := t.free + 1 })) ∨
      ∃ n, proceed t = goOn { t with free := n } := by
  by_cases h : t.standby = .running
  · cases hr : readyInterrupt t with
    | none => exact .inr (.inr ⟨t.free, proceed_goesOn h hr⟩)
    | some e => exact .inr ((proceed_ready h hr).imp (⟨e, ·⟩) (⟨_, ·⟩))
  · exact .inl (proceed_standby h)

/-- What a step that answers a next state did: the processor proceeded, after the resets of it that leave the processor
running if there are any, or it was reset; the resets were a combination the processor supports. -/
theorem step_cases {s u : State} (h : step s = .next u) :
    (resetsOf s = .none ∧ proceed (hardwareStage s) = .next u) ∨
    (unsupportedReset s = false ∧ leavesCoherency (resetsOf s) (hardwareStage s) = false ∧
      ((resetsOf s).cpu = true ∧ u = applyResets (resetsOf s) (hardwareStage s) ∨
        (resetsOf s).cpu = false ∧ proceed (applyResets (resetsOf s) (hardwareStage s)) = .next u)) := by
  unfold step advance at h
  by_cases hr : resetsOf s = .none
  · exact .inl ⟨hr, by simpa only [hr, if_true] using h⟩
  · simp only [hr, if_false] at h
    cases hu : unsupportedReset s with
    | true => simp only [hu, if_true] at h; cases h
    | false =>
      cases hl : leavesCoherency (resetsOf s) (hardwareStage s) with
      | true => simp only [hu, hl, Bool.false_eq_true, if_false, if_true] at h; cases h
      | false =>
        simp only [hu, hl, Bool.false_eq_true, if_false] at h
        cases hc : (resetsOf s).cpu with
        | true => simp only [hc, if_true] at h; cases h; exact .inr ⟨rfl, rfl, .inl ⟨rfl, rfl⟩⟩
        | false => simp only [hc, Bool.false_eq_true, if_false] at h; exact .inr ⟨rfl, rfl, .inr ⟨rfl, h⟩⟩

end Sys2Proof.Machine
end

