-- ==== Sys2Proof/Laws/Sparse.lean ====
section
/-! SUPPORT. Sparse memories: reading after writing, and the canonical form that every operation keeps. -/

namespace Sys2Proof.Machine

/-! ### Reading after writing -/

/-- Keys below the least listed key read as unlisted. -/
theorem sparseRead_below {w : Nat} {m : List (Nat × BitVec w)} {lo k : Nat} (h : sparseWf lo m = true) (hk : k < lo) :
    sparseRead m k = 0 := by
  induction m generalizing lo with
  | nil => rfl
  | cons e m ih =>
    obtain ⟨k', v⟩ := e
    simp only [sparseWf, Bool.and_eq_true, decide_eq_true_eq] at h
    simp only [sparseRead]
    rw [if_neg (by omega)]
    exact ih h.2 (by omega)

/-- What a sparse memory in canonical form holds after a write: the value at the key, the old value elsewhere. -/
theorem sparseRead_write {w : Nat} {m : List (Nat × BitVec w)} {lo : Nat} (h : sparseWf lo m = true) (k j : Nat)
    (v : BitVec w) : sparseRead (sparseWrite m k v) j = if k = j then v else sparseRead m j := by
  induction m generalizing lo with
  | nil =>
    simp only [sparseWrite]
    split
    · rename_i hv; subst hv; simp [sparseRead]
    · simp [sparseRead]
  | cons e m ih =>
    obtain ⟨k', v'⟩ := e
    simp only [sparseWf, Bool.and_eq_true, decide_eq_true_eq] at h
    simp only [sparseWrite]
    by_cases h1 : k = k'
    · subst h1
      rw [if_pos rfl]
      by_cases hv : v = 0
      · subst hv
        simp only [if_true, sparseRead]
        by_cases hj : k = j
        · subst hj; rw [if_pos rfl]; exact sparseRead_below h.2 (by omega)
        · rw [if_neg hj, if_neg hj]
      · simp only [hv, if_false, sparseRead]
        by_cases hj : k = j
        · rw [if_pos hj, if_pos hj]
        · rw [if_neg hj, if_neg hj, if_neg hj]
    · rw [if_neg h1]
      by_cases h2 : k < k'
      · rw [if_pos h2]
        by_cases hv : v = 0
        · subst hv
          simp only [if_true, sparseRead]
          by_cases hj : k = j
          · subst hj
            rw [if_pos rfl, if_neg (by omega)]
            exact sparseRead_below h.2 (by omega)
          · rw [if_neg hj]
        · simp only [hv, if_false, sparseRead]
      · rw [if_neg h2]
        simp only [sparseRead]
        rw [ih h.2]
        by_cases hj : k = j
        · subst hj; rw [if_pos rfl, if_neg (by omega), if_pos rfl]
        · rw [if_neg hj, if_neg hj]

/-! ### The canonical form -/

/-- The bound of the canonical form can be lowered. -/
theorem sparseWf_mono {w : Nat} {m : List (Nat × BitVec w)} {lo lo' : Nat} (h : sparseWf lo m = true) (hl : lo' ≤ lo) :
    sparseWf lo' m = true := by
  cases m with
  | nil => rfl
  | cons e m =>
    simp only [sparseWf, Bool.and_eq_true, decide_eq_true_eq] at h ⊢
    exact ⟨⟨by omega, h.1.2⟩, h.2⟩

/-- A write keeps the canonical form. -/
theorem sparseWf_write {w : Nat} {m : List (Nat × BitVec w)} {lo : Nat} (h : sparseWf lo m = true) {k : Nat}
    (hk : lo ≤ k) (v : BitVec w) : sparseWf lo (sparseWrite m k v) = true := by
  induction m generalizing lo with
  | nil =>
    simp only [sparseWrite]
    split
    · rfl
    · rename_i hv; simpa [sparseWf, hk] using hv
  | cons e m ih =>
    obtain ⟨k', v'⟩ := e
    simp only [sparseWf, Bool.and_eq_true, decide_eq_true_eq] at h
    simp only [sparseWrite]
    by_cases h1 : k = k'
    · subst h1
      rw [if_pos rfl]
      by_cases hv : v = 0
      · rw [if_pos hv]; exact sparseWf_mono h.2 (by omega)
      · rw [if_neg hv]; simpa [sparseWf, hk, h.2] using hv
    · rw [if_neg h1]
      by_cases h2 : k < k'
      · rw [if_pos h2]
        by_cases hv : v = 0
        · rw [if_pos hv]
          simp only [sparseWf, Bool.and_eq_true, decide_eq_true_eq]
          exact h
        · rw [if_neg hv]
          simp only [sparseWf, Bool.and_eq_true, decide_eq_true_eq]
          exact ⟨⟨hk, by simpa using hv⟩, ⟨by omega, h.1.2⟩, h.2⟩
      · rw [if_neg h2]
        simp only [sparseWf, Bool.and_eq_true, decide_eq_true_eq]
        exact ⟨h.1, ih h.2 (by omega)⟩

/-- A write keeps the canonical form of a whole memory. -/
theorem sparseWf_write_zero {w : Nat} {m : List (Nat × BitVec w)} (h : sparseWf 0 m = true) (k : Nat) (v : BitVec w) :
    sparseWf 0 (sparseWrite m k v) = true := sparseWf_write h (Nat.zero_le k) v

/-- Leaving entries out keeps the canonical form. -/
theorem sparseWf_filter {w : Nat} {m : List (Nat × BitVec w)} {lo : Nat} (h : sparseWf lo m = true)
    (p : Nat × BitVec w → Bool) : sparseWf lo (m.filter p) = true := by
  induction m generalizing lo with
  | nil => rfl
  | cons e m ih =>
    obtain ⟨k, v⟩ := e
    simp only [sparseWf, Bool.and_eq_true, decide_eq_true_eq] at h
    rw [List.filter_cons]
    split
    · simp only [sparseWf, Bool.and_eq_true, decide_eq_true_eq]
      exact ⟨h.1, ih h.2⟩
    · exact sparseWf_mono (ih h.2) (by omega)

/-- Changing the values and leaving out those that became the default keeps the canonical form. -/
theorem sparseWf_map_filter {w : Nat} {m : List (Nat × BitVec w)} {lo : Nat} (h : sparseWf lo m = true)
    (f : BitVec w → BitVec w) :
    sparseWf lo ((m.map fun e => (e.1, f e.2)).filter fun e => e.2 != 0) = true := by
  induction m generalizing lo with
  | nil => rfl
  | cons e m ih =>
    obtain ⟨k, v⟩ := e
    simp only [sparseWf, Bool.and_eq_true, decide_eq_true_eq] at h
    rw [List.map_cons, List.filter_cons]
    split
    · rename_i hv
      simp only [sparseWf, Bool.and_eq_true, decide_eq_true_eq]
      exact ⟨⟨h.1.1, hv⟩, ih h.2⟩
    · exact sparseWf_mono (ih h.2) (by omega)

/-- Two sparse memories in canonical form that read alike are the same data. -/
theorem sparse_ext {w : Nat} {m m' : List (Nat × BitVec w)} {lo : Nat} (h : sparseWf lo m = true)
    (h' : sparseWf lo m' = true) (e : ∀ k, sparseRead m k = sparseRead m' k) : m = m' := by
  induction m generalizing lo m' with
  | nil =>
    cases m' with
    | nil => rfl
    | cons e' m' =>
      obtain ⟨k, v⟩ := e'
      simp only [sparseWf, Bool.and_eq_true, bne_iff_ne, ne_eq] at h'
      exact absurd (by simpa [sparseRead] using (e k).symm) h'.1.2
  | cons a m ih =>
    obtain ⟨k, v⟩ := a
    have hm := h
    simp only [sparseWf, Bool.and_eq_true, decide_eq_true_eq, bne_iff_ne, ne_eq] at h
    cases m' with
    | nil => exact absurd (by simpa [sparseRead] using e k) h.1.2
    | cons b m' =>
      obtain ⟨k', v'⟩ := b
      have hm' := h'
      simp only [sparseWf, Bool.and_eq_true, decide_eq_true_eq, bne_iff_ne, ne_eq] at h'
      have hk : k = k' := by
        rcases Nat.lt_trichotomy k k' with hlt | heq | hgt
        · have := e k
          rw [sparseRead, if_pos rfl, sparseRead, if_neg (by omega), sparseRead_below h'.2 (by omega)] at this
          exact absurd this h.1.2
        · exact heq
        · have := e k'
          rw [sparseRead, if_neg (by omega), sparseRead_below h.2 (by omega), sparseRead, if_pos rfl] at this
          exact absurd this.symm h'.1.2
      subst hk
      have hv : v = v' := by simpa [sparseRead] using e k
      subst hv
      congr 1
      refine ih h.2 h'.2 fun j => ?_
      by_cases hj : k = j
      · subst hj
        rw [sparseRead_below h.2 (by omega), sparseRead_below h'.2 (by omega)]
      · have := e j
        simpa only [sparseRead, if_neg hj] using this

/-! ### Bytes -/

/-- Storing bytes keeps the canonical form. -/
theorem wf_storeBytes {m : List Host.Cell} (h : Memory.wf m = true) (a : Nat) (bs : List Byte) :
    Memory.wf (storeBytes m a bs) = true := by
  induction bs generalizing m a with
  | nil => exact h
  | cons b bs ih => exact ih (sparseWf_write_zero h a b) (a + 1)

/-- Storing strobed bytes keeps the canonical form. -/
theorem wf_storeStrobed {m : List Host.Cell} (h : Memory.wf m = true) (a : Nat) (bs : List (Option Byte)) :
    Memory.wf (storeStrobed m a bs) = true := by
  induction bs generalizing m a with
  | nil => exact h
  | cons b bs ih =>
    cases b with
    | none => exact ih h (a + 1)
    | some b => exact ih (sparseWf_write_zero h a b) (a + 1)

/-- A byte of memory after bytes are stored at `a`: the stored byte inside, the old byte outside. -/
theorem sparseRead_storeBytes {m : List Host.Cell} (h : Memory.wf m = true) (a : Nat) (bs : List Byte) (j : Nat) :
    sparseRead (storeBytes m a bs) j =
      if a ≤ j ∧ j < a + bs.length then bs.getD (j - a) 0 else sparseRead m j := by
  induction bs generalizing m a with
  | nil => simp only [storeBytes, List.length_nil]; rw [if_neg (by omega)]
  | cons b bs ih =>
    rw [storeBytes, ih (sparseWf_write_zero h a b), sparseRead_write h, List.length_cons]
    by_cases hj : a = j
    · subst hj
      rw [if_neg (by omega), if_pos rfl, if_pos (by omega)]
      simp
    · rw [if_neg hj]
      by_cases hin : a + 1 ≤ j ∧ j < a + 1 + bs.length
      · rw [if_pos hin, if_pos (by omega)]
        obtain ⟨d, hd⟩ : ∃ d, j - a = d + 1 := ⟨j - a - 1, by omega⟩
        rw [hd, show j - (a + 1) = d by omega]
        rfl
      · rw [if_neg hin, if_neg (by omega)]

/-- Bytes read where bytes were stored are those bytes. -/
theorem memBytes_storeBytes {m : List Host.Cell} (h : Memory.wf m = true) (a : Nat) (bs : List Byte) :
    memBytes (storeBytes m a bs) a bs.length = bs := by
  have key : ∀ (n i : Nat), i + n ≤ bs.length →
      memBytes (storeBytes m a bs) (a + i) n = (bs.drop i).take n := by
    intro n
    induction n with
    | zero => intro i _; simp [memBytes]
    | succ n ih =>
      intro i hi
      rw [memBytes, sparseRead_storeBytes h, if_pos (by omega), show a + i + 1 = a + (i + 1) by omega,
        ih (i + 1) (by omega), show a + i - a = i by omega]
      rw [List.drop_eq_getElem_cons (show i < bs.length by omega), List.take_succ_cons]
      simp [List.getElem?_eq_getElem (show i < bs.length by omega)]
  simpa using key bs.length 0 (by omega)

/-- The memory the machine resets with is in canonical form. -/
theorem wf_reset : Memory.wf State.reset.mem = true := rfl

end Sys2Proof.Machine
end

