-- ==== Sys2Proof/Laws/Access.lean ====
section
/-! SUPPORT. Everything a memory access can do to the machine, said once: whatever it answers, the core state stays (pins,
registers, pc, status, CP15 but for the error banks, FPU, monitor, standby) and the sparse memories keep their canonical form.
The PMU and debug registers of both processors may change: the debug window reaches them. The lemmas go from the devices over the caches to the checked loads, stores and fetches. -/

namespace Sys2Proof.Machine

/-- The state a body leaves, however it ends. -/
def after {α : Type} : EStateM.Result Stop State α → State
  | .ok _ t => t
  | .error _ t => t

/-- A state without what a memory access may change. -/
def coreOf (s : State) : State :=
  { s with
    pendingAbort := none, mem := [], itcm := Tcm.reset, dtcm := Tcm.reset, dcache := CacheRam.reset,
    icache := CacheRam.reset, scu := Scu.reset s.cfg, gic := Gic.reset s.cfg, timers := Timers.reset,
    outs := State.reset.outs, free := 0, pmu := Pmu.reset, dbg := Debug.reset, otherPmu := Pmu.reset,
    otherDbg := Debug.reset, unsynced := [],
    upkeep := State.reset.upkeep,
    cp15 := { s.cp15 with deer := Vector.replicate 3 0, ieer := Vector.replicate 3 0, dtcmeer := 0, itcmeer := 0 } }

/-- What relates the states before and after an access. -/
structure AccessStep (s t : State) : Prop where
  core : coreOf t = coreOf s
  canonical : Canonical s → Canonical t

theorem AccessStep.refl (s : State) : AccessStep s s := ⟨rfl, id⟩

theorem AccessStep.trans {s t u : State} (h : AccessStep s t) (h' : AccessStep t u) : AccessStep s u :=
  ⟨h'.core.trans h.core, fun c => h'.canonical (h.canonical c)⟩

/-! ### What an access leaves alone -/

theorem AccessStep.cfg {s t : State} (h : AccessStep s t) : t.cfg = s.cfg :=
  show (coreOf t).cfg = (coreOf s).cfg from congrArg State.cfg h.core
theorem AccessStep.pins {s t : State} (h : AccessStep s t) : t.pins = s.pins :=
  show (coreOf t).pins = (coreOf s).pins from congrArg State.pins h.core
theorem AccessStep.regs {s t : State} (h : AccessStep s t) : t.regs = s.regs :=
  show (coreOf t).regs = (coreOf s).regs from congrArg State.regs h.core
theorem AccessStep.pc {s t : State} (h : AccessStep s t) : t.pc = s.pc :=
  show (coreOf t).pc = (coreOf s).pc from congrArg State.pc h.core
theorem AccessStep.cpsr {s t : State} (h : AccessStep s t) : t.cpsr = s.cpsr :=
  show (coreOf t).cpsr = (coreOf s).cpsr from congrArg State.cpsr h.core
theorem AccessStep.spsr {s t : State} (h : AccessStep s t) : t.spsr = s.spsr :=
  show (coreOf t).spsr = (coreOf s).spsr from congrArg State.spsr h.core
theorem AccessStep.fpu {s t : State} (h : AccessStep s t) : t.fpu = s.fpu :=
  show (coreOf t).fpu = (coreOf s).fpu from congrArg State.fpu h.core
theorem AccessStep.monitor {s t : State} (h : AccessStep s t) : t.monitor = s.monitor :=
  show (coreOf t).monitor = (coreOf s).monitor from congrArg State.monitor h.core
theorem AccessStep.standby {s t : State} (h : AccessStep s t) : t.standby = s.standby :=
  show (coreOf t).standby = (coreOf s).standby from congrArg State.standby h.core
theorem AccessStep.eventReg {s t : State} (h : AccessStep s t) : t.eventReg = s.eventReg :=
  show (coreOf t).eventReg = (coreOf s).eventReg from congrArg State.eventReg h.core
theorem AccessStep.sctlr {s t : State} (h : AccessStep s t) : t.cp15.sctlr = s.cp15.sctlr :=
  show (coreOf t).cp15.sctlr = (coreOf s).cp15.sctlr from congrArg (fun u => u.cp15.sctlr) h.core
theorem AccessStep.rgnr {s t : State} (h : AccessStep s t) : t.cp15.rgnr = s.cp15.rgnr :=
  show (coreOf t).cp15.rgnr = (coreOf s).cp15.rgnr from congrArg (fun u => u.cp15.rgnr) h.core

/-- An access keeps the invariant. -/
theorem AccessStep.inv {s t : State} (h : AccessStep s t) (i : Inv s) : Inv t where
  canonical := h.canonical i.canonical
  legalMode := h.cpsr ▸ i.legalMode
  pcAligned := h.pc ▸ i.pcAligned
  cpsrReserved := h.cpsr ▸ i.cpsrReserved
  sctlrFixed := h.sctlr ▸ i.sctlrFixed
  regionInRange := h.rgnr ▸ h.cfg ▸ i.regionInRange
  fpscrReserved := h.fpu ▸ i.fpscrReserved
  fpexcReserved := h.fpu ▸ i.fpexcReserved

/-! ### Bodies made of accesses -/

/-- A body that does only what an access may do. -/
def Accesses {α : Type} (m : M α) : Prop := ∀ s, AccessStep s (after (m s))

theorem accesses_pure {α : Type} (a : α) : Accesses (pure a : M α) := AccessStep.refl

theorem accesses_refuse {α : Type} (r : Refusal) : Accesses (refuse r : M α) := AccessStep.refl

theorem accesses_bind {α β : Type} {x : M α} {f : α → M β} (hx : Accesses x) (hf : ∀ a, Accesses (f a)) :
    Accesses (x >>= f) := by
  intro s
  have h := hx s
  rw [bind_apply]
  cases e : x s with
  | ok a t => rw [e] at h; exact h.trans (hf a t)
  | error r t => rw [e] at h; exact h

theorem accesses_get {α : Type} {f : State → M α} (hf : ∀ s, Accesses (f s)) : Accesses (get >>= f) :=
  fun s => hf s s

theorem accesses_get_here {α : Type} {f : State → M α} (hf : ∀ s, AccessStep s (after (f s s))) :
    Accesses (get >>= f) := hf

theorem accesses_ite {α : Type} {p : Prop} [Decidable p] {x y : M α} (hx : Accesses x) (hy : Accesses y) :
    Accesses (if p then x else y) := by
  split <;> assumption

theorem accesses_modify {f : State → State} (hf : ∀ s, AccessStep s (f s)) : Accesses (modify f : M PUnit) := hf

theorem accesses_undefined {α : Type} : Accesses (undefined : M α) := AccessStep.refl

theorem accesses_map {α β : Type} {f : α → β} {x : M α} (hx : Accesses x) : Accesses (f <$> x) := by
  intro s
  have h := hx s
  have e : (f <$> x) s = (x >>= fun a => pure (f a)) s := rfl
  rw [e]
  exact accesses_bind hx (fun _ => accesses_pure _) s

theorem accesses_drawWord : Accesses drawWord := fun _ => ⟨rfl, fun h => { h with }⟩

theorem accesses_drawBool : Accesses drawBool := fun _ => ⟨rfl, fun h => { h with }⟩

theorem accesses_refuseIf (b : Bool) (r : Refusal) : Accesses (refuseIf b r) := by
  cases b
  · exact accesses_pure ()
  · exact accesses_refuse r

/-- A body that answers at once. -/
theorem accessStep_ok {α : Type} {a : α} {s t : State} (h : AccessStep s t) :
    AccessStep s (after (EStateM.Result.ok (ε := Stop) a t)) := h

/-! ### Devices -/

theorem accesses_signalAbort (x : Bool) : Accesses (signalAbort x) := by
  intro s
  unfold signalAbort after
  cases s.pendingAbort
  · exact ⟨rfl, fun h => { h with }⟩
  · exact AccessStep.refl s

theorem accesses_freeBytes (n : Nat) : Accesses (freeBytes n) := by
  induction n with
  | zero => exact accesses_pure _
  | succ n ih => exact accesses_bind accesses_drawWord fun _ => accesses_bind ih fun _ => accesses_pure _

theorem accessStep_acknowledge (id : Nat) (s : State) : AccessStep s (acknowledge id s) := by
  refine ⟨rfl, fun h => { h with gicSgi := ?_ }⟩
  show sparseWf 0 (if id < 16 then _ else _) = true
  split
  · exact sparseWf_write_zero h.gicSgi _ _
  · exact h.gicSgi

theorem accesses_iccRead (off : Nat) : Accesses (iccRead off) := by
  intro s
  unfold iccRead
  split <;> try exact AccessStep.refl s
  · split
    · exact accessStep_acknowledge _ s
    · exact AccessStep.refl s
  · split <;> exact AccessStep.refl s
  · split <;> exact AccessStep.refl s

theorem accesses_iccWrite (off : Nat) (v : Word) : Accesses (iccWrite off v) := by
  intro s
  unfold iccWrite
  split <;> try exact ⟨rfl, fun h => { h with }⟩
  · unfold endInterrupt after
    simp only
    split
    · exact ⟨rfl, fun h => { h with }⟩
    · exact AccessStep.refl s

theorem accessStep_writePriority (id : Nat) (v : Byte) (s : State) : AccessStep s (writePriority id v s) := by
  unfold writePriority
  split
  · exact ⟨rfl, fun h => { h with gicPrio := sparseWf_write_zero h.gicPrio _ _ }⟩
  · exact AccessStep.refl s

theorem accessStep_writeTarget (id : Nat) (v : Byte) (s : State) : AccessStep s (writeTarget id v s) := by
  unfold writeTarget
  split
  · exact ⟨rfl, fun h => { h with gicTarget := sparseWf_write_zero h.gicTarget _ _ }⟩
  · exact AccessStep.refl s

theorem accessStep_writeFour {f : Nat → Byte → State → State} (hf : ∀ id v s, AccessStep s (f id v s)) (id : Nat)
    (v : Word) (s : State) : AccessStep s (writeFour f id v s) :=
  (((hf _ _ _).trans (hf _ _ _)).trans (hf _ _ _)).trans (hf _ _ _)

theorem accessStep_foldl {β : Type} {f : State → β → State} (hf : ∀ s b, AccessStep s (f s b)) (l : List β) (s : State) :
    AccessStep s (l.foldl f s) := by
  induction l generalizing s with
  | nil => exact AccessStep.refl s
  | cons b l ih => exact (hf s b).trans (ih (f s b))

theorem accessStep_writeConfig (n : Nat) (v : Word) (s : State) : AccessStep s (writeConfig n v s) := by
  refine accessStep_foldl (fun t j => ?_) _ s
  simp only
  split
  · exact ⟨rfl, fun h => { h with }⟩
  · exact AccessStep.refl t

theorem accessStep_sendSgi (v : Word) (s : State) : AccessStep s (sendSgi v s) := by
  have hself : AccessStep s (selfSgi (v.extractLsb' 0 4).toNat s) :=
    ⟨rfl, fun h => { h with gicSgi := sparseWf_write_zero h.gicSgi _ _ }⟩
  unfold sendSgi
  simp only
  split <;> split <;> first | exact hself | exact AccessStep.refl s

theorem accessStep_distWrite (off : Nat) (v : Word) (s : State) : AccessStep s (distWrite off v s) := by
  unfold distWrite
  simp only
  split
  · exact ⟨rfl, fun h => { h with }⟩
  split
  · exact ⟨rfl, fun h => { h with }⟩
  split
  · exact ⟨rfl, fun h => { h with }⟩
  split
  · exact ⟨rfl, fun h => { h with }⟩
  split
  · refine ⟨rfl, fun h => { h with gicSgi := ?_ }⟩
    show sparseWf 0 (if _ then _ else _) = true
    split
    · exact sparseWf_filter h.gicSgi _
    · exact h.gicSgi
  split
  · exact accessStep_writeFour accessStep_writePriority _ _ _
  split
  · exact accessStep_writeFour accessStep_writeTarget _ _ _
  split
  · exact accessStep_writeConfig _ _ _
  split
  · exact accessStep_sendSgi _ _
  · exact AccessStep.refl s

/-- The duplicate tag RAM is in canonical form. -/
structure ScuWf (u : Scu) : Prop where
  tags : sparseWf 0 u.tags = true
  chunks : sparseWf 0 u.tagChunks = true

theorem Canonical.scu {s : State} (h : Canonical s) : ScuWf s.scu := ⟨h.scuTags, h.scuTagChunks⟩

theorem accessStep_scu {s : State} {u : Scu} (hu : ScuWf s.scu → ScuWf u) : AccessStep s { s with scu := u } :=
  ⟨rfl, fun h => { h with scuTags := (hu h.scu).tags, scuTagChunks := (hu h.scu).chunks }⟩

theorem ScuWf.setScuTag {u : Scu} (h : ScuWf u) (ecc : Bool) (key : Nat) (v : Word) : ScuWf (setScuTag ecc key v u) := by
  refine ⟨sparseWf_write_zero h.tags _ _, ?_⟩
  show sparseWf 0 (if _ then _ else _) = true
  split
  · exact sparseWf_write_zero h.chunks _ _
  · exact h.chunks

theorem ScuWf.clearScuWay {u : Scu} (h : ScuWf u) (ecc : Bool) (way n : Nat) : ScuWf (clearScuWay ecc way n u) := by
  induction n generalizing u with
  | zero => exact h
  | succ n ih => exact ih (h.setScuTag _ _ _)

theorem ScuWf.clearScuWays {u : Scu} (h : ScuWf u) (ecc : Bool) (sel : Word) (n : Nat) :
    ScuWf (clearScuWays ecc sel n u) := by
  induction n generalizing u with
  | zero => exact h
  | succ n ih =>
    refine ih ?_
    split
    · exact h.clearScuWay _ _ _
    · exact h

theorem ScuWf.scuRecord {u : Scu} (h : ScuWf u) (e : Word) : ScuWf (scuRecord e u) := by
  unfold Sys2Proof.Machine.scuRecord
  split
  · exact ⟨h.tags, h.chunks⟩
  · split
    · exact ⟨h.tags, h.chunks⟩
    · exact h

theorem accessStep_scuInvalidate (v : Word) (s : State) : AccessStep s (scuInvalidate v s) :=
  accessStep_scu fun h => h.clearScuWays _ _ _

theorem accessStep_scuTagOp (v : Word) (s : State) : AccessStep s (scuTagOp v s) := by
  unfold scuTagOp
  simp only
  split
  · refine ⟨rfl, fun h => { h with scuTags := sparseWf_write_zero h.scuTags _ _, scuTagChunks := ?_ }⟩
    show sparseWf 0 (if _ then _ else _) = true
    split
    · exact sparseWf_write_zero h.scuTagChunks _ _
    · exact h.scuTagChunks
  · exact ⟨rfl, fun h => { h with }⟩

theorem accessStep_scuWrite (off : Nat) (v : Word) (s : State) : AccessStep s (scuWrite off v s) := by
  unfold scuWrite
  split
  case h_3 => split
              · exact accessStep_scuInvalidate v s
              · exact AccessStep.refl s
  case h_7 => exact accessStep_scuTagOp v s
  all_goals first
    | exact ⟨rfl, fun h => { h with }⟩
    | (split <;> exact ⟨rfl, fun h => { h with }⟩)

theorem accessStep_scuNote (way set : Nat) (valid : Bool) (s : State) : AccessStep s (scuNote way set valid s) := by
  unfold scuNote
  simp only
  split
  · exact ⟨rfl, fun h => { h with
      scuTags := (h.scu.setScuTag _ _ _).tags, scuTagChunks := (h.scu.setScuTag _ _ _).chunks }⟩
  · exact accessStep_scu fun h => h.setScuTag _ _ _

theorem accesses_privateReadWord (off : Nat) : Accesses (privateReadWord off) := by
  intro s
  unfold privateReadWord
  split
  · exact AccessStep.refl s
  split
  · exact accesses_iccRead _ s
  split
  · exact AccessStep.refl s
  split <;> exact AccessStep.refl s

theorem accessStep_timers (s : State) (t : Timers) : AccessStep s { s with timers := t } := ⟨rfl, fun h => { h with }⟩

theorem accesses_privateWriteWord (off : Nat) (v : Word) : Accesses (privateWriteWord off v) := by
  intro s
  unfold privateWriteWord
  split
  · exact accessStep_ok (accessStep_scuWrite _ _ s)
  split
  · exact accesses_iccWrite _ _ s
  split
  · exact accessStep_ok (accessStep_timers s _)
  split
  · exact accessStep_ok (accessStep_timers s _)
  · exact accessStep_ok (accessStep_distWrite _ _ s)

theorem accesses_privateWriteByte (off : Nat) (b : Byte) : Accesses (privateWriteByte off b) := by
  intro s
  unfold privateWriteByte
  split
  · exact accessStep_ok (accessStep_scuWrite _ _ s)
  split
  · exact accessStep_ok (accessStep_writePriority _ _ s)
  · exact accessStep_ok (accessStep_writeTarget _ _ s)

theorem accesses_privateRead (a : Word) (n : Nat) (form : AccessForm) : Accesses (privateRead a n form) := by
  unfold privateRead
  refine accesses_ite ?_ ?_
  · exact accesses_bind (accesses_signalAbort true) fun _ => accesses_freeBytes n
  · exact accesses_bind (accesses_privateReadWord _) fun _ => accesses_pure _

theorem accesses_privateWrite (a : Word) (bs : List Byte) (form : AccessForm) : Accesses (privateWrite a bs form) := by
  unfold privateWrite
  refine accesses_ite (accesses_signalAbort true) ?_
  split
  · exact accesses_privateWriteWord _ _
  · exact accesses_privateWriteByte _ _
  · exact accesses_pure ()

/-! ### The debug window -/

theorem accesses_setDebug (f : Debug → Debug) : Accesses (setDebug f) := fun _ => ⟨rfl, fun h => { h with }⟩

theorem accesses_readDebug (r : DebugReg) : Accesses (readDebug r) := by
  refine accesses_get fun s => ?_
  cases r <;> first
    | exact accesses_pure _
    | exact accesses_drawWord
    | exact accesses_undefined
    | exact accesses_bind (accesses_setDebug _) fun _ => accesses_pure _

theorem accesses_writeDebug (r : DebugReg) (v : Word) : Accesses (writeDebug r v) := by
  unfold writeDebug
  cases r <;> first
    | exact accesses_pure _
    | exact accesses_undefined
    | exact accesses_setDebug _

theorem accesses_readDebugBlock (n : Nat) : Accesses (readDebugBlock n) := by
  refine accesses_get fun s => ?_
  split <;> try exact accesses_pure _
  split
  · exact accesses_readDebug _
  · exact accesses_ite (accesses_pure _) (accesses_ite (accesses_pure _) (accesses_pure _))

theorem accesses_writeDebugBlock (n : Nat) (v : Word) : Accesses (writeDebugBlock n v) := by
  unfold writeDebugBlock
  split <;> try exact accesses_pure _
  · exact accesses_setDebug _
  · split
    · exact accesses_writeDebug _ _
    · exact accesses_pure _

theorem accessStep_writePmuBlock (off : Nat) (v : Word) (s : State) : AccessStep s (writePmuBlock off v s) := by
  unfold writePmuBlock
  split
  · exact ⟨rfl, fun h => { h with }⟩
  · split
    · exact ⟨rfl, fun h => { h with }⟩
    split
    · exact ⟨rfl, fun h => { h with }⟩
    split
    · exact ⟨rfl, fun h => { h with }⟩
    · exact AccessStep.refl s

theorem exchanged_exchanged (s : State) : exchanged (exchanged s) = s := by
  obtain ⟨cfg⟩ := s
  simp [exchanged, exchangeResets]

theorem Canonical.exchanged {s : State} (h : Canonical s) : Canonical (exchanged s) := { h with }

/-- What is done to the other processor's registers is an access too. -/
theorem AccessStep.exchanged {s t : State} (h : AccessStep (exchanged s) t) : AccessStep s (exchanged t) where
  core :=
    have e : ∀ u, coreOf (Machine.exchanged u) = coreOf (Machine.exchanged (coreOf u)) := fun _ => rfl
    (e t).trans <| (congrArg (fun u => coreOf (Machine.exchanged u)) h.core).trans <|
      (e _).symm.trans (congrArg coreOf (exchanged_exchanged s))
  canonical c := (h.canonical c.exchanged).exchanged

theorem accesses_onProcessor {α : Type} (other : Bool) {m : M α} (hm : Accesses m) : Accesses (onProcessor other m) := by
  intro s
  unfold onProcessor
  split
  · have h := hm (exchanged s)
    cases e : m (exchanged s) <;> rw [e] at h <;> exact h.exchanged
  · exact hm s

theorem accesses_windowRead (off : Nat) : Accesses (windowRead off) := by
  intro s
  unfold windowRead
  simp only
  split
  · exact AccessStep.refl s
  · exact accesses_onProcessor _ (accesses_map (accesses_readDebugBlock _)) s
  · exact accesses_onProcessor _ (m := fun t => .ok (some (readPmuBlock t _)) t) (fun t => AccessStep.refl t) s
  · exact AccessStep.refl s
  · exact AccessStep.refl s

theorem accesses_windowWrite (off : Nat) (v : Word) : Accesses (windowWrite off v) := by
  intro s
  unfold windowWrite
  simp only
  split
  · exact AccessStep.refl s
  · exact accesses_onProcessor _ (accesses_map (accesses_writeDebugBlock _ _)) s
  · exact accesses_onProcessor _ (fun t => accessStep_ok (accessStep_writePmuBlock _ _ t)) s
  · exact AccessStep.refl s
  · exact AccessStep.refl s

theorem accesses_failedRead (n : Nat) (x : Bool) : Accesses (do signalAbort x; freeBytes n : M (List Byte)) :=
  accesses_bind (accesses_signalAbort x) fun _ => accesses_freeBytes n

theorem accesses_windowReadBytes (a : Word) (n : Nat) : Accesses (windowReadBytes a n) := by
  unfold windowReadBytes
  refine accesses_ite (accesses_failedRead n true) (accesses_get fun s => accesses_bind (accesses_windowRead _) fun r => ?_)
  cases r with
  | some w => exact accesses_pure _
  | none => exact accesses_failedRead n true

theorem accesses_windowWriteBytes (a : Word) (bs : List Byte) : Accesses (windowWriteBytes a bs) := by
  unfold windowWriteBytes
  split
  · exact accesses_get fun s => accesses_bind (accesses_windowWrite _ _) fun b =>
      accesses_ite (accesses_pure _) (accesses_signalAbort _)
  · exact accesses_signalAbort _

/-! ### The ports -/

theorem accesses_busRead (a : Word) (n : Nat) (attr : Attr) (form : AccessForm) : Accesses (busRead a n attr form) := by
  intro s
  unfold busRead
  split
  · split
    · exact AccessStep.refl s
    · exact accesses_privateRead a n form s
  split
  · exact AccessStep.refl s
  split
  · exact accesses_failedRead n true s
  split
  · exact accesses_windowReadBytes a n s
  split
  · exact accesses_failedRead n _ s
  · exact AccessStep.refl s

theorem accesses_busWrite (a : Word) (bs : List Byte) (attr : Attr) (form : AccessForm) :
    Accesses (busWrite a bs attr form) := by
  intro s
  unfold busWrite
  split
  · split
    · exact AccessStep.refl s
    · exact accesses_privateWrite a bs form s
  split
  · exact AccessStep.refl s
  split
  · exact accesses_signalAbort true s
  split
  · exact accesses_windowWriteBytes a bs s
  split
  · exact accesses_signalAbort _ s
  · exact ⟨rfl, fun h => { h with mem := wf_storeBytes h.mem _ _ }⟩

theorem accesses_lineRead (a : Word) : Accesses (lineRead a) := by
  have herr : ∀ x, Accesses (do signalAbort x; pure none : M (Option (List Byte))) := fun x =>
    accesses_bind (accesses_signalAbort x) fun _ => accesses_pure _
  intro s
  unfold lineRead
  split
  · exact AccessStep.refl s
  split
  · exact herr true s
  split
  · exact herr _ s
  · exact AccessStep.refl s

theorem accesses_lineWrite (a : Word) (bs : List (Option Byte)) : Accesses (lineWrite a bs) := by
  intro s
  unfold lineWrite
  split
  · exact AccessStep.refl s
  split
  · exact accesses_signalAbort true s
  split
  · exact accesses_signalAbort _ s
  · exact ⟨rfl, fun h => { h with mem := wf_storeStrobed h.mem _ _ }⟩

/-! ### Caches -/

/-- The RAM arrays of a cache are in canonical form. -/
structure CacheWf (c : CacheRam) : Prop where
  tag : sparseWf 0 c.tag = true
  data : sparseWf 0 c.data = true
  tagEcc : sparseWf 0 c.tagEcc = true
  dataEcc : sparseWf 0 c.dataEcc = true

theorem Canonical.dcache {s : State} (h : Canonical s) : CacheWf s.dcache := ⟨h.dTag, h.dData, h.dTagEcc, h.dDataEcc⟩
theorem Canonical.icache {s : State} (h : Canonical s) : CacheWf s.icache := ⟨h.iTag, h.iData, h.iTagEcc, h.iDataEcc⟩

theorem accessStep_dcache {s : State} {c : CacheRam} (hc : CacheWf s.dcache → CacheWf c) :
    AccessStep s { s with dcache := c } :=
  ⟨rfl, fun h => { h with
    dTag := (hc h.dcache).tag, dData := (hc h.dcache).data, dTagEcc := (hc h.dcache).tagEcc,
    dDataEcc := (hc h.dcache).dataEcc }⟩

theorem accessStep_icache {s : State} {c : CacheRam} (hc : CacheWf s.icache → CacheWf c) :
    AccessStep s { s with icache := c } :=
  ⟨rfl, fun h => { h with
    iTag := (hc h.icache).tag, iData := (hc h.icache).data, iTagEcc := (hc h.icache).tagEcc,
    iDataEcc := (hc h.icache).dataEcc }⟩

/-- A write that may be made or not keeps the canonical form. -/
theorem sparseWf_writeIf {w : Nat} {m : List (Nat × BitVec w)} (h : sparseWf 0 m = true) (b : Bool) (k : Nat)
    (v : BitVec w) : sparseWf 0 (if b then sparseWrite m k v else m) = true := by
  cases b
  · exact h
  · exact sparseWf_write_zero h k v

theorem CacheWf.setLineBytes {c : CacheRam} (h : CacheWf c) (ecc : Bool) (line off : Nat) (bs : List Byte) :
    CacheWf (setLineBytes ecc c line off bs) := by
  induction bs generalizing c off with
  | nil => exact h
  | cons b bs ih =>
    unfold Sys2Proof.Machine.setLineBytes
    apply ih
    exact ⟨h.tag, sparseWf_write_zero h.data _ _, h.tagEcc, sparseWf_writeIf h.dataEcc _ _ _⟩

theorem CacheWf.setILineBytes {c : CacheRam} (h : CacheWf c) (ecc : Bool) (line off : Nat) (bs : List Byte) :
    CacheWf (setILineBytes ecc c line off bs) := by
  induction bs generalizing c off with
  | nil => exact h
  | cons b bs ih =>
    unfold Sys2Proof.Machine.setILineBytes
    apply ih
    exact ⟨h.tag, sparseWf_write_zero h.data _ _, h.tagEcc, sparseWf_writeIf h.dataEcc _ _ _⟩

theorem CacheWf.setDTag {c : CacheRam} (h : CacheWf c) (ecc : Bool) (line : Nat) (t : Word) :
    CacheWf (setDTag ecc c line t) :=
  { h with tag := sparseWf_write_zero h.tag _ _, tagEcc := sparseWf_writeIf h.tagEcc _ _ _ }

theorem CacheWf.setITag {c : CacheRam} (h : CacheWf c) (ecc : Bool) (line : Nat) (t : Word) :
    CacheWf (setITag ecc c line t) :=
  { h with tag := sparseWf_write_zero h.tag _ _, tagEcc := sparseWf_writeIf h.tagEcc _ _ _ }

theorem CacheWf.dropDLine {c : CacheRam} (h : CacheWf c) (ecc : Bool) (line : Nat) : CacheWf (dropDLine ecc c line) :=
  h.setDTag ecc line _

theorem CacheWf.dropILine {c : CacheRam} (h : CacheWf c) (ecc : Bool) (line : Nat) : CacheWf (dropILine ecc c line) :=
  h.setITag ecc line _

theorem CacheWf.dropILines {c : CacheRam} (h : CacheWf c) (ecc : Bool) (n : Nat) : CacheWf (dropILines ecc n c) := by
  induction n generalizing c with
  | zero => exact h
  | succ n ih => exact ih (h.dropILine ecc n)

theorem CacheWf.dropAll {c : CacheRam} (h : CacheWf c) (ecc : Bool) : CacheWf (dropAll ecc c) := by
  cases ecc
  · exact { h with tag := sparseWf_map_filter h.tag droppedTag }
  · unfold Sys2Proof.Machine.dropAll
    rw [if_pos rfl]
    exact h.dropILines true 2048

theorem accessStep_draw (s : State) (n : Nat) : AccessStep s { s with free := n } := ⟨rfl, fun h => { h with }⟩

theorem accessStep_signalRamError (fatal : Bool) (s : State) : AccessStep s (signalRamError fatal s) :=
  ⟨rfl, fun h => { h with }⟩

theorem accessStep_recordD (way set word : Nat) (inData fatal : Bool) (s : State) :
    AccessStep s (recordD way set word inData fatal s) := ⟨rfl, fun h => { h with }⟩

theorem accessStep_recordI (way set word : Nat) (s : State) : AccessStep s (recordI way set word s) :=
  ⟨rfl, fun h => { h with }⟩

theorem accessStep_recordScu (way set : Nat) (s : State) : AccessStep s (recordScu way set s) :=
  ⟨rfl, fun h => { h with }⟩

theorem accesses_wordOut (way set j : Nat) : Accesses (wordOut way set j) := by
  intro s
  unfold wordOut
  simp only
  generalize (if eccOn s then dWordCheck s.dcache (lineIndex way set * 8 + j) else .good) = r
  cases r with
  | good => exact AccessStep.refl s
  | corrected w => exact accessStep_ok (accessStep_recordD _ _ _ _ _ s)
  | lost => exact accessStep_ok (accessStep_recordD _ _ _ _ _ s)

theorem accesses_wordsOut (way set n : Nat) : Accesses (wordsOut way set n) := by
  induction n with
  | zero => exact accesses_pure _
  | succ n ih => exact accesses_bind (accesses_wordOut _ _ _) fun _ => accesses_bind ih fun _ => accesses_pure _

theorem accesses_putDTag (way set : Nat) (t : Word) : Accesses (putDTag way set t) :=
  fun s => accessStep_ok (accessStep_dcache (s := s) fun c => c.setDTag _ _ _)

theorem accesses_invalidateLine (way set : Nat) : Accesses (invalidateLine way set) := by
  intro s
  have h : AccessStep s { s with dcache := dropDLine (eccOn s) s.dcache (lineIndex way set) } :=
    accessStep_dcache fun c => c.dropDLine _ _
  exact accessStep_ok (h.trans (accessStep_scuNote way set false _))

theorem accesses_writeOutLine (way set : Nat) : Accesses (writeOutLine way set) := by
  intro s
  unfold writeOutLine
  split
  · exact AccessStep.refl s
  · exact accesses_bind (accesses_wordsOut _ _ _) (fun _ => accesses_bind (accesses_lineWrite _ _) fun _ =>
      accesses_putDTag _ _ _) s

/-! All that a clean and a lookup can do, given the same of the lookups of their write-backs. -/

section
variable {look : Word → M Unit} (hl : ∀ a, Accesses (look a))
include hl

theorem accesses_writeBackLine (way set : Nat) : Accesses (writeBackLine look way set) := by
  refine accesses_get fun s => ?_
  split
  · exact accesses_pure _
  · exact accesses_bind (hl _) fun _ => accesses_writeOutLine _ _

theorem accesses_cleanWith (way set : Nat) : Accesses (cleanWith look way set) := by
  intro s
  unfold cleanWith
  generalize (if eccOn s then dTagCheck s.dcache (lineIndex way set) else .good) = r
  cases r with
  | good => exact accesses_writeBackLine hl _ _ s
  | corrected t =>
    exact (accessStep_recordD _ _ _ _ _ s).trans
      (accesses_bind (accesses_putDTag _ _ _) (fun _ => accesses_writeBackLine hl _ _) _)
  | lost => exact (accessStep_recordD _ _ _ _ _ s).trans (accesses_invalidateLine _ _ _)

theorem accesses_cleanInvalidateWith (way set : Nat) : Accesses (cleanInvalidateWith look way set) :=
  accesses_bind (accesses_cleanWith hl _ _) fun _ => accesses_invalidateLine _ _

theorem accesses_scuErrorIn (a : Word) (w : Nat) : Accesses (scuErrorIn look a w) := by
  intro s
  unfold scuErrorIn
  split
  · have h1 (set : Nat) (own : Bool) : AccessStep s (signalRamError false { s with
        scu := setScuTag s.cfg.ecc (w * 512 + set) 0 (scuRecord (scuEntry w set own) s.scu) }) :=
      (accessStep_scu fun h => (h.scuRecord _).setScuTag _ _ _).trans (accessStep_signalRamError _ _)
    simp only
    split
    · exact ((h1 _ _).trans (accessStep_recordScu _ _ _)).trans (accesses_cleanInvalidateWith hl _ _ _)
    · exact accessStep_ok (h1 _ _)
  · exact AccessStep.refl s

theorem accesses_scuErrorsIn (a : Word) (ws : List Nat) : Accesses (scuErrorsIn look a ws) := by
  induction ws with
  | nil => exact accesses_pure _
  | cons w ws ih => exact accesses_bind (accesses_scuErrorIn hl _ _) fun _ => ih

end

theorem accesses_scuLookup (n : Nat) (a : Word) : Accesses (scuLookup n a) := by
  induction n generalizing a with
  | zero => exact accesses_pure _
  | succ n ih =>
    intro s
    unfold scuLookup
    split
    · exact accesses_scuErrorsIn ih _ _ s
    · exact AccessStep.refl s

theorem accesses_scuCheck (a : Word) : Accesses (scuCheck a) := accesses_scuLookup _ a

theorem accesses_cleanLine (way set : Nat) : Accesses (cleanLine way set) := accesses_cleanWith accesses_scuCheck _ _

theorem accesses_cleanInvalidateLine (way set : Nat) : Accesses (cleanInvalidateLine way set) :=
  accesses_cleanInvalidateWith accesses_scuCheck _ _

/-- A lookup that finds no error changes nothing, whatever its depth. -/
theorem scuLookup_quiet {s : State} {a : Word} (h : scuFinds s a = false) (n : Nat) : scuLookup n a s = .ok () s := by
  cases n with
  | zero => rfl
  | succ n =>
    unfold scuLookup
    rw [if_neg (by simp [h])]

/-- A transfer whose lookup finds no error goes on with nothing changed. -/
theorem scuCheck_quiet {s : State} {a : Word} (h : scuFinds s a = false) : scuCheck a s = .ok () s :=
  scuLookup_quiet h 5

/-- With the checking of the duplicate tag RAM off no lookup finds an error. -/
theorem scuFinds_off {s : State} (h : scuEccOn s = false) (a : Word) : scuFinds s a = false := by
  simp [scuFinds, h]

/-- What a lookup finds depends on the build and the SCU alone. -/
theorem scuFinds_congr {s t : State} (hc : t.cfg = s.cfg) (hu : t.scu = s.scu) (a : Word) : scuFinds t a = scuFinds s a := by
  unfold scuFinds scuFindsIn scuEccOn scuTagBad
  rw [hc, hu]

theorem accesses_tagErrorIn (set way : Nat) : Accesses (tagErrorIn set way) := by
  intro s
  unfold tagErrorIn
  split
  · exact accesses_cleanInvalidateLine _ _ s
  · exact AccessStep.refl s

theorem accesses_dataErrorAt (a : Word) : Accesses (dataErrorAt a) := by
  intro s
  unfold dataErrorAt
  simp only
  split
  · exact AccessStep.refl s
  split
  · exact AccessStep.refl s
  split
  · exact accesses_cleanInvalidateLine _ _ s
  · exact (accessStep_recordD _ _ _ _ _ s).trans (accesses_invalidateLine _ _ _)

theorem accesses_dcacheCheck (a : Word) : Accesses (dcacheCheck a) := by
  intro s
  unfold dcacheCheck
  split
  · exact accesses_bind (accesses_tagErrorIn _ _) (fun _ => accesses_bind (accesses_tagErrorIn _ _) fun _ =>
      accesses_bind (accesses_tagErrorIn _ _) fun _ => accesses_tagErrorIn _ _) s
  · exact AccessStep.refl s

theorem accesses_dcacheDataCheck (a : Word) (n : Nat) : Accesses (dcacheDataCheck a n) := by
  intro s
  unfold dcacheDataCheck
  split
  · exact accesses_bind (accesses_dataErrorAt a)
      (fun _ => accesses_ite (accesses_dataErrorAt _) (accesses_pure _)) s
  · exact AccessStep.refl s

theorem accesses_installLine (way : Nat) (a : Word) (attr : Attr) (bs : List Byte) :
    Accesses (installLine way a attr bs) := by
  intro s
  have h : AccessStep s { s with
      free := s.free + 1
      dcache := setLineBytes (eccOn s) (setDTag (eccOn s) s.dcache
        (lineIndex way (setOf (setBits s.cfg.dcache) a)) (newTag (setBits s.cfg.dcache) a attr))
        (lineIndex way (setOf (setBits s.cfg.dcache) a)) 0 bs } :=
    (accessStep_draw s (s.free + 1)).trans
      (accessStep_dcache (s := { s with free := s.free + 1 }) fun c => (c.setDTag _ _ _).setLineBytes _ _ _ _)
  exact accessStep_ok (h.trans (accessStep_scuNote way _ true _))

/-- All the search for a line and its linefill can do. -/
theorem accesses_dcacheFill (a : Word) (n : Nat) (attr : Attr) : Accesses (dcacheFill a n attr) := by
  refine accesses_bind (accesses_dcacheCheck a) fun _ => accesses_bind (accesses_dcacheDataCheck a n) fun _ =>
    accesses_get fun s => ?_
  simp only
  split
  · exact accesses_pure _
  · refine accesses_bind (accesses_scuCheck _) fun _ => accesses_get fun t => ?_
    split
    · exact accesses_pure _
    · refine accesses_bind (accesses_cleanInvalidateLine _ _) fun _ => accesses_get fun u => ?_
      refine accesses_ite (accesses_bind (accesses_lineRead _) fun r => ?_) (accesses_pure _)
      split
      · exact accesses_pure _
      · exact accesses_bind (accesses_installLine _ _ _ _) fun _ => accesses_pure _

theorem accesses_dcacheRead (a : Word) (n : Nat) (attr : Attr) : Accesses (dcacheRead a n attr) := by
  refine accesses_bind (accesses_dcacheFill a n attr) fun r => ?_
  cases r with
  | inWay way => exact accesses_get fun _ => accesses_pure _
  | bypass => exact accesses_busRead _ _ _ _
  | failed => exact accesses_freeBytes _

theorem accesses_dcacheWrite (a : Word) (bs : List Byte) (attr : Attr) : Accesses (dcacheWrite a bs attr) := by
  refine accesses_bind (accesses_dcacheFill a bs.length attr) fun r => ?_
  cases r with
  | inWay way => exact accesses_modify fun s => accessStep_dcache fun c => (c.setLineBytes _ _ _ _).setDTag _ _ _
  | bypass => exact accesses_busWrite _ _ _ _
  | failed => exact accesses_pure _

theorem accesses_transferCheck (a : Word) (form : AccessForm) : Accesses (transferCheck a form) := by
  intro s
  unfold transferCheck
  split
  · exact AccessStep.refl s
  · exact accesses_scuCheck _ s

/-- An access whose lookup finds no error goes on with nothing changed. -/
theorem transferCheck_quiet {s : State} {a : Word} (h : scuFinds s a = false) (form : AccessForm) :
    transferCheck a form s = .ok () s := by
  unfold transferCheck
  split
  · rfl
  · exact scuCheck_quiet h

/-- A doubleword or multiple access in the peripheral-port range is not looked up (U28). -/
theorem transferCheck_multiple {s : State} {a : Word} (h : inPeripheral s.cfg a = true) :
    transferCheck a .multiple s = .ok () s := by
  unfold transferCheck
  rw [if_pos (by simp [h])]

theorem accesses_transferRead (a : Word) (n : Nat) (attr : Attr) (form : AccessForm) :
    Accesses (transferRead a n attr form) :=
  accesses_bind (accesses_transferCheck _ _) fun _ => accesses_busRead _ _ _ _

theorem accesses_transferWrite (a : Word) (bs : List Byte) (attr : Attr) (form : AccessForm) :
    Accesses (transferWrite a bs attr form) :=
  accesses_bind (accesses_transferCheck _ _) fun _ => accesses_busWrite _ _ _ _

/-- A read whose lookup finds no error is the read over the bus. -/
theorem transferRead_quiet {s : State} {a : Word} (h : scuFinds s a = false) (n : Nat) (attr : Attr) (form : AccessForm) :
    transferRead a n attr form s = busRead a n attr form s := bind_ok (transferCheck_quiet h form)

/-- A write whose lookup finds no error is the write over the bus. -/
theorem transferWrite_quiet {s : State} {a : Word} (h : scuFinds s a = false) (bs : List Byte) (attr : Attr)
    (form : AccessForm) : transferWrite a bs attr form s = busWrite a bs attr form s :=
  bind_ok (transferCheck_quiet h form)

/-- A write over the bus that the platform answers with an error: the abort is signalled, nothing is written. -/
theorem busWrite_of_busError {s : State} {a : Word} {bs : List Byte} {form : AccessForm} {x : Bool}
    (he : busError s form a bs.length = some x) (hp : inPeripheral s.cfg a = false) (hw : inWindow s.cfg a = false) (attr : Attr) :
    busWrite a bs attr form s = signalAbort x s := by
  have hv : inPrivate s.cfg a = false := by
    unfold inPrivate; unfold inPeripheral at hp; rw [hp, Bool.and_false]
  unfold busWrite
  simp only [hv, hp, hw, he, Bool.false_and, Bool.false_eq_true, if_false]

/-- A store of memory that no TCM and no cache serves, answered with an error, is lost. -/
theorem storeLost_of_busError {s : State} {acc : Access} {a : Word} {attr : Attr} {bs : List Byte} {x : Bool}
    (he : busError s acc.form a bs.length = some x) (hp : inPeripheral s.cfg a = false) (hw : inWindow s.cfg a = false)
    (hi : inItcm s a = false) (hd : inDtcm s a = false) (hc : cacheable s attr = false) (hf : scuFinds s a = false) :
    storeLost acc a attr bs s = true := by
  have ht : throughCache s a attr acc.form = false := by unfold throughCache; rw [hc, Bool.and_false, Bool.false_and]
  have hb : busWrite a bs attr acc.form { s with pendingAbort := none } = signalAbort x { s with pendingAbort := none } :=
    busWrite_of_busError (s := { s with pendingAbort := none }) he hp hw attr
  unfold storeLost
  simp only [hi, hd, ht, Bool.or_self, Bool.false_eq_true, if_false, transferCheck_quiet hf, busRejects, hb]
  rfl

theorem accesses_icacheErrorIn (set way : Nat) : Accesses (icacheErrorIn set way) := by
  intro s
  unfold icacheErrorIn
  simp only
  split
  · exact (accessStep_recordI _ _ _ s).trans (accessStep_icache fun c => c.dropILine _ _)
  · exact AccessStep.refl s

theorem accesses_icacheDataErrorAt (a : Word) : Accesses (icacheDataErrorAt a) := by
  intro s
  unfold icacheDataErrorAt
  simp only
  split
  · exact AccessStep.refl s
  split
  · exact AccessStep.refl s
  · exact (accessStep_recordI _ _ _ s).trans (accessStep_icache fun c => c.dropILine _ _)

theorem accesses_icacheCheck (a : Word) : Accesses (icacheCheck a) := by
  intro s
  unfold icacheCheck
  split
  · exact accesses_bind (accesses_icacheErrorIn _ _) (fun _ => accesses_bind (accesses_icacheErrorIn _ _) fun _ =>
      accesses_bind (accesses_icacheErrorIn _ _) fun _ => accesses_bind (accesses_icacheErrorIn _ _) fun _ =>
      accesses_icacheDataErrorAt _) s
  · exact AccessStep.refl s

theorem accessStep_installILine (way : Nat) (a : Word) (bs : List Byte) (s : State) :
    AccessStep s (installILine way a bs s) :=
  (accessStep_draw s (s.free + 1)).trans
    (accessStep_icache (s := { s with free := s.free + 1 }) fun c => (c.setITag _ _ _).setILineBytes _ _ _ _)

/-! ### Maintenance -/

theorem accesses_invalidateICache : Accesses invalidateICache :=
  accesses_modify fun s => (accessStep_icache (s := s) fun c => c.dropAll (eccOn s)).trans ⟨rfl, fun h => { h with }⟩

theorem accesses_dropLineAt (a : Word) : Accesses (dropLineAt a) := by
  refine accesses_bind (accesses_icacheCheck a) fun _ => accesses_modify fun s => ?_
  split
  · exact accessStep_icache fun c => c.dropILine _ _
  · exact AccessStep.refl s

theorem accesses_invalidateICacheAt (a : Word) : Accesses (invalidateICacheAt a) :=
  accesses_get fun _ => accesses_ite (accesses_pure _) (accesses_dropLineAt a)

theorem accesses_maintained : Accesses (modify State.maintained) := accesses_modify fun _ => ⟨rfl, fun h => { h with }⟩

theorem accesses_noteInvalidated (way set : Nat) : Accesses (noteInvalidated way set) :=
  accesses_modify fun _ => ⟨rfl, fun h => { h with }⟩

theorem accesses_noteCleaned (way set : Nat) : Accesses (noteCleaned way set) :=
  accesses_modify fun _ => ⟨rfl, fun h => { h with }⟩

theorem accessStep_mapUnsynced (s : State) (f : Unsynced → Unsynced) : AccessStep s (s.mapUnsynced f) :=
  ⟨rfl, fun h => { h with }⟩

theorem accesses_noteCleanedAt (a : Word) : Accesses (noteCleanedAt a) :=
  accesses_modify fun s => accessStep_mapUnsynced s _

theorem accesses_noteDroppedAt (a : Word) : Accesses (noteDroppedAt a) :=
  accesses_modify fun s => accessStep_mapUnsynced s _

theorem accesses_noteForgottenAt (a : Word) : Accesses (noteForgottenAt a) :=
  accesses_modify fun s => accessStep_mapUnsynced s _

theorem accesses_noteForgotten : Accesses noteForgotten :=
  accesses_modify fun s => accessStep_mapUnsynced s _

theorem accesses_noteDropped : Accesses noteDropped :=
  accesses_modify fun s => accessStep_mapUnsynced s _

theorem accessStep_completeAccesses (s : State) : AccessStep s (completeAccesses s) := ⟨rfl, fun h => { h with }⟩

theorem accessStep_synchronise (s : State) : AccessStep s (synchronise s) := ⟨rfl, fun h => { h with }⟩

theorem accesses_atHeldLine (a : Word) {f : Nat → Nat → M Unit} (hf : ∀ way set, Accesses (f way set)) :
    Accesses (atHeldLine a f) := by
  refine accesses_bind (accesses_dcacheCheck a) fun _ => accesses_get fun s => ?_
  simp only
  split
  · exact hf _ _
  · exact accesses_pure _

theorem accesses_atLine (a : Word) {f : Nat → Nat → M Unit} (hf : ∀ way set, Accesses (f way set)) :
    Accesses (atLine a f) :=
  accesses_get fun _ => accesses_ite (accesses_pure _) (accesses_atHeldLine a hf)

theorem accesses_bySetWay (v : Word) {f : Nat → Nat → M Unit} (hf : ∀ way set, Accesses (f way set)) :
    Accesses (bySetWay v f) :=
  accesses_get fun _ => accesses_bind (accesses_refuseIf _ _) fun _ => accesses_ite (accesses_pure _) (hf _ _)

/-! ### Tightly-coupled memories -/

/-- A tightly-coupled memory is in canonical form. -/
structure TcmWf (t : Tcm) : Prop where
  bytes : Memory.wf t.bytes = true
  ecc : sparseWf 0 t.ecc = true

theorem Canonical.itcmWf {s : State} (h : Canonical s) : TcmWf s.itcm := ⟨h.itcmBytes, h.itcmEcc⟩
theorem Canonical.dtcmWf {s : State} (h : Canonical s) : TcmWf s.dtcm := ⟨h.dtcmBytes, h.dtcmEcc⟩

theorem TcmWf.store {t : Tcm} (h : TcmWf t) (off : Nat) (bs : List Byte) :
    TcmWf { t with bytes := storeBytes t.bytes off bs } := ⟨wf_storeBytes h.bytes _ _, h.ecc⟩

theorem TcmWf.encodeDtcm {t : Tcm} (h : TcmWf t) (word : Nat) : TcmWf (encodeDtcm t word) :=
  ⟨h.bytes, sparseWf_write_zero h.ecc _ _⟩

theorem TcmWf.encodeItcm {t : Tcm} (h : TcmWf t) (chunk : Nat) : TcmWf (encodeItcm t chunk) :=
  ⟨h.bytes, sparseWf_write_zero h.ecc _ _⟩

theorem accessStep_itcm {s : State} {t : Tcm} (ht : TcmWf s.itcm → TcmWf t) : AccessStep s { s with itcm := t } :=
  ⟨rfl, fun h => { h with itcmBytes := (ht h.itcmWf).bytes, itcmEcc := (ht h.itcmWf).ecc }⟩

theorem accessStep_dtcm {s : State} {t : Tcm} (ht : TcmWf s.dtcm → TcmWf t) : AccessStep s { s with dtcm := t } :=
  ⟨rfl, fun h => { h with dtcmBytes := (ht h.dtcmWf).bytes, dtcmEcc := (ht h.dtcmWf).ecc }⟩

theorem accessStep_recordDtcm (off : Nat) (fatal : Bool) (s : State) : AccessStep s (recordDtcm off fatal s) :=
  ⟨rfl, fun h => { h with }⟩

theorem accessStep_recordItcm (off : Nat) (fatal : Bool) (s : State) : AccessStep s (recordItcm off fatal s) :=
  ⟨rfl, fun h => { h with }⟩

theorem accesses_dtcmCheck (word : Nat) : Accesses (dtcmCheck word) := by
  intro s
  unfold dtcmCheck
  split
  · generalize eccCheck Config.eccCode32 _ _ = r
    cases r with
    | good => exact AccessStep.refl s
    | corrected w =>
      exact (accessStep_recordDtcm _ _ s).trans (accessStep_dtcm fun h => (h.store _ _).encodeDtcm _)
    | lost => exact accessStep_ok (accessStep_recordDtcm _ _ s)
  · exact AccessStep.refl s

theorem accesses_itcmCheck (chunk : Nat) : Accesses (itcmCheck chunk) := by
  intro s
  unfold itcmCheck
  split
  · generalize eccCheck Config.eccCode64 _ _ = r
    cases r with
    | good => exact AccessStep.refl s
    | corrected d =>
      exact (accessStep_recordItcm _ _ s).trans (accessStep_itcm fun h => (h.store _ _).encodeItcm _)
    | lost => exact accessStep_ok (accessStep_recordItcm _ _ s)
  · exact AccessStep.refl s

theorem accesses_itcmRead (off n : Nat) : Accesses (itcmRead off n) :=
  accesses_bind (accesses_itcmCheck _) fun _ => accesses_get fun _ => accesses_pure _

theorem accesses_dtcmRead (off n : Nat) : Accesses (dtcmRead off n) := by
  have h : Accesses (do let s ← get; pure (memBytes s.dtcm.bytes off n) : M (List Byte)) :=
    accesses_get fun _ => accesses_pure _
  exact accesses_bind (accesses_dtcmCheck _) fun _ =>
    accesses_ite (accesses_bind (accesses_dtcmCheck _) fun _ => h) h

theorem accesses_itcmWrite (off : Nat) (bs : List Byte) : Accesses (itcmWrite off bs) := by
  have hw : Accesses (modify fun s =>
      let t := { s.itcm with bytes := storeBytes s.itcm.bytes off bs }
      { s with itcm := if s.cfg.ecc then encodeItcm t (off / 8) else t } : M PUnit) :=
    accesses_modify fun s => accessStep_itcm fun h => by
      split
      · exact (h.store _ _).encodeItcm _
      · exact h.store _ _
  exact accesses_ite (accesses_bind (accesses_itcmCheck _) fun _ => hw) hw

theorem accesses_dtcmWrite (off : Nat) (bs : List Byte) : Accesses (dtcmWrite off bs) := by
  have hw : Accesses (modify fun s =>
      let t := { s.dtcm with bytes := storeBytes s.dtcm.bytes off bs }
      { s with dtcm :=
        if s.cfg.ecc then (if bs.length = 8 then encodeDtcm (encodeDtcm t (off / 4)) (off / 4 + 1) else encodeDtcm t (off / 4))
        else t } : M PUnit) :=
    accesses_modify fun s => accessStep_dtcm fun h => by
      split
      · split
        · exact ((h.store _ _).encodeDtcm _).encodeDtcm _
        · exact (h.store _ _).encodeDtcm _
      · exact h.store _ _
  exact accesses_ite (accesses_bind (accesses_dtcmCheck _) fun _ => hw) hw

/-! ### Routing and checked accesses -/

theorem accesses_itcmReadAt (a : Word) (n : Nat) : Accesses (itcmReadAt a n) := by
  intro s
  unfold itcmReadAt
  split
  · exact accesses_itcmRead _ _ s
  · exact AccessStep.refl s

theorem accesses_dtcmReadAt (a : Word) (n : Nat) : Accesses (dtcmReadAt a n) := by
  intro s
  unfold dtcmReadAt
  split
  · exact accesses_dtcmRead _ _ s
  · exact AccessStep.refl s

theorem accesses_itcmWriteAt (a : Word) (bs : List Byte) : Accesses (itcmWriteAt a bs) := by
  intro s
  unfold itcmWriteAt
  split
  · exact accesses_itcmWrite _ _ s
  · exact AccessStep.refl s

theorem accesses_dtcmWriteAt (a : Word) (bs : List Byte) : Accesses (dtcmWriteAt a bs) := by
  intro s
  unfold dtcmWriteAt
  split
  · exact accesses_dtcmWrite _ _ s
  · exact AccessStep.refl s

theorem accesses_accessed : Accesses (modify State.accessed) := accesses_modify fun _ => ⟨rfl, fun h => { h with }⟩

/-- An access that the data cache does not serve by its attributes does not go through it. -/
theorem throughCache_of_uncached {s : State} {attr : Attr} (a : Word) (form : AccessForm)
    (h : (dcacheOn s && cacheable s attr) = false) : throughCache s a attr form = false := by
  simp [throughCache, h]

/-- A doubleword or multiple access in the peripheral-port range never goes through the data cache (U28). -/
theorem throughCache_multiple {s : State} {a : Word} (attr : Attr) (h : inPeripheral s.cfg a = true) :
    throughCache s a attr .multiple = false := by
  simp [throughCache, h]

theorem accesses_readRouted (a : Word) (n : Nat) (attr : Attr) (form : AccessForm) :
    Accesses (readRouted a n attr form) := by
  intro s
  unfold readRouted
  split
  · exact AccessStep.refl s
  split
  · exact accesses_itcmReadAt _ _ s
  split
  · exact accesses_dtcmReadAt _ _ s
  split
  · exact accesses_dcacheRead _ _ _ s
  · exact accesses_transferRead _ _ _ _ s

theorem accesses_readPart (a : Word) (n : Nat) (attr : Attr) (form : AccessForm) : Accesses (readPart a n attr form) :=
  accesses_bind accesses_accessed fun _ => accesses_readRouted _ _ _ _

theorem accesses_writeRouted (a : Word) (bs : List Byte) (attr : Attr) (form : AccessForm) :
    Accesses (writeRouted a bs attr form) := by
  intro s
  unfold writeRouted
  split
  · exact AccessStep.refl s
  split
  · exact accesses_itcmWriteAt _ _ s
  split
  · exact accesses_dtcmWriteAt _ _ s
  split
  · exact accesses_dcacheWrite _ _ _ s
  · exact accesses_transferWrite _ _ _ _ s

theorem accesses_markWord (s : State) (attr : Attr) (k : Nat) : Accesses (markWord s attr k) :=
  accesses_modify fun t => by
    cases h : codePlace t (BitVec.ofNat 32 (4 * k)) <;> simp only [h]
    · exact AccessStep.refl t
    · exact ⟨rfl, fun h => { h with }⟩

theorem accesses_writePart (a : Word) (bs : List Byte) (attr : Attr) (form : AccessForm) :
    Accesses (writePart a bs attr form) :=
  accesses_get fun _ => accesses_bind accesses_accessed fun _ => accesses_bind (accesses_writeRouted _ _ _ _) fun _ =>
    accesses_ite (accesses_pure _) (accesses_bind (accesses_markWord _ _ _) fun _ =>
      accesses_ite (accesses_markWord _ _ _) (accesses_pure _))

theorem accesses_readBytewise (privileged : Bool) (a : Word) (n : Nat) : Accesses (readBytewise privileged a n) := by
  induction n generalizing a with
  | zero => exact accesses_pure _
  | succ n ih =>
    exact accesses_get fun _ => accesses_bind (accesses_readPart _ _ _ _) fun _ => accesses_bind (ih _) fun _ =>
      accesses_pure _

theorem accesses_writeBytewise (privileged : Bool) (a : Word) (bs : List Byte) :
    Accesses (writeBytewise privileged a bs) := by
  induction bs generalizing a with
  | nil => exact accesses_pure _
  | cons b bs ih => exact accesses_get fun _ => accesses_bind (accesses_writePart _ _ _ _) fun _ => ih _

theorem accesses_readAdmitted (acc : Access) (a : Word) (attr : Attr) : Accesses (readAdmitted acc a attr) :=
  accesses_ite (accesses_readPart _ _ _ _) (accesses_readBytewise _ _ _)

theorem accesses_writeAdmitted (acc : Access) (a : Word) (attr : Attr) (bs : List Byte) :
    Accesses (writeAdmitted acc a attr bs) :=
  accesses_ite (accesses_writePart _ _ _ _) (accesses_writeBytewise _ _ _)

theorem accesses_readBytes (acc : Access) (a : Word) : Accesses (readBytes acc a) := by
  intro s
  unfold readBytes
  split
  · exact AccessStep.refl s
  · exact accesses_readAdmitted _ _ _ s

theorem accesses_writeBytes (acc : Access) (a : Word) (bs : List Byte) : Accesses (writeBytes acc a bs) := by
  intro s
  unfold writeBytes
  split
  · exact AccessStep.refl s
  · exact accesses_writeAdmitted _ _ _ _ s

/-- All a load can do. -/
theorem accesses_loadValue (acc : Access) (a : Word) : Accesses (loadValue acc a) :=
  accesses_get fun _ => accesses_bind (accesses_readBytes _ _) fun _ => accesses_pure _

/-- All a store can do. -/
theorem accesses_storeValue (acc : Access) (a v : Word) : Accesses (storeValue acc a v) :=
  accesses_get fun _ => accesses_writeBytes _ _ _

/-- All a store of two words can do. -/
theorem accesses_storeTwo (acc : Access) (a v1 v2 : Word) : Accesses (storeTwo acc a v1 v2) := by
  intro s
  unfold storeTwo
  split
  · exact AccessStep.refl s
  split
  · exact AccessStep.refl s
  split
  · exact accesses_writePart _ _ _ _ s
  · exact accesses_bind (accesses_writeAdmitted _ _ _ _) (fun _ => accesses_writeAdmitted _ _ _ _) s

theorem accesses_fetchTransfer (a : Word) (n : Nat) : Accesses (fetchTransfer a n) :=
  accesses_bind (accesses_scuCheck _) fun _ => accesses_get fun _ => accesses_pure _

/-- A fetch whose lookup finds no error is the fetch over the bus. -/
theorem fetchTransfer_quiet {s : State} {a : Word} (h : scuFinds s a = false) (n : Nat) :
    fetchTransfer a n s = .ok (fetchBus a n s) s := bind_ok (scuCheck_quiet h)

theorem accesses_fetchCached (a : Word) : Accesses (fetchCached a) := by
  refine accesses_bind (accesses_icacheCheck a) fun _ => accesses_get fun s => ?_
  simp only
  split
  · exact accesses_pure _
  · refine accesses_bind (accesses_fetchTransfer _ _) fun r => ?_
    cases r with
    | error f => exact accesses_pure _
    | ok bs =>
      refine accesses_get_here fun t => ?_
      cases victimWay t t.icache (iUsable t (setOf (setBits s.cfg.icache) a)) (setOf (setBits s.cfg.icache) a) with
      | some way => exact accessStep_ok (accessStep_installILine way a bs t)
      | none => exact AccessStep.refl t

theorem accesses_fetchServed (a : Word) : Accesses (fetchServed a) := by
  intro s
  unfold fetchServed
  split
  · exact AccessStep.refl s
  · exact AccessStep.refl s
  · split
    · exact AccessStep.refl s
    split
    · exact accesses_bind (accesses_itcmReadAt _ _) (fun _ => accesses_pure _) s
    split
    · exact accesses_bind (accesses_fetchCached _) (fun _ => accesses_pure _) s
    · exact accesses_bind (accesses_fetchTransfer _ _) (fun _ => accesses_pure _) s

/-- All a fetch can do. -/
theorem accesses_fetchWord (a : Word) : Accesses (fetchWord a) := by
  refine accesses_bind (accesses_fetchServed a) fun r => accesses_get fun s => ?_
  split
  · exact accesses_bind (fun t => accessStep_ok (accessStep_draw t _)) fun _ => accesses_pure _
  · exact accesses_pure _

/-! ### The engines -/

theorem accessStep_quietly {α : Type} {m : M α} (h : Accesses m) (s : State) : AccessStep s (quietly m s) := by
  have hs := h s
  unfold quietly
  cases e : m s with
  | ok a t => rw [e] at hs; exact hs
  | error x t => exact AccessStep.refl s

theorem accessStep_times {f : State → State} (hf : ∀ s, AccessStep s (f s)) (n : Nat) (s : State) :
    AccessStep s (times f n s) := by
  induction n generalizing s with
  | zero => exact AccessStep.refl s
  | succ n ih => exact (hf s).trans (ih _)

theorem accessStep_prefetchData (s : State) : AccessStep s (prefetchData s) := by
  unfold prefetchData
  simp only
  split
  · split
    · exact (accessStep_draw s _).trans (accessStep_quietly (accesses_dcacheFill _ _ _) _)
    · exact accessStep_draw s _
  · exact accessStep_draw s _

theorem accessStep_evictData (s : State) : AccessStep s (evictData s) :=
  (accessStep_draw s _).trans (accessStep_quietly (accesses_cleanInvalidateLine _ _) _)

theorem accessStep_prefetchInstruction (s : State) : AccessStep s (prefetchInstruction s) := by
  unfold prefetchInstruction
  simp only
  split
  · split
    · exact (accessStep_draw s _).trans (accessStep_quietly (accesses_fetchCached _) _)
    · exact accessStep_draw s _
  · exact accessStep_draw s _

theorem accessStep_evictInstruction (s : State) : AccessStep s (evictInstruction s) :=
  (accessStep_draw s _).trans (accessStep_icache (s := { s with free := s.free + 2 }) fun c => c.dropILine _ _)

/-- All the engines can do. -/
theorem accessStep_engineStage (s : State) : AccessStep s (engineStage s) := by
  have hd : AccessStep s (if dcacheOn s then times dataEngine (Config.freeTimes s.free) { s with free := s.free + 1 }
      else s) := by
    split
    · exact (accessStep_draw s _).trans (accessStep_times
        (fun s => (accessStep_prefetchData s).trans (accessStep_evictData _)) _ _)
    · exact AccessStep.refl s
  unfold engineStage
  split
  · exact AccessStep.refl s
  · simp only
    generalize (if dcacheOn s then times dataEngine (Config.freeTimes s.free) { s with free := s.free + 1 } else s) = u
      at hd ⊢
    split
    · exact (hd.trans (accessStep_draw u _)).trans (accessStep_times
        (fun s => (accessStep_prefetchInstruction s).trans (accessStep_evictInstruction _)) _ _)
    · exact hd

end Sys2Proof.Machine
end

