-- ==== Sys2Proof/Laws/Keeps.lean ====
section
/-! SUPPORT. Properties that a body keeps however it ends, and the shared operations that keep the invariant. -/

namespace Sys2Proof.Machine

/-- A body keeps a property of the state, however it ends. -/
def Keeps {α : Type} (P : State → Prop) (m : M α) : Prop := ∀ s, P s → P (after (m s))

/-! ### Building blocks -/

theorem keeps_pure {α : Type} {P : State → Prop} (a : α) : Keeps P (pure a : M α) := fun _ h => h

theorem keeps_throw {α : Type} {P : State → Prop} (e : Stop) : Keeps P (throw e : M α) := fun _ h => h

theorem keeps_refuse {α : Type} {P : State → Prop} (r : Refusal) : Keeps P (refuse r : M α) := fun _ h => h

theorem keeps_undefined {α : Type} {P : State → Prop} : Keeps P (undefined : M α) := fun _ h => h

theorem keeps_bind {α β : Type} {P : State → Prop} {x : M α} {f : α → M β} (hx : Keeps P x) (hf : ∀ a, Keeps P (f a)) :
    Keeps P (x >>= f) := by
  intro s h
  have hs := hx s h
  rw [bind_apply]
  cases e : x s with
  | ok a t => rw [e] at hs; exact hf a t hs
  | error r t => rw [e] at hs; exact hs

theorem keeps_get {α : Type} {P : State → Prop} {f : State → M α} (hf : ∀ s, Keeps P (f s)) : Keeps P (get >>= f) :=
  fun s => hf s s

theorem keeps_ite {α : Type} {P : State → Prop} {p : Prop} [Decidable p] {x y : M α} (hx : Keeps P x) (hy : Keeps P y) :
    Keeps P (if p then x else y) := by
  split <;> assumption

theorem keeps_modify {P : State → Prop} {f : State → State} (hf : ∀ s, P s → P (f s)) :
    Keeps P (modify f : M PUnit) := hf

theorem keeps_refuseIf {P : State → Prop} (b : Bool) (r : Refusal) : Keeps P (refuseIf b r) := by
  cases b
  · exact keeps_pure ()
  · exact keeps_refuse r

theorem keeps_undefinedIf {P : State → Prop} (b : Bool) : Keeps P (undefinedIf b) := by
  cases b
  · exact keeps_pure ()
  · exact keeps_undefined

theorem keeps_notPc {P : State → Prop} (r : Reg) : Keeps P (notPc r) := keeps_refuseIf _ _

theorem keeps_readReg {P : State → Prop} (r : Reg) : Keeps P (readReg r) := fun _ h => h

/-- Whatever only accesses memory keeps the invariant. -/
theorem Accesses.keeps_inv {α : Type} {m : M α} (h : Accesses m) : Keeps Inv m := fun s i => (h s).inv i

/-! ### Updates that keep the invariant -/

theorem inv_setReg {s : State} (h : Inv s) (r : Reg) (v : Word) : Inv (s.setReg r v) := by
  unfold State.setReg State.setRegIn
  split
  · exact h
  · exact ⟨{ h.canonical with }, h.legalMode, h.pcAligned, h.cpsrReserved, h.sctlrFixed, h.regionInRange,
      h.fpscrReserved, h.fpexcReserved⟩

theorem inv_setRegIn {s : State} (h : Inv s) (m : Mode) (r : Reg) (v : Word) : Inv (s.setRegIn m r v) := by
  unfold State.setRegIn
  split
  · exact h
  · exact ⟨{ h.canonical with }, h.legalMode, h.pcAligned, h.cpsrReserved, h.sctlrFixed, h.regionInRange,
      h.fpscrReserved, h.fpexcReserved⟩

theorem inv_setSpsr {s : State} (h : Inv s) (m : Mode) (v : Word) : Inv (s.setSpsr m v) := by
  unfold State.setSpsr
  split
  · exact ⟨{ h.canonical with }, h.legalMode, h.pcAligned, h.cpsrReserved, h.sctlrFixed, h.regionInRange,
      h.fpscrReserved, h.fpexcReserved⟩
  · exact h

theorem inv_setPc {s : State} (h : Inv s) {v : Word} (hv : v &&& 3 = 0) : Inv (s.setPc v) :=
  ⟨{ h.canonical with }, h.legalMode, hv, h.cpsrReserved, h.sctlrFixed, h.regionInRange, h.fpscrReserved,
    h.fpexcReserved⟩

theorem inv_setPipeAdv {s : State} (h : Inv s) : Inv (setPipeAdv s) :=
  ⟨{ h.canonical with }, h.legalMode, h.pcAligned, h.cpsrReserved, h.sctlrFixed, h.regionInRange, h.fpscrReserved,
    h.fpexcReserved⟩

/-- A CPSR with a legal mode and zero reserved bits. -/
structure PsrOk (psr : Word) : Prop where
  legalMode : (Mode.ofBits (modeField psr)).isSome = true
  reserved : psr &&& 0x01F00000 = 0

theorem Inv.psr {s : State} (h : Inv s) : PsrOk s.cpsr := ⟨h.legalMode, h.cpsrReserved⟩

theorem inv_setCpsr {s : State} (h : Inv s) {psr : Word} (hp : PsrOk psr) : Inv { s with cpsr := psr } :=
  ⟨{ h.canonical with }, hp.legalMode, h.pcAligned, hp.reserved, h.sctlrFixed, h.regionInRange, h.fpscrReserved,
    h.fpexcReserved⟩

theorem and_eq_zero_bit {a b : Word} (h : a &&& b = 0) {i : Nat} (hb : b.getLsbD i = true) : a.getLsbD i = false := by
  have := congrArg (fun w => w.getLsbD i) h
  simpa [hb] using this

/-- Writing the flags changes no bit below 28. -/
theorem withFlags_and (psr m : Word) (n z c v : Bool) (hm : ∀ i, 28 ≤ i → m.getLsbD i = false) :
    withFlags psr n z c v &&& m = psr &&& m := by
  apply BitVec.eq_of_getLsbD_eq
  intro i _
  rw [BitVec.getLsbD_and, BitVec.getLsbD_and]
  by_cases h : i < 28
  · rw [withFlags_bit _ _ _ _ _ _ h]
  · rw [hm i (by omega), Bool.and_false, Bool.and_false]

theorem inv_setFlags {s : State} (h : Inv s) (n z c v : Bool) : Inv (s.setFlags n z c v) := by
  refine inv_setCpsr h ⟨?_, ?_⟩
  · rw [modeField_withFlags]; exact h.legalMode
  · rw [withFlags_and _ _ _ _ _ _ fun i hi => ?_]
    · exact h.cpsrReserved
    · by_cases h32 : i < 32
      · have : ∀ j : Fin 32, 28 ≤ j.val → (0x01F00000#32).getLsbD j.val = false := by decide
        exact this ⟨i, h32⟩ hi
      · exact BitVec.getLsbD_of_ge _ _ (by omega)

/-- A word plus 4 is as aligned as the word. -/
theorem aligned_add_four {v : Word} (h : v &&& 3 = 0) : (v + 4) &&& 3 = 0 := by
  have h3 : ∀ w : Word, w &&& 3 = 0 ↔ w.toNat % 4 = 0 := by
    intro w
    have : (w &&& 3).toNat = w.toNat % 4 := by
      rw [BitVec.toNat_and]
      exact Nat.and_two_pow_sub_one_eq_mod w.toNat 2
    constructor
    · intro e; rw [← this, e]; rfl
    · intro e; exact BitVec.eq_of_toNat_eq (by rw [this, e]; rfl)
  rw [h3] at h ⊢
  rw [BitVec.toNat_add]
  have : (4 : Word).toNat = 4 := rfl
  omega

theorem aligned_mask (v : Word) : (v &&& 0xFFFFFFFC) &&& 3 = 0 := by
  rw [BitVec.and_assoc]
  have : (0xFFFFFFFC#32 &&& 3#32) = 0#32 := by decide
  exact (congrArg (v &&& ·) this).trans (BitVec.and_zero)

/-! ### Shared operations that keep the invariant -/

theorem keeps_inv_writeReg (r : Reg) (v : Word) : Keeps Inv (writeReg r v) := fun _ h => inv_setReg h r v

theorem keeps_inv_drawWord : Keeps Inv drawWord := accesses_drawWord.keeps_inv

theorem keeps_inv_drawBool : Keeps Inv drawBool := accesses_drawBool.keeps_inv

theorem keeps_inv_fallThrough : Keeps Inv fallThrough := by
  intro s h
  unfold fallThrough
  split
  · exact h
  · exact inv_setPc h (aligned_add_four h.pcAligned)

theorem keeps_inv_branchWritePc (v : Word) : Keeps Inv (branchWritePc v) := fun _ h =>
  inv_setPc (inv_setPipeAdv h) (aligned_mask v)

theorem keeps_inv_bxWritePc (v : Word) : Keeps Inv (bxWritePc v) := by
  intro s h
  unfold bxWritePc
  split
  · exact h
  split
  · exact h
  · rename_i h0 h1
    refine inv_setPc (inv_setPipeAdv h) (BitVec.eq_of_getLsbD_eq fun i hi => ?_)
    have h3 : ∀ j : Fin 32, 2 ≤ j.val → (3#32).getLsbD j.val = false := by decide
    rw [BitVec.getLsbD_and]
    rcases Nat.lt_or_ge i 2 with hlt | hge
    · have : i = 0 ∨ i = 1 := by omega
      rcases this with rfl | rfl
      · simp only [Bool.not_eq_true] at h0; rw [h0]; rfl
      · simp only [Bool.not_eq_true] at h1; rw [h1]; rfl
    · show (v.getLsbD i && (3#32).getLsbD i) = (0#32).getLsbD i
      rw [h3 ⟨i, hi⟩ hge, Bool.and_false, BitVec.getLsbD_zero]

theorem keeps_inv_readSpsr : Keeps Inv readSpsr := by
  intro s h
  unfold readSpsr
  split <;> exact h

theorem setBit_bit (w : Word) (k : Nat) (b : Bool) (i : Nat) (hi : i ≠ k) : (setBit w k b).getLsbD i = w.getLsbD i := by
  have h1 : ((1#32) <<< k).getLsbD i = false := by
    rw [BitVec.getLsbD_shiftLeft, BitVec.getLsbD_one]
    grind
  have h2 : (bitAt b k).getLsbD i = false := by
    unfold bitAt
    split
    · exact h1
    · exact BitVec.getLsbD_zero
  unfold setBit
  rw [BitVec.getLsbD_or, h2, Bool.or_false, BitVec.getLsbD_and]
  by_cases hw : i < 32
  · rw [BitVec.getLsbD_not, h1]; simp [hw]
  · rw [BitVec.getLsbD_of_ge w i (by omega)]; rfl

theorem modeField_setBit (w : Word) (k : Nat) (b : Bool) (hk : 5 ≤ k) : modeField (setBit w k b) = modeField w := by
  apply BitVec.eq_of_getLsbD_eq
  intro i hi
  simp [modeField, hi, setBit_bit w k b i (by omega)]

theorem setBit_and (w m : Word) (k : Nat) (b : Bool) (hm : m.getLsbD k = false) : setBit w k b &&& m = w &&& m := by
  apply BitVec.eq_of_getLsbD_eq
  intro i _
  rw [BitVec.getLsbD_and, BitVec.getLsbD_and]
  by_cases h : i = k
  · subst h; rw [hm, Bool.and_false, Bool.and_false]
  · rw [setBit_bit w k b i h]

theorem keeps_inv_restoreCpsr (new : Word) : Keeps Inv (restoreCpsr new) := by
  intro s h
  unfold restoreCpsr
  split
  · exact h
  · rename_i hn
    split
    · exact h
    · rename_i m hm
      simp only [notArm, Bool.or_eq_true, not_or, Bool.not_eq_true] at hn
      refine inv_setCpsr h ⟨?_, ?_⟩
      · rw [modeField_setBit _ _ _ (by decide)]
        have : modeField (new &&& 0xFF0FFFFF) = modeField new := by
          apply BitVec.eq_of_getLsbD_eq
          intro i hi
          have hb : ∀ j : Fin 5, (0xFF0FFFFF#32).getLsbD j.val = true := by decide
          have := hb ⟨i, hi⟩
          simp only at this
          simp [modeField, hi]
          simpa using fun _ => this
        rw [this, hm]
        rfl
      · rw [setBit_and _ _ _ _ (by decide)]
        apply BitVec.eq_of_getLsbD_eq
        intro i hi
        rw [BitVec.getLsbD_and, BitVec.getLsbD_and]
        show ((new.getLsbD i && (0xFF0FFFFF#32).getLsbD i) && (0x01F00000#32).getLsbD i) = (0#32).getLsbD i
        rw [BitVec.getLsbD_zero]
        by_cases h24 : i = 24
        · subst h24; rw [hn.2]; rfl
        · have hb : ∀ j : Fin 32, j.val ≠ 24 → ((0xFF0FFFFF#32).getLsbD j.val && (0x01F00000#32).getLsbD j.val) = false := by
            decide
          rw [Bool.and_assoc, hb ⟨i, hi⟩ h24, Bool.and_false]

theorem keeps_inv_exceptionReturn (target : Word) : Keeps Inv (exceptionReturn target) :=
  keeps_bind keeps_inv_readSpsr fun new => keeps_bind (keeps_inv_restoreCpsr new) fun _ => keeps_inv_branchWritePc _

theorem keeps_inv_writeResult (S : Bool) (rd : Reg) (r : Word) {flags : M Unit} (hf : Keeps Inv flags) :
    Keeps Inv (writeResult S rd r flags) := by
  unfold writeResult
  refine keeps_ite (keeps_ite (keeps_inv_exceptionReturn r) (keeps_inv_bxWritePc r)) ?_
  refine keeps_bind (keeps_inv_writeReg _ _) fun _ => ?_
  exact keeps_ite (keeps_bind hf fun _ => keeps_inv_fallThrough) keeps_inv_fallThrough

theorem keeps_inv_setResultFlags (r : Word) (c v : Bool) : Keeps Inv (setResultFlags r c v) :=
  fun _ h => inv_setFlags h _ _ _ _

theorem keeps_inv_setLogicalFlags (r : Word) (c : Bool) : Keeps Inv (setLogicalFlags r c) :=
  fun _ h => inv_setFlags h _ _ _ _

theorem keeps_inv_setNZ (n z : Bool) : Keeps Inv (setNZ n z) := fun _ h => inv_setFlags h _ _ _ _

theorem keeps_inv_loadValue (acc : Access) (a : Word) : Keeps Inv (loadValue acc a) := (accesses_loadValue acc a).keeps_inv

theorem keeps_inv_storeValue (acc : Access) (a v : Word) : Keeps Inv (storeValue acc a v) :=
  (accesses_storeValue acc a v).keeps_inv

/-! ### Exceptions -/

/-- Entry of an exception gives a legal mode and clear reserved bits. -/
theorem psrOk_entry (e : Exc) (sctlr cpsr : Word) : PsrOk (entryCpsr e sctlr cpsr) := by
  have hbit : ∀ i, (cpsr &&& 0xF80F01C0).getLsbD i = (cpsr.getLsbD i && (0xF80F01C0#32).getLsbD i) := fun i =>
    BitVec.getLsbD_and
  have hm : modeField (entryCpsr e sctlr cpsr) = e.mode.bits := by
    apply BitVec.eq_of_getLsbD_eq
    intro i hi
    have hc : ∀ j : Fin 5, (0xF80F01C0#32).getLsbD j.val = false := by decide
    have hz : ∀ (b : Bool) (k : Nat), 5 ≤ k → (bitAt b k).getLsbD i = false := by
      intro b k hk
      unfold bitAt
      split
      · rw [BitVec.getLsbD_shiftLeft]; simp [show i < k by omega]
      · exact BitVec.getLsbD_zero
    unfold modeField entryCpsr
    rw [BitVec.getLsbD_extractLsb']
    simp only [Nat.zero_add, hi, decide_true, Bool.true_and]
    simp only [BitVec.getLsbD_or, hbit, hz true 7 (by decide), hz _ 6 (by decide), hz _ 8 (by decide),
      hz _ 5 (by decide), hz _ 9 (by decide), Bool.or_false]
    have := hc ⟨i, hi⟩
    simp only at this
    rw [this, Bool.and_false, Bool.false_or, BitVec.getLsbD_setWidth]
    simp [show i < 32 by omega]
  constructor
  · rw [hm]
    cases e <;> rfl
  · apply BitVec.eq_of_getLsbD_eq
    intro i hi
    have hc : ∀ j : Fin 32, (0x01F00000#32).getLsbD j.val = true →
        ((0xF80F01C0#32).getLsbD j.val = false ∧ 9 < j.val) := by decide
    rw [BitVec.getLsbD_and]
    show ((entryCpsr e sctlr cpsr).getLsbD i && (0x01F00000#32).getLsbD i) = (0#32).getLsbD i
    rw [BitVec.getLsbD_zero]
    cases hb : (0x01F00000#32).getLsbD i with
    | false => exact Bool.and_false _
    | true =>
      obtain ⟨h1, h2⟩ := hc ⟨i, hi⟩ hb
      simp only at h1 h2
      have hz : ∀ (b : Bool) (k : Nat), k ≤ 9 → (bitAt b k).getLsbD i = false := by
        intro b k hk
        unfold bitAt
        split
        · rw [BitVec.getLsbD_shiftLeft, BitVec.getLsbD_one]; simp; omega
        · exact BitVec.getLsbD_zero
      rw [Bool.and_true]
      unfold entryCpsr
      simp only [BitVec.getLsbD_or, hbit, hz true 7 (by decide), hz _ 6 (by decide), hz _ 8 (by decide),
        hz _ 5 (by decide), hz _ 9 (by decide), Bool.or_false, h1, Bool.and_false, Bool.false_or]
      rw [BitVec.getLsbD_setWidth, BitVec.getLsbD_of_ge _ _ (by omega), Bool.and_false]

theorem vector_aligned (s : State) (e : Exc) : (s.vectorBase + e.offset) &&& 3 = 0 := by
  unfold State.vectorBase
  split <;> cases e <;> decide

/-- Taking an exception keeps the invariant. -/
theorem inv_takeException {s : State} (h : Inv s) (e : Exc) (ret : Word) : Inv (takeException e ret s) := by
  have h1 : Inv ((s.setSpsr e.mode s.cpsr).setRegIn e.mode 14 ret) := inv_setRegIn (inv_setSpsr h _ _) _ _ _
  have hp := psrOk_entry e s.cp15.sctlr s.cpsr
  exact ⟨{ h1.canonical with }, hp.legalMode, vector_aligned s e, hp.reserved, h1.sctlrFixed, h1.regionInRange,
    h1.fpscrReserved, h1.fpexcReserved⟩

theorem inv_takeUndefined {s : State} (h : Inv s) : Inv (takeUndefined s) := inv_takeException h _ _

theorem inv_takeSupervisorCall {s : State} (h : Inv s) : Inv (takeSupervisorCall s) := inv_takeException h _ _

theorem inv_takeDataAbort {s : State} (h : Inv s) (f : FaultStatus) (w : Bool) (a : Word) :
    Inv (takeDataAbort f w a s) := by
  have i := inv_takeException h .dataAbort (s.pc + 8)
  exact ⟨{ i.canonical with }, i.legalMode, i.pcAligned, i.cpsrReserved, i.sctlrFixed, i.regionInRange,
    i.fpscrReserved, i.fpexcReserved⟩

theorem inv_takePrefetchAbort {s : State} (h : Inv s) (f : FaultStatus) (a : Word) :
    Inv (takePrefetchAbort f a s) := by
  have i := inv_takeException h .prefetchAbort (s.pc + 4)
  exact ⟨{ i.canonical with }, i.legalMode, i.pcAligned, i.cpsrReserved, i.sctlrFixed, i.regionInRange,
    i.fpscrReserved, i.fpexcReserved⟩

theorem inv_takeAsyncAbort {s : State} (h : Inv s) (x : Bool) : Inv (takeAsyncAbort x s) := by
  have i := inv_takeException h .dataAbort (s.pc + 8)
  exact ⟨{ i.canonical with }, i.legalMode, i.pcAligned, i.cpsrReserved, i.sctlrFixed, i.regionInRange,
    i.fpscrReserved, i.fpexcReserved⟩

/-- A body that keeps the invariant, run as an instruction, keeps it in every next state. -/
theorem inv_finish {body : M Unit} (hb : Keeps Inv body) {s t : State} (h : Inv s) (e : finish (body s) = .next t) :
    Inv t := by
  have hs := hb s h
  rcases finish_next e with ⟨u, hu⟩ | ⟨u, hu, rfl⟩ | ⟨f, w, a, u, hu, rfl⟩
  · rw [hu] at hs; exact hs
  · rw [hu] at hs; exact inv_takeUndefined hs
  · rw [hu] at hs; exact inv_takeDataAbort hs f w a

theorem inv_always {body : M Unit} (hb : Keeps Inv body) {s t : State} (h : Inv s) (e : always body s = .next t) :
    Inv t := inv_finish hb h e

theorem inv_conditional {c : Cond} {body : M Unit} (hb : Keeps Inv body) {s t : State} (h : Inv s)
    (e : conditional c body s = .next t) : Inv t := by
  unfold conditional at e
  split at e
  · exact inv_finish hb h e
  · exact inv_finish keeps_inv_fallThrough h e

/-! ### Resets -/

/-- The status register after a reset of the processor is legal. -/
theorem psrOk_reset (te ee : Bool) : PsrOk (0x000001D3 ||| bitAt te 5 ||| bitAt ee 9) := by
  cases te <;> cases ee <;> exact ⟨by decide, by decide⟩

/-- A processor's registers after reset satisfy the invariant, whatever the rest of a canonical state. -/
theorem inv_resetCpu {s : State} (h : Inv s) : Inv (resetCpu s) where
  canonical := { h.canonical with }
  legalMode := (psrOk_reset s.cfg.teinit s.cfg.cfgend).legalMode
  pcAligned := by
    show (if s.cfg.vinithi then 0xFFFF0000#32 else 0) &&& 3 = 0
    cases s.cfg.vinithi <;> decide
  cpsrReserved := (psrOk_reset s.cfg.teinit s.cfg.cfgend).reserved
  sctlrFixed := by
    show resetSctlr s.cfg &&& 0xB5D5C3F8 = 0x00C50078
    unfold resetSctlr
    generalize s.cfg.teinit = a
    generalize s.cfg.cfgnmfi = b
    generalize s.cfg.cfgend = c
    generalize s.cfg.vinithi = d
    cases a <;> cases b <;> cases c <;> cases d <;> decide
  regionInRange := by
    show (0 : Nat) < regionCount s.cfg
    unfold regionCount
    split <;> decide
  fpscrReserved := by show (0 : Word) &&& 0x0808FF60 = 0; decide
  fpexcReserved := by show (0 : Word) &&& 0x9FFFFFFF = 0; decide

theorem inv_resetDbg {s : State} (h : Inv s) : Inv (resetDbg s) := { h with canonical := { h.canonical with } }

theorem inv_resetOtherCpu {s : State} (h : Inv s) : Inv (resetOtherCpu s) := { h with canonical := { h.canonical with } }

theorem inv_resetOtherDbg {s : State} (h : Inv s) : Inv (resetOtherDbg s) := { h with canonical := { h.canonical with } }

theorem inv_resetPeriph {s : State} (h : Inv s) : Inv (resetPeriph s) :=
  { h with canonical := { h.canonical with gicPrio := rfl, gicTarget := rfl, gicSgi := rfl } }

theorem inv_resetScu {s : State} (h : Inv s) : Inv (resetScu s) := { h with canonical := { h.canonical with } }

theorem inv_resetWd {s : State} (h : Inv s) : Inv (resetWd s) := { h with canonical := { h.canonical with } }

theorem inv_loseRams {s : State} (h : Inv s) : Inv (loseRams s) :=
  { h with canonical := { h.canonical with
      itcmBytes := rfl, itcmEcc := rfl, dtcmBytes := rfl, dtcmEcc := rfl, dTag := rfl, dData := rfl, dTagEcc := rfl,
      dDataEcc := rfl, iTag := rfl, iData := rfl, iTagEcc := rfl, iDataEcc := rfl } }

theorem inv_doIf {f : State → State} (hf : ∀ {s}, Inv s → Inv (f s)) (b : Bool) {s : State} (h : Inv s) :
    Inv (doIf b f s) := by
  unfold doIf
  split
  · exact hf h
  · exact h

/-- A reset of any kind keeps the invariant. -/
theorem inv_applyResets {s : State} (h : Inv s) (r : Resets) : Inv (applyResets r s) :=
  inv_doIf inv_loseRams _ (inv_doIf inv_resetCpu _ (inv_doIf inv_resetDbg _ (inv_doIf inv_resetPeriph _
    (inv_doIf inv_resetScu _ (inv_doIf inv_resetWd _ (inv_doIf inv_resetOtherCpu _ (inv_doIf inv_resetOtherDbg _ h)))))))

end Sys2Proof.Machine
end

