-- ==== Sys2Proof/Laws/PerInstr.lean ====
section
/-! SUPPORT. Per instruction: its encoding matches its own row of the table, and that row reads the instruction back. What is
left of "decode of encode" is that no earlier row matches. -/

namespace Sys2Proof.Laws

set_option Elab.async false

/-- The place of an instruction's row in the table. -/
def rowOf : Instr → Nat
  | .clrex => 0
  | .dsb _ => 1
  | .dmb _ => 2
  | .isb _ => 3
  | .setend _ => 4
  | .cps _ _ _ _ _ _ => 5
  | .rfe _ _ _ _ => 6
  | .srs _ _ _ _ => 7
  | .pldImm _ _ _ => 8
  | .pldwImm _ _ _ => 9
  | .pliImm _ _ _ => 10
  | .pldReg _ _ _ _ _ => 11
  | .pldwReg _ _ _ _ _ => 12
  | .pliReg _ _ _ _ _ => 13
  | .blxImm _ _ => 14
  | .advSimdDataProcessing _ => 15
  | .advSimdLoadStore _ _ => 16
  | .coprocTwoSpace _ _ _ => 17
  | .restOfUnconditional _ => 18
  | .nop _ => 19
  | .yield _ => 20
  | .wfe _ => 21
  | .wfi _ => 22
  | .sev _ => 23
  | .hintUnallocated _ _ => 24
  | .msrImm _ _ _ _ => 25
  | .bkpt _ _ => 26
  | .smc _ _ => 27
  | .bx _ _ => 28
  | .blxReg _ _ => 29
  | .clz _ _ _ => 30
  | .mrs _ _ _ => 31
  | .msrReg _ _ _ _ => 32
  | .ldrex _ _ _ => 33
  | .strex _ _ _ _ => 34
  | .ldrexd _ _ _ => 35
  | .strexd _ _ _ _ => 36
  | .ldrexb _ _ _ => 37
  | .strexb _ _ _ _ => 38
  | .ldrexh _ _ _ => 39
  | .strexh _ _ _ _ => 40
  | .swp _ _ _ _ => 41
  | .swpb _ _ _ _ => 42
  | .mul _ _ _ _ _ => 43
  | .mla _ _ _ _ _ _ => 44
  | .mls _ _ _ _ _ => 45
  | .umull _ _ _ _ _ _ => 46
  | .umlal _ _ _ _ _ _ => 47
  | .smull _ _ _ _ _ _ => 48
  | .smlal _ _ _ _ _ _ => 49
  | .strhImm _ _ _ _ _ _ _ _ => 50
  | .strhReg _ _ _ _ _ _ _ => 51
  | .ldrhImm _ _ _ _ _ _ _ _ => 52
  | .ldrhReg _ _ _ _ _ _ _ => 53
  | .ldrsbImm _ _ _ _ _ _ _ _ => 54
  | .ldrsbReg _ _ _ _ _ _ _ => 55
  | .ldrshImm _ _ _ _ _ _ _ _ => 56
  | .ldrshReg _ _ _ _ _ _ _ => 57
  | .ldrdImm _ _ _ _ _ _ _ _ => 58
  | .ldrdReg _ _ _ _ _ _ _ => 59
  | .strdImm _ _ _ _ _ _ _ _ => 60
  | .strdReg _ _ _ _ _ _ _ => 61
  | .udf _ _ _ => 62
  | .sdiv _ _ _ _ => 63
  | .udiv _ _ _ _ => 64
  | .bfc _ _ _ _ => 65
  | .bfi _ _ _ _ _ => 66
  | .ubfx _ _ _ _ _ => 67
  | .sbfx _ _ _ _ _ => 68
  | .rev _ _ _ => 69
  | .rev16 _ _ _ => 70
  | .revsh _ _ _ => 71
  | .rbit _ _ _ => 72
  | .uxtb _ _ _ _ => 73
  | .uxth _ _ _ _ => 74
  | .sxtb _ _ _ _ => 75
  | .sxth _ _ _ _ => 76
  | .movw _ _ _ _ => 77
  | .movt _ _ _ _ => 78
  | .andImm _ _ _ _ _ _ => 79
  | .andReg _ _ _ _ _ _ _ => 80
  | .andRsr _ _ _ _ _ _ _ => 81
  | .eorImm _ _ _ _ _ _ => 82
  | .eorReg _ _ _ _ _ _ _ => 83
  | .eorRsr _ _ _ _ _ _ _ => 84
  | .subImm _ _ _ _ _ _ => 85
  | .subReg _ _ _ _ _ _ _ => 86
  | .subRsr _ _ _ _ _ _ _ => 87
  | .rsbImm _ _ _ _ _ _ => 88
  | .rsbReg _ _ _ _ _ _ _ => 89
  | .rsbRsr _ _ _ _ _ _ _ => 90
  | .addImm _ _ _ _ _ _ => 91
  | .addReg _ _ _ _ _ _ _ => 92
  | .addRsr _ _ _ _ _ _ _ => 93
  | .adcImm _ _ _ _ _ _ => 94
  | .adcReg _ _ _ _ _ _ _ => 95
  | .adcRsr _ _ _ _ _ _ _ => 96
  | .sbcImm _ _ _ _ _ _ => 97
  | .sbcReg _ _ _ _ _ _ _ => 98
  | .sbcRsr _ _ _ _ _ _ _ => 99
  | .rscImm _ _ _ _ _ _ => 100
  | .rscReg _ _ _ _ _ _ _ => 101
  | .rscRsr _ _ _ _ _ _ _ => 102
  | .tstImm _ _ _ _ _ => 103
  | .tstReg _ _ _ _ _ _ => 104
  | .tstRsr _ _ _ _ _ _ => 105
  | .teqImm _ _ _ _ _ => 106
  | .teqReg _ _ _ _ _ _ => 107
  | .teqRsr _ _ _ _ _ _ => 108
  | .cmpImm _ _ _ _ _ => 109
  | .cmpReg _ _ _ _ _ _ => 110
  | .cmpRsr _ _ _ _ _ _ => 111
  | .cmnImm _ _ _ _ _ => 112
  | .cmnReg _ _ _ _ _ _ => 113
  | .cmnRsr _ _ _ _ _ _ => 114
  | .orrImm _ _ _ _ _ _ => 115
  | .orrReg _ _ _ _ _ _ _ => 116
  | .orrRsr _ _ _ _ _ _ _ => 117
  | .movImm _ _ _ _ _ _ => 118
  | .movReg _ _ _ _ => 119
  | .rrx _ _ _ _ => 120
  | .lslImm _ _ _ _ _ => 121
  | .lsrImm _ _ _ _ _ => 122
  | .asrImm _ _ _ _ _ => 123
  | .rorImm _ _ _ _ _ => 124
  | .lslReg _ _ _ _ _ => 125
  | .lsrReg _ _ _ _ _ => 126
  | .asrReg _ _ _ _ _ => 127
  | .rorReg _ _ _ _ _ => 128
  | .bicImm _ _ _ _ _ _ => 129
  | .bicReg _ _ _ _ _ _ _ => 130
  | .bicRsr _ _ _ _ _ _ _ => 131
  | .mvnImm _ _ _ _ _ _ => 132
  | .mvnReg _ _ _ _ _ _ _ => 133
  | .mvnRsr _ _ _ _ _ _ _ => 134
  | .ldrImm _ _ _ _ _ _ _ => 135
  | .ldrReg _ _ _ _ _ _ _ _ _ => 136
  | .strImm _ _ _ _ _ _ _ => 137
  | .strReg _ _ _ _ _ _ _ _ _ => 138
  | .ldrbImm _ _ _ _ _ _ _ => 139
  | .ldrbReg _ _ _ _ _ _ _ _ _ => 140
  | .strbImm _ _ _ _ _ _ _ => 141
  | .strbReg _ _ _ _ _ _ _ _ _ => 142
  | .pop _ _ => 143
  | .push _ _ => 144
  | .ldm _ _ _ _ _ _ _ => 145
  | .stm _ _ _ _ _ _ _ => 146
  | .b _ _ => 147
  | .bl _ _ => 148
  | .svc _ _ => 149
  | .vmrs _ _ _ => 150
  | .vmsr _ _ _ => 151
  | .vmrsVmsrSbz _ _ _ _ _ _ => 152
  | .mrcP15 _ _ _ _ _ _ => 153
  | .mcrP15 _ _ _ _ _ _ => 154
  | .mrcP14 _ _ _ _ _ _ => 155
  | .mcrP14 _ _ _ _ _ _ => 156
  | .vmla _ _ _ _ _ _ _ _ => 157
  | .vmls _ _ _ _ _ _ _ _ => 158
  | .vnmls _ _ _ _ _ _ _ _ => 159
  | .vnmla _ _ _ _ _ _ _ _ => 160
  | .vmul _ _ _ _ _ _ _ _ => 161
  | .vnmul _ _ _ _ _ _ _ _ => 162
  | .vadd _ _ _ _ _ _ _ _ => 163
  | .vsub _ _ _ _ _ _ _ _ => 164
  | .vdiv _ _ _ _ _ _ _ _ => 165
  | .vmovImm _ _ _ _ _ _ _ _ => 166
  | .vmovReg _ _ _ _ _ _ => 167
  | .vabs _ _ _ _ _ _ => 168
  | .vneg _ _ _ _ _ _ => 169
  | .vsqrt _ _ _ _ _ _ => 170
  | .vcvtbVcvtt _ _ _ _ _ _ _ => 171
  | .vcmpReg _ _ _ _ _ _ _ => 172
  | .vcmpZero _ _ _ _ _ _ _ => 173
  | .vcvtDoubleSingle _ _ _ _ _ _ => 174
  | .vcvtIntToFp _ _ _ _ _ _ _ => 175
  | .vcvtFpToInt _ _ _ _ _ _ _ _ => 176
  | .vcvtFixed _ _ _ _ _ _ _ _ _ => 177
  | .vldr _ _ _ _ _ _ _ => 178
  | .vstr _ _ _ _ _ _ _ => 179
  | .vpop _ _ _ _ _ => 180
  | .vpush _ _ _ _ _ => 181
  | .vldmIa _ _ _ _ _ _ _ => 182
  | .vldmDb _ _ _ _ _ _ => 183
  | .vstmIa _ _ _ _ _ _ _ => 184
  | .vstmDb _ _ _ _ _ _ => 185
  | .vmovCoreSingle _ _ _ _ _ _ _ => 186
  | .vmovCoreTwoSingles _ _ _ _ _ _ => 187
  | .vmovCoreDouble _ _ _ _ _ _ => 188
  | .vmovCoreToHalf _ _ _ _ _ _ => 189
  | .vmovHalfToCore _ _ _ _ _ _ => 190
  | .vfpUnallocated _ _ _ => 191
  | .otherCoproc _ _ _ _ => 192

/-- A condition reads back from its bits. -/
theorem cond_ofBits (c : Cond) : Cond.ofBits c.bits = c := by cases c <;> rfl

/-- A shift type reads back from its bits. -/
theorem shiftType_ofBits (t : ShiftType) : ShiftType.ofBits t.bits = t := by cases t <;> rfl

/-- Concatenation, the upper part first. -/
abbrev join {n m : Nat} (a : BitVec n) (b : BitVec m) : BitVec (n + m) := a ++ b

/-- Masking a concatenation masks its parts. -/
theorem and_parts {n m : Nat} (a b : BitVec n) (c d : BitVec m) : join a c &&& join b d = join (a &&& b) (c &&& d) :=
  BitVec.and_append

/-- The last part of a concatenation. -/
theorem ext_right {n m : Nat} (a : BitVec n) (b : BitVec m) : (join a b).extractLsb' 0 m = b := by
  simp [BitVec.extractLsb'_append_eq_right]

/-- The parts before the last one. -/
theorem ext_left {n m : Nat} (a : BitVec n) (b : BitVec m) (lo w : Nat) (h : m ≤ lo) :
    (join a b).extractLsb' lo w = a.extractLsb' (lo - m) w := by
  apply BitVec.eq_of_getLsbD_eq
  intro i hi
  simp only [BitVec.getLsbD_extractLsb', BitVec.getLsbD_append, show ¬ lo + i < m by omega, if_false,
    show lo + i - m = lo - m + i by omega]

/-- A whole vector. -/
theorem ext_only {n : Nat} (a : BitVec n) : a.extractLsb' 0 n = a := by simp

/-- The last bit of a concatenation. -/
theorem bit_right {n : Nat} (a : BitVec n) (b : Bool) : (join a (BitVec.ofBool b)).getLsbD 0 = b := by
  simp only [BitVec.getLsbD_append]
  cases b <;> rfl

/-- The bits before the last part. -/
theorem bit_left {n m : Nat} (a : BitVec n) (b : BitVec m) (i : Nat) (h : m ≤ i) :
    (join a b).getLsbD i = a.getLsbD (i - m) := by
  simp only [BitVec.getLsbD_append, show ¬ i < m by omega, if_false]

/-- An instruction's word matches its own row, and that row builds the instruction from it. -/
def EncodesToItself.Statement (i : Instr) : Prop :=
  ∃ r, rows[rowOf i]? = some r ∧ encode i &&& r.mask = r.value ∧ r.build (encode i) = i

theorem EncodesToItself.clrex : EncodesToItself.Statement .clrex :=
  ⟨_, rfl, rfl, rfl⟩

theorem EncodesToItself.dsb (opt : BitVec 4) :
    EncodesToItself.Statement (.dsb opt) := by
  refine ⟨_, rfl, ?_, ?_⟩
  · show encode (.dsb opt) &&& (join 0xfffffff#28 0x0#4) =
      (join 0xf57ff04#28 0x0#4)
    exact (and_parts _ _ _ _).trans (by rw [BitVec.and_zero]; try rfl)
  · have h1 : (join 0xf57ff04#28 opt).extractLsb' 0 4 = opt := (ext_right _ _)
    exact congrArg Instr.dsb (h1)

theorem EncodesToItself.dmb (opt : BitVec 4) :
    EncodesToItself.Statement (.dmb opt) := by
  refine ⟨_, rfl, ?_, ?_⟩
  · show encode (.dmb opt) &&& (join 0xfffffff#28 0x0#4) =
      (join 0xf57ff05#28 0x0#4)
    exact (and_parts _ _ _ _).trans (by rw [BitVec.and_zero]; try rfl)
  · have h1 : (join 0xf57ff05#28 opt).extractLsb' 0 4 = opt := (ext_right _ _)
    exact congrArg Instr.dmb (h1)

theorem EncodesToItself.isb (opt : BitVec 4) :
    EncodesToItself.Statement (.isb opt) := by
  refine ⟨_, rfl, ?_, ?_⟩
  · show encode (.isb opt) &&& (join 0xfffffff#28 0x0#4) =
      (join 0xf57ff06#28 0x0#4)
    exact (and_parts _ _ _ _).trans (by rw [BitVec.and_zero]; try rfl)
  · have h1 : (join 0xf57ff06#28 opt).extractLsb' 0 4 = opt := (ext_right _ _)
    exact congrArg Instr.isb (h1)

theorem EncodesToItself.setend (e : Bool) :
    EncodesToItself.Statement (.setend e) := by
  refine ⟨_, rfl, ?_, ?_⟩
  · show encode (.setend e) &&& (join (join 0x3fffff#22 0x0#1) 0x1ff#9) =
      (join (join 0x3c4040#22 0x0#1) 0x0#9)
    exact (and_parts _ _ _ _).trans (by simp only [and_parts, BitVec.and_zero]; try rfl)
  · have h1 : (join (join 0x3c4040#22 (BitVec.ofBool e)) 0x0#9).getLsbD 9 = e := ((bit_left _ _ _ (by decide)).trans (bit_right _ _))
    exact congrArg Instr.setend (h1)

theorem EncodesToItself.cps (imod : BitVec 2) (m : Bool) (a : Bool) (i : Bool) (f : Bool) (mode : BitVec 5) :
    EncodesToItself.Statement (.cps imod m a i f mode) := by
  refine ⟨_, rfl, ?_, ?_⟩
  · show encode (.cps imod m a i f mode) &&& (join (join (join (join (join (join (join (join 0xfff#12 0x0#2) 0x0#1) 0xff#8) 0x0#1) 0x0#1) 0x0#1) 0x1#1) 0x0#5) =
      (join (join (join (join (join (join (join (join 0xf10#12 0x0#2) 0x0#1) 0x0#8) 0x0#1) 0x0#1) 0x0#1) 0x0#1) 0x0#5)
    exact (and_parts _ _ _ _).trans (by simp only [and_parts, BitVec.and_zero]; try rfl)
  · have h1 : (join (join (join (join (join (join (join (join 0xf10#12 imod) (BitVec.ofBool m)) 0x0#8) (BitVec.ofBool a)) (BitVec.ofBool i)) (BitVec.ofBool f)) 0x0#1) mode).extractLsb' 18 2 = imod := ((ext_left _ _ _ _ (by decide)).trans ((ext_left _ _ _ _ (by decide)).trans ((ext_left _ _ _ _ (by decide)).trans ((ext_left _ _ _ _ (by decide)).trans ((ext_left _ _ _ _ (by decide)).trans ((ext_left _ _ _ _ (by decide)).trans ((ext_left _ _ _ _ (by decide)).trans (ext_right _ _))))))))
    have h2 : (join (join (join (join (join (join (join (join 0xf10#12 imod) (BitVec.ofBool m)) 0x0#8) (BitVec.ofBool a)) (BitVec.ofBool i)) (BitVec.ofBool f)) 0x0#1) mode).getLsbD 17 = m := ((bit_left _ _ _ (by decide)).trans ((bit_left _ _ _ (by decide)).trans ((bit_left _ _ _ (by decide)).trans ((bit_left _ _ _ (by decide)).trans ((bit_left _ _ _ (by decide)).trans ((bit_left _ _ _ (by decide)).trans (bit_right _ _)))))))
    have h4 : (join (join (join (join (join (join (join (join 0xf10#12 imod) (BitVec.ofBool m)) 0x0#8) (BitVec.ofBool a)) (BitVec.ofBool i)) (BitVec.ofBool f)) 0x0#1) mode).getLsbD 8 = a := ((bit_left _ _ _ (by decide)).trans ((bit_left _ _ _ (by decide)).trans ((bit_left _ _ _ (by decide)).trans ((bit_left _ _ _ (by decide)).trans (bit_right _ _)))))
    have h5 : (join (join (join (join (join (join (join (join 0xf10#12 imod) (BitVec.ofBool m)) 0x0#8) (BitVec.ofBool a)) (BitVec.ofBool i)) (BitVec.ofBool f)) 0x0#1) mode).getLsbD 7 = i := ((bit_left _ _ _ (by decide)).trans ((bit_left _ _ _ (by decide)).trans ((bit_left _ _ _ (by decide)).trans (bit_right _ _))))
    have h6 : (join (join (join (join (join (join (join (join 0xf10#12 imod) (BitVec.ofBool m)) 0x0#8) (BitVec.ofBool a)) (BitVec.ofBool i)) (BitVec.ofBool f)) 0x0#1) mode).getLsbD 6 = f := ((bit_left _ _ _ (by decide)).trans ((bit_left _ _ _ (by decide)).trans (bit_right _ _)))
    have h8 : (join (join (join (join (join (join (join (join 0xf10#12 imod) (BitVec.ofBool m)) 0x0#8) (BitVec.ofBool a)) (BitVec.ofBool i)) (BitVec.ofBool f)) 0x0#1) mode).extractLsb' 0 5 = mode := (ext_right _ _)
    exact congr (congr (congr (congr (congr (congrArg Instr.cps (h1)) (h2)) (h4)) (h5)) (h6)) (h8)

theorem EncodesToItself.rfe (p : Bool) (u : Bool) (w : Bool) (rn : Reg) :
    EncodesToItself.Statement (.rfe p u w rn) := by
  refine ⟨_, rfl, ?_, ?_⟩
  · show encode (.rfe p u w rn) &&& (join (join (join (join (join (join (join 0x7f#7 0x0#1) 0x0#1) 0x1#1) 0x0#1) 0x1#1) 0x0#4) 0xffff#16) =
      (join (join (join (join (join (join (join 0x7c#7 0x0#1) 0x0#1) 0x0#1) 0x0#1) 0x1#1) 0x0#4) 0xa00#16)
    exact (and_parts _ _ _ _).trans (by simp only [and_parts, BitVec.and_zero]; try rfl)
  · have h1 : (join (join (join (join (join (join (join 0x7c#7 (BitVec.ofBool p)) (BitVec.ofBool u)) 0x0#1) (BitVec.ofBool w)) 0x1#1) rn) 0xa00#16).getLsbD 24 = p := ((bit_left _ _ _ (by decide)).trans ((bit_left _ _ _ (by decide)).trans ((bit_left _ _ _ (by decide)).trans ((bit_left _ _ _ (by decide)).trans ((bit_left _ _ _ (by decide)).trans ((bit_left _ _ _ (by decide)).trans (bit_right _ _)))))))
    have h2 : (join (join (join (join (join (join (join 0x7c#7 (BitVec.ofBool p)) (BitVec.ofBool u)) 0x0#1) (BitVec.ofBool w)) 0x1#1) rn) 0xa00#16).getLsbD 23 = u := ((bit_left _ _ _ (by decide)).trans ((bit_left _ _ _ (by decide)).trans ((bit_left _ _ _ (by decide)).trans ((bit_left _ _ _ (by decide)).trans ((bit_left _ _ _ (by decide)).trans (bit_right _ _))))))
    have h4 : (join (join (join (join (join (join (join 0x7c#7 (BitVec.ofBool p)) (BitVec.ofBool u)) 0x0#1) (BitVec.ofBool w)) 0x1#1) rn) 0xa00#16).getLsbD 21 = w := ((bit_left _ _ _ (by decide)).trans ((bit_left _ _ _ (by decide)).trans ((bit_left _ _ _ (by decide)).trans (bit_right _ _))))
    have h6 : (join (join (join (join (join (join (join 0x7c#7 (BitVec.ofBool p)) (BitVec.ofBool u)) 0x0#1) (BitVec.ofBool w)) 0x1#1) rn) 0xa00#16).extractLsb' 16 4 = rn := ((ext_left _ _ _ _ (by decide)).trans (ext_right _ _))
    exact congr (congr (congr (congrArg Instr.rfe (h1)) (h2)) (h4)) (h6)

theorem EncodesToItself.srs (p : Bool) (u : Bool) (w : Bool) (mode : BitVec 5) :
    EncodesToItself.Statement (.srs p u w mode) := by
  refine ⟨_, rfl, ?_, ?_⟩
  · show encode (.srs p u w mode) &&& (join (join (join (join (join (join 0x7f#7 0x0#1) 0x0#1) 0x1#1) 0x0#1) 0xffff#16) 0x0#5) =
      (join (join (join (join (join (join 0x7c#7 0x0#1) 0x0#1) 0x1#1) 0x0#1) 0x6828#16) 0x0#5)
    exact (and_parts _ _ _ _).trans (by simp only [and_parts, BitVec.and_zero]; try rfl)
  · have h1 : (join (join (join (join (join (join 0x7c#7 (BitVec.ofBool p)) (BitVec.ofBool u)) 0x1#1) (BitVec.ofBool w)) 0x6828#16) mode).getLsbD 24 = p := ((bit_left _ _ _ (by decide)).trans ((bit_left _ _ _ (by decide)).trans ((bit_left _ _ _ (by decide)).trans ((bit_left _ _ _ (by decide)).trans ((bit_left _ _ _ (by decide)).trans (bit_right _ _))))))
    have h2 : (join (join (join (join (join (join 0x7c#7 (BitVec.ofBool p)) (BitVec.ofBool u)) 0x1#1) (BitVec.ofBool w)) 0x6828#16) mode).getLsbD 23 = u := ((bit_left _ _ _ (by decide)).trans ((bit_left _ _ _ (by decide)).trans ((bit_left _ _ _ (by decide)).trans ((bit_left _ _ _ (by decide)).trans (bit_right _ _)))))
    have h4 : (join (join (join (join (join (join 0x7c#7 (BitVec.ofBool p)) (BitVec.ofBool u)) 0x1#1) (BitVec.ofBool w)) 0x6828#16) mode).getLsbD 21 = w := ((bit_left _ _ _ (by decide)).trans ((bit_left _ _ _ (by decide)).trans (bit_right _ _)))
    have h6 : (join (join (join (join (join (join 0x7c#7 (BitVec.ofBool p)) (BitVec.ofBool u)) 0x1#1) (BitVec.ofBool w)) 0x6828#16) mode).extractLsb' 0 5 = mode := (ext_right _ _)
    exact congr (congr (congr (congrArg Instr.srs (h1)) (h2)) (h4)) (h6)

theorem EncodesToItself.pldImm (u : Bool) (rn : Reg) (imm12 : BitVec 12) :
    EncodesToItself.Statement (.pldImm u rn imm12) := by
  refine ⟨_, rfl, ?_, ?_⟩
  · show encode (.pldImm u rn imm12) &&& (join (join (join (join (join 0xff#8 0x0#1) 0x7#3) 0x0#4) 0xf#4) 0x0#12) =
      (join (join (join (join (join 0xf5#8 0x0#1) 0x5#3) 0x0#4) 0xf#4) 0x0#12)
    exact (and_parts _ _ _ _).trans (by simp only [and_parts, BitVec.and_zero]; try rfl)
  · have h1 : (join (join (join (join (join 0xf5#8 (BitVec.ofBool u)) 0x5#3) rn) 0xf#4) imm12).getLsbD 23 = u := ((bit_left _ _ _ (by decide)).trans ((bit_left _ _ _ (by decide)).trans ((bit_left _ _ _ (by decide)).trans ((bit_left _ _ _ (by decide)).trans (bit_right _ _)))))
    have h3 : (join (join (join (join (join 0xf5#8 (BitVec.ofBool u)) 0x5#3) rn) 0xf#4) imm12).extractLsb' 16 4 = rn := ((ext_left _ _ _ _ (by decide)).trans ((ext_left _ _ _ _ (by decide)).trans (ext_right _ _)))
    have h5 : (join (join (join (join (join 0xf5#8 (BitVec.ofBool u)) 0x5#3) rn) 0xf#4) imm12).extractLsb' 0 12 = imm12 := (ext_right _ _)
    exact congr (congr (congrArg Instr.pldImm (h1)) (h3)) (h5)

theorem EncodesToItself.pldwImm (u : Bool) (rn : Reg) (imm12 : BitVec 12) :
    EncodesToItself.Statement (.pldwImm u rn imm12) := by
  refine ⟨_, rfl, ?_, ?_⟩
  · show encode (.pldwImm u rn imm12) &&& (join (join (join (join (join 0xff#8 0x0#1) 0x7#3) 0x0#4) 0xf#4) 0x0#12) =
      (join (join (join (join (join 0xf5#8 0x0#1) 0x1#3) 0x0#4) 0xf#4) 0x0#12)
    exact (and_parts _ _ _ _).trans (by simp only [and_parts, BitVec.and_zero]; try rfl)
  · have h1 : (join (join (join (join (join 0xf5#8 (BitVec.ofBool u)) 0x1#3) rn) 0xf#4) imm12).getLsbD 23 = u := ((bit_left _ _ _ (by decide)).trans ((bit_left _ _ _ (by decide)).trans ((bit_left _ _ _ (by decide)).trans ((bit_left _ _ _ (by decide)).trans (bit_right _ _)))))
    have h3 : (join (join (join (join (join 0xf5#8 (BitVec.ofBool u)) 0x1#3) rn) 0xf#4) imm12).extractLsb' 16 4 = rn := ((ext_left _ _ _ _ (by decide)).trans ((ext_left _ _ _ _ (by decide)).trans (ext_right _ _)))
    have h5 : (join (join (join (join (join 0xf5#8 (BitVec.ofBool u)) 0x1#3) rn) 0xf#4) imm12).extractLsb' 0 12 = imm12 := (ext_right _ _)
    exact congr (congr (congrArg Instr.pldwImm (h1)) (h3)) (h5)

theorem EncodesToItself.pliImm (u : Bool) (rn : Reg) (imm12 : BitVec 12) :
    EncodesToItself.Statement (.pliImm u rn imm12) := by
  refine ⟨_, rfl, ?_, ?_⟩
  · show encode (.pliImm u rn imm12) &&& (join (join (join (join (join 0xff#8 0x0#1) 0x7#3) 0x0#4) 0xf#4) 0x0#12) =
      (join (join (join (join (join 0xf4#8 0x0#1) 0x5#3) 0x0#4) 0xf#4) 0x0#12)
    exact (and_parts _ _ _ _).trans (by simp only [and_parts, BitVec.and_zero]; try rfl)
  · have h1 : (join (join (join (join (join 0xf4#8 (BitVec.ofBool u)) 0x5#3) rn) 0xf#4) imm12).getLsbD 23 = u := ((bit_left _ _ _ (by decide)).trans ((bit_left _ _ _ (by decide)).trans ((bit_left _ _ _ (by decide)).trans ((bit_left _ _ _ (by decide)).trans (bit_right _ _)))))
    have h3 : (join (join (join (join (join 0xf4#8 (BitVec.ofBool u)) 0x5#3) rn) 0xf#4) imm12).extractLsb' 16 4 = rn := ((ext_left _ _ _ _ (by decide)).trans ((ext_left _ _ _ _ (by decide)).trans (ext_right _ _)))
    have h5 : (join (join (join (join (join 0xf4#8 (BitVec.ofBool u)) 0x5#3) rn) 0xf#4) imm12).extractLsb' 0 12 = imm12 := (ext_right _ _)
    exact congr (congr (congrArg Instr.pliImm (h1)) (h3)) (h5)

theorem EncodesToItself.pldReg (u : Bool) (rn : Reg) (imm5 : BitVec 5) (ty : ShiftType) (rm : Reg) :
    EncodesToItself.Statement (.pldReg u rn imm5 ty rm) := by
  refine ⟨_, rfl, ?_, ?_⟩
  · show encode (.pldReg u rn imm5 ty rm) &&& (join (join (join (join (join (join (join (join 0xff#8 0x0#1) 0x7#3) 0x0#4) 0xf#4) 0x0#5) 0x0#2) 0x1#1) 0x0#4) =
      (join (join (join (join (join (join (join (join 0xf7#8 0x0#1) 0x5#3) 0x0#4) 0xf#4) 0x0#5) 0x0#2) 0x0#1) 0x0#4)
    exact (and_parts _ _ _ _).trans (by simp only [and_parts, BitVec.and_zero]; try rfl)
  · have h1 : (join (join (join (join (join (join (join (join 0xf7#8 (BitVec.ofBool u)) 0x5#3) rn) 0xf#4) imm5) ty.bits) 0x0#1) rm).getLsbD 23 = u := ((bit_left _ _ _ (by decide)).trans ((bit_left _ _ _ (by decide)).trans ((bit_left _ _ _ (by decide)).trans ((bit_left _ _ _ (by decide)).trans ((bit_left _ _ _ (by decide)).trans ((bit_left _ _ _ (by decide)).trans ((bit_left _ _ _ (by decide)).trans (bit_right _ _))))))))
    have h3 : (join (join (join (join (join (join (join (join 0xf7#8 (BitVec.ofBool u)) 0x5#3) rn) 0xf#4) imm5) ty.bits) 0x0#1) rm).extractLsb' 16 4 = rn := ((ext_left _ _ _ _ (by decide)).trans ((ext_left _ _ _ _ (by decide)).trans ((ext_left _ _ _ _ (by decide)).trans ((ext_left _ _ _ _ (by decide)).trans ((ext_left _ _ _ _ (by decide)).trans (ext_right _ _))))))
    have h5 : (join (join (join (join (join (join (join (join 0xf7#8 (BitVec.ofBool u)) 0x5#3) rn) 0xf#4) imm5) ty.bits) 0x0#1) rm).extractLsb' 7 5 = imm5 := ((ext_left _ _ _ _ (by decide)).trans ((ext_left _ _ _ _ (by decide)).trans ((ext_left _ _ _ _ (by decide)).trans (ext_right _ _))))
    have h6 : (join (join (join (join (join (join (join (join 0xf7#8 (BitVec.ofBool u)) 0x5#3) rn) 0xf#4) imm5) ty.bits) 0x0#1) rm).extractLsb' 5 2 = ty.bits := ((ext_left _ _ _ _ (by decide)).trans ((ext_left _ _ _ _ (by decide)).trans (ext_right _ _)))
    have h8 : (join (join (join (join (join (join (join (join 0xf7#8 (BitVec.ofBool u)) 0x5#3) rn) 0xf#4) imm5) ty.bits) 0x0#1) rm).extractLsb' 0 4 = rm := (ext_right _ _)
    exact congr (congr (congr (congr (congrArg Instr.pldReg (h1)) (h3)) (h5)) ((congrArg ShiftType.ofBits h6).trans (shiftType_ofBits ty))) (h8)

theorem EncodesToItself.pldwReg (u : Bool) (rn : Reg) (imm5 : BitVec 5) (ty : ShiftType) (rm : Reg) :
    EncodesToItself.Statement (.pldwReg u rn imm5 ty rm) := by
  refine ⟨_, rfl, ?_, ?_⟩
  · show encode (.pldwReg u rn imm5 ty rm) &&& (join (join (join (join (join (join (join (join 0xff#8 0x0#1) 0x7#3) 0x0#4) 0xf#4) 0x0#5) 0x0#2) 0x1#1) 0x0#4) =
      (join (join (join (join (join (join (join (join 0xf7#8 0x0#1) 0x1#3) 0x0#4) 0xf#4) 0x0#5) 0x0#2) 0x0#1) 0x0#4)
    exact (and_parts _ _ _ _).trans (by simp only [and_parts, BitVec.and_zero]; try rfl)
  · have h1 : (join (join (join (join (join (join (join (join 0xf7#8 (BitVec.ofBool u)) 0x1#3) rn) 0xf#4) imm5) ty.bits) 0x0#1) rm).getLsbD 23 = u := ((bit_left _ _ _ (by decide)).trans ((bit_left _ _ _ (by decide)).trans ((bit_left _ _ _ (by decide)).trans ((bit_left _ _ _ (by decide)).trans ((bit_left _ _ _ (by decide)).trans ((bit_left _ _ _ (by decide)).trans ((bit_left _ _ _ (by decide)).trans (bit_right _ _))))))))
    have h3 : (join (join (join (join (join (join (join (join 0xf7#8 (BitVec.ofBool u)) 0x1#3) rn) 0xf#4) imm5) ty.bits) 0x0#1) rm).extractLsb' 16 4 = rn := ((ext_left _ _ _ _ (by decide)).trans ((ext_left _ _ _ _ (by decide)).trans ((ext_left _ _ _ _ (by decide)).trans ((ext_left _ _ _ _ (by decide)).trans ((ext_left _ _ _ _ (by decide)).trans (ext_right _ _))))))
    have h5 : (join (join (join (join (join (join (join (join 0xf7#8 (BitVec.ofBool u)) 0x1#3) rn) 0xf#4) imm5) ty.bits) 0x0#1) rm).extractLsb' 7 5 = imm5 := ((ext_left _ _ _ _ (by decide)).trans ((ext_left _ _ _ _ (by decide)).trans ((ext_left _ _ _ _ (by decide)).trans (ext_right _ _))))
    have h6 : (join (join (join (join (join (join (join (join 0xf7#8 (BitVec.ofBool u)) 0x1#3) rn) 0xf#4) imm5) ty.bits) 0x0#1) rm).extractLsb' 5 2 = ty.bits := ((ext_left _ _ _ _ (by decide)).trans ((ext_left _ _ _ _ (by decide)).trans (ext_right _ _)))
    have h8 : (join (join (join (join (join (join (join (join 0xf7#8 (BitVec.ofBool u)) 0x1#3) rn) 0xf#4) imm5) ty.bits) 0x0#1) rm).extractLsb' 0 4 = rm := (ext_right _ _)
    exact congr (congr (congr (congr (congrArg Instr.pldwReg (h1)) (h3)) (h5)) ((congrArg ShiftType.ofBits h6).trans (shiftType_ofBits ty))) (h8)

theorem EncodesToItself.pliReg (u : Bool) (rn : Reg) (imm5 : BitVec 5) (ty : ShiftType) (rm : Reg) :
    EncodesToItself.Statement (.pliReg u rn imm5 ty rm) := by
  refine ⟨_, rfl, ?_, ?_⟩
  · show encode (.pliReg u rn imm5 ty rm) &&& (join (join (join (join (join (join (join (join 0xff#8 0x0#1) 0x7#3) 0x0#4) 0xf#4) 0x0#5) 0x0#2) 0x1#1) 0x0#4) =
      (join (join (join (join (join (join (join (join 0xf6#8 0x0#1) 0x5#3) 0x0#4) 0xf#4) 0x0#5) 0x0#2) 0x0#1) 0x0#4)
    exact (and_parts _ _ _ _).trans (by simp only [and_parts, BitVec.and_zero]; try rfl)
  · have h1 : (join (join (join (join (join (join (join (join 0xf6#8 (BitVec.ofBool u)) 0x5#3) rn) 0xf#4) imm5) ty.bits) 0x0#1) rm).getLsbD 23 = u := ((bit_left _ _ _ (by decide)).trans ((bit_left _ _ _ (by decide)).trans ((bit_left _ _ _ (by decide)).trans ((bit_left _ _ _ (by decide)).trans ((bit_left _ _ _ (by decide)).trans ((bit_left _ _ _ (by decide)).trans ((bit_left _ _ _ (by decide)).trans (bit_right _ _))))))))
    have h3 : (join (join (join (join (join (join (join (join 0xf6#8 (BitVec.ofBool u)) 0x5#3) rn) 0xf#4) imm5) ty.bits) 0x0#1) rm).extractLsb' 16 4 = rn := ((ext_left _ _ _ _ (by decide)).trans ((ext_left _ _ _ _ (by decide)).trans ((ext_left _ _ _ _ (by decide)).trans ((ext_left _ _ _ _ (by decide)).trans ((ext_left _ _ _ _ (by decide)).trans (ext_right _ _))))))
    have h5 : (join (join (join (join (join (join (join (join 0xf6#8 (BitVec.ofBool u)) 0x5#3) rn) 0xf#4) imm5) ty.bits) 0x0#1) rm).extractLsb' 7 5 = imm5 := ((ext_left _ _ _ _ (by decide)).trans ((ext_left _ _ _ _ (by decide)).trans ((ext_left _ _ _ _ (by decide)).trans (ext_right _ _))))
    have h6 : (join (join (join (join (join (join (join (join 0xf6#8 (BitVec.ofBool u)) 0x5#3) rn) 0xf#4) imm5) ty.bits) 0x0#1) rm).extractLsb' 5 2 = ty.bits := ((ext_left _ _ _ _ (by decide)).trans ((ext_left _ _ _ _ (by decide)).trans (ext_right _ _)))
    have h8 : (join (join (join (join (join (join (join (join 0xf6#8 (BitVec.ofBool u)) 0x5#3) rn) 0xf#4) imm5) ty.bits) 0x0#1) rm).extractLsb' 0 4 = rm := (ext_right _ _)
    exact congr (congr (congr (congr (congrArg Instr.pliReg (h1)) (h3)) (h5)) ((congrArg ShiftType.ofBits h6).trans (shiftType_ofBits ty))) (h8)

theorem EncodesToItself.blxImm (h : Bool) (imm24 : BitVec 24) :
    EncodesToItself.Statement (.blxImm h imm24) := by
  refine ⟨_, rfl, ?_, ?_⟩
  · show encode (.blxImm h imm24) &&& (join (join 0x7f#7 0x0#1) 0x0#24) =
      (join (join 0x7d#7 0x0#1) 0x0#24)
    exact (and_parts _ _ _ _).trans (by simp only [and_parts, BitVec.and_zero]; try rfl)
  · have h1 : (join (join 0x7d#7 (BitVec.ofBool h)) imm24).getLsbD 24 = h := ((bit_left _ _ _ (by decide)).trans (bit_right _ _))
    have h2 : (join (join 0x7d#7 (BitVec.ofBool h)) imm24).extractLsb' 0 24 = imm24 := (ext_right _ _)
    exact congr (congrArg Instr.blxImm (h1)) (h2)

theorem EncodesToItself.advSimdDataProcessing (rest : BitVec 25) :
    EncodesToItself.Statement (.advSimdDataProcessing rest) := by
  refine ⟨_, rfl, ?_, ?_⟩
  · show encode (.advSimdDataProcessing rest) &&& (join 0x7f#7 0x0#25) =
      (join 0x79#7 0x0#25)
    exact (and_parts _ _ _ _).trans (by rw [BitVec.and_zero]; try rfl)
  · have h1 : (join 0x79#7 rest).extractLsb' 0 25 = rest := (ext_right _ _)
    exact congrArg Instr.advSimdDataProcessing (h1)

theorem EncodesToItself.advSimdLoadStore (rest : BitVec 3) (rest1 : BitVec 20) :
    EncodesToItself.Statement (.advSimdLoadStore rest rest1) := by
  refine ⟨_, rfl, ?_, ?_⟩
  · show encode (.advSimdLoadStore rest rest1) &&& (join (join (join 0xff#8 0x0#3) 0x1#1) 0x0#20) =
      (join (join (join 0xf4#8 0x0#3) 0x0#1) 0x0#20)
    exact (and_parts _ _ _ _).trans (by simp only [and_parts, BitVec.and_zero]; try rfl)
  · have h1 : (join (join (join 0xf4#8 rest) 0x0#1) rest1).extractLsb' 21 3 = rest := ((ext_left _ _ _ _ (by decide)).trans ((ext_left _ _ _ _ (by decide)).trans (ext_right _ _)))
    have h3 : (join (join (join 0xf4#8 rest) 0x0#1) rest1).extractLsb' 0 20 = rest1 := (ext_right _ _)
    exact congr (congrArg Instr.advSimdLoadStore (h1)) (h3)

theorem EncodesToItself.coprocTwoSpace (rest : BitVec 14) (coproc : BitVec 4) (rest1 : BitVec 8) :
    EncodesToItself.Statement (.coprocTwoSpace rest coproc rest1) := by
  refine ⟨_, rfl, ?_, ?_⟩
  · show encode (.coprocTwoSpace rest coproc rest1) &&& (join (join (join 0x3f#6 0x0#14) 0x0#4) 0x0#8) =
      (join (join (join 0x3f#6 0x0#14) 0x0#4) 0x0#8)
    exact (and_parts _ _ _ _).trans (by simp only [and_parts, BitVec.and_zero]; try rfl)
  · have h1 : (join (join (join 0x3f#6 rest) coproc) rest1).extractLsb' 12 14 = rest := ((ext_left _ _ _ _ (by decide)).trans ((ext_left _ _ _ _ (by decide)).trans (ext_right _ _)))
    have h2 : (join (join (join 0x3f#6 rest) coproc) rest1).extractLsb' 8 4 = coproc := ((ext_left _ _ _ _ (by decide)).trans (ext_right _ _))
    have h3 : (join (join (join 0x3f#6 rest) coproc) rest1).extractLsb' 0 8 = rest1 := (ext_right _ _)
    exact congr (congr (congrArg Instr.coprocTwoSpace (h1)) (h2)) (h3)

theorem EncodesToItself.restOfUnconditional (rest : BitVec 28) :
    EncodesToItself.Statement (.restOfUnconditional rest) := by
  refine ⟨_, rfl, ?_, ?_⟩
  · show encode (.restOfUnconditional rest) &&& (join 0xf#4 0x0#28) =
      (join 0xf#4 0x0#28)
    exact (and_parts _ _ _ _).trans (by rw [BitVec.and_zero]; try rfl)
  · have h1 : (join 0xf#4 rest).extractLsb' 0 28 = rest := (ext_right _ _)
    exact congrArg Instr.restOfUnconditional (h1)

theorem EncodesToItself.nop (c : Cond) :
    EncodesToItself.Statement (.nop c) := by
  refine ⟨_, rfl, ?_, ?_⟩
  · show encode (.nop c) &&& (join 0x0#4 0xfffffff#28) =
      (join 0x0#4 0x320f000#28)
    exact (and_parts _ _ _ _).trans (by rw [BitVec.and_zero]; try rfl)
  · have h0 : (join c.bits 0x320f000#28).extractLsb' 28 4 = c.bits := ((ext_left _ _ _ _ (by decide)).trans (ext_only _))
    exact congrArg Instr.nop ((congrArg Cond.ofBits h0).trans (cond_ofBits c))

theorem EncodesToItself.yield (c : Cond) :
    EncodesToItself.Statement (.yield c) := by
  refine ⟨_, rfl, ?_, ?_⟩
  · show encode (.yield c) &&& (join 0x0#4 0xfffffff#28) =
      (join 0x0#4 0x320f001#28)
    exact (and_parts _ _ _ _).trans (by rw [BitVec.and_zero]; try rfl)
  · have h0 : (join c.bits 0x320f001#28).extractLsb' 28 4 = c.bits := ((ext_left _ _ _ _ (by decide)).trans (ext_only _))
    exact congrArg Instr.yield ((congrArg Cond.ofBits h0).trans (cond_ofBits c))

theorem EncodesToItself.wfe (c : Cond) :
    EncodesToItself.Statement (.wfe c) := by
  refine ⟨_, rfl, ?_, ?_⟩
  · show encode (.wfe c) &&& (join 0x0#4 0xfffffff#28) =
      (join 0x0#4 0x320f002#28)
    exact (and_parts _ _ _ _).trans (by rw [BitVec.and_zero]; try rfl)
  · have h0 : (join c.bits 0x320f002#28).extractLsb' 28 4 = c.bits := ((ext_left _ _ _ _ (by decide)).trans (ext_only _))
    exact congrArg Instr.wfe ((congrArg Cond.ofBits h0).trans (cond_ofBits c))

theorem EncodesToItself.wfi (c : Cond) :
    EncodesToItself.Statement (.wfi c) := by
  refine ⟨_, rfl, ?_, ?_⟩
  · show encode (.wfi c) &&& (join 0x0#4 0xfffffff#28) =
      (join 0x0#4 0x320f003#28)
    exact (and_parts _ _ _ _).trans (by rw [BitVec.and_zero]; try rfl)
  · have h0 : (join c.bits 0x320f003#28).extractLsb' 28 4 = c.bits := ((ext_left _ _ _ _ (by decide)).trans (ext_only _))
    exact congrArg Instr.wfi ((congrArg Cond.ofBits h0).trans (cond_ofBits c))

theorem EncodesToItself.sev (c : Cond) :
    EncodesToItself.Statement (.sev c) := by
  refine ⟨_, rfl, ?_, ?_⟩
  · show encode (.sev c) &&& (join 0x0#4 0xfffffff#28) =
      (join 0x0#4 0x320f004#28)
    exact (and_parts _ _ _ _).trans (by rw [BitVec.and_zero]; try rfl)
  · have h0 : (join c.bits 0x320f004#28).extractLsb' 28 4 = c.bits := ((ext_left _ _ _ _ (by decide)).trans (ext_only _))
    exact congrArg Instr.sev ((congrArg Cond.ofBits h0).trans (cond_ofBits c))

theorem EncodesToItself.hintUnallocated (c : Cond) (hint8 : BitVec 8) :
    EncodesToItself.Statement (.hintUnallocated c hint8) := by
  refine ⟨_, rfl, ?_, ?_⟩
  · show encode (.hintUnallocated c hint8) &&& (join (join 0x0#4 0xfffff#20) 0x0#8) =
      (join (join 0x0#4 0x320f0#20) 0x0#8)
    exact (and_parts _ _ _ _).trans (by simp only [and_parts, BitVec.and_zero]; try rfl)
  · have h0 : (join (join c.bits 0x320f0#20) hint8).extractLsb' 28 4 = c.bits := ((ext_left _ _ _ _ (by decide)).trans ((ext_left _ _ _ _ (by decide)).trans (ext_only _)))
    have h2 : (join (join c.bits 0x320f0#20) hint8).extractLsb' 0 8 = hint8 := (ext_right _ _)
    exact congr (congrArg Instr.hintUnallocated ((congrArg Cond.ofBits h0).trans (cond_ofBits c))) (h2)

theorem EncodesToItself.msrImm (c : Cond) (r : Bool) (mask4 : BitVec 4) (imm12 : BitVec 12) :
    EncodesToItself.Statement (.msrImm c r mask4 imm12) := by
  refine ⟨_, rfl, ?_, ?_⟩
  · show encode (.msrImm c r mask4 imm12) &&& (join (join (join (join (join (join 0x0#4 0x1f#5) 0x0#1) 0x3#2) 0x0#4) 0xf#4) 0x0#12) =
      (join (join (join (join (join (join 0x0#4 0x6#5) 0x0#1) 0x2#2) 0x0#4) 0xf#4) 0x0#12)
    exact (and_parts _ _ _ _).trans (by simp only [and_parts, BitVec.and_zero]; try rfl)
  · have h0 : (join (join (join (join (join (join c.bits 0x6#5) (BitVec.ofBool r)) 0x2#2) mask4) 0xf#4) imm12).extractLsb' 28 4 = c.bits := ((ext_left _ _ _ _ (by decide)).trans ((ext_left _ _ _ _ (by decide)).trans ((ext_left _ _ _ _ (by decide)).trans ((ext_left _ _ _ _ (by decide)).trans ((ext_left _ _ _ _ (by decide)).trans ((ext_left _ _ _ _ (by decide)).trans (ext_only _)))))))
    have h2 : (join (join (join (join (join (join c.bits 0x6#5) (BitVec.ofBool r)) 0x2#2) mask4) 0xf#4) imm12).getLsbD 22 = r := ((bit_left _ _ _ (by decide)).trans ((bit_left _ _ _ (by decide)).trans ((bit_left _ _ _ (by decide)).trans ((bit_left _ _ _ (by decide)).trans (bit_right _ _)))))
    have h4 : (join (join (join (join (join (join c.bits 0x6#5) (BitVec.ofBool r)) 0x2#2) mask4) 0xf#4) imm12).extractLsb' 16 4 = mask4 := ((ext_left _ _ _ _ (by decide)).trans ((ext_left _ _ _ _ (by decide)).trans (ext_right _ _)))
    have h6 : (join (join (join (join (join (join c.bits 0x6#5) (BitVec.ofBool r)) 0x2#2) mask4) 0xf#4) imm12).extractLsb' 0 12 = imm12 := (ext_right _ _)
    exact congr (congr (congr (congrArg Instr.msrImm ((congrArg Cond.ofBits h0).trans (cond_ofBits c))) (h2)) (h4)) (h6)

theorem EncodesToItself.bkpt (imm12 : BitVec 12) (imm4 : BitVec 4) :
    EncodesToItself.Statement (.bkpt imm12 imm4) := by
  refine ⟨_, rfl, ?_, ?_⟩
  · show encode (.bkpt imm12 imm4) &&& (join (join (join 0xfff#12 0x0#12) 0xf#4) 0x0#4) =
      (join (join (join 0xe12#12 0x0#12) 0x7#4) 0x0#4)
    exact (and_parts _ _ _ _).trans (by simp only [and_parts, BitVec.and_zero]; try rfl)
  · have h1 : (join (join (join 0xe12#12 imm12) 0x7#4) imm4).extractLsb' 8 12 = imm12 := ((ext_left _ _ _ _ (by decide)).trans ((ext_left _ _ _ _ (by decide)).trans (ext_right _ _)))
    have h3 : (join (join (join 0xe12#12 imm12) 0x7#4) imm4).extractLsb' 0 4 = imm4 := (ext_right _ _)
    exact congr (congrArg Instr.bkpt (h1)) (h3)

theorem EncodesToItself.smc (c : Cond) (imm4 : BitVec 4) :
    EncodesToItself.Statement (.smc c imm4) := by
  refine ⟨_, rfl, ?_, ?_⟩
  · show encode (.smc c imm4) &&& (join (join 0x0#4 0xffffff#24) 0x0#4) =
      (join (join 0x0#4 0x160007#24) 0x0#4)
    exact (and_parts _ _ _ _).trans (by simp only [and_parts, BitVec.and_zero]; try rfl)
  · have h0 : (join (join c.bits 0x160007#24) imm4).extractLsb' 28 4 = c.bits := ((ext_left _ _ _ _ (by decide)).trans ((ext_left _ _ _ _ (by decide)).trans (ext_only _)))
    have h2 : (join (join c.bits 0x160007#24) imm4).extractLsb' 0 4 = imm4 := (ext_right _ _)
    exact congr (congrArg Instr.smc ((congrArg Cond.ofBits h0).trans (cond_ofBits c))) (h2)

theorem EncodesToItself.bx (c : Cond) (rm : Reg) :
    EncodesToItself.Statement (.bx c rm) := by
  refine ⟨_, rfl, ?_, ?_⟩
  · show encode (.bx c rm) &&& (join (join 0x0#4 0xffffff#24) 0x0#4) =
      (join (join 0x0#4 0x12fff1#24) 0x0#4)
    exact (and_parts _ _ _ _).trans (by simp only [and_parts, BitVec.and_zero]; try rfl)
  · have h0 : (join (join c.bits 0x12fff1#24) rm).extractLsb' 28 4 = c.bits := ((ext_left _ _ _ _ (by decide)).trans ((ext_left _ _ _ _ (by decide)).trans (ext_only _)))
    have h2 : (join (join c.bits 0x12fff1#24) rm).extractLsb' 0 4 = rm := (ext_right _ _)
    exact congr (congrArg Instr.bx ((congrArg Cond.ofBits h0).trans (cond_ofBits c))) (h2)

theorem EncodesToItself.blxReg (c : Cond) (rm : Reg) :
    EncodesToItself.Statement (.blxReg c rm) := by
  refine ⟨_, rfl, ?_, ?_⟩
  · show encode (.blxReg c rm) &&& (join (join 0x0#4 0xffffff#24) 0x0#4) =
      (join (join 0x0#4 0x12fff3#24) 0x0#4)
    exact (and_parts _ _ _ _).trans (by simp only [and_parts, BitVec.and_zero]; try rfl)
  · have h0 : (join (join c.bits 0x12fff3#24) rm).extractLsb' 28 4 = c.bits := ((ext_left _ _ _ _ (by decide)).trans ((ext_left _ _ _ _ (by decide)).trans (ext_only _)))
    have h2 : (join (join c.bits 0x12fff3#24) rm).extractLsb' 0 4 = rm := (ext_right _ _)
    exact congr (congrArg Instr.blxReg ((congrArg Cond.ofBits h0).trans (cond_ofBits c))) (h2)

theorem EncodesToItself.clz (c : Cond) (rd : Reg) (rm : Reg) :
    EncodesToItself.Statement (.clz c rd rm) := by
  refine ⟨_, rfl, ?_, ?_⟩
  · show encode (.clz c rd rm) &&& (join (join (join (join 0x0#4 0xfff#12) 0x0#4) 0xff#8) 0x0#4) =
      (join (join (join (join 0x0#4 0x16f#12) 0x0#4) 0xf1#8) 0x0#4)
    exact (and_parts _ _ _ _).trans (by simp only [and_parts, BitVec.and_zero]; try rfl)
  · have h0 : (join (join (join (join c.bits 0x16f#12) rd) 0xf1#8) rm).extractLsb' 28 4 = c.bits := ((ext_left _ _ _ _ (by decide)).trans ((ext_left _ _ _ _ (by decide)).trans ((ext_left _ _ _ _ (by decide)).trans ((ext_left _ _ _ _ (by decide)).trans (ext_only _)))))
    have h2 : (join (join (join (join c.bits 0x16f#12) rd) 0xf1#8) rm).extractLsb' 12 4 = rd := ((ext_left _ _ _ _ (by decide)).trans ((ext_left _ _ _ _ (by decide)).trans (ext_right _ _)))
    have h4 : (join (join (join (join c.bits 0x16f#12) rd) 0xf1#8) rm).extractLsb' 0 4 = rm := (ext_right _ _)
    exact congr (congr (congrArg Instr.clz ((congrArg Cond.ofBits h0).trans (cond_ofBits c))) (h2)) (h4)

theorem EncodesToItself.mrs (c : Cond) (r : Bool) (rd : Reg) :
    EncodesToItself.Statement (.mrs c r rd) := by
  refine ⟨_, rfl, ?_, ?_⟩
  · show encode (.mrs c r rd) &&& (join (join (join (join (join 0x0#4 0x1f#5) 0x0#1) 0x3f#6) 0x0#4) 0xfff#12) =
      (join (join (join (join (join 0x0#4 0x2#5) 0x0#1) 0xf#6) 0x0#4) 0x0#12)
    exact (and_parts _ _ _ _).trans (by simp only [and_parts, BitVec.and_zero]; try rfl)
  · have h0 : (join (join (join (join (join c.bits 0x2#5) (BitVec.ofBool r)) 0xf#6) rd) 0x0#12).extractLsb' 28 4 = c.bits := ((ext_left _ _ _ _ (by decide)).trans ((ext_left _ _ _ _ (by decide)).trans ((ext_left _ _ _ _ (by decide)).trans ((ext_left _ _ _ _ (by decide)).trans ((ext_left _ _ _ _ (by decide)).trans (ext_only _))))))
    have h2 : (join (join (join (join (join c.bits 0x2#5) (BitVec.ofBool r)) 0xf#6) rd) 0x0#12).getLsbD 22 = r := ((bit_left _ _ _ (by decide)).trans ((bit_left _ _ _ (by decide)).trans ((bit_left _ _ _ (by decide)).trans (bit_right _ _))))
    have h4 : (join (join (join (join (join c.bits 0x2#5) (BitVec.ofBool r)) 0xf#6) rd) 0x0#12).extractLsb' 12 4 = rd := ((ext_left _ _ _ _ (by decide)).trans (ext_right _ _))
    exact congr (congr (congrArg Instr.mrs ((congrArg Cond.ofBits h0).trans (cond_ofBits c))) (h2)) (h4)

theorem EncodesToItself.msrReg (c : Cond) (r : Bool) (mask4 : BitVec 4) (rn : Reg) :
    EncodesToItself.Statement (.msrReg c r mask4 rn) := by
  refine ⟨_, rfl, ?_, ?_⟩
  · show encode (.msrReg c r mask4 rn) &&& (join (join (join (join (join (join 0x0#4 0x1f#5) 0x0#1) 0x3#2) 0x0#4) 0xfff#12) 0x0#4) =
      (join (join (join (join (join (join 0x0#4 0x2#5) 0x0#1) 0x2#2) 0x0#4) 0xf00#12) 0x0#4)
    exact (and_parts _ _ _ _).trans (by simp only [and_parts, BitVec.and_zero]; try rfl)
  · have h0 : (join (join (join (join (join (join c.bits 0x2#5) (BitVec.ofBool r)) 0x2#2) mask4) 0xf00#12) rn).extractLsb' 28 4 = c.bits := ((ext_left _ _ _ _ (by decide)).trans ((ext_left _ _ _ _ (by decide)).trans ((ext_left _ _ _ _ (by decide)).trans ((ext_left _ _ _ _ (by decide)).trans ((ext_left _ _ _ _ (by decide)).trans ((ext_left _ _ _ _ (by decide)).trans (ext_only _)))))))
    have h2 : (join (join (join (join (join (join c.bits 0x2#5) (BitVec.ofBool r)) 0x2#2) mask4) 0xf00#12) rn).getLsbD 22 = r := ((bit_left _ _ _ (by decide)).trans ((bit_left _ _ _ (by decide)).trans ((bit_left _ _ _ (by decide)).trans ((bit_left _ _ _ (by decide)).trans (bit_right _ _)))))
    have h4 : (join (join (join (join (join (join c.bits 0x2#5) (BitVec.ofBool r)) 0x2#2) mask4) 0xf00#12) rn).extractLsb' 16 4 = mask4 := ((ext_left _ _ _ _ (by decide)).trans ((ext_left _ _ _ _ (by decide)).trans (ext_right _ _)))
    have h6 : (join (join (join (join (join (join c.bits 0x2#5) (BitVec.ofBool r)) 0x2#2) mask4) 0xf00#12) rn).extractLsb' 0 4 = rn := (ext_right _ _)
    exact congr (congr (congr (congrArg Instr.msrReg ((congrArg Cond.ofBits h0).trans (cond_ofBits c))) (h2)) (h4)) (h6)

theorem EncodesToItself.ldrex (c : Cond) (rn : Reg) (rt : Reg) :
    EncodesToItself.Statement (.ldrex c rn rt) := by
  refine ⟨_, rfl, ?_, ?_⟩
  · show encode (.ldrex c rn rt) &&& (join (join (join (join 0x0#4 0xff#8) 0x0#4) 0x0#4) 0xfff#12) =
      (join (join (join (join 0x0#4 0x19#8) 0x0#4) 0x0#4) 0xf9f#12)
    exact (and_parts _ _ _ _).trans (by simp only [and_parts, BitVec.and_zero]; try rfl)
  · have h0 : (join (join (join (join c.bits 0x19#8) rn) rt) 0xf9f#12).extractLsb' 28 4 = c.bits := ((ext_left _ _ _ _ (by decide)).trans ((ext_left _ _ _ _ (by decide)).trans ((ext_left _ _ _ _ (by decide)).trans ((ext_left _ _ _ _ (by decide)).trans (ext_only _)))))
    have h2 : (join (join (join (join c.bits 0x19#8) rn) rt) 0xf9f#12).extractLsb' 16 4 = rn := ((ext_left _ _ _ _ (by decide)).trans ((ext_left _ _ _ _ (by decide)).trans (ext_right _ _)))
    have h3 : (join (join (join (join c.bits 0x19#8) rn) rt) 0xf9f#12).extractLsb' 12 4 = rt := ((ext_left _ _ _ _ (by decide)).trans (ext_right _ _))
    exact congr (congr (congrArg Instr.ldrex ((congrArg Cond.ofBits h0).trans (cond_ofBits c))) (h2)) (h3)

theorem EncodesToItself.strex (c : Cond) (rn : Reg) (rd : Reg) (rt : Reg) :
    EncodesToItself.Statement (.strex c rn rd rt) := by
  refine ⟨_, rfl, ?_, ?_⟩
  · show encode (.strex c rn rd rt) &&& (join (join (join (join (join 0x0#4 0xff#8) 0x0#4) 0x0#4) 0xff#8) 0x0#4) =
      (join (join (join (join (join 0x0#4 0x18#8) 0x0#4) 0x0#4) 0xf9#8) 0x0#4)
    exact (and_parts _ _ _ _).trans (by simp only [and_parts, BitVec.and_zero]; try rfl)
  · have h0 : (join (join (join (join (join c.bits 0x18#8) rn) rd) 0xf9#8) rt).extractLsb' 28 4 = c.bits := ((ext_left _ _ _ _ (by decide)).trans ((ext_left _ _ _ _ (by decide)).trans ((ext_left _ _ _ _ (by decide)).trans ((ext_left _ _ _ _ (by decide)).trans ((ext_left _ _ _ _ (by decide)).trans (ext_only _))))))
    have h2 : (join (join (join (join (join c.bits 0x18#8) rn) rd) 0xf9#8) rt).extractLsb' 16 4 = rn := ((ext_left _ _ _ _ (by decide)).trans ((ext_left _ _ _ _ (by decide)).trans ((ext_left _ _ _ _ (by decide)).trans (ext_right _ _))))
    have h3 : (join (join (join (join (join c.bits 0x18#8) rn) rd) 0xf9#8) rt).extractLsb' 12 4 = rd := ((ext_left _ _ _ _ (by decide)).trans ((ext_left _ _ _ _ (by decide)).trans (ext_right _ _)))
    have h5 : (join (join (join (join (join c.bits 0x18#8) rn) rd) 0xf9#8) rt).extractLsb' 0 4 = rt := (ext_right _ _)
    exact congr (congr (congr (congrArg Instr.strex ((congrArg Cond.ofBits h0).trans (cond_ofBits c))) (h2)) (h3)) (h5)

theorem EncodesToItself.ldrexd (c : Cond) (rn : Reg) (rt : Reg) :
    EncodesToItself.Statement (.ldrexd c rn rt) := by
  refine ⟨_, rfl, ?_, ?_⟩
  · show encode (.ldrexd c rn rt) &&& (join (join (join (join 0x0#4 0xff#8) 0x0#4) 0x0#4) 0xfff#12) =
      (join (join (join (join 0x0#4 0x1b#8) 0x0#4) 0x0#4) 0xf9f#12)
    exact (and_parts _ _ _ _).trans (by simp only [and_parts, BitVec.and_zero]; try rfl)
  · have h0 : (join (join (join (join c.bits 0x1b#8) rn) rt) 0xf9f#12).extractLsb' 28 4 = c.bits := ((ext_left _ _ _ _ (by decide)).trans ((ext_left _ _ _ _ (by decide)).trans ((ext_left _ _ _ _ (by decide)).trans ((ext_left _ _ _ _ (by decide)).trans (ext_only _)))))
    have h2 : (join (join (join (join c.bits 0x1b#8) rn) rt) 0xf9f#12).extractLsb' 16 4 = rn := ((ext_left _ _ _ _ (by decide)).trans ((ext_left _ _ _ _ (by decide)).trans (ext_right _ _)))
    have h3 : (join (join (join (join c.bits 0x1b#8) rn) rt) 0xf9f#12).extractLsb' 12 4 = rt := ((ext_left _ _ _ _ (by decide)).trans (ext_right _ _))
    exact congr (congr (congrArg Instr.ldrexd ((congrArg Cond.ofBits h0).trans (cond_ofBits c))) (h2)) (h3)

theorem EncodesToItself.strexd (c : Cond) (rn : Reg) (rd : Reg) (rt : Reg) :
    EncodesToItself.Statement (.strexd c rn rd rt) := by
  refine ⟨_, rfl, ?_, ?_⟩
  · show encode (.strexd c rn rd rt) &&& (join (join (join (join (join 0x0#4 0xff#8) 0x0#4) 0x0#4) 0xff#8) 0x0#4) =
      (join (join (join (join (join 0x0#4 0x1a#8) 0x0#4) 0x0#4) 0xf9#8) 0x0#4)
    exact (and_parts _ _ _ _).trans (by simp only [and_parts, BitVec.and_zero]; try rfl)
  · have h0 : (join (join (join (join (join c.bits 0x1a#8) rn) rd) 0xf9#8) rt).extractLsb' 28 4 = c.bits := ((ext_left _ _ _ _ (by decide)).trans ((ext_left _ _ _ _ (by decide)).trans ((ext_left _ _ _ _ (by decide)).trans ((ext_left _ _ _ _ (by decide)).trans ((ext_left _ _ _ _ (by decide)).trans (ext_only _))))))
    have h2 : (join (join (join (join (join c.bits 0x1a#8) rn) rd) 0xf9#8) rt).extractLsb' 16 4 = rn := ((ext_left _ _ _ _ (by decide)).trans ((ext_left _ _ _ _ (by decide)).trans ((ext_left _ _ _ _ (by decide)).trans (ext_right _ _))))
    have h3 : (join (join (join (join (join c.bits 0x1a#8) rn) rd) 0xf9#8) rt).extractLsb' 12 4 = rd := ((ext_left _ _ _ _ (by decide)).trans ((ext_left _ _ _ _ (by decide)).trans (ext_right _ _)))
    have h5 : (join (join (join (join (join c.bits 0x1a#8) rn) rd) 0xf9#8) rt).extractLsb' 0 4 = rt := (ext_right _ _)
    exact congr (congr (congr (congrArg Instr.strexd ((congrArg Cond.ofBits h0).trans (cond_ofBits c))) (h2)) (h3)) (h5)

theorem EncodesToItself.ldrexb (c : Cond) (rn : Reg) (rt : Reg) :
    EncodesToItself.Statement (.ldrexb c rn rt) := by
  refine ⟨_, rfl, ?_, ?_⟩
  · show encode (.ldrexb c rn rt) &&& (join (join (join (join 0x0#4 0xff#8) 0x0#4) 0x0#4) 0xfff#12) =
      (join (join (join (join 0x0#4 0x1d#8) 0x0#4) 0x0#4) 0xf9f#12)
    exact (and_parts _ _ _ _).trans (by simp only [and_parts, BitVec.and_zero]; try rfl)
  · have h0 : (join (join (join (join c.bits 0x1d#8) rn) rt) 0xf9f#12).extractLsb' 28 4 = c.bits := ((ext_left _ _ _ _ (by decide)).trans ((ext_left _ _ _ _ (by decide)).trans ((ext_left _ _ _ _ (by decide)).trans ((ext_left _ _ _ _ (by decide)).trans (ext_only _)))))
    have h2 : (join (join (join (join c.bits 0x1d#8) rn) rt) 0xf9f#12).extractLsb' 16 4 = rn := ((ext_left _ _ _ _ (by decide)).trans ((ext_left _ _ _ _ (by decide)).trans (ext_right _ _)))
    have h3 : (join (join (join (join c.bits 0x1d#8) rn) rt) 0xf9f#12).extractLsb' 12 4 = rt := ((ext_left _ _ _ _ (by decide)).trans (ext_right _ _))
    exact congr (congr (congrArg Instr.ldrexb ((congrArg Cond.ofBits h0).trans (cond_ofBits c))) (h2)) (h3)

theorem EncodesToItself.strexb (c : Cond) (rn : Reg) (rd : Reg) (rt : Reg) :
    EncodesToItself.Statement (.strexb c rn rd rt) := by
  refine ⟨_, rfl, ?_, ?_⟩
  · show encode (.strexb c rn rd rt) &&& (join (join (join (join (join 0x0#4 0xff#8) 0x0#4) 0x0#4) 0xff#8) 0x0#4) =
      (join (join (join (join (join 0x0#4 0x1c#8) 0x0#4) 0x0#4) 0xf9#8) 0x0#4)
    exact (and_parts _ _ _ _).trans (by simp only [and_parts, BitVec.and_zero]; try rfl)
  · have h0 : (join (join (join (join (join c.bits 0x1c#8) rn) rd) 0xf9#8) rt).extractLsb' 28 4 = c.bits := ((ext_left _ _ _ _ (by decide)).trans ((ext_left _ _ _ _ (by decide)).trans ((ext_left _ _ _ _ (by decide)).trans ((ext_left _ _ _ _ (by decide)).trans ((ext_left _ _ _ _ (by decide)).trans (ext_only _))))))
    have h2 : (join (join (join (join (join c.bits 0x1c#8) rn) rd) 0xf9#8) rt).extractLsb' 16 4 = rn := ((ext_left _ _ _ _ (by decide)).trans ((ext_left _ _ _ _ (by decide)).trans ((ext_left _ _ _ _ (by decide)).trans (ext_right _ _))))
    have h3 : (join (join (join (join (join c.bits 0x1c#8) rn) rd) 0xf9#8) rt).extractLsb' 12 4 = rd := ((ext_left _ _ _ _ (by decide)).trans ((ext_left _ _ _ _ (by decide)).trans (ext_right _ _)))
    have h5 : (join (join (join (join (join c.bits 0x1c#8) rn) rd) 0xf9#8) rt).extractLsb' 0 4 = rt := (ext_right _ _)
    exact congr (congr (congr (congrArg Instr.strexb ((congrArg Cond.ofBits h0).trans (cond_ofBits c))) (h2)) (h3)) (h5)

theorem EncodesToItself.ldrexh (c : Cond) (rn : Reg) (rt : Reg) :
    EncodesToItself.Statement (.ldrexh c rn rt) := by
  refine ⟨_, rfl, ?_, ?_⟩
  · show encode (.ldrexh c rn rt) &&& (join (join (join (join 0x0#4 0xff#8) 0x0#4) 0x0#4) 0xfff#12) =
      (join (join (join (join 0x0#4 0x1f#8) 0x0#4) 0x0#4) 0xf9f#12)
    exact (and_parts _ _ _ _).trans (by simp only [and_parts, BitVec.and_zero]; try rfl)
  · have h0 : (join (join (join (join c.bits 0x1f#8) rn) rt) 0xf9f#12).extractLsb' 28 4 = c.bits := ((ext_left _ _ _ _ (by decide)).trans ((ext_left _ _ _ _ (by decide)).trans ((ext_left _ _ _ _ (by decide)).trans ((ext_left _ _ _ _ (by decide)).trans (ext_only _)))))
    have h2 : (join (join (join (join c.bits 0x1f#8) rn) rt) 0xf9f#12).extractLsb' 16 4 = rn := ((ext_left _ _ _ _ (by decide)).trans ((ext_left _ _ _ _ (by decide)).trans (ext_right _ _)))
    have h3 : (join (join (join (join c.bits 0x1f#8) rn) rt) 0xf9f#12).extractLsb' 12 4 = rt := ((ext_left _ _ _ _ (by decide)).trans (ext_right _ _))
    exact congr (congr (congrArg Instr.ldrexh ((congrArg Cond.ofBits h0).trans (cond_ofBits c))) (h2)) (h3)

theorem EncodesToItself.strexh (c : Cond) (rn : Reg) (rd : Reg) (rt : Reg) :
    EncodesToItself.Statement (.strexh c rn rd rt) := by
  refine ⟨_, rfl, ?_, ?_⟩
  · show encode (.strexh c rn rd rt) &&& (join (join (join (join (join 0x0#4 0xff#8) 0x0#4) 0x0#4) 0xff#8) 0x0#4) =
      (join (join (join (join (join 0x0#4 0x1e#8) 0x0#4) 0x0#4) 0xf9#8) 0x0#4)
    exact (and_parts _ _ _ _).trans (by simp only [and_parts, BitVec.and_zero]; try rfl)
  · have h0 : (join (join (join (join (join c.bits 0x1e#8) rn) rd) 0xf9#8) rt).extractLsb' 28 4 = c.bits := ((ext_left _ _ _ _ (by decide)).trans ((ext_left _ _ _ _ (by decide)).trans ((ext_left _ _ _ _ (by decide)).trans ((ext_left _ _ _ _ (by decide)).trans ((ext_left _ _ _ _ (by decide)).trans (ext_only _))))))
    have h2 : (join (join (join (join (join c.bits 0x1e#8) rn) rd) 0xf9#8) rt).extractLsb' 16 4 = rn := ((ext_left _ _ _ _ (by decide)).trans ((ext_left _ _ _ _ (by decide)).trans ((ext_left _ _ _ _ (by decide)).trans (ext_right _ _))))
    have h3 : (join (join (join (join (join c.bits 0x1e#8) rn) rd) 0xf9#8) rt).extractLsb' 12 4 = rd := ((ext_left _ _ _ _ (by decide)).trans ((ext_left _ _ _ _ (by decide)).trans (ext_right _ _)))
    have h5 : (join (join (join (join (join c.bits 0x1e#8) rn) rd) 0xf9#8) rt).extractLsb' 0 4 = rt := (ext_right _ _)
    exact congr (congr (congr (congrArg Instr.strexh ((congrArg Cond.ofBits h0).trans (cond_ofBits c))) (h2)) (h3)) (h5)

theorem EncodesToItself.swp (c : Cond) (rn : Reg) (rt : Reg) (rt2 : Reg) :
    EncodesToItself.Statement (.swp c rn rt rt2) := by
  refine ⟨_, rfl, ?_, ?_⟩
  · show encode (.swp c rn rt rt2) &&& (join (join (join (join (join 0x0#4 0xff#8) 0x0#4) 0x0#4) 0xff#8) 0x0#4) =
      (join (join (join (join (join 0x0#4 0x10#8) 0x0#4) 0x0#4) 0x9#8) 0x0#4)
    exact (and_parts _ _ _ _).trans (by simp only [and_parts, BitVec.and_zero]; try rfl)
  · have h0 : (join (join (join (join (join c.bits 0x10#8) rn) rt) 0x9#8) rt2).extractLsb' 28 4 = c.bits := ((ext_left _ _ _ _ (by decide)).trans ((ext_left _ _ _ _ (by decide)).trans ((ext_left _ _ _ _ (by decide)).trans ((ext_left _ _ _ _ (by decide)).trans ((ext_left _ _ _ _ (by decide)).trans (ext_only _))))))
    have h2 : (join (join (join (join (join c.bits 0x10#8) rn) rt) 0x9#8) rt2).extractLsb' 16 4 = rn := ((ext_left _ _ _ _ (by decide)).trans ((ext_left _ _ _ _ (by decide)).trans ((ext_left _ _ _ _ (by decide)).trans (ext_right _ _))))
    have h3 : (join (join (join (join (join c.bits 0x10#8) rn) rt) 0x9#8) rt2).extractLsb' 12 4 = rt := ((ext_left _ _ _ _ (by decide)).trans ((ext_left _ _ _ _ (by decide)).trans (ext_right _ _)))
    have h5 : (join (join (join (join (join c.bits 0x10#8) rn) rt) 0x9#8) rt2).extractLsb' 0 4 = rt2 := (ext_right _ _)
    exact congr (congr (congr (congrArg Instr.swp ((congrArg Cond.ofBits h0).trans (cond_ofBits c))) (h2)) (h3)) (h5)

theorem EncodesToItself.swpb (c : Cond) (rn : Reg) (rt : Reg) (rt2 : Reg) :
    EncodesToItself.Statement (.swpb c rn rt rt2) := by
  refine ⟨_, rfl, ?_, ?_⟩
  · show encode (.swpb c rn rt rt2) &&& (join (join (join (join (join 0x0#4 0xff#8) 0x0#4) 0x0#4) 0xff#8) 0x0#4) =
      (join (join (join (join (join 0x0#4 0x14#8) 0x0#4) 0x0#4) 0x9#8) 0x0#4)
    exact (and_parts _ _ _ _).trans (by simp only [and_parts, BitVec.and_zero]; try rfl)
  · have h0 : (join (join (join (join (join c.bits 0x14#8) rn) rt) 0x9#8) rt2).extractLsb' 28 4 = c.bits := ((ext_left _ _ _ _ (by decide)).trans ((ext_left _ _ _ _ (by decide)).trans ((ext_left _ _ _ _ (by decide)).trans ((ext_left _ _ _ _ (by decide)).trans ((ext_left _ _ _ _ (by decide)).trans (ext_only _))))))
    have h2 : (join (join (join (join (join c.bits 0x14#8) rn) rt) 0x9#8) rt2).extractLsb' 16 4 = rn := ((ext_left _ _ _ _ (by decide)).trans ((ext_left _ _ _ _ (by decide)).trans ((ext_left _ _ _ _ (by decide)).trans (ext_right _ _))))
    have h3 : (join (join (join (join (join c.bits 0x14#8) rn) rt) 0x9#8) rt2).extractLsb' 12 4 = rt := ((ext_left _ _ _ _ (by decide)).trans ((ext_left _ _ _ _ (by decide)).trans (ext_right _ _)))
    have h5 : (join (join (join (join (join c.bits 0x14#8) rn) rt) 0x9#8) rt2).extractLsb' 0 4 = rt2 := (ext_right _ _)
    exact congr (congr (congr (congrArg Instr.swpb ((congrArg Cond.ofBits h0).trans (cond_ofBits c))) (h2)) (h3)) (h5)

theorem EncodesToItself.mul (c : Cond) (s : Bool) (rd : Reg) (rm : Reg) (rn : Reg) :
    EncodesToItself.Statement (.mul c s rd rm rn) := by
  refine ⟨_, rfl, ?_, ?_⟩
  · show encode (.mul c s rd rm rn) &&& (join (join (join (join (join (join (join 0x0#4 0x7f#7) 0x0#1) 0x0#4) 0xf#4) 0x0#4) 0xf#4) 0x0#4) =
      (join (join (join (join (join (join (join 0x0#4 0x0#7) 0x0#1) 0x0#4) 0x0#4) 0x0#4) 0x9#4) 0x0#4)
    exact (and_parts _ _ _ _).trans (by simp only [and_parts, BitVec.and_zero]; try rfl)
  · have h0 : (join (join (join (join (join (join (join c.bits 0x0#7) (BitVec.ofBool s)) rd) 0x0#4) rm) 0x9#4) rn).extractLsb' 28 4 = c.bits := ((ext_left _ _ _ _ (by decide)).trans ((ext_left _ _ _ _ (by decide)).trans ((ext_left _ _ _ _ (by decide)).trans ((ext_left _ _ _ _ (by decide)).trans ((ext_left _ _ _ _ (by decide)).trans ((ext_left _ _ _ _ (by decide)).trans ((ext_left _ _ _ _ (by decide)).trans (ext_only _))))))))
    have h2 : (join (join (join (join (join (join (join c.bits 0x0#7) (BitVec.ofBool s)) rd) 0x0#4) rm) 0x9#4) rn).getLsbD 20 = s := ((bit_left _ _ _ (by decide)).trans ((bit_left _ _ _ (by decide)).trans ((bit_left _ _ _ (by decide)).trans ((bit_left _ _ _ (by decide)).trans ((bit_left _ _ _ (by decide)).trans (bit_right _ _))))))
    have h3 : (join (join (join (join (join (join (join c.bits 0x0#7) (BitVec.ofBool s)) rd) 0x0#4) rm) 0x9#4) rn).extractLsb' 16 4 = rd := ((ext_left _ _ _ _ (by decide)).trans ((ext_left _ _ _ _ (by decide)).trans ((ext_left _ _ _ _ (by decide)).trans ((ext_left _ _ _ _ (by decide)).trans (ext_right _ _)))))
    have h5 : (join (join (join (join (join (join (join c.bits 0x0#7) (BitVec.ofBool s)) rd) 0x0#4) rm) 0x9#4) rn).extractLsb' 8 4 = rm := ((ext_left _ _ _ _ (by decide)).trans ((ext_left _ _ _ _ (by decide)).trans (ext_right _ _)))
    have h7 : (join (join (join (join (join (join (join c.bits 0x0#7) (BitVec.ofBool s)) rd) 0x0#4) rm) 0x9#4) rn).extractLsb' 0 4 = rn := (ext_right _ _)
    exact congr (congr (congr (congr (congrArg Instr.mul ((congrArg Cond.ofBits h0).trans (cond_ofBits c))) (h2)) (h3)) (h5)) (h7)

theorem EncodesToItself.mla (c : Cond) (s : Bool) (rd : Reg) (ra : Reg) (rm : Reg) (rn : Reg) :
    EncodesToItself.Statement (.mla c s rd ra rm rn) := by
  refine ⟨_, rfl, ?_, ?_⟩
  · show encode (.mla c s rd ra rm rn) &&& (join (join (join (join (join (join (join 0x0#4 0x7f#7) 0x0#1) 0x0#4) 0x0#4) 0x0#4) 0xf#4) 0x0#4) =
      (join (join (join (join (join (join (join 0x0#4 0x1#7) 0x0#1) 0x0#4) 0x0#4) 0x0#4) 0x9#4) 0x0#4)
    exact (and_parts _ _ _ _).trans (by simp only [and_parts, BitVec.and_zero]; try rfl)
  · have h0 : (join (join (join (join (join (join (join c.bits 0x1#7) (BitVec.ofBool s)) rd) ra) rm) 0x9#4) rn).extractLsb' 28 4 = c.bits := ((ext_left _ _ _ _ (by decide)).trans ((ext_left _ _ _ _ (by decide)).trans ((ext_left _ _ _ _ (by decide)).trans ((ext_left _ _ _ _ (by decide)).trans ((ext_left _ _ _ _ (by decide)).trans ((ext_left _ _ _ _ (by decide)).trans ((ext_left _ _ _ _ (by decide)).trans (ext_only _))))))))
    have h2 : (join (join (join (join (join (join (join c.bits 0x1#7) (BitVec.ofBool s)) rd) ra) rm) 0x9#4) rn).getLsbD 20 = s := ((bit_left _ _ _ (by decide)).trans ((bit_left _ _ _ (by decide)).trans ((bit_left _ _ _ (by decide)).trans ((bit_left _ _ _ (by decide)).trans ((bit_left _ _ _ (by decide)).trans (bit_right _ _))))))
    have h3 : (join (join (join (join (join (join (join c.bits 0x1#7) (BitVec.ofBool s)) rd) ra) rm) 0x9#4) rn).extractLsb' 16 4 = rd := ((ext_left _ _ _ _ (by decide)).trans ((ext_left _ _ _ _ (by decide)).trans ((ext_left _ _ _ _ (by decide)).trans ((ext_left _ _ _ _ (by decide)).trans (ext_right _ _)))))
    have h4 : (join (join (join (join (join (join (join c.bits 0x1#7) (BitVec.ofBool s)) rd) ra) rm) 0x9#4) rn).extractLsb' 12 4 = ra := ((ext_left _ _ _ _ (by decide)).trans ((ext_left _ _ _ _ (by decide)).trans ((ext_left _ _ _ _ (by decide)).trans (ext_right _ _))))
    have h5 : (join (join (join (join (join (join (join c.bits 0x1#7) (BitVec.ofBool s)) rd) ra) rm) 0x9#4) rn).extractLsb' 8 4 = rm := ((ext_left _ _ _ _ (by decide)).trans ((ext_left _ _ _ _ (by decide)).trans (ext_right _ _)))
    have h7 : (join (join (join (join (join (join (join c.bits 0x1#7) (BitVec.ofBool s)) rd) ra) rm) 0x9#4) rn).extractLsb' 0 4 = rn := (ext_right _ _)
    exact congr (congr (congr (congr (congr (congrArg Instr.mla ((congrArg Cond.ofBits h0).trans (cond_ofBits c))) (h2)) (h3)) (h4)) (h5)) (h7)

theorem EncodesToItself.mls (c : Cond) (rd : Reg) (ra : Reg) (rm : Reg) (rn : Reg) :
    EncodesToItself.Statement (.mls c rd ra rm rn) := by
  refine ⟨_, rfl, ?_, ?_⟩
  · show encode (.mls c rd ra rm rn) &&& (join (join (join (join (join (join 0x0#4 0xff#8) 0x0#4) 0x0#4) 0x0#4) 0xf#4) 0x0#4) =
      (join (join (join (join (join (join 0x0#4 0x6#8) 0x0#4) 0x0#4) 0x0#4) 0x9#4) 0x0#4)
    exact (and_parts _ _ _ _).trans (by simp only [and_parts, BitVec.and_zero]; try rfl)
  · have h0 : (join (join (join (join (join (join c.bits 0x6#8) rd) ra) rm) 0x9#4) rn).extractLsb' 28 4 = c.bits := ((ext_left _ _ _ _ (by decide)).trans ((ext_left _ _ _ _ (by decide)).trans ((ext_left _ _ _ _ (by decide)).trans ((ext_left _ _ _ _ (by decide)).trans ((ext_left _ _ _ _ (by decide)).trans ((ext_left _ _ _ _ (by decide)).trans (ext_only _)))))))
    have h2 : (join (join (join (join (join (join c.bits 0x6#8) rd) ra) rm) 0x9#4) rn).extractLsb' 16 4 = rd := ((ext_left _ _ _ _ (by decide)).trans ((ext_left _ _ _ _ (by decide)).trans ((ext_left _ _ _ _ (by decide)).trans ((ext_left _ _ _ _ (by decide)).trans (ext_right _ _)))))
    have h3 : (join (join (join (join (join (join c.bits 0x6#8) rd) ra) rm) 0x9#4) rn).extractLsb' 12 4 = ra := ((ext_left _ _ _ _ (by decide)).trans ((ext_left _ _ _ _ (by decide)).trans ((ext_left _ _ _ _ (by decide)).trans (ext_right _ _))))
    have h4 : (join (join (join (join (join (join c.bits 0x6#8) rd) ra) rm) 0x9#4) rn).extractLsb' 8 4 = rm := ((ext_left _ _ _ _ (by decide)).trans ((ext_left _ _ _ _ (by decide)).trans (ext_right _ _)))
    have h6 : (join (join (join (join (join (join c.bits 0x6#8) rd) ra) rm) 0x9#4) rn).extractLsb' 0 4 = rn := (ext_right _ _)
    exact congr (congr (congr (congr (congrArg Instr.mls ((congrArg Cond.ofBits h0).trans (cond_ofBits c))) (h2)) (h3)) (h4)) (h6)

theorem EncodesToItself.umull (c : Cond) (s : Bool) (rdHi : Reg) (rdLo : Reg) (rm : Reg) (rn : Reg) :
    EncodesToItself.Statement (.umull c s rdHi rdLo rm rn) := by
  refine ⟨_, rfl, ?_, ?_⟩
  · show encode (.umull c s rdHi rdLo rm rn) &&& (join (join (join (join (join (join (join 0x0#4 0x7f#7) 0x0#1) 0x0#4) 0x0#4) 0x0#4) 0xf#4) 0x0#4) =
      (join (join (join (join (join (join (join 0x0#4 0x4#7) 0x0#1) 0x0#4) 0x0#4) 0x0#4) 0x9#4) 0x0#4)
    exact (and_parts _ _ _ _).trans (by simp only [and_parts, BitVec.and_zero]; try rfl)
  · have h0 : (join (join (join (join (join (join (join c.bits 0x4#7) (BitVec.ofBool s)) rdHi) rdLo) rm) 0x9#4) rn).extractLsb' 28 4 = c.bits := ((ext_left _ _ _ _ (by decide)).trans ((ext_left _ _ _ _ (by decide)).trans ((ext_left _ _ _ _ (by decide)).trans ((ext_left _ _ _ _ (by decide)).trans ((ext_left _ _ _ _ (by decide)).trans ((ext_left _ _ _ _ (by decide)).trans ((ext_left _ _ _ _ (by decide)).trans (ext_only _))))))))
    have h2 : (join (join (join (join (join (join (join c.bits 0x4#7) (BitVec.ofBool s)) rdHi) rdLo) rm) 0x9#4) rn).getLsbD 20 = s := ((bit_left _ _ _ (by decide)).trans ((bit_left _ _ _ (by decide)).trans ((bit_left _ _ _ (by decide)).trans ((bit_left _ _ _ (by decide)).trans ((bit_left _ _ _ (by decide)).trans (bit_right _ _))))))
    have h3 : (join (join (join (join (join (join (join c.bits 0x4#7) (BitVec.ofBool s)) rdHi) rdLo) rm) 0x9#4) rn).extractLsb' 16 4 = rdHi := ((ext_left _ _ _ _ (by decide)).trans ((ext_left _ _ _ _ (by decide)).trans ((ext_left _ _ _ _ (by decide)).trans ((ext_left _ _ _ _ (by decide)).trans (ext_right _ _)))))
    have h4 : (join (join (join (join (join (join (join c.bits 0x4#7) (BitVec.ofBool s)) rdHi) rdLo) rm) 0x9#4) rn).extractLsb' 12 4 = rdLo := ((ext_left _ _ _ _ (by decide)).trans ((ext_left _ _ _ _ (by decide)).trans ((ext_left _ _ _ _ (by decide)).trans (ext_right _ _))))
    have h5 : (join (join (join (join (join (join (join c.bits 0x4#7) (BitVec.ofBool s)) rdHi) rdLo) rm) 0x9#4) rn).extractLsb' 8 4 = rm := ((ext_left _ _ _ _ (by decide)).trans ((ext_left _ _ _ _ (by decide)).trans (ext_right _ _)))
    have h7 : (join (join (join (join (join (join (join c.bits 0x4#7) (BitVec.ofBool s)) rdHi) rdLo) rm) 0x9#4) rn).extractLsb' 0 4 = rn := (ext_right _ _)
    exact congr (congr (congr (congr (congr (congrArg Instr.umull ((congrArg Cond.ofBits h0).trans (cond_ofBits c))) (h2)) (h3)) (h4)) (h5)) (h7)

theorem EncodesToItself.umlal (c : Cond) (s : Bool) (rdHi : Reg) (rdLo : Reg) (rm : Reg) (rn : Reg) :
    EncodesToItself.Statement (.umlal c s rdHi rdLo rm rn) := by
  refine ⟨_, rfl, ?_, ?_⟩
  · show encode (.umlal c s rdHi rdLo rm rn) &&& (join (join (join (join (join (join (join 0x0#4 0x7f#7) 0x0#1) 0x0#4) 0x0#4) 0x0#4) 0xf#4) 0x0#4) =
      (join (join (join (join (join (join (join 0x0#4 0x5#7) 0x0#1) 0x0#4) 0x0#4) 0x0#4) 0x9#4) 0x0#4)
    exact (and_parts _ _ _ _).trans (by simp only [and_parts, BitVec.and_zero]; try rfl)
  · have h0 : (join (join (join (join (join (join (join c.bits 0x5#7) (BitVec.ofBool s)) rdHi) rdLo) rm) 0x9#4) rn).extractLsb' 28 4 = c.bits := ((ext_left _ _ _ _ (by decide)).trans ((ext_left _ _ _ _ (by decide)).trans ((ext_left _ _ _ _ (by decide)).trans ((ext_left _ _ _ _ (by decide)).trans ((ext_left _ _ _ _ (by decide)).trans ((ext_left _ _ _ _ (by decide)).trans ((ext_left _ _ _ _ (by decide)).trans (ext_only _))))))))
    have h2 : (join (join (join (join (join (join (join c.bits 0x5#7) (BitVec.ofBool s)) rdHi) rdLo) rm) 0x9#4) rn).getLsbD 20 = s := ((bit_left _ _ _ (by decide)).trans ((bit_left _ _ _ (by decide)).trans ((bit_left _ _ _ (by decide)).trans ((bit_left _ _ _ (by decide)).trans ((bit_left _ _ _ (by decide)).trans (bit_right _ _))))))
    have h3 : (join (join (join (join (join (join (join c.bits 0x5#7) (BitVec.ofBool s)) rdHi) rdLo) rm) 0x9#4) rn).extractLsb' 16 4 = rdHi := ((ext_left _ _ _ _ (by decide)).trans ((ext_left _ _ _ _ (by decide)).trans ((ext_left _ _ _ _ (by decide)).trans ((ext_left _ _ _ _ (by decide)).trans (ext_right _ _)))))
    have h4 : (join (join (join (join (join (join (join c.bits 0x5#7) (BitVec.ofBool s)) rdHi) rdLo) rm) 0x9#4) rn).extractLsb' 12 4 = rdLo := ((ext_left _ _ _ _ (by decide)).trans ((ext_left _ _ _ _ (by decide)).trans ((ext_left _ _ _ _ (by decide)).trans (ext_right _ _))))
    have h5 : (join (join (join (join (join (join (join c.bits 0x5#7) (BitVec.ofBool s)) rdHi) rdLo) rm) 0x9#4) rn).extractLsb' 8 4 = rm := ((ext_left _ _ _ _ (by decide)).trans ((ext_left _ _ _ _ (by decide)).trans (ext_right _ _)))
    have h7 : (join (join (join (join (join (join (join c.bits 0x5#7) (BitVec.ofBool s)) rdHi) rdLo) rm) 0x9#4) rn).extractLsb' 0 4 = rn := (ext_right _ _)
    exact congr (congr (congr (congr (congr (congrArg Instr.umlal ((congrArg Cond.ofBits h0).trans (cond_ofBits c))) (h2)) (h3)) (h4)) (h5)) (h7)

theorem EncodesToItself.smull (c : Cond) (s : Bool) (rdHi : Reg) (rdLo : Reg) (rm : Reg) (rn : Reg) :
    EncodesToItself.Statement (.smull c s rdHi rdLo rm rn) := by
  refine ⟨_, rfl, ?_, ?_⟩
  · show encode (.smull c s rdHi rdLo rm rn) &&& (join (join (join (join (join (join (join 0x0#4 0x7f#7) 0x0#1) 0x0#4) 0x0#4) 0x0#4) 0xf#4) 0x0#4) =
      (join (join (join (join (join (join (join 0x0#4 0x6#7) 0x0#1) 0x0#4) 0x0#4) 0x0#4) 0x9#4) 0x0#4)
    exact (and_parts _ _ _ _).trans (by simp only [and_parts, BitVec.and_zero]; try rfl)
  · have h0 : (join (join (join (join (join (join (join c.bits 0x6#7) (BitVec.ofBool s)) rdHi) rdLo) rm) 0x9#4) rn).extractLsb' 28 4 = c.bits := ((ext_left _ _ _ _ (by decide)).trans ((ext_left _ _ _ _ (by decide)).trans ((ext_left _ _ _ _ (by decide)).trans ((ext_left _ _ _ _ (by decide)).trans ((ext_left _ _ _ _ (by decide)).trans ((ext_left _ _ _ _ (by decide)).trans ((ext_left _ _ _ _ (by decide)).trans (ext_only _))))))))
    have h2 : (join (join (join (join (join (join (join c.bits 0x6#7) (BitVec.ofBool s)) rdHi) rdLo) rm) 0x9#4) rn).getLsbD 20 = s := ((bit_left _ _ _ (by decide)).trans ((bit_left _ _ _ (by decide)).trans ((bit_left _ _ _ (by decide)).trans ((bit_left _ _ _ (by decide)).trans ((bit_left _ _ _ (by decide)).trans (bit_right _ _))))))
    have h3 : (join (join (join (join (join (join (join c.bits 0x6#7) (BitVec.ofBool s)) rdHi) rdLo) rm) 0x9#4) rn).extractLsb' 16 4 = rdHi := ((ext_left _ _ _ _ (by decide)).trans ((ext_left _ _ _ _ (by decide)).trans ((ext_left _ _ _ _ (by decide)).trans ((ext_left _ _ _ _ (by decide)).trans (ext_right _ _)))))
    have h4 : (join (join (join (join (join (join (join c.bits 0x6#7) (BitVec.ofBool s)) rdHi) rdLo) rm) 0x9#4) rn).extractLsb' 12 4 = rdLo := ((ext_left _ _ _ _ (by decide)).trans ((ext_left _ _ _ _ (by decide)).trans ((ext_left _ _ _ _ (by decide)).trans (ext_right _ _))))
    have h5 : (join (join (join (join (join (join (join c.bits 0x6#7) (BitVec.ofBool s)) rdHi) rdLo) rm) 0x9#4) rn).extractLsb' 8 4 = rm := ((ext_left _ _ _ _ (by decide)).trans ((ext_left _ _ _ _ (by decide)).trans (ext_right _ _)))
    have h7 : (join (join (join (join (join (join (join c.bits 0x6#7) (BitVec.ofBool s)) rdHi) rdLo) rm) 0x9#4) rn).extractLsb' 0 4 = rn := (ext_right _ _)
    exact congr (congr (congr (congr (congr (congrArg Instr.smull ((congrArg Cond.ofBits h0).trans (cond_ofBits c))) (h2)) (h3)) (h4)) (h5)) (h7)

theorem EncodesToItself.smlal (c : Cond) (s : Bool) (rdHi : Reg) (rdLo : Reg) (rm : Reg) (rn : Reg) :
    EncodesToItself.Statement (.smlal c s rdHi rdLo rm rn) := by
  refine ⟨_, rfl, ?_, ?_⟩
  · show encode (.smlal c s rdHi rdLo rm rn) &&& (join (join (join (join (join (join (join 0x0#4 0x7f#7) 0x0#1) 0x0#4) 0x0#4) 0x0#4) 0xf#4) 0x0#4) =
      (join (join (join (join (join (join (join 0x0#4 0x7#7) 0x0#1) 0x0#4) 0x0#4) 0x0#4) 0x9#4) 0x0#4)
    exact (and_parts _ _ _ _).trans (by simp only [and_parts, BitVec.and_zero]; try rfl)
  · have h0 : (join (join (join (join (join (join (join c.bits 0x7#7) (BitVec.ofBool s)) rdHi) rdLo) rm) 0x9#4) rn).extractLsb' 28 4 = c.bits := ((ext_left _ _ _ _ (by decide)).trans ((ext_left _ _ _ _ (by decide)).trans ((ext_left _ _ _ _ (by decide)).trans ((ext_left _ _ _ _ (by decide)).trans ((ext_left _ _ _ _ (by decide)).trans ((ext_left _ _ _ _ (by decide)).trans ((ext_left _ _ _ _ (by decide)).trans (ext_only _))))))))
    have h2 : (join (join (join (join (join (join (join c.bits 0x7#7) (BitVec.ofBool s)) rdHi) rdLo) rm) 0x9#4) rn).getLsbD 20 = s := ((bit_left _ _ _ (by decide)).trans ((bit_left _ _ _ (by decide)).trans ((bit_left _ _ _ (by decide)).trans ((bit_left _ _ _ (by decide)).trans ((bit_left _ _ _ (by decide)).trans (bit_right _ _))))))
    have h3 : (join (join (join (join (join (join (join c.bits 0x7#7) (BitVec.ofBool s)) rdHi) rdLo) rm) 0x9#4) rn).extractLsb' 16 4 = rdHi := ((ext_left _ _ _ _ (by decide)).trans ((ext_left _ _ _ _ (by decide)).trans ((ext_left _ _ _ _ (by decide)).trans ((ext_left _ _ _ _ (by decide)).trans (ext_right _ _)))))
    have h4 : (join (join (join (join (join (join (join c.bits 0x7#7) (BitVec.ofBool s)) rdHi) rdLo) rm) 0x9#4) rn).extractLsb' 12 4 = rdLo := ((ext_left _ _ _ _ (by decide)).trans ((ext_left _ _ _ _ (by decide)).trans ((ext_left _ _ _ _ (by decide)).trans (ext_right _ _))))
    have h5 : (join (join (join (join (join (join (join c.bits 0x7#7) (BitVec.ofBool s)) rdHi) rdLo) rm) 0x9#4) rn).extractLsb' 8 4 = rm := ((ext_left _ _ _ _ (by decide)).trans ((ext_left _ _ _ _ (by decide)).trans (ext_right _ _)))
    have h7 : (join (join (join (join (join (join (join c.bits 0x7#7) (BitVec.ofBool s)) rdHi) rdLo) rm) 0x9#4) rn).extractLsb' 0 4 = rn := (ext_right _ _)
    exact congr (congr (congr (congr (congr (congrArg Instr.smlal ((congrArg Cond.ofBits h0).trans (cond_ofBits c))) (h2)) (h3)) (h4)) (h5)) (h7)

theorem EncodesToItself.strhImm (c : Cond) (p : Bool) (u : Bool) (w : Bool) (rn : Reg) (rt : Reg) (imm4H : BitVec 4) (imm4L : BitVec 4) :
    EncodesToItself.Statement (.strhImm c p u w rn rt imm4H imm4L) := by
  refine ⟨_, rfl, ?_, ?_⟩
  · show encode (.strhImm c p u w rn rt imm4H imm4L) &&& (join (join (join (join (join (join (join (join (join (join (join 0x0#4 0x7#3) 0x0#1) 0x0#1) 0x1#1) 0x0#1) 0x1#1) 0x0#4) 0x0#4) 0x0#4) 0xf#4) 0x0#4) =
      (join (join (join (join (join (join (join (join (join (join (join 0x0#4 0x0#3) 0x0#1) 0x0#1) 0x1#1) 0x0#1) 0x0#1) 0x0#4) 0x0#4) 0x0#4) 0xb#4) 0x0#4)
    exact (and_parts _ _ _ _).trans (by simp only [and_parts, BitVec.and_zero]; try rfl)
  · have h0 : (join (join (join (join (join (join (join (join (join (join (join c.bits 0x0#3) (BitVec.ofBool p)) (BitVec.ofBool u)) 0x1#1) (BitVec.ofBool w)) 0x0#1) rn) rt) imm4H) 0xb#4) imm4L).extractLsb' 28 4 = c.bits := ((ext_left _ _ _ _ (by decide)).trans ((ext_left _ _ _ _ (by decide)).trans ((ext_left _ _ _ _ (by decide)).trans ((ext_left _ _ _ _ (by decide)).trans ((ext_left _ _ _ _ (by decide)).trans ((ext_left _ _ _ _ (by decide)).trans ((ext_left _ _ _ _ (by decide)).trans ((ext_left _ _ _ _ (by decide)).trans ((ext_left _ _ _ _ (by decide)).trans ((ext_left _ _ _ _ (by decide)).trans ((ext_left _ _ _ _ (by decide)).trans (ext_only _))))))))))))
    have h2 : (join (join (join (join (join (join (join (join (join (join (join c.bits 0x0#3) (BitVec.ofBool p)) (BitVec.ofBool u)) 0x1#1) (BitVec.ofBool w)) 0x0#1) rn) rt) imm4H) 0xb#4) imm4L).getLsbD 24 = p := ((bit_left _ _ _ (by decide)).trans ((bit_left _ _ _ (by decide)).trans ((bit_left _ _ _ (by decide)).trans ((bit_left _ _ _ (by decide)).trans ((bit_left _ _ _ (by decide)).trans ((bit_left _ _ _ (by decide)).trans ((bit_left _ _ _ (by decide)).trans ((bit_left _ _ _ (by decide)).trans ((bit_left _ _ _ (by decide)).trans (bit_right _ _))))))))))
    have h3 : (join (join (join (join (join (join (join (join (join (join (join c.bits 0x0#3) (BitVec.ofBool p)) (BitVec.ofBool u)) 0x1#1) (BitVec.ofBool w)) 0x0#1) rn) rt) imm4H) 0xb#4) imm4L).getLsbD 23 = u := ((bit_left _ _ _ (by decide)).trans ((bit_left _ _ _ (by decide)).trans ((bit_left _ _ _ (by decide)).trans ((bit_left _ _ _ (by decide)).trans ((bit_left _ _ _ (by decide)).trans ((bit_left _ _ _ (by decide)).trans ((bit_left _ _ _ (by decide)).trans ((bit_left _ _ _ (by decide)).trans (bit_right _ _)))))))))
    have h5 : (join (join (join (join (join (join (join (join (join (join (join c.bits 0x0#3) (BitVec.ofBool p)) (BitVec.ofBool u)) 0x1#1) (BitVec.ofBool w)) 0x0#1) rn) rt) imm4H) 0xb#4) imm4L).getLsbD 21 = w := ((bit_left _ _ _ (by decide)).trans ((bit_left _ _ _ (by decide)).trans ((bit_left _ _ _ (by decide)).trans ((bit_left _ _ _ (by decide)).trans ((bit_left _ _ _ (by decide)).trans ((bit_left _ _ _ (by decide)).trans (bit_right _ _)))))))
    have h7 : (join (join (join (join (join (join (join (join (join (join (join c.bits 0x0#3) (BitVec.ofBool p)) (BitVec.ofBool u)) 0x1#1) (BitVec.ofBool w)) 0x0#1) rn) rt) imm4H) 0xb#4) imm4L).extractLsb' 16 4 = rn := ((ext_left _ _ _ _ (by decide)).trans ((ext_left _ _ _ _ (by decide)).trans ((ext_left _ _ _ _ (by decide)).trans ((ext_left _ _ _ _ (by decide)).trans (ext_right _ _)))))
    have h8 : (join (join (join (join (join (join (join (join (join (join (join c.bits 0x0#3) (BitVec.ofBool p)) (BitVec.ofBool u)) 0x1#1) (BitVec.ofBool w)) 0x0#1) rn) rt) imm4H) 0xb#4) imm4L).extractLsb' 12 4 = rt := ((ext_left _ _ _ _ (by decide)).trans ((ext_left _ _ _ _ (by decide)).trans ((ext_left _ _ _ _ (by decide)).trans (ext_right _ _))))
    have h9 : (join (join (join (join (join (join (join (join (join (join (join c.bits 0x0#3) (BitVec.ofBool p)) (BitVec.ofBool u)) 0x1#1) (BitVec.ofBool w)) 0x0#1) rn) rt) imm4H) 0xb#4) imm4L).extractLsb' 8 4 = imm4H := ((ext_left _ _ _ _ (by decide)).trans ((ext_left _ _ _ _ (by decide)).trans (ext_right _ _)))
    have h11 : (join (join (join (join (join (join (join (join (join (join (join c.bits 0x0#3) (BitVec.ofBool p)) (BitVec.ofBool u)) 0x1#1) (BitVec.ofBool w)) 0x0#1) rn) rt) imm4H) 0xb#4) imm4L).extractLsb' 0 4 = imm4L := (ext_right _ _)
    exact congr (congr (congr (congr (congr (congr (congr (congrArg Instr.strhImm ((congrArg Cond.ofBits h0).trans (cond_ofBits c))) (h2)) (h3)) (h5)) (h7)) (h8)) (h9)) (h11)

theorem EncodesToItself.strhReg (c : Cond) (p : Bool) (u : Bool) (w : Bool) (rn : Reg) (rt : Reg) (rm : Reg) :
    EncodesToItself.Statement (.strhReg c p u w rn rt rm) := by
  refine ⟨_, rfl, ?_, ?_⟩
  · show encode (.strhReg c p u w rn rt rm) &&& (join (join (join (join (join (join (join (join (join (join 0x0#4 0x7#3) 0x0#1) 0x0#1) 0x1#1) 0x0#1) 0x1#1) 0x0#4) 0x0#4) 0xff#8) 0x0#4) =
      (join (join (join (join (join (join (join (join (join (join 0x0#4 0x0#3) 0x0#1) 0x0#1) 0x0#1) 0x0#1) 0x0#1) 0x0#4) 0x0#4) 0xb#8) 0x0#4)
    exact (and_parts _ _ _ _).trans (by simp only [and_parts, BitVec.and_zero]; try rfl)
  · have h0 : (join (join (join (join (join (join (join (join (join (join c.bits 0x0#3) (BitVec.ofBool p)) (BitVec.ofBool u)) 0x0#1) (BitVec.ofBool w)) 0x0#1) rn) rt) 0xb#8) rm).extractLsb' 28 4 = c.bits := ((ext_left _ _ _ _ (by decide)).trans ((ext_left _ _ _ _ (by decide)).trans ((ext_left _ _ _ _ (by decide)).trans ((ext_left _ _ _ _ (by decide)).trans ((ext_left _ _ _ _ (by decide)).trans ((ext_left _ _ _ _ (by decide)).trans ((ext_left _ _ _ _ (by decide)).trans ((ext_left _ _ _ _ (by decide)).trans ((ext_left _ _ _ _ (by decide)).trans ((ext_left _ _ _ _ (by decide)).trans (ext_only _)))))))))))
    have h2 : (join (join (join (join (join (join (join (join (join (join c.bits 0x0#3) (BitVec.ofBool p)) (BitVec.ofBool u)) 0x0#1) (BitVec.ofBool w)) 0x0#1) rn) rt) 0xb#8) rm).getLsbD 24 = p := ((bit_left _ _ _ (by decide)).trans ((bit_left _ _ _ (by decide)).trans ((bit_left _ _ _ (by decide)).trans ((bit_left _ _ _ (by decide)).trans ((bit_left _ _ _ (by decide)).trans ((bit_left _ _ _ (by decide)).trans ((bit_left _ _ _ (by decide)).trans ((bit_left _ _ _ (by decide)).trans (bit_right _ _)))))))))
    have h3 : (join (join (join (join (join (join (join (join (join (join c.bits 0x0#3) (BitVec.ofBool p)) (BitVec.ofBool u)) 0x0#1) (BitVec.ofBool w)) 0x0#1) rn) rt) 0xb#8) rm).getLsbD 23 = u := ((bit_left _ _ _ (by decide)).trans ((bit_left _ _ _ (by decide)).trans ((bit_left _ _ _ (by decide)).trans ((bit_left _ _ _ (by decide)).trans ((bit_left _ _ _ (by decide)).trans ((bit_left _ _ _ (by decide)).trans ((bit_left _ _ _ (by decide)).trans (bit_right _ _))))))))
    have h5 : (join (join (join (join (join (join (join (join (join (join c.bits 0x0#3) (BitVec.ofBool p)) (BitVec.ofBool u)) 0x0#1) (BitVec.ofBool w)) 0x0#1) rn) rt) 0xb#8) rm).getLsbD 21 = w := ((bit_left _ _ _ (by decide)).trans ((bit_left _ _ _ (by decide)).trans ((bit_left _ _ _ (by decide)).trans ((bit_left _ _ _ (by decide)).trans ((bit_left _ _ _ (by decide)).trans (bit_right _ _))))))
    have h7 : (join (join (join (join (join (join (join (join (join (join c.bits 0x0#3) (BitVec.ofBool p)) (BitVec.ofBool u)) 0x0#1) (BitVec.ofBool w)) 0x0#1) rn) rt) 0xb#8) rm).extractLsb' 16 4 = rn := ((ext_left _ _ _ _ (by decide)).trans ((ext_left _ _ _ _ (by decide)).trans ((ext_left _ _ _ _ (by decide)).trans (ext_right _ _))))
    have h8 : (join (join (join (join (join (join (join (join (join (join c.bits 0x0#3) (BitVec.ofBool p)) (BitVec.ofBool u)) 0x0#1) (BitVec.ofBool w)) 0x0#1) rn) rt) 0xb#8) rm).extractLsb' 12 4 = rt := ((ext_left _ _ _ _ (by decide)).trans ((ext_left _ _ _ _ (by decide)).trans (ext_right _ _)))
    have h10 : (join (join (join (join (join (join (join (join (join (join c.bits 0x0#3) (BitVec.ofBool p)) (BitVec.ofBool u)) 0x0#1) (BitVec.ofBool w)) 0x0#1) rn) rt) 0xb#8) rm).extractLsb' 0 4 = rm := (ext_right _ _)
    exact congr (congr (congr (congr (congr (congr (congrArg Instr.strhReg ((congrArg Cond.ofBits h0).trans (cond_ofBits c))) (h2)) (h3)) (h5)) (h7)) (h8)) (h10)

theorem EncodesToItself.ldrhImm (c : Cond) (p : Bool) (u : Bool) (w : Bool) (rn : Reg) (rt : Reg) (imm4H : BitVec 4) (imm4L : BitVec 4) :
    EncodesToItself.Statement (.ldrhImm c p u w rn rt imm4H imm4L) := by
  refine ⟨_, rfl, ?_, ?_⟩
  · show encode (.ldrhImm c p u w rn rt imm4H imm4L) &&& (join (join (join (join (join (join (join (join (join (join (join 0x0#4 0x7#3) 0x0#1) 0x0#1) 0x1#1) 0x0#1) 0x1#1) 0x0#4) 0x0#4) 0x0#4) 0xf#4) 0x0#4) =
      (join (join (join (join (join (join (join (join (join (join (join 0x0#4 0x0#3) 0x0#1) 0x0#1) 0x1#1) 0x0#1) 0x1#1) 0x0#4) 0x0#4) 0x0#4) 0xb#4) 0x0#4)
    exact (and_parts _ _ _ _).trans (by simp only [and_parts, BitVec.and_zero]; try rfl)
  · have h0 : (join (join (join (join (join (join (join (join (join (join (join c.bits 0x0#3) (BitVec.ofBool p)) (BitVec.ofBool u)) 0x1#1) (BitVec.ofBool w)) 0x1#1) rn) rt) imm4H) 0xb#4) imm4L).extractLsb' 28 4 = c.bits := ((ext_left _ _ _ _ (by decide)).trans ((ext_left _ _ _ _ (by decide)).trans ((ext_left _ _ _ _ (by decide)).trans ((ext_left _ _ _ _ (by decide)).trans ((ext_left _ _ _ _ (by decide)).trans ((ext_left _ _ _ _ (by decide)).trans ((ext_left _ _ _ _ (by decide)).trans ((ext_left _ _ _ _ (by decide)).trans ((ext_left _ _ _ _ (by decide)).trans ((ext_left _ _ _ _ (by decide)).trans ((ext_left _ _ _ _ (by decide)).trans (ext_only _))))))))))))
    have h2 : (join (join (join (join (join (join (join (join (join (join (join c.bits 0x0#3) (BitVec.ofBool p)) (BitVec.ofBool u)) 0x1#1) (BitVec.ofBool w)) 0x1#1) rn) rt) imm4H) 0xb#4) imm4L).getLsbD 24 = p := ((bit_left _ _ _ (by decide)).trans ((bit_left _ _ _ (by decide)).trans ((bit_left _ _ _ (by decide)).trans ((bit_left _ _ _ (by decide)).trans ((bit_left _ _ _ (by decide)).trans ((bit_left _ _ _ (by decide)).trans ((bit_left _ _ _ (by decide)).trans ((bit_left _ _ _ (by decide)).trans ((bit_left _ _ _ (by decide)).trans (bit_right _ _))))))))))
    have h3 : (join (join (join (join (join (join (join (join (join (join (join c.bits 0x0#3) (BitVec.ofBool p)) (BitVec.ofBool u)) 0x1#1) (BitVec.ofBool w)) 0x1#1) rn) rt) imm4H) 0xb#4) imm4L).getLsbD 23 = u := ((bit_left _ _ _ (by decide)).trans ((bit_left _ _ _ (by decide)).trans ((bit_left _ _ _ (by decide)).trans ((bit_left _ _ _ (by decide)).trans ((bit_left _ _ _ (by decide)).trans ((bit_left _ _ _ (by decide)).trans ((bit_left _ _ _ (by decide)).trans ((bit_left _ _ _ (by decide)).trans (bit_right _ _)))))))))
    have h5 : (join (join (join (join (join (join (join (join (join (join (join c.bits 0x0#3) (BitVec.ofBool p)) (BitVec.ofBool u)) 0x1#1) (BitVec.ofBool w)) 0x1#1) rn) rt) imm4H) 0xb#4) imm4L).getLsbD 21 = w := ((bit_left _ _ _ (by decide)).trans ((bit_left _ _ _ (by decide)).trans ((bit_left _ _ _ (by decide)).trans ((bit_left _ _ _ (by decide)).trans ((bit_left _ _ _ (by decide)).trans ((bit_left _ _ _ (by decide)).trans (bit_right _ _)))))))
    have h7 : (join (join (join (join (join (join (join (join (join (join (join c.bits 0x0#3) (BitVec.ofBool p)) (BitVec.ofBool u)) 0x1#1) (BitVec.ofBool w)) 0x1#1) rn) rt) imm4H) 0xb#4) imm4L).extractLsb' 16 4 = rn := ((ext_left _ _ _ _ (by decide)).trans ((ext_left _ _ _ _ (by decide)).trans ((ext_left _ _ _ _ (by decide)).trans ((ext_left _ _ _ _ (by decide)).trans (ext_right _ _)))))
    have h8 : (join (join (join (join (join (join (join (join (join (join (join c.bits 0x0#3) (BitVec.ofBool p)) (BitVec.ofBool u)) 0x1#1) (BitVec.ofBool w)) 0x1#1) rn) rt) imm4H) 0xb#4) imm4L).extractLsb' 12 4 = rt := ((ext_left _ _ _ _ (by decide)).trans ((ext_left _ _ _ _ (by decide)).trans ((ext_left _ _ _ _ (by decide)).trans (ext_right _ _))))
    have h9 : (join (join (join (join (join (join (join (join (join (join (join c.bits 0x0#3) (BitVec.ofBool p)) (BitVec.ofBool u)) 0x1#1) (BitVec.ofBool w)) 0x1#1) rn) rt) imm4H) 0xb#4) imm4L).extractLsb' 8 4 = imm4H := ((ext_left _ _ _ _ (by decide)).trans ((ext_left _ _ _ _ (by decide)).trans (ext_right _ _)))
    have h11 : (join (join (join (join (join (join (join (join (join (join (join c.bits 0x0#3) (BitVec.ofBool p)) (BitVec.ofBool u)) 0x1#1) (BitVec.ofBool w)) 0x1#1) rn) rt) imm4H) 0xb#4) imm4L).extractLsb' 0 4 = imm4L := (ext_right _ _)
    exact congr (congr (congr (congr (congr (congr (congr (congrArg Instr.ldrhImm ((congrArg Cond.ofBits h0).trans (cond_ofBits c))) (h2)) (h3)) (h5)) (h7)) (h8)) (h9)) (h11)

theorem EncodesToItself.ldrhReg (c : Cond) (p : Bool) (u : Bool) (w : Bool) (rn : Reg) (rt : Reg) (rm : Reg) :
    EncodesToItself.Statement (.ldrhReg c p u w rn rt rm) := by
  refine ⟨_, rfl, ?_, ?_⟩
  · show encode (.ldrhReg c p u w rn rt rm) &&& (join (join (join (join (join (join (join (join (join (join 0x0#4 0x7#3) 0x0#1) 0x0#1) 0x1#1) 0x0#1) 0x1#1) 0x0#4) 0x0#4) 0xff#8) 0x0#4) =
      (join (join (join (join (join (join (join (join (join (join 0x0#4 0x0#3) 0x0#1) 0x0#1) 0x0#1) 0x0#1) 0x1#1) 0x0#4) 0x0#4) 0xb#8) 0x0#4)
    exact (and_parts _ _ _ _).trans (by simp only [and_parts, BitVec.and_zero]; try rfl)
  · have h0 : (join (join (join (join (join (join (join (join (join (join c.bits 0x0#3) (BitVec.ofBool p)) (BitVec.ofBool u)) 0x0#1) (BitVec.ofBool w)) 0x1#1) rn) rt) 0xb#8) rm).extractLsb' 28 4 = c.bits := ((ext_left _ _ _ _ (by decide)).trans ((ext_left _ _ _ _ (by decide)).trans ((ext_left _ _ _ _ (by decide)).trans ((ext_left _ _ _ _ (by decide)).trans ((ext_left _ _ _ _ (by decide)).trans ((ext_left _ _ _ _ (by decide)).trans ((ext_left _ _ _ _ (by decide)).trans ((ext_left _ _ _ _ (by decide)).trans ((ext_left _ _ _ _ (by decide)).trans ((ext_left _ _ _ _ (by decide)).trans (ext_only _)))))))))))
    have h2 : (join (join (join (join (join (join (join (join (join (join c.bits 0x0#3) (BitVec.ofBool p)) (BitVec.ofBool u)) 0x0#1) (BitVec.ofBool w)) 0x1#1) rn) rt) 0xb#8) rm).getLsbD 24 = p := ((bit_left _ _ _ (by decide)).trans ((bit_left _ _ _ (by decide)).trans ((bit_left _ _ _ (by decide)).trans ((bit_left _ _ _ (by decide)).trans ((bit_left _ _ _ (by decide)).trans ((bit_left _ _ _ (by decide)).trans ((bit_left _ _ _ (by decide)).trans ((bit_left _ _ _ (by decide)).trans (bit_right _ _)))))))))
    have h3 : (join (join (join (join (join (join (join (join (join (join c.bits 0x0#3) (BitVec.ofBool p)) (BitVec.ofBool u)) 0x0#1) (BitVec.ofBool w)) 0x1#1) rn) rt) 0xb#8) rm).getLsbD 23 = u := ((bit_left _ _ _ (by decide)).trans ((bit_left _ _ _ (by decide)).trans ((bit_left _ _ _ (by decide)).trans ((bit_left _ _ _ (by decide)).trans ((bit_left _ _ _ (by decide)).trans ((bit_left _ _ _ (by decide)).trans ((bit_left _ _ _ (by decide)).trans (bit_right _ _))))))))
    have h5 : (join (join (join (join (join (join (join (join (join (join c.bits 0x0#3) (BitVec.ofBool p)) (BitVec.ofBool u)) 0x0#1) (BitVec.ofBool w)) 0x1#1) rn) rt) 0xb#8) rm).getLsbD 21 = w := ((bit_left _ _ _ (by decide)).trans ((bit_left _ _ _ (by decide)).trans ((bit_left _ _ _ (by decide)).trans ((bit_left _ _ _ (by decide)).trans ((bit_left _ _ _ (by decide)).trans (bit_right _ _))))))
    have h7 : (join (join (join (join (join (join (join (join (join (join c.bits 0x0#3) (BitVec.ofBool p)) (BitVec.ofBool u)) 0x0#1) (BitVec.ofBool w)) 0x1#1) rn) rt) 0xb#8) rm).extractLsb' 16 4 = rn := ((ext_left _ _ _ _ (by decide)).trans ((ext_left _ _ _ _ (by decide)).trans ((ext_left _ _ _ _ (by decide)).trans (ext_right _ _))))
    have h8 : (join (join (join (join (join (join (join (join (join (join c.bits 0x0#3) (BitVec.ofBool p)) (BitVec.ofBool u)) 0x0#1) (BitVec.ofBool w)) 0x1#1) rn) rt) 0xb#8) rm).extractLsb' 12 4 = rt := ((ext_left _ _ _ _ (by decide)).trans ((ext_left _ _ _ _ (by decide)).trans (ext_right _ _)))
    have h10 : (join (join (join (join (join (join (join (join (join (join c.bits 0x0#3) (BitVec.ofBool p)) (BitVec.ofBool u)) 0x0#1) (BitVec.ofBool w)) 0x1#1) rn) rt) 0xb#8) rm).extractLsb' 0 4 = rm := (ext_right _ _)
    exact congr (congr (congr (congr (congr (congr (congrArg Instr.ldrhReg ((congrArg Cond.ofBits h0).trans (cond_ofBits c))) (h2)) (h3)) (h5)) (h7)) (h8)) (h10)

theorem EncodesToItself.ldrsbImm (c : Cond) (p : Bool) (u : Bool) (w : Bool) (rn : Reg) (rt : Reg) (imm4H : BitVec 4) (imm4L : BitVec 4) :
    EncodesToItself.Statement (.ldrsbImm c p u w rn rt imm4H imm4L) := by
  refine ⟨_, rfl, ?_, ?_⟩
  · show encode (.ldrsbImm c p u w rn rt imm4H imm4L) &&& (join (join (join (join (join (join (join (join (join (join (join 0x0#4 0x7#3) 0x0#1) 0x0#1) 0x1#1) 0x0#1) 0x1#1) 0x0#4) 0x0#4) 0x0#4) 0xf#4) 0x0#4) =
      (join (join (join (join (join (join (join (join (join (join (join 0x0#4 0x0#3) 0x0#1) 0x0#1) 0x1#1) 0x0#1) 0x1#1) 0x0#4) 0x0#4) 0x0#4) 0xd#4) 0x0#4)
    exact (and_parts _ _ _ _).trans (by simp only [and_parts, BitVec.and_zero]; try rfl)
  · have h0 : (join (join (join (join (join (join (join (join (join (join (join c.bits 0x0#3) (BitVec.ofBool p)) (BitVec.ofBool u)) 0x1#1) (BitVec.ofBool w)) 0x1#1) rn) rt) imm4H) 0xd#4) imm4L).extractLsb' 28 4 = c.bits := ((ext_left _ _ _ _ (by decide)).trans ((ext_left _ _ _ _ (by decide)).trans ((ext_left _ _ _ _ (by decide)).trans ((ext_left _ _ _ _ (by decide)).trans ((ext_left _ _ _ _ (by decide)).trans ((ext_left _ _ _ _ (by decide)).trans ((ext_left _ _ _ _ (by decide)).trans ((ext_left _ _ _ _ (by decide)).trans ((ext_left _ _ _ _ (by decide)).trans ((ext_left _ _ _ _ (by decide)).trans ((ext_left _ _ _ _ (by decide)).trans (ext_only _))))))))))))
    have h2 : (join (join (join (join (join (join (join (join (join (join (join c.bits 0x0#3) (BitVec.ofBool p)) (BitVec.ofBool u)) 0x1#1) (BitVec.ofBool w)) 0x1#1) rn) rt) imm4H) 0xd#4) imm4L).getLsbD 24 = p := ((bit_left _ _ _ (by decide)).trans ((bit_left _ _ _ (by decide)).trans ((bit_left _ _ _ (by decide)).trans ((bit_left _ _ _ (by decide)).trans ((bit_left _ _ _ (by decide)).trans ((bit_left _ _ _ (by decide)).trans ((bit_left _ _ _ (by decide)).trans ((bit_left _ _ _ (by decide)).trans ((bit_left _ _ _ (by decide)).trans (bit_right _ _))))))))))
    have h3 : (join (join (join (join (join (join (join (join (join (join (join c.bits 0x0#3) (BitVec.ofBool p)) (BitVec.ofBool u)) 0x1#1) (BitVec.ofBool w)) 0x1#1) rn) rt) imm4H) 0xd#4) imm4L).getLsbD 23 = u := ((bit_left _ _ _ (by decide)).trans ((bit_left _ _ _ (by decide)).trans ((bit_left _ _ _ (by decide)).trans ((bit_left _ _ _ (by decide)).trans ((bit_left _ _ _ (by decide)).trans ((bit_left _ _ _ (by decide)).trans ((bit_left _ _ _ (by decide)).trans ((bit_left _ _ _ (by decide)).trans (bit_right _ _)))))))))
    have h5 : (join (join (join (join (join (join (join (join (join (join (join c.bits 0x0#3) (BitVec.ofBool p)) (BitVec.ofBool u)) 0x1#1) (BitVec.ofBool w)) 0x1#1) rn) rt) imm4H) 0xd#4) imm4L).getLsbD 21 = w := ((bit_left _ _ _ (by decide)).trans ((bit_left _ _ _ (by decide)).trans ((bit_left _ _ _ (by decide)).trans ((bit_left _ _ _ (by decide)).trans ((bit_left _ _ _ (by decide)).trans ((bit_left _ _ _ (by decide)).trans (bit_right _ _)))))))
    have h7 : (join (join (join (join (join (join (join (join (join (join (join c.bits 0x0#3) (BitVec.ofBool p)) (BitVec.ofBool u)) 0x1#1) (BitVec.ofBool w)) 0x1#1) rn) rt) imm4H) 0xd#4) imm4L).extractLsb' 16 4 = rn := ((ext_left _ _ _ _ (by decide)).trans ((ext_left _ _ _ _ (by decide)).trans ((ext_left _ _ _ _ (by decide)).trans ((ext_left _ _ _ _ (by decide)).trans (ext_right _ _)))))
    have h8 : (join (join (join (join (join (join (join (join (join (join (join c.bits 0x0#3) (BitVec.ofBool p)) (BitVec.ofBool u)) 0x1#1) (BitVec.ofBool w)) 0x1#1) rn) rt) imm4H) 0xd#4) imm4L).extractLsb' 12 4 = rt := ((ext_left _ _ _ _ (by decide)).trans ((ext_left _ _ _ _ (by decide)).trans ((ext_left _ _ _ _ (by decide)).trans (ext_right _ _))))
    have h9 : (join (join (join (join (join (join (join (join (join (join (join c.bits 0x0#3) (BitVec.ofBool p)) (BitVec.ofBool u)) 0x1#1) (BitVec.ofBool w)) 0x1#1) rn) rt) imm4H) 0xd#4) imm4L).extractLsb' 8 4 = imm4H := ((ext_left _ _ _ _ (by decide)).trans ((ext_left _ _ _ _ (by decide)).trans (ext_right _ _)))
    have h11 : (join (join (join (join (join (join (join (join (join (join (join c.bits 0x0#3) (BitVec.ofBool p)) (BitVec.ofBool u)) 0x1#1) (BitVec.ofBool w)) 0x1#1) rn) rt) imm4H) 0xd#4) imm4L).extractLsb' 0 4 = imm4L := (ext_right _ _)
    exact congr (congr (congr (congr (congr (congr (congr (congrArg Instr.ldrsbImm ((congrArg Cond.ofBits h0).trans (cond_ofBits c))) (h2)) (h3)) (h5)) (h7)) (h8)) (h9)) (h11)

theorem EncodesToItself.ldrsbReg (c : Cond) (p : Bool) (u : Bool) (w : Bool) (rn : Reg) (rt : Reg) (rm : Reg) :
    EncodesToItself.Statement (.ldrsbReg c p u w rn rt rm) := by
  refine ⟨_, rfl, ?_, ?_⟩
  · show encode (.ldrsbReg c p u w rn rt rm) &&& (join (join (join (join (join (join (join (join (join (join 0x0#4 0x7#3) 0x0#1) 0x0#1) 0x1#1) 0x0#1) 0x1#1) 0x0#4) 0x0#4) 0xff#8) 0x0#4) =
      (join (join (join (join (join (join (join (join (join (join 0x0#4 0x0#3) 0x0#1) 0x0#1) 0x0#1) 0x0#1) 0x1#1) 0x0#4) 0x0#4) 0xd#8) 0x0#4)
    exact (and_parts _ _ _ _).trans (by simp only [and_parts, BitVec.and_zero]; try rfl)
  · have h0 : (join (join (join (join (join (join (join (join (join (join c.bits 0x0#3) (BitVec.ofBool p)) (BitVec.ofBool u)) 0x0#1) (BitVec.ofBool w)) 0x1#1) rn) rt) 0xd#8) rm).extractLsb' 28 4 = c.bits := ((ext_left _ _ _ _ (by decide)).trans ((ext_left _ _ _ _ (by decide)).trans ((ext_left _ _ _ _ (by decide)).trans ((ext_left _ _ _ _ (by decide)).trans ((ext_left _ _ _ _ (by decide)).trans ((ext_left _ _ _ _ (by decide)).trans ((ext_left _ _ _ _ (by decide)).trans ((ext_left _ _ _ _ (by decide)).trans ((ext_left _ _ _ _ (by decide)).trans ((ext_left _ _ _ _ (by decide)).trans (ext_only _)))))))))))
    have h2 : (join (join (join (join (join (join (join (join (join (join c.bits 0x0#3) (BitVec.ofBool p)) (BitVec.ofBool u)) 0x0#1) (BitVec.ofBool w)) 0x1#1) rn) rt) 0xd#8) rm).getLsbD 24 = p := ((bit_left _ _ _ (by decide)).trans ((bit_left _ _ _ (by decide)).trans ((bit_left _ _ _ (by decide)).trans ((bit_left _ _ _ (by decide)).trans ((bit_left _ _ _ (by decide)).trans ((bit_left _ _ _ (by decide)).trans ((bit_left _ _ _ (by decide)).trans ((bit_left _ _ _ (by decide)).trans (bit_right _ _)))))))))
    have h3 : (join (join (join (join (join (join (join (join (join (join c.bits 0x0#3) (BitVec.ofBool p)) (BitVec.ofBool u)) 0x0#1) (BitVec.ofBool w)) 0x1#1) rn) rt) 0xd#8) rm).getLsbD 23 = u := ((bit_left _ _ _ (by decide)).trans ((bit_left _ _ _ (by decide)).trans ((bit_left _ _ _ (by decide)).trans ((bit_left _ _ _ (by decide)).trans ((bit_left _ _ _ (by decide)).trans ((bit_left _ _ _ (by decide)).trans ((bit_left _ _ _ (by decide)).trans (bit_right _ _))))))))
    have h5 : (join (join (join (join (join (join (join (join (join (join c.bits 0x0#3) (BitVec.ofBool p)) (BitVec.ofBool u)) 0x0#1) (BitVec.ofBool w)) 0x1#1) rn) rt) 0xd#8) rm).getLsbD 21 = w := ((bit_left _ _ _ (by decide)).trans ((bit_left _ _ _ (by decide)).trans ((bit_left _ _ _ (by decide)).trans ((bit_left _ _ _ (by decide)).trans ((bit_left _ _ _ (by decide)).trans (bit_right _ _))))))
    have h7 : (join (join (join (join (join (join (join (join (join (join c.bits 0x0#3) (BitVec.ofBool p)) (BitVec.ofBool u)) 0x0#1) (BitVec.ofBool w)) 0x1#1) rn) rt) 0xd#8) rm).extractLsb' 16 4 = rn := ((ext_left _ _ _ _ (by decide)).trans ((ext_left _ _ _ _ (by decide)).trans ((ext_left _ _ _ _ (by decide)).trans (ext_right _ _))))
    have h8 : (join (join (join (join (join (join (join (join (join (join c.bits 0x0#3) (BitVec.ofBool p)) (BitVec.ofBool u)) 0x0#1) (BitVec.ofBool w)) 0x1#1) rn) rt) 0xd#8) rm).extractLsb' 12 4 = rt := ((ext_left _ _ _ _ (by decide)).trans ((ext_left _ _ _ _ (by decide)).trans (ext_right _ _)))
    have h10 : (join (join (join (join (join (join (join (join (join (join c.bits 0x0#3) (BitVec.ofBool p)) (BitVec.ofBool u)) 0x0#1) (BitVec.ofBool w)) 0x1#1) rn) rt) 0xd#8) rm).extractLsb' 0 4 = rm := (ext_right _ _)
    exact congr (congr (congr (congr (congr (congr (congrArg Instr.ldrsbReg ((congrArg Cond.ofBits h0).trans (cond_ofBits c))) (h2)) (h3)) (h5)) (h7)) (h8)) (h10)

theorem EncodesToItself.ldrshImm (c : Cond) (p : Bool) (u : Bool) (w : Bool) (rn : Reg) (rt : Reg) (imm4H : BitVec 4) (imm4L : BitVec 4) :
    EncodesToItself.Statement (.ldrshImm c p u w rn rt imm4H imm4L) := by
  refine ⟨_, rfl, ?_, ?_⟩
  · show encode (.ldrshImm c p u w rn rt imm4H imm4L) &&& (join (join (join (join (join (join (join (join (join (join (join 0x0#4 0x7#3) 0x0#1) 0x0#1) 0x1#1) 0x0#1) 0x1#1) 0x0#4) 0x0#4) 0x0#4) 0xf#4) 0x0#4) =
      (join (join (join (join (join (join (join (join (join (join (join 0x0#4 0x0#3) 0x0#1) 0x0#1) 0x1#1) 0x0#1) 0x1#1) 0x0#4) 0x0#4) 0x0#4) 0xf#4) 0x0#4)
    exact (and_parts _ _ _ _).trans (by simp only [and_parts, BitVec.and_zero]; try rfl)
  · have h0 : (join (join (join (join (join (join (join (join (join (join (join c.bits 0x0#3) (BitVec.ofBool p)) (BitVec.ofBool u)) 0x1#1) (BitVec.ofBool w)) 0x1#1) rn) rt) imm4H) 0xf#4) imm4L).extractLsb' 28 4 = c.bits := ((ext_left _ _ _ _ (by decide)).trans ((ext_left _ _ _ _ (by decide)).trans ((ext_left _ _ _ _ (by decide)).trans ((ext_left _ _ _ _ (by decide)).trans ((ext_left _ _ _ _ (by decide)).trans ((ext_left _ _ _ _ (by decide)).trans ((ext_left _ _ _ _ (by decide)).trans ((ext_left _ _ _ _ (by decide)).trans ((ext_left _ _ _ _ (by decide)).trans ((ext_left _ _ _ _ (by decide)).trans ((ext_left _ _ _ _ (by decide)).trans (ext_only _))))))))))))
    have h2 : (join (join (join (join (join (join (join (join (join (join (join c.bits 0x0#3) (BitVec.ofBool p)) (BitVec.ofBool u)) 0x1#1) (BitVec.ofBool w)) 0x1#1) rn) rt) imm4H) 0xf#4) imm4L).getLsbD 24 = p := ((bit_left _ _ _ (by decide)).trans ((bit_left _ _ _ (by decide)).trans ((bit_left _ _ _ (by decide)).trans ((bit_left _ _ _ (by decide)).trans ((bit_left _ _ _ (by decide)).trans ((bit_left _ _ _ (by decide)).trans ((bit_left _ _ _ (by decide)).trans ((bit_left _ _ _ (by decide)).trans ((bit_left _ _ _ (by decide)).trans (bit_right _ _))))))))))
    have h3 : (join (join (join (join (join (join (join (join (join (join (join c.bits 0x0#3) (BitVec.ofBool p)) (BitVec.ofBool u)) 0x1#1) (BitVec.ofBool w)) 0x1#1) rn) rt) imm4H) 0xf#4) imm4L).getLsbD 23 = u := ((bit_left _ _ _ (by decide)).trans ((bit_left _ _ _ (by decide)).trans ((bit_left _ _ _ (by decide)).trans ((bit_left _ _ _ (by decide)).trans ((bit_left _ _ _ (by decide)).trans ((bit_left _ _ _ (by decide)).trans ((bit_left _ _ _ (by decide)).trans ((bit_left _ _ _ (by decide)).trans (bit_right _ _)))))))))
    have h5 : (join (join (join (join (join (join (join (join (join (join (join c.bits 0x0#3) (BitVec.ofBool p)) (BitVec.ofBool u)) 0x1#1) (BitVec.ofBool w)) 0x1#1) rn) rt) imm4H) 0xf#4) imm4L).getLsbD 21 = w := ((bit_left _ _ _ (by decide)).trans ((bit_left _ _ _ (by decide)).trans ((bit_left _ _ _ (by decide)).trans ((bit_left _ _ _ (by decide)).trans ((bit_left _ _ _ (by decide)).trans ((bit_left _ _ _ (by decide)).trans (bit_right _ _)))))))
    have h7 : (join (join (join (join (join (join (join (join (join (join (join c.bits 0x0#3) (BitVec.ofBool p)) (BitVec.ofBool u)) 0x1#1) (BitVec.ofBool w)) 0x1#1) rn) rt) imm4H) 0xf#4) imm4L).extractLsb' 16 4 = rn := ((ext_left _ _ _ _ (by decide)).trans ((ext_left _ _ _ _ (by decide)).trans ((ext_left _ _ _ _ (by decide)).trans ((ext_left _ _ _ _ (by decide)).trans (ext_right _ _)))))
    have h8 : (join (join (join (join (join (join (join (join (join (join (join c.bits 0x0#3) (BitVec.ofBool p)) (BitVec.ofBool u)) 0x1#1) (BitVec.ofBool w)) 0x1#1) rn) rt) imm4H) 0xf#4) imm4L).extractLsb' 12 4 = rt := ((ext_left _ _ _ _ (by decide)).trans ((ext_left _ _ _ _ (by decide)).trans ((ext_left _ _ _ _ (by decide)).trans (ext_right _ _))))
    have h9 : (join (join (join (join (join (join (join (join (join (join (join c.bits 0x0#3) (BitVec.ofBool p)) (BitVec.ofBool u)) 0x1#1) (BitVec.ofBool w)) 0x1#1) rn) rt) imm4H) 0xf#4) imm4L).extractLsb' 8 4 = imm4H := ((ext_left _ _ _ _ (by decide)).trans ((ext_left _ _ _ _ (by decide)).trans (ext_right _ _)))
    have h11 : (join (join (join (join (join (join (join (join (join (join (join c.bits 0x0#3) (BitVec.ofBool p)) (BitVec.ofBool u)) 0x1#1) (BitVec.ofBool w)) 0x1#1) rn) rt) imm4H) 0xf#4) imm4L).extractLsb' 0 4 = imm4L := (ext_right _ _)
    exact congr (congr (congr (congr (congr (congr (congr (congrArg Instr.ldrshImm ((congrArg Cond.ofBits h0).trans (cond_ofBits c))) (h2)) (h3)) (h5)) (h7)) (h8)) (h9)) (h11)

theorem EncodesToItself.ldrshReg (c : Cond) (p : Bool) (u : Bool) (w : Bool) (rn : Reg) (rt : Reg) (rm : Reg) :
    EncodesToItself.Statement (.ldrshReg c p u w rn rt rm) := by
  refine ⟨_, rfl, ?_, ?_⟩
  · show encode (.ldrshReg c p u w rn rt rm) &&& (join (join (join (join (join (join (join (join (join (join 0x0#4 0x7#3) 0x0#1) 0x0#1) 0x1#1) 0x0#1) 0x1#1) 0x0#4) 0x0#4) 0xff#8) 0x0#4) =
      (join (join (join (join (join (join (join (join (join (join 0x0#4 0x0#3) 0x0#1) 0x0#1) 0x0#1) 0x0#1) 0x1#1) 0x0#4) 0x0#4) 0xf#8) 0x0#4)
    exact (and_parts _ _ _ _).trans (by simp only [and_parts, BitVec.and_zero]; try rfl)
  · have h0 : (join (join (join (join (join (join (join (join (join (join c.bits 0x0#3) (BitVec.ofBool p)) (BitVec.ofBool u)) 0x0#1) (BitVec.ofBool w)) 0x1#1) rn) rt) 0xf#8) rm).extractLsb' 28 4 = c.bits := ((ext_left _ _ _ _ (by decide)).trans ((ext_left _ _ _ _ (by decide)).trans ((ext_left _ _ _ _ (by decide)).trans ((ext_left _ _ _ _ (by decide)).trans ((ext_left _ _ _ _ (by decide)).trans ((ext_left _ _ _ _ (by decide)).trans ((ext_left _ _ _ _ (by decide)).trans ((ext_left _ _ _ _ (by decide)).trans ((ext_left _ _ _ _ (by decide)).trans ((ext_left _ _ _ _ (by decide)).trans (ext_only _)))))))))))
    have h2 : (join (join (join (join (join (join (join (join (join (join c.bits 0x0#3) (BitVec.ofBool p)) (BitVec.ofBool u)) 0x0#1) (BitVec.ofBool w)) 0x1#1) rn) rt) 0xf#8) rm).getLsbD 24 = p := ((bit_left _ _ _ (by decide)).trans ((bit_left _ _ _ (by decide)).trans ((bit_left _ _ _ (by decide)).trans ((bit_left _ _ _ (by decide)).trans ((bit_left _ _ _ (by decide)).trans ((bit_left _ _ _ (by decide)).trans ((bit_left _ _ _ (by decide)).trans ((bit_left _ _ _ (by decide)).trans (bit_right _ _)))))))))
    have h3 : (join (join (join (join (join (join (join (join (join (join c.bits 0x0#3) (BitVec.ofBool p)) (BitVec.ofBool u)) 0x0#1) (BitVec.ofBool w)) 0x1#1) rn) rt) 0xf#8) rm).getLsbD 23 = u := ((bit_left _ _ _ (by decide)).trans ((bit_left _ _ _ (by decide)).trans ((bit_left _ _ _ (by decide)).trans ((bit_left _ _ _ (by decide)).trans ((bit_left _ _ _ (by decide)).trans ((bit_left _ _ _ (by decide)).trans ((bit_left _ _ _ (by decide)).trans (bit_right _ _))))))))
    have h5 : (join (join (join (join (join (join (join (join (join (join c.bits 0x0#3) (BitVec.ofBool p)) (BitVec.ofBool u)) 0x0#1) (BitVec.ofBool w)) 0x1#1) rn) rt) 0xf#8) rm).getLsbD 21 = w := ((bit_left _ _ _ (by decide)).trans ((bit_left _ _ _ (by decide)).trans ((bit_left _ _ _ (by decide)).trans ((bit_left _ _ _ (by decide)).trans ((bit_left _ _ _ (by decide)).trans (bit_right _ _))))))
    have h7 : (join (join (join (join (join (join (join (join (join (join c.bits 0x0#3) (BitVec.ofBool p)) (BitVec.ofBool u)) 0x0#1) (BitVec.ofBool w)) 0x1#1) rn) rt) 0xf#8) rm).extractLsb' 16 4 = rn := ((ext_left _ _ _ _ (by decide)).trans ((ext_left _ _ _ _ (by decide)).trans ((ext_left _ _ _ _ (by decide)).trans (ext_right _ _))))
    have h8 : (join (join (join (join (join (join (join (join (join (join c.bits 0x0#3) (BitVec.ofBool p)) (BitVec.ofBool u)) 0x0#1) (BitVec.ofBool w)) 0x1#1) rn) rt) 0xf#8) rm).extractLsb' 12 4 = rt := ((ext_left _ _ _ _ (by decide)).trans ((ext_left _ _ _ _ (by decide)).trans (ext_right _ _)))
    have h10 : (join (join (join (join (join (join (join (join (join (join c.bits 0x0#3) (BitVec.ofBool p)) (BitVec.ofBool u)) 0x0#1) (BitVec.ofBool w)) 0x1#1) rn) rt) 0xf#8) rm).extractLsb' 0 4 = rm := (ext_right _ _)
    exact congr (congr (congr (congr (congr (congr (congrArg Instr.ldrshReg ((congrArg Cond.ofBits h0).trans (cond_ofBits c))) (h2)) (h3)) (h5)) (h7)) (h8)) (h10)

theorem EncodesToItself.ldrdImm (c : Cond) (p : Bool) (u : Bool) (w : Bool) (rn : Reg) (rt : Reg) (imm4H : BitVec 4) (imm4L : BitVec 4) :
    EncodesToItself.Statement (.ldrdImm c p u w rn rt imm4H imm4L) := by
  refine ⟨_, rfl, ?_, ?_⟩
  · show encode (.ldrdImm c p u w rn rt imm4H imm4L) &&& (join (join (join (join (join (join (join (join (join (join (join 0x0#4 0x7#3) 0x0#1) 0x0#1) 0x1#1) 0x0#1) 0x1#1) 0x0#4) 0x0#4) 0x0#4) 0xf#4) 0x0#4) =
      (join (join (join (join (join (join (join (join (join (join (join 0x0#4 0x0#3) 0x0#1) 0x0#1) 0x1#1) 0x0#1) 0x0#1) 0x0#4) 0x0#4) 0x0#4) 0xd#4) 0x0#4)
    exact (and_parts _ _ _ _).trans (by simp only [and_parts, BitVec.and_zero]; try rfl)
  · have h0 : (join (join (join (join (join (join (join (join (join (join (join c.bits 0x0#3) (BitVec.ofBool p)) (BitVec.ofBool u)) 0x1#1) (BitVec.ofBool w)) 0x0#1) rn) rt) imm4H) 0xd#4) imm4L).extractLsb' 28 4 = c.bits := ((ext_left _ _ _ _ (by decide)).trans ((ext_left _ _ _ _ (by decide)).trans ((ext_left _ _ _ _ (by decide)).trans ((ext_left _ _ _ _ (by decide)).trans ((ext_left _ _ _ _ (by decide)).trans ((ext_left _ _ _ _ (by decide)).trans ((ext_left _ _ _ _ (by decide)).trans ((ext_left _ _ _ _ (by decide)).trans ((ext_left _ _ _ _ (by decide)).trans ((ext_left _ _ _ _ (by decide)).trans ((ext_left _ _ _ _ (by decide)).trans (ext_only _))))))))))))
    have h2 : (join (join (join (join (join (join (join (join (join (join (join c.bits 0x0#3) (BitVec.ofBool p)) (BitVec.ofBool u)) 0x1#1) (BitVec.ofBool w)) 0x0#1) rn) rt) imm4H) 0xd#4) imm4L).getLsbD 24 = p := ((bit_left _ _ _ (by decide)).trans ((bit_left _ _ _ (by decide)).trans ((bit_left _ _ _ (by decide)).trans ((bit_left _ _ _ (by decide)).trans ((bit_left _ _ _ (by decide)).trans ((bit_left _ _ _ (by decide)).trans ((bit_left _ _ _ (by decide)).trans ((bit_left _ _ _ (by decide)).trans ((bit_left _ _ _ (by decide)).trans (bit_right _ _))))))))))
    have h3 : (join (join (join (join (join (join (join (join (join (join (join c.bits 0x0#3) (BitVec.ofBool p)) (BitVec.ofBool u)) 0x1#1) (BitVec.ofBool w)) 0x0#1) rn) rt) imm4H) 0xd#4) imm4L).getLsbD 23 = u := ((bit_left _ _ _ (by decide)).trans ((bit_left _ _ _ (by decide)).trans ((bit_left _ _ _ (by decide)).trans ((bit_left _ _ _ (by decide)).trans ((bit_left _ _ _ (by decide)).trans ((bit_left _ _ _ (by decide)).trans ((bit_left _ _ _ (by decide)).trans ((bit_left _ _ _ (by decide)).trans (bit_right _ _)))))))))
    have h5 : (join (join (join (join (join (join (join (join (join (join (join c.bits 0x0#3) (BitVec.ofBool p)) (BitVec.ofBool u)) 0x1#1) (BitVec.ofBool w)) 0x0#1) rn) rt) imm4H) 0xd#4) imm4L).getLsbD 21 = w := ((bit_left _ _ _ (by decide)).trans ((bit_left _ _ _ (by decide)).trans ((bit_left _ _ _ (by decide)).trans ((bit_left _ _ _ (by decide)).trans ((bit_left _ _ _ (by decide)).trans ((bit_left _ _ _ (by decide)).trans (bit_right _ _)))))))
    have h7 : (join (join (join (join (join (join (join (join (join (join (join c.bits 0x0#3) (BitVec.ofBool p)) (BitVec.ofBool u)) 0x1#1) (BitVec.ofBool w)) 0x0#1) rn) rt) imm4H) 0xd#4) imm4L).extractLsb' 16 4 = rn := ((ext_left _ _ _ _ (by decide)).trans ((ext_left _ _ _ _ (by decide)).trans ((ext_left _ _ _ _ (by decide)).trans ((ext_left _ _ _ _ (by decide)).trans (ext_right _ _)))))
    have h8 : (join (join (join (join (join (join (join (join (join (join (join c.bits 0x0#3) (BitVec.ofBool p)) (BitVec.ofBool u)) 0x1#1) (BitVec.ofBool w)) 0x0#1) rn) rt) imm4H) 0xd#4) imm4L).extractLsb' 12 4 = rt := ((ext_left _ _ _ _ (by decide)).trans ((ext_left _ _ _ _ (by decide)).trans ((ext_left _ _ _ _ (by decide)).trans (ext_right _ _))))
    have h9 : (join (join (join (join (join (join (join (join (join (join (join c.bits 0x0#3) (BitVec.ofBool p)) (BitVec.ofBool u)) 0x1#1) (BitVec.ofBool w)) 0x0#1) rn) rt) imm4H) 0xd#4) imm4L).extractLsb' 8 4 = imm4H := ((ext_left _ _ _ _ (by decide)).trans ((ext_left _ _ _ _ (by decide)).trans (ext_right _ _)))
    have h11 : (join (join (join (join (join (join (join (join (join (join (join c.bits 0x0#3) (BitVec.ofBool p)) (BitVec.ofBool u)) 0x1#1) (BitVec.ofBool w)) 0x0#1) rn) rt) imm4H) 0xd#4) imm4L).extractLsb' 0 4 = imm4L := (ext_right _ _)
    exact congr (congr (congr (congr (congr (congr (congr (congrArg Instr.ldrdImm ((congrArg Cond.ofBits h0).trans (cond_ofBits c))) (h2)) (h3)) (h5)) (h7)) (h8)) (h9)) (h11)

theorem EncodesToItself.ldrdReg (c : Cond) (p : Bool) (u : Bool) (w : Bool) (rn : Reg) (rt : Reg) (rm : Reg) :
    EncodesToItself.Statement (.ldrdReg c p u w rn rt rm) := by
  refine ⟨_, rfl, ?_, ?_⟩
  · show encode (.ldrdReg c p u w rn rt rm) &&& (join (join (join (join (join (join (join (join (join (join 0x0#4 0x7#3) 0x0#1) 0x0#1) 0x1#1) 0x0#1) 0x1#1) 0x0#4) 0x0#4) 0xff#8) 0x0#4) =
      (join (join (join (join (join (join (join (join (join (join 0x0#4 0x0#3) 0x0#1) 0x0#1) 0x0#1) 0x0#1) 0x0#1) 0x0#4) 0x0#4) 0xd#8) 0x0#4)
    exact (and_parts _ _ _ _).trans (by simp only [and_parts, BitVec.and_zero]; try rfl)
  · have h0 : (join (join (join (join (join (join (join (join (join (join c.bits 0x0#3) (BitVec.ofBool p)) (BitVec.ofBool u)) 0x0#1) (BitVec.ofBool w)) 0x0#1) rn) rt) 0xd#8) rm).extractLsb' 28 4 = c.bits := ((ext_left _ _ _ _ (by decide)).trans ((ext_left _ _ _ _ (by decide)).trans ((ext_left _ _ _ _ (by decide)).trans ((ext_left _ _ _ _ (by decide)).trans ((ext_left _ _ _ _ (by decide)).trans ((ext_left _ _ _ _ (by decide)).trans ((ext_left _ _ _ _ (by decide)).trans ((ext_left _ _ _ _ (by decide)).trans ((ext_left _ _ _ _ (by decide)).trans ((ext_left _ _ _ _ (by decide)).trans (ext_only _)))))))))))
    have h2 : (join (join (join (join (join (join (join (join (join (join c.bits 0x0#3) (BitVec.ofBool p)) (BitVec.ofBool u)) 0x0#1) (BitVec.ofBool w)) 0x0#1) rn) rt) 0xd#8) rm).getLsbD 24 = p := ((bit_left _ _ _ (by decide)).trans ((bit_left _ _ _ (by decide)).trans ((bit_left _ _ _ (by decide)).trans ((bit_left _ _ _ (by decide)).trans ((bit_left _ _ _ (by decide)).trans ((bit_left _ _ _ (by decide)).trans ((bit_left _ _ _ (by decide)).trans ((bit_left _ _ _ (by decide)).trans (bit_right _ _)))))))))
    have h3 : (join (join (join (join (join (join (join (join (join (join c.bits 0x0#3) (BitVec.ofBool p)) (BitVec.ofBool u)) 0x0#1) (BitVec.ofBool w)) 0x0#1) rn) rt) 0xd#8) rm).getLsbD 23 = u := ((bit_left _ _ _ (by decide)).trans ((bit_left _ _ _ (by decide)).trans ((bit_left _ _ _ (by decide)).trans ((bit_left _ _ _ (by decide)).trans ((bit_left _ _ _ (by decide)).trans ((bit_left _ _ _ (by decide)).trans ((bit_left _ _ _ (by decide)).trans (bit_right _ _))))))))
    have h5 : (join (join (join (join (join (join (join (join (join (join c.bits 0x0#3) (BitVec.ofBool p)) (BitVec.ofBool u)) 0x0#1) (BitVec.ofBool w)) 0x0#1) rn) rt) 0xd#8) rm).getLsbD 21 = w := ((bit_left _ _ _ (by decide)).trans ((bit_left _ _ _ (by decide)).trans ((bit_left _ _ _ (by decide)).trans ((bit_left _ _ _ (by decide)).trans ((bit_left _ _ _ (by decide)).trans (bit_right _ _))))))
    have h7 : (join (join (join (join (join (join (join (join (join (join c.bits 0x0#3) (BitVec.ofBool p)) (BitVec.ofBool u)) 0x0#1) (BitVec.ofBool w)) 0x0#1) rn) rt) 0xd#8) rm).extractLsb' 16 4 = rn := ((ext_left _ _ _ _ (by decide)).trans ((ext_left _ _ _ _ (by decide)).trans ((ext_left _ _ _ _ (by decide)).trans (ext_right _ _))))
    have h8 : (join (join (join (join (join (join (join (join (join (join c.bits 0x0#3) (BitVec.ofBool p)) (BitVec.ofBool u)) 0x0#1) (BitVec.ofBool w)) 0x0#1) rn) rt) 0xd#8) rm).extractLsb' 12 4 = rt := ((ext_left _ _ _ _ (by decide)).trans ((ext_left _ _ _ _ (by decide)).trans (ext_right _ _)))
    have h10 : (join (join (join (join (join (join (join (join (join (join c.bits 0x0#3) (BitVec.ofBool p)) (BitVec.ofBool u)) 0x0#1) (BitVec.ofBool w)) 0x0#1) rn) rt) 0xd#8) rm).extractLsb' 0 4 = rm := (ext_right _ _)
    exact congr (congr (congr (congr (congr (congr (congrArg Instr.ldrdReg ((congrArg Cond.ofBits h0).trans (cond_ofBits c))) (h2)) (h3)) (h5)) (h7)) (h8)) (h10)

theorem EncodesToItself.strdImm (c : Cond) (p : Bool) (u : Bool) (w : Bool) (rn : Reg) (rt : Reg) (imm4H : BitVec 4) (imm4L : BitVec 4) :
    EncodesToItself.Statement (.strdImm c p u w rn rt imm4H imm4L) := by
  refine ⟨_, rfl, ?_, ?_⟩
  · show encode (.strdImm c p u w rn rt imm4H imm4L) &&& (join (join (join (join (join (join (join (join (join (join (join 0x0#4 0x7#3) 0x0#1) 0x0#1) 0x1#1) 0x0#1) 0x1#1) 0x0#4) 0x0#4) 0x0#4) 0xf#4) 0x0#4) =
      (join (join (join (join (join (join (join (join (join (join (join 0x0#4 0x0#3) 0x0#1) 0x0#1) 0x1#1) 0x0#1) 0x0#1) 0x0#4) 0x0#4) 0x0#4) 0xf#4) 0x0#4)
    exact (and_parts _ _ _ _).trans (by simp only [and_parts, BitVec.and_zero]; try rfl)
  · have h0 : (join (join (join (join (join (join (join (join (join (join (join c.bits 0x0#3) (BitVec.ofBool p)) (BitVec.ofBool u)) 0x1#1) (BitVec.ofBool w)) 0x0#1) rn) rt) imm4H) 0xf#4) imm4L).extractLsb' 28 4 = c.bits := ((ext_left _ _ _ _ (by decide)).trans ((ext_left _ _ _ _ (by decide)).trans ((ext_left _ _ _ _ (by decide)).trans ((ext_left _ _ _ _ (by decide)).trans ((ext_left _ _ _ _ (by decide)).trans ((ext_left _ _ _ _ (by decide)).trans ((ext_left _ _ _ _ (by decide)).trans ((ext_left _ _ _ _ (by decide)).trans ((ext_left _ _ _ _ (by decide)).trans ((ext_left _ _ _ _ (by decide)).trans ((ext_left _ _ _ _ (by decide)).trans (ext_only _))))))))))))
    have h2 : (join (join (join (join (join (join (join (join (join (join (join c.bits 0x0#3) (BitVec.ofBool p)) (BitVec.ofBool u)) 0x1#1) (BitVec.ofBool w)) 0x0#1) rn) rt) imm4H) 0xf#4) imm4L).getLsbD 24 = p := ((bit_left _ _ _ (by decide)).trans ((bit_left _ _ _ (by decide)).trans ((bit_left _ _ _ (by decide)).trans ((bit_left _ _ _ (by decide)).trans ((bit_left _ _ _ (by decide)).trans ((bit_left _ _ _ (by decide)).trans ((bit_left _ _ _ (by decide)).trans ((bit_left _ _ _ (by decide)).trans ((bit_left _ _ _ (by decide)).trans (bit_right _ _))))))))))
    have h3 : (join (join (join (join (join (join (join (join (join (join (join c.bits 0x0#3) (BitVec.ofBool p)) (BitVec.ofBool u)) 0x1#1) (BitVec.ofBool w)) 0x0#1) rn) rt) imm4H) 0xf#4) imm4L).getLsbD 23 = u := ((bit_left _ _ _ (by decide)).trans ((bit_left _ _ _ (by decide)).trans ((bit_left _ _ _ (by decide)).trans ((bit_left _ _ _ (by decide)).trans ((bit_left _ _ _ (by decide)).trans ((bit_left _ _ _ (by decide)).trans ((bit_left _ _ _ (by decide)).trans ((bit_left _ _ _ (by decide)).trans (bit_right _ _)))))))))
    have h5 : (join (join (join (join (join (join (join (join (join (join (join c.bits 0x0#3) (BitVec.ofBool p)) (BitVec.ofBool u)) 0x1#1) (BitVec.ofBool w)) 0x0#1) rn) rt) imm4H) 0xf#4) imm4L).getLsbD 21 = w := ((bit_left _ _ _ (by decide)).trans ((bit_left _ _ _ (by decide)).trans ((bit_left _ _ _ (by decide)).trans ((bit_left _ _ _ (by decide)).trans ((bit_left _ _ _ (by decide)).trans ((bit_left _ _ _ (by decide)).trans (bit_right _ _)))))))
    have h7 : (join (join (join (join (join (join (join (join (join (join (join c.bits 0x0#3) (BitVec.ofBool p)) (BitVec.ofBool u)) 0x1#1) (BitVec.ofBool w)) 0x0#1) rn) rt) imm4H) 0xf#4) imm4L).extractLsb' 16 4 = rn := ((ext_left _ _ _ _ (by decide)).trans ((ext_left _ _ _ _ (by decide)).trans ((ext_left _ _ _ _ (by decide)).trans ((ext_left _ _ _ _ (by decide)).trans (ext_right _ _)))))
    have h8 : (join (join (join (join (join (join (join (join (join (join (join c.bits 0x0#3) (BitVec.ofBool p)) (BitVec.ofBool u)) 0x1#1) (BitVec.ofBool w)) 0x0#1) rn) rt) imm4H) 0xf#4) imm4L).extractLsb' 12 4 = rt := ((ext_left _ _ _ _ (by decide)).trans ((ext_left _ _ _ _ (by decide)).trans ((ext_left _ _ _ _ (by decide)).trans (ext_right _ _))))
    have h9 : (join (join (join (join (join (join (join (join (join (join (join c.bits 0x0#3) (BitVec.ofBool p)) (BitVec.ofBool u)) 0x1#1) (BitVec.ofBool w)) 0x0#1) rn) rt) imm4H) 0xf#4) imm4L).extractLsb' 8 4 = imm4H := ((ext_left _ _ _ _ (by decide)).trans ((ext_left _ _ _ _ (by decide)).trans (ext_right _ _)))
    have h11 : (join (join (join (join (join (join (join (join (join (join (join c.bits 0x0#3) (BitVec.ofBool p)) (BitVec.ofBool u)) 0x1#1) (BitVec.ofBool w)) 0x0#1) rn) rt) imm4H) 0xf#4) imm4L).extractLsb' 0 4 = imm4L := (ext_right _ _)
    exact congr (congr (congr (congr (congr (congr (congr (congrArg Instr.strdImm ((congrArg Cond.ofBits h0).trans (cond_ofBits c))) (h2)) (h3)) (h5)) (h7)) (h8)) (h9)) (h11)

theorem EncodesToItself.strdReg (c : Cond) (p : Bool) (u : Bool) (w : Bool) (rn : Reg) (rt : Reg) (rm : Reg) :
    EncodesToItself.Statement (.strdReg c p u w rn rt rm) := by
  refine ⟨_, rfl, ?_, ?_⟩
  · show encode (.strdReg c p u w rn rt rm) &&& (join (join (join (join (join (join (join (join (join (join 0x0#4 0x7#3) 0x0#1) 0x0#1) 0x1#1) 0x0#1) 0x1#1) 0x0#4) 0x0#4) 0xff#8) 0x0#4) =
      (join (join (join (join (join (join (join (join (join (join 0x0#4 0x0#3) 0x0#1) 0x0#1) 0x0#1) 0x0#1) 0x0#1) 0x0#4) 0x0#4) 0xf#8) 0x0#4)
    exact (and_parts _ _ _ _).trans (by simp only [and_parts, BitVec.and_zero]; try rfl)
  · have h0 : (join (join (join (join (join (join (join (join (join (join c.bits 0x0#3) (BitVec.ofBool p)) (BitVec.ofBool u)) 0x0#1) (BitVec.ofBool w)) 0x0#1) rn) rt) 0xf#8) rm).extractLsb' 28 4 = c.bits := ((ext_left _ _ _ _ (by decide)).trans ((ext_left _ _ _ _ (by decide)).trans ((ext_left _ _ _ _ (by decide)).trans ((ext_left _ _ _ _ (by decide)).trans ((ext_left _ _ _ _ (by decide)).trans ((ext_left _ _ _ _ (by decide)).trans ((ext_left _ _ _ _ (by decide)).trans ((ext_left _ _ _ _ (by decide)).trans ((ext_left _ _ _ _ (by decide)).trans ((ext_left _ _ _ _ (by decide)).trans (ext_only _)))))))))))
    have h2 : (join (join (join (join (join (join (join (join (join (join c.bits 0x0#3) (BitVec.ofBool p)) (BitVec.ofBool u)) 0x0#1) (BitVec.ofBool w)) 0x0#1) rn) rt) 0xf#8) rm).getLsbD 24 = p := ((bit_left _ _ _ (by decide)).trans ((bit_left _ _ _ (by decide)).trans ((bit_left _ _ _ (by decide)).trans ((bit_left _ _ _ (by decide)).trans ((bit_left _ _ _ (by decide)).trans ((bit_left _ _ _ (by decide)).trans ((bit_left _ _ _ (by decide)).trans ((bit_left _ _ _ (by decide)).trans (bit_right _ _)))))))))
    have h3 : (join (join (join (join (join (join (join (join (join (join c.bits 0x0#3) (BitVec.ofBool p)) (BitVec.ofBool u)) 0x0#1) (BitVec.ofBool w)) 0x0#1) rn) rt) 0xf#8) rm).getLsbD 23 = u := ((bit_left _ _ _ (by decide)).trans ((bit_left _ _ _ (by decide)).trans ((bit_left _ _ _ (by decide)).trans ((bit_left _ _ _ (by decide)).trans ((bit_left _ _ _ (by decide)).trans ((bit_left _ _ _ (by decide)).trans ((bit_left _ _ _ (by decide)).trans (bit_right _ _))))))))
    have h5 : (join (join (join (join (join (join (join (join (join (join c.bits 0x0#3) (BitVec.ofBool p)) (BitVec.ofBool u)) 0x0#1) (BitVec.ofBool w)) 0x0#1) rn) rt) 0xf#8) rm).getLsbD 21 = w := ((bit_left _ _ _ (by decide)).trans ((bit_left _ _ _ (by decide)).trans ((bit_left _ _ _ (by decide)).trans ((bit_left _ _ _ (by decide)).trans ((bit_left _ _ _ (by decide)).trans (bit_right _ _))))))
    have h7 : (join (join (join (join (join (join (join (join (join (join c.bits 0x0#3) (BitVec.ofBool p)) (BitVec.ofBool u)) 0x0#1) (BitVec.ofBool w)) 0x0#1) rn) rt) 0xf#8) rm).extractLsb' 16 4 = rn := ((ext_left _ _ _ _ (by decide)).trans ((ext_left _ _ _ _ (by decide)).trans ((ext_left _ _ _ _ (by decide)).trans (ext_right _ _))))
    have h8 : (join (join (join (join (join (join (join (join (join (join c.bits 0x0#3) (BitVec.ofBool p)) (BitVec.ofBool u)) 0x0#1) (BitVec.ofBool w)) 0x0#1) rn) rt) 0xf#8) rm).extractLsb' 12 4 = rt := ((ext_left _ _ _ _ (by decide)).trans ((ext_left _ _ _ _ (by decide)).trans (ext_right _ _)))
    have h10 : (join (join (join (join (join (join (join (join (join (join c.bits 0x0#3) (BitVec.ofBool p)) (BitVec.ofBool u)) 0x0#1) (BitVec.ofBool w)) 0x0#1) rn) rt) 0xf#8) rm).extractLsb' 0 4 = rm := (ext_right _ _)
    exact congr (congr (congr (congr (congr (congr (congrArg Instr.strdReg ((congrArg Cond.ofBits h0).trans (cond_ofBits c))) (h2)) (h3)) (h5)) (h7)) (h8)) (h10)

theorem EncodesToItself.udf (c : Cond) (imm12 : BitVec 12) (imm4 : BitVec 4) :
    EncodesToItself.Statement (.udf c imm12 imm4) := by
  refine ⟨_, rfl, ?_, ?_⟩
  · show encode (.udf c imm12 imm4) &&& (join (join (join (join 0x0#4 0xff#8) 0x0#12) 0xf#4) 0x0#4) =
      (join (join (join (join 0x0#4 0x7f#8) 0x0#12) 0xf#4) 0x0#4)
    exact (and_parts _ _ _ _).trans (by simp only [and_parts, BitVec.and_zero]; try rfl)
  · have h0 : (join (join (join (join c.bits 0x7f#8) imm12) 0xf#4) imm4).extractLsb' 28 4 = c.bits := ((ext_left _ _ _ _ (by decide)).trans ((ext_left _ _ _ _ (by decide)).trans ((ext_left _ _ _ _ (by decide)).trans ((ext_left _ _ _ _ (by decide)).trans (ext_only _)))))
    have h2 : (join (join (join (join c.bits 0x7f#8) imm12) 0xf#4) imm4).extractLsb' 8 12 = imm12 := ((ext_left _ _ _ _ (by decide)).trans ((ext_left _ _ _ _ (by decide)).trans (ext_right _ _)))
    have h4 : (join (join (join (join c.bits 0x7f#8) imm12) 0xf#4) imm4).extractLsb' 0 4 = imm4 := (ext_right _ _)
    exact congr (congr (congrArg Instr.udf ((congrArg Cond.ofBits h0).trans (cond_ofBits c))) (h2)) (h4)

theorem EncodesToItself.sdiv (c : Cond) (rd : Reg) (rm : Reg) (rn : Reg) :
    EncodesToItself.Statement (.sdiv c rd rm rn) := by
  refine ⟨_, rfl, ?_, ?_⟩
  · show encode (.sdiv c rd rm rn) &&& (join (join (join (join (join (join 0x0#4 0xff#8) 0x0#4) 0xf#4) 0x0#4) 0xf#4) 0x0#4) =
      (join (join (join (join (join (join 0x0#4 0x71#8) 0x0#4) 0xf#4) 0x0#4) 0x1#4) 0x0#4)
    exact (and_parts _ _ _ _).trans (by simp only [and_parts, BitVec.and_zero]; try rfl)
  · have h0 : (join (join (join (join (join (join c.bits 0x71#8) rd) 0xf#4) rm) 0x1#4) rn).extractLsb' 28 4 = c.bits := ((ext_left _ _ _ _ (by decide)).trans ((ext_left _ _ _ _ (by decide)).trans ((ext_left _ _ _ _ (by decide)).trans ((ext_left _ _ _ _ (by decide)).trans ((ext_left _ _ _ _ (by decide)).trans ((ext_left _ _ _ _ (by decide)).trans (ext_only _)))))))
    have h2 : (join (join (join (join (join (join c.bits 0x71#8) rd) 0xf#4) rm) 0x1#4) rn).extractLsb' 16 4 = rd := ((ext_left _ _ _ _ (by decide)).trans ((ext_left _ _ _ _ (by decide)).trans ((ext_left _ _ _ _ (by decide)).trans ((ext_left _ _ _ _ (by decide)).trans (ext_right _ _)))))
    have h4 : (join (join (join (join (join (join c.bits 0x71#8) rd) 0xf#4) rm) 0x1#4) rn).extractLsb' 8 4 = rm := ((ext_left _ _ _ _ (by decide)).trans ((ext_left _ _ _ _ (by decide)).trans (ext_right _ _)))
    have h6 : (join (join (join (join (join (join c.bits 0x71#8) rd) 0xf#4) rm) 0x1#4) rn).extractLsb' 0 4 = rn := (ext_right _ _)
    exact congr (congr (congr (congrArg Instr.sdiv ((congrArg Cond.ofBits h0).trans (cond_ofBits c))) (h2)) (h4)) (h6)

theorem EncodesToItself.udiv (c : Cond) (rd : Reg) (rm : Reg) (rn : Reg) :
    EncodesToItself.Statement (.udiv c rd rm rn) := by
  refine ⟨_, rfl, ?_, ?_⟩
  · show encode (.udiv c rd rm rn) &&& (join (join (join (join (join (join 0x0#4 0xff#8) 0x0#4) 0xf#4) 0x0#4) 0xf#4) 0x0#4) =
      (join (join (join (join (join (join 0x0#4 0x73#8) 0x0#4) 0xf#4) 0x0#4) 0x1#4) 0x0#4)
    exact (and_parts _ _ _ _).trans (by simp only [and_parts, BitVec.and_zero]; try rfl)
  · have h0 : (join (join (join (join (join (join c.bits 0x73#8) rd) 0xf#4) rm) 0x1#4) rn).extractLsb' 28 4 = c.bits := ((ext_left _ _ _ _ (by decide)).trans ((ext_left _ _ _ _ (by decide)).trans ((ext_left _ _ _ _ (by decide)).trans ((ext_left _ _ _ _ (by decide)).trans ((ext_left _ _ _ _ (by decide)).trans ((ext_left _ _ _ _ (by decide)).trans (ext_only _)))))))
    have h2 : (join (join (join (join (join (join c.bits 0x73#8) rd) 0xf#4) rm) 0x1#4) rn).extractLsb' 16 4 = rd := ((ext_left _ _ _ _ (by decide)).trans ((ext_left _ _ _ _ (by decide)).trans ((ext_left _ _ _ _ (by decide)).trans ((ext_left _ _ _ _ (by decide)).trans (ext_right _ _)))))
    have h4 : (join (join (join (join (join (join c.bits 0x73#8) rd) 0xf#4) rm) 0x1#4) rn).extractLsb' 8 4 = rm := ((ext_left _ _ _ _ (by decide)).trans ((ext_left _ _ _ _ (by decide)).trans (ext_right _ _)))
    have h6 : (join (join (join (join (join (join c.bits 0x73#8) rd) 0xf#4) rm) 0x1#4) rn).extractLsb' 0 4 = rn := (ext_right _ _)
    exact congr (congr (congr (congrArg Instr.udiv ((congrArg Cond.ofBits h0).trans (cond_ofBits c))) (h2)) (h4)) (h6)

theorem EncodesToItself.bfc (c : Cond) (msb : BitVec 5) (rd : Reg) (lsb : BitVec 5) :
    EncodesToItself.Statement (.bfc c msb rd lsb) := by
  refine ⟨_, rfl, ?_, ?_⟩
  · show encode (.bfc c msb rd lsb) &&& (join (join (join (join (join 0x0#4 0x7f#7) 0x0#5) 0x0#4) 0x0#5) 0x7f#7) =
      (join (join (join (join (join 0x0#4 0x3e#7) 0x0#5) 0x0#4) 0x0#5) 0x1f#7)
    exact (and_parts _ _ _ _).trans (by simp only [and_parts, BitVec.and_zero]; try rfl)
  · have h0 : (join (join (join (join (join c.bits 0x3e#7) msb) rd) lsb) 0x1f#7).extractLsb' 28 4 = c.bits := ((ext_left _ _ _ _ (by decide)).trans ((ext_left _ _ _ _ (by decide)).trans ((ext_left _ _ _ _ (by decide)).trans ((ext_left _ _ _ _ (by decide)).trans ((ext_left _ _ _ _ (by decide)).trans (ext_only _))))))
    have h2 : (join (join (join (join (join c.bits 0x3e#7) msb) rd) lsb) 0x1f#7).extractLsb' 16 5 = msb := ((ext_left _ _ _ _ (by decide)).trans ((ext_left _ _ _ _ (by decide)).trans ((ext_left _ _ _ _ (by decide)).trans (ext_right _ _))))
    have h3 : (join (join (join (join (join c.bits 0x3e#7) msb) rd) lsb) 0x1f#7).extractLsb' 12 4 = rd := ((ext_left _ _ _ _ (by decide)).trans ((ext_left _ _ _ _ (by decide)).trans (ext_right _ _)))
    have h4 : (join (join (join (join (join c.bits 0x3e#7) msb) rd) lsb) 0x1f#7).extractLsb' 7 5 = lsb := ((ext_left _ _ _ _ (by decide)).trans (ext_right _ _))
    exact congr (congr (congr (congrArg Instr.bfc ((congrArg Cond.ofBits h0).trans (cond_ofBits c))) (h2)) (h3)) (h4)

theorem EncodesToItself.bfi (c : Cond) (msb : BitVec 5) (rd : Reg) (lsb : BitVec 5) (rn : Reg) :
    EncodesToItself.Statement (.bfi c msb rd lsb rn) := by
  refine ⟨_, rfl, ?_, ?_⟩
  · show encode (.bfi c msb rd lsb rn) &&& (join (join (join (join (join (join 0x0#4 0x7f#7) 0x0#5) 0x0#4) 0x0#5) 0x7#3) 0x0#4) =
      (join (join (join (join (join (join 0x0#4 0x3e#7) 0x0#5) 0x0#4) 0x0#5) 0x1#3) 0x0#4)
    exact (and_parts _ _ _ _).trans (by simp only [and_parts, BitVec.and_zero]; try rfl)
  · have h0 : (join (join (join (join (join (join c.bits 0x3e#7) msb) rd) lsb) 0x1#3) rn).extractLsb' 28 4 = c.bits := ((ext_left _ _ _ _ (by decide)).trans ((ext_left _ _ _ _ (by decide)).trans ((ext_left _ _ _ _ (by decide)).trans ((ext_left _ _ _ _ (by decide)).trans ((ext_left _ _ _ _ (by decide)).trans ((ext_left _ _ _ _ (by decide)).trans (ext_only _)))))))
    have h2 : (join (join (join (join (join (join c.bits 0x3e#7) msb) rd) lsb) 0x1#3) rn).extractLsb' 16 5 = msb := ((ext_left _ _ _ _ (by decide)).trans ((ext_left _ _ _ _ (by decide)).trans ((ext_left _ _ _ _ (by decide)).trans ((ext_left _ _ _ _ (by decide)).trans (ext_right _ _)))))
    have h3 : (join (join (join (join (join (join c.bits 0x3e#7) msb) rd) lsb) 0x1#3) rn).extractLsb' 12 4 = rd := ((ext_left _ _ _ _ (by decide)).trans ((ext_left _ _ _ _ (by decide)).trans ((ext_left _ _ _ _ (by decide)).trans (ext_right _ _))))
    have h4 : (join (join (join (join (join (join c.bits 0x3e#7) msb) rd) lsb) 0x1#3) rn).extractLsb' 7 5 = lsb := ((ext_left _ _ _ _ (by decide)).trans ((ext_left _ _ _ _ (by decide)).trans (ext_right _ _)))
    have h6 : (join (join (join (join (join (join c.bits 0x3e#7) msb) rd) lsb) 0x1#3) rn).extractLsb' 0 4 = rn := (ext_right _ _)
    exact congr (congr (congr (congr (congrArg Instr.bfi ((congrArg Cond.ofBits h0).trans (cond_ofBits c))) (h2)) (h3)) (h4)) (h6)

theorem EncodesToItself.ubfx (c : Cond) (widthm1 : BitVec 5) (rd : Reg) (lsb : BitVec 5) (rn : Reg) :
    EncodesToItself.Statement (.ubfx c widthm1 rd lsb rn) := by
  refine ⟨_, rfl, ?_, ?_⟩
  · show encode (.ubfx c widthm1 rd lsb rn) &&& (join (join (join (join (join (join 0x0#4 0x7f#7) 0x0#5) 0x0#4) 0x0#5) 0x7#3) 0x0#4) =
      (join (join (join (join (join (join 0x0#4 0x3f#7) 0x0#5) 0x0#4) 0x0#5) 0x5#3) 0x0#4)
    exact (and_parts _ _ _ _).trans (by simp only [and_parts, BitVec.and_zero]; try rfl)
  · have h0 : (join (join (join (join (join (join c.bits 0x3f#7) widthm1) rd) lsb) 0x5#3) rn).extractLsb' 28 4 = c.bits := ((ext_left _ _ _ _ (by decide)).trans ((ext_left _ _ _ _ (by decide)).trans ((ext_left _ _ _ _ (by decide)).trans ((ext_left _ _ _ _ (by decide)).trans ((ext_left _ _ _ _ (by decide)).trans ((ext_left _ _ _ _ (by decide)).trans (ext_only _)))))))
    have h2 : (join (join (join (join (join (join c.bits 0x3f#7) widthm1) rd) lsb) 0x5#3) rn).extractLsb' 16 5 = widthm1 := ((ext_left _ _ _ _ (by decide)).trans ((ext_left _ _ _ _ (by decide)).trans ((ext_left _ _ _ _ (by decide)).trans ((ext_left _ _ _ _ (by decide)).trans (ext_right _ _)))))
    have h3 : (join (join (join (join (join (join c.bits 0x3f#7) widthm1) rd) lsb) 0x5#3) rn).extractLsb' 12 4 = rd := ((ext_left _ _ _ _ (by decide)).trans ((ext_left _ _ _ _ (by decide)).trans ((ext_left _ _ _ _ (by decide)).trans (ext_right _ _))))
    have h4 : (join (join (join (join (join (join c.bits 0x3f#7) widthm1) rd) lsb) 0x5#3) rn).extractLsb' 7 5 = lsb := ((ext_left _ _ _ _ (by decide)).trans ((ext_left _ _ _ _ (by decide)).trans (ext_right _ _)))
    have h6 : (join (join (join (join (join (join c.bits 0x3f#7) widthm1) rd) lsb) 0x5#3) rn).extractLsb' 0 4 = rn := (ext_right _ _)
    exact congr (congr (congr (congr (congrArg Instr.ubfx ((congrArg Cond.ofBits h0).trans (cond_ofBits c))) (h2)) (h3)) (h4)) (h6)

theorem EncodesToItself.sbfx (c : Cond) (widthm1 : BitVec 5) (rd : Reg) (lsb : BitVec 5) (rn : Reg) :
    EncodesToItself.Statement (.sbfx c widthm1 rd lsb rn) := by
  refine ⟨_, rfl, ?_, ?_⟩
  · show encode (.sbfx c widthm1 rd lsb rn) &&& (join (join (join (join (join (join 0x0#4 0x7f#7) 0x0#5) 0x0#4) 0x0#5) 0x7#3) 0x0#4) =
      (join (join (join (join (join (join 0x0#4 0x3d#7) 0x0#5) 0x0#4) 0x0#5) 0x5#3) 0x0#4)
    exact (and_parts _ _ _ _).trans (by simp only [and_parts, BitVec.and_zero]; try rfl)
  · have h0 : (join (join (join (join (join (join c.bits 0x3d#7) widthm1) rd) lsb) 0x5#3) rn).extractLsb' 28 4 = c.bits := ((ext_left _ _ _ _ (by decide)).trans ((ext_left _ _ _ _ (by decide)).trans ((ext_left _ _ _ _ (by decide)).trans ((ext_left _ _ _ _ (by decide)).trans ((ext_left _ _ _ _ (by decide)).trans ((ext_left _ _ _ _ (by decide)).trans (ext_only _)))))))
    have h2 : (join (join (join (join (join (join c.bits 0x3d#7) widthm1) rd) lsb) 0x5#3) rn).extractLsb' 16 5 = widthm1 := ((ext_left _ _ _ _ (by decide)).trans ((ext_left _ _ _ _ (by decide)).trans ((ext_left _ _ _ _ (by decide)).trans ((ext_left _ _ _ _ (by decide)).trans (ext_right _ _)))))
    have h3 : (join (join (join (join (join (join c.bits 0x3d#7) widthm1) rd) lsb) 0x5#3) rn).extractLsb' 12 4 = rd := ((ext_left _ _ _ _ (by decide)).trans ((ext_left _ _ _ _ (by decide)).trans ((ext_left _ _ _ _ (by decide)).trans (ext_right _ _))))
    have h4 : (join (join (join (join (join (join c.bits 0x3d#7) widthm1) rd) lsb) 0x5#3) rn).extractLsb' 7 5 = lsb := ((ext_left _ _ _ _ (by decide)).trans ((ext_left _ _ _ _ (by decide)).trans (ext_right _ _)))
    have h6 : (join (join (join (join (join (join c.bits 0x3d#7) widthm1) rd) lsb) 0x5#3) rn).extractLsb' 0 4 = rn := (ext_right _ _)
    exact congr (congr (congr (congr (congrArg Instr.sbfx ((congrArg Cond.ofBits h0).trans (cond_ofBits c))) (h2)) (h3)) (h4)) (h6)

theorem EncodesToItself.rev (c : Cond) (rd : Reg) (rm : Reg) :
    EncodesToItself.Statement (.rev c rd rm) := by
  refine ⟨_, rfl, ?_, ?_⟩
  · show encode (.rev c rd rm) &&& (join (join (join (join 0x0#4 0xfff#12) 0x0#4) 0xff#8) 0x0#4) =
      (join (join (join (join 0x0#4 0x6bf#12) 0x0#4) 0xf3#8) 0x0#4)
    exact (and_parts _ _ _ _).trans (by simp only [and_parts, BitVec.and_zero]; try rfl)
  · have h0 : (join (join (join (join c.bits 0x6bf#12) rd) 0xf3#8) rm).extractLsb' 28 4 = c.bits := ((ext_left _ _ _ _ (by decide)).trans ((ext_left _ _ _ _ (by decide)).trans ((ext_left _ _ _ _ (by decide)).trans ((ext_left _ _ _ _ (by decide)).trans (ext_only _)))))
    have h2 : (join (join (join (join c.bits 0x6bf#12) rd) 0xf3#8) rm).extractLsb' 12 4 = rd := ((ext_left _ _ _ _ (by decide)).trans ((ext_left _ _ _ _ (by decide)).trans (ext_right _ _)))
    have h4 : (join (join (join (join c.bits 0x6bf#12) rd) 0xf3#8) rm).extractLsb' 0 4 = rm := (ext_right _ _)
    exact congr (congr (congrArg Instr.rev ((congrArg Cond.ofBits h0).trans (cond_ofBits c))) (h2)) (h4)

theorem EncodesToItself.rev16 (c : Cond) (rd : Reg) (rm : Reg) :
    EncodesToItself.Statement (.rev16 c rd rm) := by
  refine ⟨_, rfl, ?_, ?_⟩
  · show encode (.rev16 c rd rm) &&& (join (join (join (join 0x0#4 0xfff#12) 0x0#4) 0xff#8) 0x0#4) =
      (join (join (join (join 0x0#4 0x6bf#12) 0x0#4) 0xfb#8) 0x0#4)
    exact (and_parts _ _ _ _).trans (by simp only [and_parts, BitVec.and_zero]; try rfl)
  · have h0 : (join (join (join (join c.bits 0x6bf#12) rd) 0xfb#8) rm).extractLsb' 28 4 = c.bits := ((ext_left _ _ _ _ (by decide)).trans ((ext_left _ _ _ _ (by decide)).trans ((ext_left _ _ _ _ (by decide)).trans ((ext_left _ _ _ _ (by decide)).trans (ext_only _)))))
    have h2 : (join (join (join (join c.bits 0x6bf#12) rd) 0xfb#8) rm).extractLsb' 12 4 = rd := ((ext_left _ _ _ _ (by decide)).trans ((ext_left _ _ _ _ (by decide)).trans (ext_right _ _)))
    have h4 : (join (join (join (join c.bits 0x6bf#12) rd) 0xfb#8) rm).extractLsb' 0 4 = rm := (ext_right _ _)
    exact congr (congr (congrArg Instr.rev16 ((congrArg Cond.ofBits h0).trans (cond_ofBits c))) (h2)) (h4)

theorem EncodesToItself.revsh (c : Cond) (rd : Reg) (rm : Reg) :
    EncodesToItself.Statement (.revsh c rd rm) := by
  refine ⟨_, rfl, ?_, ?_⟩
  · show encode (.revsh c rd rm) &&& (join (join (join (join 0x0#4 0xfff#12) 0x0#4) 0xff#8) 0x0#4) =
      (join (join (join (join 0x0#4 0x6ff#12) 0x0#4) 0xfb#8) 0x0#4)
    exact (and_parts _ _ _ _).trans (by simp only [and_parts, BitVec.and_zero]; try rfl)
  · have h0 : (join (join (join (join c.bits 0x6ff#12) rd) 0xfb#8) rm).extractLsb' 28 4 = c.bits := ((ext_left _ _ _ _ (by decide)).trans ((ext_left _ _ _ _ (by decide)).trans ((ext_left _ _ _ _ (by decide)).trans ((ext_left _ _ _ _ (by decide)).trans (ext_only _)))))
    have h2 : (join (join (join (join c.bits 0x6ff#12) rd) 0xfb#8) rm).extractLsb' 12 4 = rd := ((ext_left _ _ _ _ (by decide)).trans ((ext_left _ _ _ _ (by decide)).trans (ext_right _ _)))
    have h4 : (join (join (join (join c.bits 0x6ff#12) rd) 0xfb#8) rm).extractLsb' 0 4 = rm := (ext_right _ _)
    exact congr (congr (congrArg Instr.revsh ((congrArg Cond.ofBits h0).trans (cond_ofBits c))) (h2)) (h4)

theorem EncodesToItself.rbit (c : Cond) (rd : Reg) (rm : Reg) :
    EncodesToItself.Statement (.rbit c rd rm) := by
  refine ⟨_, rfl, ?_, ?_⟩
  · show encode (.rbit c rd rm) &&& (join (join (join (join 0x0#4 0xfff#12) 0x0#4) 0xff#8) 0x0#4) =
      (join (join (join (join 0x0#4 0x6ff#12) 0x0#4) 0xf3#8) 0x0#4)
    exact (and_parts _ _ _ _).trans (by simp only [and_parts, BitVec.and_zero]; try rfl)
  · have h0 : (join (join (join (join c.bits 0x6ff#12) rd) 0xf3#8) rm).extractLsb' 28 4 = c.bits := ((ext_left _ _ _ _ (by decide)).trans ((ext_left _ _ _ _ (by decide)).trans ((ext_left _ _ _ _ (by decide)).trans ((ext_left _ _ _ _ (by decide)).trans (ext_only _)))))
    have h2 : (join (join (join (join c.bits 0x6ff#12) rd) 0xf3#8) rm).extractLsb' 12 4 = rd := ((ext_left _ _ _ _ (by decide)).trans ((ext_left _ _ _ _ (by decide)).trans (ext_right _ _)))
    have h4 : (join (join (join (join c.bits 0x6ff#12) rd) 0xf3#8) rm).extractLsb' 0 4 = rm := (ext_right _ _)
    exact congr (congr (congrArg Instr.rbit ((congrArg Cond.ofBits h0).trans (cond_ofBits c))) (h2)) (h4)

theorem EncodesToItself.uxtb (c : Cond) (rd : Reg) (rotate : BitVec 2) (rm : Reg) :
    EncodesToItself.Statement (.uxtb c rd rotate rm) := by
  refine ⟨_, rfl, ?_, ?_⟩
  · show encode (.uxtb c rd rotate rm) &&& (join (join (join (join (join 0x0#4 0xfff#12) 0x0#4) 0x0#2) 0x3f#6) 0x0#4) =
      (join (join (join (join (join 0x0#4 0x6ef#12) 0x0#4) 0x0#2) 0x7#6) 0x0#4)
    exact (and_parts _ _ _ _).trans (by simp only [and_parts, BitVec.and_zero]; try rfl)
  · have h0 : (join (join (join (join (join c.bits 0x6ef#12) rd) rotate) 0x7#6) rm).extractLsb' 28 4 = c.bits := ((ext_left _ _ _ _ (by decide)).trans ((ext_left _ _ _ _ (by decide)).trans ((ext_left _ _ _ _ (by decide)).trans ((ext_left _ _ _ _ (by decide)).trans ((ext_left _ _ _ _ (by decide)).trans (ext_only _))))))
    have h2 : (join (join (join (join (join c.bits 0x6ef#12) rd) rotate) 0x7#6) rm).extractLsb' 12 4 = rd := ((ext_left _ _ _ _ (by decide)).trans ((ext_left _ _ _ _ (by decide)).trans ((ext_left _ _ _ _ (by decide)).trans (ext_right _ _))))
    have h3 : (join (join (join (join (join c.bits 0x6ef#12) rd) rotate) 0x7#6) rm).extractLsb' 10 2 = rotate := ((ext_left _ _ _ _ (by decide)).trans ((ext_left _ _ _ _ (by decide)).trans (ext_right _ _)))
    have h5 : (join (join (join (join (join c.bits 0x6ef#12) rd) rotate) 0x7#6) rm).extractLsb' 0 4 = rm := (ext_right _ _)
    exact congr (congr (congr (congrArg Instr.uxtb ((congrArg Cond.ofBits h0).trans (cond_ofBits c))) (h2)) (h3)) (h5)

theorem EncodesToItself.uxth (c : Cond) (rd : Reg) (rotate : BitVec 2) (rm : Reg) :
    EncodesToItself.Statement (.uxth c rd rotate rm) := by
  refine ⟨_, rfl, ?_, ?_⟩
  · show encode (.uxth c rd rotate rm) &&& (join (join (join (join (join 0x0#4 0xfff#12) 0x0#4) 0x0#2) 0x3f#6) 0x0#4) =
      (join (join (join (join (join 0x0#4 0x6ff#12) 0x0#4) 0x0#2) 0x7#6) 0x0#4)
    exact (and_parts _ _ _ _).trans (by simp only [and_parts, BitVec.and_zero]; try rfl)
  · have h0 : (join (join (join (join (join c.bits 0x6ff#12) rd) rotate) 0x7#6) rm).extractLsb' 28 4 = c.bits := ((ext_left _ _ _ _ (by decide)).trans ((ext_left _ _ _ _ (by decide)).trans ((ext_left _ _ _ _ (by decide)).trans ((ext_left _ _ _ _ (by decide)).trans ((ext_left _ _ _ _ (by decide)).trans (ext_only _))))))
    have h2 : (join (join (join (join (join c.bits 0x6ff#12) rd) rotate) 0x7#6) rm).extractLsb' 12 4 = rd := ((ext_left _ _ _ _ (by decide)).trans ((ext_left _ _ _ _ (by decide)).trans ((ext_left _ _ _ _ (by decide)).trans (ext_right _ _))))
    have h3 : (join (join (join (join (join c.bits 0x6ff#12) rd) rotate) 0x7#6) rm).extractLsb' 10 2 = rotate := ((ext_left _ _ _ _ (by decide)).trans ((ext_left _ _ _ _ (by decide)).trans (ext_right _ _)))
    have h5 : (join (join (join (join (join c.bits 0x6ff#12) rd) rotate) 0x7#6) rm).extractLsb' 0 4 = rm := (ext_right _ _)
    exact congr (congr (congr (congrArg Instr.uxth ((congrArg Cond.ofBits h0).trans (cond_ofBits c))) (h2)) (h3)) (h5)

theorem EncodesToItself.sxtb (c : Cond) (rd : Reg) (rotate : BitVec 2) (rm : Reg) :
    EncodesToItself.Statement (.sxtb c rd rotate rm) := by
  refine ⟨_, rfl, ?_, ?_⟩
  · show encode (.sxtb c rd rotate rm) &&& (join (join (join (join (join 0x0#4 0xfff#12) 0x0#4) 0x0#2) 0x3f#6) 0x0#4) =
      (join (join (join (join (join 0x0#4 0x6af#12) 0x0#4) 0x0#2) 0x7#6) 0x0#4)
    exact (and_parts _ _ _ _).trans (by simp only [and_parts, BitVec.and_zero]; try rfl)
  · have h0 : (join (join (join (join (join c.bits 0x6af#12) rd) rotate) 0x7#6) rm).extractLsb' 28 4 = c.bits := ((ext_left _ _ _ _ (by decide)).trans ((ext_left _ _ _ _ (by decide)).trans ((ext_left _ _ _ _ (by decide)).trans ((ext_left _ _ _ _ (by decide)).trans ((ext_left _ _ _ _ (by decide)).trans (ext_only _))))))
    have h2 : (join (join (join (join (join c.bits 0x6af#12) rd) rotate) 0x7#6) rm).extractLsb' 12 4 = rd := ((ext_left _ _ _ _ (by decide)).trans ((ext_left _ _ _ _ (by decide)).trans ((ext_left _ _ _ _ (by decide)).trans (ext_right _ _))))
    have h3 : (join (join (join (join (join c.bits 0x6af#12) rd) rotate) 0x7#6) rm).extractLsb' 10 2 = rotate := ((ext_left _ _ _ _ (by decide)).trans ((ext_left _ _ _ _ (by decide)).trans (ext_right _ _)))
    have h5 : (join (join (join (join (join c.bits 0x6af#12) rd) rotate) 0x7#6) rm).extractLsb' 0 4 = rm := (ext_right _ _)
    exact congr (congr (congr (congrArg Instr.sxtb ((congrArg Cond.ofBits h0).trans (cond_ofBits c))) (h2)) (h3)) (h5)

theorem EncodesToItself.sxth (c : Cond) (rd : Reg) (rotate : BitVec 2) (rm : Reg) :
    EncodesToItself.Statement (.sxth c rd rotate rm) := by
  refine ⟨_, rfl, ?_, ?_⟩
  · show encode (.sxth c rd rotate rm) &&& (join (join (join (join (join 0x0#4 0xfff#12) 0x0#4) 0x0#2) 0x3f#6) 0x0#4) =
      (join (join (join (join (join 0x0#4 0x6bf#12) 0x0#4) 0x0#2) 0x7#6) 0x0#4)
    exact (and_parts _ _ _ _).trans (by simp only [and_parts, BitVec.and_zero]; try rfl)
  · have h0 : (join (join (join (join (join c.bits 0x6bf#12) rd) rotate) 0x7#6) rm).extractLsb' 28 4 = c.bits := ((ext_left _ _ _ _ (by decide)).trans ((ext_left _ _ _ _ (by decide)).trans ((ext_left _ _ _ _ (by decide)).trans ((ext_left _ _ _ _ (by decide)).trans ((ext_left _ _ _ _ (by decide)).trans (ext_only _))))))
    have h2 : (join (join (join (join (join c.bits 0x6bf#12) rd) rotate) 0x7#6) rm).extractLsb' 12 4 = rd := ((ext_left _ _ _ _ (by decide)).trans ((ext_left _ _ _ _ (by decide)).trans ((ext_left _ _ _ _ (by decide)).trans (ext_right _ _))))
    have h3 : (join (join (join (join (join c.bits 0x6bf#12) rd) rotate) 0x7#6) rm).extractLsb' 10 2 = rotate := ((ext_left _ _ _ _ (by decide)).trans ((ext_left _ _ _ _ (by decide)).trans (ext_right _ _)))
    have h5 : (join (join (join (join (join c.bits 0x6bf#12) rd) rotate) 0x7#6) rm).extractLsb' 0 4 = rm := (ext_right _ _)
    exact congr (congr (congr (congrArg Instr.sxth ((congrArg Cond.ofBits h0).trans (cond_ofBits c))) (h2)) (h3)) (h5)

theorem EncodesToItself.movw (c : Cond) (imm4 : BitVec 4) (rd : Reg) (imm12 : BitVec 12) :
    EncodesToItself.Statement (.movw c imm4 rd imm12) := by
  refine ⟨_, rfl, ?_, ?_⟩
  · show encode (.movw c imm4 rd imm12) &&& (join (join (join (join 0x0#4 0xff#8) 0x0#4) 0x0#4) 0x0#12) =
      (join (join (join (join 0x0#4 0x30#8) 0x0#4) 0x0#4) 0x0#12)
    exact (and_parts _ _ _ _).trans (by simp only [and_parts, BitVec.and_zero]; try rfl)
  · have h0 : (join (join (join (join c.bits 0x30#8) imm4) rd) imm12).extractLsb' 28 4 = c.bits := ((ext_left _ _ _ _ (by decide)).trans ((ext_left _ _ _ _ (by decide)).trans ((ext_left _ _ _ _ (by decide)).trans ((ext_left _ _ _ _ (by decide)).trans (ext_only _)))))
    have h2 : (join (join (join (join c.bits 0x30#8) imm4) rd) imm12).extractLsb' 16 4 = imm4 := ((ext_left _ _ _ _ (by decide)).trans ((ext_left _ _ _ _ (by decide)).trans (ext_right _ _)))
    have h3 : (join (join (join (join c.bits 0x30#8) imm4) rd) imm12).extractLsb' 12 4 = rd := ((ext_left _ _ _ _ (by decide)).trans (ext_right _ _))
    have h4 : (join (join (join (join c.bits 0x30#8) imm4) rd) imm12).extractLsb' 0 12 = imm12 := (ext_right _ _)
    exact congr (congr (congr (congrArg Instr.movw ((congrArg Cond.ofBits h0).trans (cond_ofBits c))) (h2)) (h3)) (h4)

theorem EncodesToItself.movt (c : Cond) (imm4 : BitVec 4) (rd : Reg) (imm12 : BitVec 12) :
    EncodesToItself.Statement (.movt c imm4 rd imm12) := by
  refine ⟨_, rfl, ?_, ?_⟩
  · show encode (.movt c imm4 rd imm12) &&& (join (join (join (join 0x0#4 0xff#8) 0x0#4) 0x0#4) 0x0#12) =
      (join (join (join (join 0x0#4 0x34#8) 0x0#4) 0x0#4) 0x0#12)
    exact (and_parts _ _ _ _).trans (by simp only [and_parts, BitVec.and_zero]; try rfl)
  · have h0 : (join (join (join (join c.bits 0x34#8) imm4) rd) imm12).extractLsb' 28 4 = c.bits := ((ext_left _ _ _ _ (by decide)).trans ((ext_left _ _ _ _ (by decide)).trans ((ext_left _ _ _ _ (by decide)).trans ((ext_left _ _ _ _ (by decide)).trans (ext_only _)))))
    have h2 : (join (join (join (join c.bits 0x34#8) imm4) rd) imm12).extractLsb' 16 4 = imm4 := ((ext_left _ _ _ _ (by decide)).trans ((ext_left _ _ _ _ (by decide)).trans (ext_right _ _)))
    have h3 : (join (join (join (join c.bits 0x34#8) imm4) rd) imm12).extractLsb' 12 4 = rd := ((ext_left _ _ _ _ (by decide)).trans (ext_right _ _))
    have h4 : (join (join (join (join c.bits 0x34#8) imm4) rd) imm12).extractLsb' 0 12 = imm12 := (ext_right _ _)
    exact congr (congr (congr (congrArg Instr.movt ((congrArg Cond.ofBits h0).trans (cond_ofBits c))) (h2)) (h3)) (h4)

theorem EncodesToItself.andImm (c : Cond) (s : Bool) (rn : Reg) (rd : Reg) (rotate : BitVec 4) (imm8 : BitVec 8) :
    EncodesToItself.Statement (.andImm c s rn rd rotate imm8) := by
  refine ⟨_, rfl, ?_, ?_⟩
  · show encode (.andImm c s rn rd rotate imm8) &&& (join (join (join (join (join (join 0x0#4 0x7f#7) 0x0#1) 0x0#4) 0x0#4) 0x0#4) 0x0#8) =
      (join (join (join (join (join (join 0x0#4 0x10#7) 0x0#1) 0x0#4) 0x0#4) 0x0#4) 0x0#8)
    exact (and_parts _ _ _ _).trans (by simp only [and_parts, BitVec.and_zero]; try rfl)
  · have h0 : (join (join (join (join (join (join c.bits 0x10#7) (BitVec.ofBool s)) rn) rd) rotate) imm8).extractLsb' 28 4 = c.bits := ((ext_left _ _ _ _ (by decide)).trans ((ext_left _ _ _ _ (by decide)).trans ((ext_left _ _ _ _ (by decide)).trans ((ext_left _ _ _ _ (by decide)).trans ((ext_left _ _ _ _ (by decide)).trans ((ext_left _ _ _ _ (by decide)).trans (ext_only _)))))))
    have h2 : (join (join (join (join (join (join c.bits 0x10#7) (BitVec.ofBool s)) rn) rd) rotate) imm8).getLsbD 20 = s := ((bit_left _ _ _ (by decide)).trans ((bit_left _ _ _ (by decide)).trans ((bit_left _ _ _ (by decide)).trans ((bit_left _ _ _ (by decide)).trans (bit_right _ _)))))
    have h3 : (join (join (join (join (join (join c.bits 0x10#7) (BitVec.ofBool s)) rn) rd) rotate) imm8).extractLsb' 16 4 = rn := ((ext_left _ _ _ _ (by decide)).trans ((ext_left _ _ _ _ (by decide)).trans ((ext_left _ _ _ _ (by decide)).trans (ext_right _ _))))
    have h4 : (join (join (join (join (join (join c.bits 0x10#7) (BitVec.ofBool s)) rn) rd) rotate) imm8).extractLsb' 12 4 = rd := ((ext_left _ _ _ _ (by decide)).trans ((ext_left _ _ _ _ (by decide)).trans (ext_right _ _)))
    have h5 : (join (join (join (join (join (join c.bits 0x10#7) (BitVec.ofBool s)) rn) rd) rotate) imm8).extractLsb' 8 4 = rotate := ((ext_left _ _ _ _ (by decide)).trans (ext_right _ _))
    have h6 : (join (join (join (join (join (join c.bits 0x10#7) (BitVec.ofBool s)) rn) rd) rotate) imm8).extractLsb' 0 8 = imm8 := (ext_right _ _)
    exact congr (congr (congr (congr (congr (congrArg Instr.andImm ((congrArg Cond.ofBits h0).trans (cond_ofBits c))) (h2)) (h3)) (h4)) (h5)) (h6)

theorem EncodesToItself.andReg (c : Cond) (s : Bool) (rn : Reg) (rd : Reg) (imm5 : BitVec 5) (ty : ShiftType) (rm : Reg) :
    EncodesToItself.Statement (.andReg c s rn rd imm5 ty rm) := by
  refine ⟨_, rfl, ?_, ?_⟩
  · show encode (.andReg c s rn rd imm5 ty rm) &&& (join (join (join (join (join (join (join (join 0x0#4 0x7f#7) 0x0#1) 0x0#4) 0x0#4) 0x0#5) 0x0#2) 0x1#1) 0x0#4) =
      (join (join (join (join (join (join (join (join 0x0#4 0x0#7) 0x0#1) 0x0#4) 0x0#4) 0x0#5) 0x0#2) 0x0#1) 0x0#4)
    exact (and_parts _ _ _ _).trans (by simp only [and_parts, BitVec.and_zero]; try rfl)
  · have h0 : (join (join (join (join (join (join (join (join c.bits 0x0#7) (BitVec.ofBool s)) rn) rd) imm5) ty.bits) 0x0#1) rm).extractLsb' 28 4 = c.bits := ((ext_left _ _ _ _ (by decide)).trans ((ext_left _ _ _ _ (by decide)).trans ((ext_left _ _ _ _ (by decide)).trans ((ext_left _ _ _ _ (by decide)).trans ((ext_left _ _ _ _ (by decide)).trans ((ext_left _ _ _ _ (by decide)).trans ((ext_left _ _ _ _ (by decide)).trans ((ext_left _ _ _ _ (by decide)).trans (ext_only _)))))))))
    have h2 : (join (join (join (join (join (join (join (join c.bits 0x0#7) (BitVec.ofBool s)) rn) rd) imm5) ty.bits) 0x0#1) rm).getLsbD 20 = s := ((bit_left _ _ _ (by decide)).trans ((bit_left _ _ _ (by decide)).trans ((bit_left _ _ _ (by decide)).trans ((bit_left _ _ _ (by decide)).trans ((bit_left _ _ _ (by decide)).trans ((bit_left _ _ _ (by decide)).trans (bit_right _ _)))))))
    have h3 : (join (join (join (join (join (join (join (join c.bits 0x0#7) (BitVec.ofBool s)) rn) rd) imm5) ty.bits) 0x0#1) rm).extractLsb' 16 4 = rn := ((ext_left _ _ _ _ (by decide)).trans ((ext_left _ _ _ _ (by decide)).trans ((ext_left _ _ _ _ (by decide)).trans ((ext_left _ _ _ _ (by decide)).trans ((ext_left _ _ _ _ (by decide)).trans (ext_right _ _))))))
    have h4 : (join (join (join (join (join (join (join (join c.bits 0x0#7) (BitVec.ofBool s)) rn) rd) imm5) ty.bits) 0x0#1) rm).extractLsb' 12 4 = rd := ((ext_left _ _ _ _ (by decide)).trans ((ext_left _ _ _ _ (by decide)).trans ((ext_left _ _ _ _ (by decide)).trans ((ext_left _ _ _ _ (by decide)).trans (ext_right _ _)))))
    have h5 : (join (join (join (join (join (join (join (join c.bits 0x0#7) (BitVec.ofBool s)) rn) rd) imm5) ty.bits) 0x0#1) rm).extractLsb' 7 5 = imm5 := ((ext_left _ _ _ _ (by decide)).trans ((ext_left _ _ _ _ (by decide)).trans ((ext_left _ _ _ _ (by decide)).trans (ext_right _ _))))
    have h6 : (join (join (join (join (join (join (join (join c.bits 0x0#7) (BitVec.ofBool s)) rn) rd) imm5) ty.bits) 0x0#1) rm).extractLsb' 5 2 = ty.bits := ((ext_left _ _ _ _ (by decide)).trans ((ext_left _ _ _ _ (by decide)).trans (ext_right _ _)))
    have h8 : (join (join (join (join (join (join (join (join c.bits 0x0#7) (BitVec.ofBool s)) rn) rd) imm5) ty.bits) 0x0#1) rm).extractLsb' 0 4 = rm := (ext_right _ _)
    exact congr (congr (congr (congr (congr (congr (congrArg Instr.andReg ((congrArg Cond.ofBits h0).trans (cond_ofBits c))) (h2)) (h3)) (h4)) (h5)) ((congrArg ShiftType.ofBits h6).trans (shiftType_ofBits ty))) (h8)

theorem EncodesToItself.andRsr (c : Cond) (s : Bool) (rn : Reg) (rd : Reg) (rs : Reg) (ty : ShiftType) (rm : Reg) :
    EncodesToItself.Statement (.andRsr c s rn rd rs ty rm) := by
  refine ⟨_, rfl, ?_, ?_⟩
  · show encode (.andRsr c s rn rd rs ty rm) &&& (join (join (join (join (join (join (join (join (join 0x0#4 0x7f#7) 0x0#1) 0x0#4) 0x0#4) 0x0#4) 0x1#1) 0x0#2) 0x1#1) 0x0#4) =
      (join (join (join (join (join (join (join (join (join 0x0#4 0x0#7) 0x0#1) 0x0#4) 0x0#4) 0x0#4) 0x0#1) 0x0#2) 0x1#1) 0x0#4)
    exact (and_parts _ _ _ _).trans (by simp only [and_parts, BitVec.and_zero]; try rfl)
  · have h0 : (join (join (join (join (join (join (join (join (join c.bits 0x0#7) (BitVec.ofBool s)) rn) rd) rs) 0x0#1) ty.bits) 0x1#1) rm).extractLsb' 28 4 = c.bits := ((ext_left _ _ _ _ (by decide)).trans ((ext_left _ _ _ _ (by decide)).trans ((ext_left _ _ _ _ (by decide)).trans ((ext_left _ _ _ _ (by decide)).trans ((ext_left _ _ _ _ (by decide)).trans ((ext_left _ _ _ _ (by decide)).trans ((ext_left _ _ _ _ (by decide)).trans ((ext_left _ _ _ _ (by decide)).trans ((ext_left _ _ _ _ (by decide)).trans (ext_only _))))))))))
    have h2 : (join (join (join (join (join (join (join (join (join c.bits 0x0#7) (BitVec.ofBool s)) rn) rd) rs) 0x0#1) ty.bits) 0x1#1) rm).getLsbD 20 = s := ((bit_left _ _ _ (by decide)).trans ((bit_left _ _ _ (by decide)).trans ((bit_left _ _ _ (by decide)).trans ((bit_left _ _ _ (by decide)).trans ((bit_left _ _ _ (by decide)).trans ((bit_left _ _ _ (by decide)).trans ((bit_left _ _ _ (by decide)).trans (bit_right _ _))))))))
    have h3 : (join (join (join (join (join (join (join (join (join c.bits 0x0#7) (BitVec.ofBool s)) rn) rd) rs) 0x0#1) ty.bits) 0x1#1) rm).extractLsb' 16 4 = rn := ((ext_left _ _ _ _ (by decide)).trans ((ext_left _ _ _ _ (by decide)).trans ((ext_left _ _ _ _ (by decide)).trans ((ext_left _ _ _ _ (by decide)).trans ((ext_left _ _ _ _ (by decide)).trans ((ext_left _ _ _ _ (by decide)).trans (ext_right _ _)))))))
    have h4 : (join (join (join (join (join (join (join (join (join c.bits 0x0#7) (BitVec.ofBool s)) rn) rd) rs) 0x0#1) ty.bits) 0x1#1) rm).extractLsb' 12 4 = rd := ((ext_left _ _ _ _ (by decide)).trans ((ext_left _ _ _ _ (by decide)).trans ((ext_left _ _ _ _ (by decide)).trans ((ext_left _ _ _ _ (by decide)).trans ((ext_left _ _ _ _ (by decide)).trans (ext_right _ _))))))
    have h5 : (join (join (join (join (join (join (join (join (join c.bits 0x0#7) (BitVec.ofBool s)) rn) rd) rs) 0x0#1) ty.bits) 0x1#1) rm).extractLsb' 8 4 = rs := ((ext_left _ _ _ _ (by decide)).trans ((ext_left _ _ _ _ (by decide)).trans ((ext_left _ _ _ _ (by decide)).trans ((ext_left _ _ _ _ (by decide)).trans (ext_right _ _)))))
    have h7 : (join (join (join (join (join (join (join (join (join c.bits 0x0#7) (BitVec.ofBool s)) rn) rd) rs) 0x0#1) ty.bits) 0x1#1) rm).extractLsb' 5 2 = ty.bits := ((ext_left _ _ _ _ (by decide)).trans ((ext_left _ _ _ _ (by decide)).trans (ext_right _ _)))
    have h9 : (join (join (join (join (join (join (join (join (join c.bits 0x0#7) (BitVec.ofBool s)) rn) rd) rs) 0x0#1) ty.bits) 0x1#1) rm).extractLsb' 0 4 = rm := (ext_right _ _)
    exact congr (congr (congr (congr (congr (congr (congrArg Instr.andRsr ((congrArg Cond.ofBits h0).trans (cond_ofBits c))) (h2)) (h3)) (h4)) (h5)) ((congrArg ShiftType.ofBits h7).trans (shiftType_ofBits ty))) (h9)

theorem EncodesToItself.eorImm (c : Cond) (s : Bool) (rn : Reg) (rd : Reg) (rotate : BitVec 4) (imm8 : BitVec 8) :
    EncodesToItself.Statement (.eorImm c s rn rd rotate imm8) := by
  refine ⟨_, rfl, ?_, ?_⟩
  · show encode (.eorImm c s rn rd rotate imm8) &&& (join (join (join (join (join (join 0x0#4 0x7f#7) 0x0#1) 0x0#4) 0x0#4) 0x0#4) 0x0#8) =
      (join (join (join (join (join (join 0x0#4 0x11#7) 0x0#1) 0x0#4) 0x0#4) 0x0#4) 0x0#8)
    exact (and_parts _ _ _ _).trans (by simp only [and_parts, BitVec.and_zero]; try rfl)
  · have h0 : (join (join (join (join (join (join c.bits 0x11#7) (BitVec.ofBool s)) rn) rd) rotate) imm8).extractLsb' 28 4 = c.bits := ((ext_left _ _ _ _ (by decide)).trans ((ext_left _ _ _ _ (by decide)).trans ((ext_left _ _ _ _ (by decide)).trans ((ext_left _ _ _ _ (by decide)).trans ((ext_left _ _ _ _ (by decide)).trans ((ext_left _ _ _ _ (by decide)).trans (ext_only _)))))))
    have h2 : (join (join (join (join (join (join c.bits 0x11#7) (BitVec.ofBool s)) rn) rd) rotate) imm8).getLsbD 20 = s := ((bit_left _ _ _ (by decide)).trans ((bit_left _ _ _ (by decide)).trans ((bit_left _ _ _ (by decide)).trans ((bit_left _ _ _ (by decide)).trans (bit_right _ _)))))
    have h3 : (join (join (join (join (join (join c.bits 0x11#7) (BitVec.ofBool s)) rn) rd) rotate) imm8).extractLsb' 16 4 = rn := ((ext_left _ _ _ _ (by decide)).trans ((ext_left _ _ _ _ (by decide)).trans ((ext_left _ _ _ _ (by decide)).trans (ext_right _ _))))
    have h4 : (join (join (join (join (join (join c.bits 0x11#7) (BitVec.ofBool s)) rn) rd) rotate) imm8).extractLsb' 12 4 = rd := ((ext_left _ _ _ _ (by decide)).trans ((ext_left _ _ _ _ (by decide)).trans (ext_right _ _)))
    have h5 : (join (join (join (join (join (join c.bits 0x11#7) (BitVec.ofBool s)) rn) rd) rotate) imm8).extractLsb' 8 4 = rotate := ((ext_left _ _ _ _ (by decide)).trans (ext_right _ _))
    have h6 : (join (join (join (join (join (join c.bits 0x11#7) (BitVec.ofBool s)) rn) rd) rotate) imm8).extractLsb' 0 8 = imm8 := (ext_right _ _)
    exact congr (congr (congr (congr (congr (congrArg Instr.eorImm ((congrArg Cond.ofBits h0).trans (cond_ofBits c))) (h2)) (h3)) (h4)) (h5)) (h6)

theorem EncodesToItself.eorReg (c : Cond) (s : Bool) (rn : Reg) (rd : Reg) (imm5 : BitVec 5) (ty : ShiftType) (rm : Reg) :
    EncodesToItself.Statement (.eorReg c s rn rd imm5 ty rm) := by
  refine ⟨_, rfl, ?_, ?_⟩
  · show encode (.eorReg c s rn rd imm5 ty rm) &&& (join (join (join (join (join (join (join (join 0x0#4 0x7f#7) 0x0#1) 0x0#4) 0x0#4) 0x0#5) 0x0#2) 0x1#1) 0x0#4) =
      (join (join (join (join (join (join (join (join 0x0#4 0x1#7) 0x0#1) 0x0#4) 0x0#4) 0x0#5) 0x0#2) 0x0#1) 0x0#4)
    exact (and_parts _ _ _ _).trans (by simp only [and_parts, BitVec.and_zero]; try rfl)
  · have h0 : (join (join (join (join (join (join (join (join c.bits 0x1#7) (BitVec.ofBool s)) rn) rd) imm5) ty.bits) 0x0#1) rm).extractLsb' 28 4 = c.bits := ((ext_left _ _ _ _ (by decide)).trans ((ext_left _ _ _ _ (by decide)).trans ((ext_left _ _ _ _ (by decide)).trans ((ext_left _ _ _ _ (by decide)).trans ((ext_left _ _ _ _ (by decide)).trans ((ext_left _ _ _ _ (by decide)).trans ((ext_left _ _ _ _ (by decide)).trans ((ext_left _ _ _ _ (by decide)).trans (ext_only _)))))))))
    have h2 : (join (join (join (join (join (join (join (join c.bits 0x1#7) (BitVec.ofBool s)) rn) rd) imm5) ty.bits) 0x0#1) rm).getLsbD 20 = s := ((bit_left _ _ _ (by decide)).trans ((bit_left _ _ _ (by decide)).trans ((bit_left _ _ _ (by decide)).trans ((bit_left _ _ _ (by decide)).trans ((bit_left _ _ _ (by decide)).trans ((bit_left _ _ _ (by decide)).trans (bit_right _ _)))))))
    have h3 : (join (join (join (join (join (join (join (join c.bits 0x1#7) (BitVec.ofBool s)) rn) rd) imm5) ty.bits) 0x0#1) rm).extractLsb' 16 4 = rn := ((ext_left _ _ _ _ (by decide)).trans ((ext_left _ _ _ _ (by decide)).trans ((ext_left _ _ _ _ (by decide)).trans ((ext_left _ _ _ _ (by decide)).trans ((ext_left _ _ _ _ (by decide)).trans (ext_right _ _))))))
    have h4 : (join (join (join (join (join (join (join (join c.bits 0x1#7) (BitVec.ofBool s)) rn) rd) imm5) ty.bits) 0x0#1) rm).extractLsb' 12 4 = rd := ((ext_left _ _ _ _ (by decide)).trans ((ext_left _ _ _ _ (by decide)).trans ((ext_left _ _ _ _ (by decide)).trans ((ext_left _ _ _ _ (by decide)).trans (ext_right _ _)))))
    have h5 : (join (join (join (join (join (join (join (join c.bits 0x1#7) (BitVec.ofBool s)) rn) rd) imm5) ty.bits) 0x0#1) rm).extractLsb' 7 5 = imm5 := ((ext_left _ _ _ _ (by decide)).trans ((ext_left _ _ _ _ (by decide)).trans ((ext_left _ _ _ _ (by decide)).trans (ext_right _ _))))
    have h6 : (join (join (join (join (join (join (join (join c.bits 0x1#7) (BitVec.ofBool s)) rn) rd) imm5) ty.bits) 0x0#1) rm).extractLsb' 5 2 = ty.bits := ((ext_left _ _ _ _ (by decide)).trans ((ext_left _ _ _ _ (by decide)).trans (ext_right _ _)))
    have h8 : (join (join (join (join (join (join (join (join c.bits 0x1#7) (BitVec.ofBool s)) rn) rd) imm5) ty.bits) 0x0#1) rm).extractLsb' 0 4 = rm := (ext_right _ _)
    exact congr (congr (congr (congr (congr (congr (congrArg Instr.eorReg ((congrArg Cond.ofBits h0).trans (cond_ofBits c))) (h2)) (h3)) (h4)) (h5)) ((congrArg ShiftType.ofBits h6).trans (shiftType_ofBits ty))) (h8)

theorem EncodesToItself.eorRsr (c : Cond) (s : Bool) (rn : Reg) (rd : Reg) (rs : Reg) (ty : ShiftType) (rm : Reg) :
    EncodesToItself.Statement (.eorRsr c s rn rd rs ty rm) := by
  refine ⟨_, rfl, ?_, ?_⟩
  · show encode (.eorRsr c s rn rd rs ty rm) &&& (join (join (join (join (join (join (join (join (join 0x0#4 0x7f#7) 0x0#1) 0x0#4) 0x0#4) 0x0#4) 0x1#1) 0x0#2) 0x1#1) 0x0#4) =
      (join (join (join (join (join (join (join (join (join 0x0#4 0x1#7) 0x0#1) 0x0#4) 0x0#4) 0x0#4) 0x0#1) 0x0#2) 0x1#1) 0x0#4)
    exact (and_parts _ _ _ _).trans (by simp only [and_parts, BitVec.and_zero]; try rfl)
  · have h0 : (join (join (join (join (join (join (join (join (join c.bits 0x1#7) (BitVec.ofBool s)) rn) rd) rs) 0x0#1) ty.bits) 0x1#1) rm).extractLsb' 28 4 = c.bits := ((ext_left _ _ _ _ (by decide)).trans ((ext_left _ _ _ _ (by decide)).trans ((ext_left _ _ _ _ (by decide)).trans ((ext_left _ _ _ _ (by decide)).trans ((ext_left _ _ _ _ (by decide)).trans ((ext_left _ _ _ _ (by decide)).trans ((ext_left _ _ _ _ (by decide)).trans ((ext_left _ _ _ _ (by decide)).trans ((ext_left _ _ _ _ (by decide)).trans (ext_only _))))))))))
    have h2 : (join (join (join (join (join (join (join (join (join c.bits 0x1#7) (BitVec.ofBool s)) rn) rd) rs) 0x0#1) ty.bits) 0x1#1) rm).getLsbD 20 = s := ((bit_left _ _ _ (by decide)).trans ((bit_left _ _ _ (by decide)).trans ((bit_left _ _ _ (by decide)).trans ((bit_left _ _ _ (by decide)).trans ((bit_left _ _ _ (by decide)).trans ((bit_left _ _ _ (by decide)).trans ((bit_left _ _ _ (by decide)).trans (bit_right _ _))))))))
    have h3 : (join (join (join (join (join (join (join (join (join c.bits 0x1#7) (BitVec.ofBool s)) rn) rd) rs) 0x0#1) ty.bits) 0x1#1) rm).extractLsb' 16 4 = rn := ((ext_left _ _ _ _ (by decide)).trans ((ext_left _ _ _ _ (by decide)).trans ((ext_left _ _ _ _ (by decide)).trans ((ext_left _ _ _ _ (by decide)).trans ((ext_left _ _ _ _ (by decide)).trans ((ext_left _ _ _ _ (by decide)).trans (ext_right _ _)))))))
    have h4 : (join (join (join (join (join (join (join (join (join c.bits 0x1#7) (BitVec.ofBool s)) rn) rd) rs) 0x0#1) ty.bits) 0x1#1) rm).extractLsb' 12 4 = rd := ((ext_left _ _ _ _ (by decide)).trans ((ext_left _ _ _ _ (by decide)).trans ((ext_left _ _ _ _ (by decide)).trans ((ext_left _ _ _ _ (by decide)).trans ((ext_left _ _ _ _ (by decide)).trans (ext_right _ _))))))
    have h5 : (join (join (join (join (join (join (join (join (join c.bits 0x1#7) (BitVec.ofBool s)) rn) rd) rs) 0x0#1) ty.bits) 0x1#1) rm).extractLsb' 8 4 = rs := ((ext_left _ _ _ _ (by decide)).trans ((ext_left _ _ _ _ (by decide)).trans ((ext_left _ _ _ _ (by decide)).trans ((ext_left _ _ _ _ (by decide)).trans (ext_right _ _)))))
    have h7 : (join (join (join (join (join (join (join (join (join c.bits 0x1#7) (BitVec.ofBool s)) rn) rd) rs) 0x0#1) ty.bits) 0x1#1) rm).extractLsb' 5 2 = ty.bits := ((ext_left _ _ _ _ (by decide)).trans ((ext_left _ _ _ _ (by decide)).trans (ext_right _ _)))
    have h9 : (join (join (join (join (join (join (join (join (join c.bits 0x1#7) (BitVec.ofBool s)) rn) rd) rs) 0x0#1) ty.bits) 0x1#1) rm).extractLsb' 0 4 = rm := (ext_right _ _)
    exact congr (congr (congr (congr (congr (congr (congrArg Instr.eorRsr ((congrArg Cond.ofBits h0).trans (cond_ofBits c))) (h2)) (h3)) (h4)) (h5)) ((congrArg ShiftType.ofBits h7).trans (shiftType_ofBits ty))) (h9)

theorem EncodesToItself.subImm (c : Cond) (s : Bool) (rn : Reg) (rd : Reg) (rotate : BitVec 4) (imm8 : BitVec 8) :
    EncodesToItself.Statement (.subImm c s rn rd rotate imm8) := by
  refine ⟨_, rfl, ?_, ?_⟩
  · show encode (.subImm c s rn rd rotate imm8) &&& (join (join (join (join (join (join 0x0#4 0x7f#7) 0x0#1) 0x0#4) 0x0#4) 0x0#4) 0x0#8) =
      (join (join (join (join (join (join 0x0#4 0x12#7) 0x0#1) 0x0#4) 0x0#4) 0x0#4) 0x0#8)
    exact (and_parts _ _ _ _).trans (by simp only [and_parts, BitVec.and_zero]; try rfl)
  · have h0 : (join (join (join (join (join (join c.bits 0x12#7) (BitVec.ofBool s)) rn) rd) rotate) imm8).extractLsb' 28 4 = c.bits := ((ext_left _ _ _ _ (by decide)).trans ((ext_left _ _ _ _ (by decide)).trans ((ext_left _ _ _ _ (by decide)).trans ((ext_left _ _ _ _ (by decide)).trans ((ext_left _ _ _ _ (by decide)).trans ((ext_left _ _ _ _ (by decide)).trans (ext_only _)))))))
    have h2 : (join (join (join (join (join (join c.bits 0x12#7) (BitVec.ofBool s)) rn) rd) rotate) imm8).getLsbD 20 = s := ((bit_left _ _ _ (by decide)).trans ((bit_left _ _ _ (by decide)).trans ((bit_left _ _ _ (by decide)).trans ((bit_left _ _ _ (by decide)).trans (bit_right _ _)))))
    have h3 : (join (join (join (join (join (join c.bits 0x12#7) (BitVec.ofBool s)) rn) rd) rotate) imm8).extractLsb' 16 4 = rn := ((ext_left _ _ _ _ (by decide)).trans ((ext_left _ _ _ _ (by decide)).trans ((ext_left _ _ _ _ (by decide)).trans (ext_right _ _))))
    have h4 : (join (join (join (join (join (join c.bits 0x12#7) (BitVec.ofBool s)) rn) rd) rotate) imm8).extractLsb' 12 4 = rd := ((ext_left _ _ _ _ (by decide)).trans ((ext_left _ _ _ _ (by decide)).trans (ext_right _ _)))
    have h5 : (join (join (join (join (join (join c.bits 0x12#7) (BitVec.ofBool s)) rn) rd) rotate) imm8).extractLsb' 8 4 = rotate := ((ext_left _ _ _ _ (by decide)).trans (ext_right _ _))
    have h6 : (join (join (join (join (join (join c.bits 0x12#7) (BitVec.ofBool s)) rn) rd) rotate) imm8).extractLsb' 0 8 = imm8 := (ext_right _ _)
    exact congr (congr (congr (congr (congr (congrArg Instr.subImm ((congrArg Cond.ofBits h0).trans (cond_ofBits c))) (h2)) (h3)) (h4)) (h5)) (h6)

theorem EncodesToItself.subReg (c : Cond) (s : Bool) (rn : Reg) (rd : Reg) (imm5 : BitVec 5) (ty : ShiftType) (rm : Reg) :
    EncodesToItself.Statement (.subReg c s rn rd imm5 ty rm) := by
  refine ⟨_, rfl, ?_, ?_⟩
  · show encode (.subReg c s rn rd imm5 ty rm) &&& (join (join (join (join (join (join (join (join 0x0#4 0x7f#7) 0x0#1) 0x0#4) 0x0#4) 0x0#5) 0x0#2) 0x1#1) 0x0#4) =
      (join (join (join (join (join (join (join (join 0x0#4 0x2#7) 0x0#1) 0x0#4) 0x0#4) 0x0#5) 0x0#2) 0x0#1) 0x0#4)
    exact (and_parts _ _ _ _).trans (by simp only [and_parts, BitVec.and_zero]; try rfl)
  · have h0 : (join (join (join (join (join (join (join (join c.bits 0x2#7) (BitVec.ofBool s)) rn) rd) imm5) ty.bits) 0x0#1) rm).extractLsb' 28 4 = c.bits := ((ext_left _ _ _ _ (by decide)).trans ((ext_left _ _ _ _ (by decide)).trans ((ext_left _ _ _ _ (by decide)).trans ((ext_left _ _ _ _ (by decide)).trans ((ext_left _ _ _ _ (by decide)).trans ((ext_left _ _ _ _ (by decide)).trans ((ext_left _ _ _ _ (by decide)).trans ((ext_left _ _ _ _ (by decide)).trans (ext_only _)))))))))
    have h2 : (join (join (join (join (join (join (join (join c.bits 0x2#7) (BitVec.ofBool s)) rn) rd) imm5) ty.bits) 0x0#1) rm).getLsbD 20 = s := ((bit_left _ _ _ (by decide)).trans ((bit_left _ _ _ (by decide)).trans ((bit_left _ _ _ (by decide)).trans ((bit_left _ _ _ (by decide)).trans ((bit_left _ _ _ (by decide)).trans ((bit_left _ _ _ (by decide)).trans (bit_right _ _)))))))
    have h3 : (join (join (join (join (join (join (join (join c.bits 0x2#7) (BitVec.ofBool s)) rn) rd) imm5) ty.bits) 0x0#1) rm).extractLsb' 16 4 = rn := ((ext_left _ _ _ _ (by decide)).trans ((ext_left _ _ _ _ (by decide)).trans ((ext_left _ _ _ _ (by decide)).trans ((ext_left _ _ _ _ (by decide)).trans ((ext_left _ _ _ _ (by decide)).trans (ext_right _ _))))))
    have h4 : (join (join (join (join (join (join (join (join c.bits 0x2#7) (BitVec.ofBool s)) rn) rd) imm5) ty.bits) 0x0#1) rm).extractLsb' 12 4 = rd := ((ext_left _ _ _ _ (by decide)).trans ((ext_left _ _ _ _ (by decide)).trans ((ext_left _ _ _ _ (by decide)).trans ((ext_left _ _ _ _ (by decide)).trans (ext_right _ _)))))
    have h5 : (join (join (join (join (join (join (join (join c.bits 0x2#7) (BitVec.ofBool s)) rn) rd) imm5) ty.bits) 0x0#1) rm).extractLsb' 7 5 = imm5 := ((ext_left _ _ _ _ (by decide)).trans ((ext_left _ _ _ _ (by decide)).trans ((ext_left _ _ _ _ (by decide)).trans (ext_right _ _))))
    have h6 : (join (join (join (join (join (join (join (join c.bits 0x2#7) (BitVec.ofBool s)) rn) rd) imm5) ty.bits) 0x0#1) rm).extractLsb' 5 2 = ty.bits := ((ext_left _ _ _ _ (by decide)).trans ((ext_left _ _ _ _ (by decide)).trans (ext_right _ _)))
    have h8 : (join (join (join (join (join (join (join (join c.bits 0x2#7) (BitVec.ofBool s)) rn) rd) imm5) ty.bits) 0x0#1) rm).extractLsb' 0 4 = rm := (ext_right _ _)
    exact congr (congr (congr (congr (congr (congr (congrArg Instr.subReg ((congrArg Cond.ofBits h0).trans (cond_ofBits c))) (h2)) (h3)) (h4)) (h5)) ((congrArg ShiftType.ofBits h6).trans (shiftType_ofBits ty))) (h8)

theorem EncodesToItself.subRsr (c : Cond) (s : Bool) (rn : Reg) (rd : Reg) (rs : Reg) (ty : ShiftType) (rm : Reg) :
    EncodesToItself.Statement (.subRsr c s rn rd rs ty rm) := by
  refine ⟨_, rfl, ?_, ?_⟩
  · show encode (.subRsr c s rn rd rs ty rm) &&& (join (join (join (join (join (join (join (join (join 0x0#4 0x7f#7) 0x0#1) 0x0#4) 0x0#4) 0x0#4) 0x1#1) 0x0#2) 0x1#1) 0x0#4) =
      (join (join (join (join (join (join (join (join (join 0x0#4 0x2#7) 0x0#1) 0x0#4) 0x0#4) 0x0#4) 0x0#1) 0x0#2) 0x1#1) 0x0#4)
    exact (and_parts _ _ _ _).trans (by simp only [and_parts, BitVec.and_zero]; try rfl)
  · have h0 : (join (join (join (join (join (join (join (join (join c.bits 0x2#7) (BitVec.ofBool s)) rn) rd) rs) 0x0#1) ty.bits) 0x1#1) rm).extractLsb' 28 4 = c.bits := ((ext_left _ _ _ _ (by decide)).trans ((ext_left _ _ _ _ (by decide)).trans ((ext_left _ _ _ _ (by decide)).trans ((ext_left _ _ _ _ (by decide)).trans ((ext_left _ _ _ _ (by decide)).trans ((ext_left _ _ _ _ (by decide)).trans ((ext_left _ _ _ _ (by decide)).trans ((ext_left _ _ _ _ (by decide)).trans ((ext_left _ _ _ _ (by decide)).trans (ext_only _))))))))))
    have h2 : (join (join (join (join (join (join (join (join (join c.bits 0x2#7) (BitVec.ofBool s)) rn) rd) rs) 0x0#1) ty.bits) 0x1#1) rm).getLsbD 20 = s := ((bit_left _ _ _ (by decide)).trans ((bit_left _ _ _ (by decide)).trans ((bit_left _ _ _ (by decide)).trans ((bit_left _ _ _ (by decide)).trans ((bit_left _ _ _ (by decide)).trans ((bit_left _ _ _ (by decide)).trans ((bit_left _ _ _ (by decide)).trans (bit_right _ _))))))))
    have h3 : (join (join (join (join (join (join (join (join (join c.bits 0x2#7) (BitVec.ofBool s)) rn) rd) rs) 0x0#1) ty.bits) 0x1#1) rm).extractLsb' 16 4 = rn := ((ext_left _ _ _ _ (by decide)).trans ((ext_left _ _ _ _ (by decide)).trans ((ext_left _ _ _ _ (by decide)).trans ((ext_left _ _ _ _ (by decide)).trans ((ext_left _ _ _ _ (by decide)).trans ((ext_left _ _ _ _ (by decide)).trans (ext_right _ _)))))))
    have h4 : (join (join (join (join (join (join (join (join (join c.bits 0x2#7) (BitVec.ofBool s)) rn) rd) rs) 0x0#1) ty.bits) 0x1#1) rm).extractLsb' 12 4 = rd := ((ext_left _ _ _ _ (by decide)).trans ((ext_left _ _ _ _ (by decide)).trans ((ext_left _ _ _ _ (by decide)).trans ((ext_left _ _ _ _ (by decide)).trans ((ext_left _ _ _ _ (by decide)).trans (ext_right _ _))))))
    have h5 : (join (join (join (join (join (join (join (join (join c.bits 0x2#7) (BitVec.ofBool s)) rn) rd) rs) 0x0#1) ty.bits) 0x1#1) rm).extractLsb' 8 4 = rs := ((ext_left _ _ _ _ (by decide)).trans ((ext_left _ _ _ _ (by decide)).trans ((ext_left _ _ _ _ (by decide)).trans ((ext_left _ _ _ _ (by decide)).trans (ext_right _ _)))))
    have h7 : (join (join (join (join (join (join (join (join (join c.bits 0x2#7) (BitVec.ofBool s)) rn) rd) rs) 0x0#1) ty.bits) 0x1#1) rm).extractLsb' 5 2 = ty.bits := ((ext_left _ _ _ _ (by decide)).trans ((ext_left _ _ _ _ (by decide)).trans (ext_right _ _)))
    have h9 : (join (join (join (join (join (join (join (join (join c.bits 0x2#7) (BitVec.ofBool s)) rn) rd) rs) 0x0#1) ty.bits) 0x1#1) rm).extractLsb' 0 4 = rm := (ext_right _ _)
    exact congr (congr (congr (congr (congr (congr (congrArg Instr.subRsr ((congrArg Cond.ofBits h0).trans (cond_ofBits c))) (h2)) (h3)) (h4)) (h5)) ((congrArg ShiftType.ofBits h7).trans (shiftType_ofBits ty))) (h9)

theorem EncodesToItself.rsbImm (c : Cond) (s : Bool) (rn : Reg) (rd : Reg) (rotate : BitVec 4) (imm8 : BitVec 8) :
    EncodesToItself.Statement (.rsbImm c s rn rd rotate imm8) := by
  refine ⟨_, rfl, ?_, ?_⟩
  · show encode (.rsbImm c s rn rd rotate imm8) &&& (join (join (join (join (join (join 0x0#4 0x7f#7) 0x0#1) 0x0#4) 0x0#4) 0x0#4) 0x0#8) =
      (join (join (join (join (join (join 0x0#4 0x13#7) 0x0#1) 0x0#4) 0x0#4) 0x0#4) 0x0#8)
    exact (and_parts _ _ _ _).trans (by simp only [and_parts, BitVec.and_zero]; try rfl)
  · have h0 : (join (join (join (join (join (join c.bits 0x13#7) (BitVec.ofBool s)) rn) rd) rotate) imm8).extractLsb' 28 4 = c.bits := ((ext_left _ _ _ _ (by decide)).trans ((ext_left _ _ _ _ (by decide)).trans ((ext_left _ _ _ _ (by decide)).trans ((ext_left _ _ _ _ (by decide)).trans ((ext_left _ _ _ _ (by decide)).trans ((ext_left _ _ _ _ (by decide)).trans (ext_only _)))))))
    have h2 : (join (join (join (join (join (join c.bits 0x13#7) (BitVec.ofBool s)) rn) rd) rotate) imm8).getLsbD 20 = s := ((bit_left _ _ _ (by decide)).trans ((bit_left _ _ _ (by decide)).trans ((bit_left _ _ _ (by decide)).trans ((bit_left _ _ _ (by decide)).trans (bit_right _ _)))))
    have h3 : (join (join (join (join (join (join c.bits 0x13#7) (BitVec.ofBool s)) rn) rd) rotate) imm8).extractLsb' 16 4 = rn := ((ext_left _ _ _ _ (by decide)).trans ((ext_left _ _ _ _ (by decide)).trans ((ext_left _ _ _ _ (by decide)).trans (ext_right _ _))))
    have h4 : (join (join (join (join (join (join c.bits 0x13#7) (BitVec.ofBool s)) rn) rd) rotate) imm8).extractLsb' 12 4 = rd := ((ext_left _ _ _ _ (by decide)).trans ((ext_left _ _ _ _ (by decide)).trans (ext_right _ _)))
    have h5 : (join (join (join (join (join (join c.bits 0x13#7) (BitVec.ofBool s)) rn) rd) rotate) imm8).extractLsb' 8 4 = rotate := ((ext_left _ _ _ _ (by decide)).trans (ext_right _ _))
    have h6 : (join (join (join (join (join (join c.bits 0x13#7) (BitVec.ofBool s)) rn) rd) rotate) imm8).extractLsb' 0 8 = imm8 := (ext_right _ _)
    exact congr (congr (congr (congr (congr (congrArg Instr.rsbImm ((congrArg Cond.ofBits h0).trans (cond_ofBits c))) (h2)) (h3)) (h4)) (h5)) (h6)

theorem EncodesToItself.rsbReg (c : Cond) (s : Bool) (rn : Reg) (rd : Reg) (imm5 : BitVec 5) (ty : ShiftType) (rm : Reg) :
    EncodesToItself.Statement (.rsbReg c s rn rd imm5 ty rm) := by
  refine ⟨_, rfl, ?_, ?_⟩
  · show encode (.rsbReg c s rn rd imm5 ty rm) &&& (join (join (join (join (join (join (join (join 0x0#4 0x7f#7) 0x0#1) 0x0#4) 0x0#4) 0x0#5) 0x0#2) 0x1#1) 0x0#4) =
      (join (join (join (join (join (join (join (join 0x0#4 0x3#7) 0x0#1) 0x0#4) 0x0#4) 0x0#5) 0x0#2) 0x0#1) 0x0#4)
    exact (and_parts _ _ _ _).trans (by simp only [and_parts, BitVec.and_zero]; try rfl)
  · have h0 : (join (join (join (join (join (join (join (join c.bits 0x3#7) (BitVec.ofBool s)) rn) rd) imm5) ty.bits) 0x0#1) rm).extractLsb' 28 4 = c.bits := ((ext_left _ _ _ _ (by decide)).trans ((ext_left _ _ _ _ (by decide)).trans ((ext_left _ _ _ _ (by decide)).trans ((ext_left _ _ _ _ (by decide)).trans ((ext_left _ _ _ _ (by decide)).trans ((ext_left _ _ _ _ (by decide)).trans ((ext_left _ _ _ _ (by decide)).trans ((ext_left _ _ _ _ (by decide)).trans (ext_only _)))))))))
    have h2 : (join (join (join (join (join (join (join (join c.bits 0x3#7) (BitVec.ofBool s)) rn) rd) imm5) ty.bits) 0x0#1) rm).getLsbD 20 = s := ((bit_left _ _ _ (by decide)).trans ((bit_left _ _ _ (by decide)).trans ((bit_left _ _ _ (by decide)).trans ((bit_left _ _ _ (by decide)).trans ((bit_left _ _ _ (by decide)).trans ((bit_left _ _ _ (by decide)).trans (bit_right _ _)))))))
    have h3 : (join (join (join (join (join (join (join (join c.bits 0x3#7) (BitVec.ofBool s)) rn) rd) imm5) ty.bits) 0x0#1) rm).extractLsb' 16 4 = rn := ((ext_left _ _ _ _ (by decide)).trans ((ext_left _ _ _ _ (by decide)).trans ((ext_left _ _ _ _ (by decide)).trans ((ext_left _ _ _ _ (by decide)).trans ((ext_left _ _ _ _ (by decide)).trans (ext_right _ _))))))
    have h4 : (join (join (join (join (join (join (join (join c.bits 0x3#7) (BitVec.ofBool s)) rn) rd) imm5) ty.bits) 0x0#1) rm).extractLsb' 12 4 = rd := ((ext_left _ _ _ _ (by decide)).trans ((ext_left _ _ _ _ (by decide)).trans ((ext_left _ _ _ _ (by decide)).trans ((ext_left _ _ _ _ (by decide)).trans (ext_right _ _)))))
    have h5 : (join (join (join (join (join (join (join (join c.bits 0x3#7) (BitVec.ofBool s)) rn) rd) imm5) ty.bits) 0x0#1) rm).extractLsb' 7 5 = imm5 := ((ext_left _ _ _ _ (by decide)).trans ((ext_left _ _ _ _ (by decide)).trans ((ext_left _ _ _ _ (by decide)).trans (ext_right _ _))))
    have h6 : (join (join (join (join (join (join (join (join c.bits 0x3#7) (BitVec.ofBool s)) rn) rd) imm5) ty.bits) 0x0#1) rm).extractLsb' 5 2 = ty.bits := ((ext_left _ _ _ _ (by decide)).trans ((ext_left _ _ _ _ (by decide)).trans (ext_right _ _)))
    have h8 : (join (join (join (join (join (join (join (join c.bits 0x3#7) (BitVec.ofBool s)) rn) rd) imm5) ty.bits) 0x0#1) rm).extractLsb' 0 4 = rm := (ext_right _ _)
    exact congr (congr (congr (congr (congr (congr (congrArg Instr.rsbReg ((congrArg Cond.ofBits h0).trans (cond_ofBits c))) (h2)) (h3)) (h4)) (h5)) ((congrArg ShiftType.ofBits h6).trans (shiftType_ofBits ty))) (h8)

theorem EncodesToItself.rsbRsr (c : Cond) (s : Bool) (rn : Reg) (rd : Reg) (rs : Reg) (ty : ShiftType) (rm : Reg) :
    EncodesToItself.Statement (.rsbRsr c s rn rd rs ty rm) := by
  refine ⟨_, rfl, ?_, ?_⟩
  · show encode (.rsbRsr c s rn rd rs ty rm) &&& (join (join (join (join (join (join (join (join (join 0x0#4 0x7f#7) 0x0#1) 0x0#4) 0x0#4) 0x0#4) 0x1#1) 0x0#2) 0x1#1) 0x0#4) =
      (join (join (join (join (join (join (join (join (join 0x0#4 0x3#7) 0x0#1) 0x0#4) 0x0#4) 0x0#4) 0x0#1) 0x0#2) 0x1#1) 0x0#4)
    exact (and_parts _ _ _ _).trans (by simp only [and_parts, BitVec.and_zero]; try rfl)
  · have h0 : (join (join (join (join (join (join (join (join (join c.bits 0x3#7) (BitVec.ofBool s)) rn) rd) rs) 0x0#1) ty.bits) 0x1#1) rm).extractLsb' 28 4 = c.bits := ((ext_left _ _ _ _ (by decide)).trans ((ext_left _ _ _ _ (by decide)).trans ((ext_left _ _ _ _ (by decide)).trans ((ext_left _ _ _ _ (by decide)).trans ((ext_left _ _ _ _ (by decide)).trans ((ext_left _ _ _ _ (by decide)).trans ((ext_left _ _ _ _ (by decide)).trans ((ext_left _ _ _ _ (by decide)).trans ((ext_left _ _ _ _ (by decide)).trans (ext_only _))))))))))
    have h2 : (join (join (join (join (join (join (join (join (join c.bits 0x3#7) (BitVec.ofBool s)) rn) rd) rs) 0x0#1) ty.bits) 0x1#1) rm).getLsbD 20 = s := ((bit_left _ _ _ (by decide)).trans ((bit_left _ _ _ (by decide)).trans ((bit_left _ _ _ (by decide)).trans ((bit_left _ _ _ (by decide)).trans ((bit_left _ _ _ (by decide)).trans ((bit_left _ _ _ (by decide)).trans ((bit_left _ _ _ (by decide)).trans (bit_right _ _))))))))
    have h3 : (join (join (join (join (join (join (join (join (join c.bits 0x3#7) (BitVec.ofBool s)) rn) rd) rs) 0x0#1) ty.bits) 0x1#1) rm).extractLsb' 16 4 = rn := ((ext_left _ _ _ _ (by decide)).trans ((ext_left _ _ _ _ (by decide)).trans ((ext_left _ _ _ _ (by decide)).trans ((ext_left _ _ _ _ (by decide)).trans ((ext_left _ _ _ _ (by decide)).trans ((ext_left _ _ _ _ (by decide)).trans (ext_right _ _)))))))
    have h4 : (join (join (join (join (join (join (join (join (join c.bits 0x3#7) (BitVec.ofBool s)) rn) rd) rs) 0x0#1) ty.bits) 0x1#1) rm).extractLsb' 12 4 = rd := ((ext_left _ _ _ _ (by decide)).trans ((ext_left _ _ _ _ (by decide)).trans ((ext_left _ _ _ _ (by decide)).trans ((ext_left _ _ _ _ (by decide)).trans ((ext_left _ _ _ _ (by decide)).trans (ext_right _ _))))))
    have h5 : (join (join (join (join (join (join (join (join (join c.bits 0x3#7) (BitVec.ofBool s)) rn) rd) rs) 0x0#1) ty.bits) 0x1#1) rm).extractLsb' 8 4 = rs := ((ext_left _ _ _ _ (by decide)).trans ((ext_left _ _ _ _ (by decide)).trans ((ext_left _ _ _ _ (by decide)).trans ((ext_left _ _ _ _ (by decide)).trans (ext_right _ _)))))
    have h7 : (join (join (join (join (join (join (join (join (join c.bits 0x3#7) (BitVec.ofBool s)) rn) rd) rs) 0x0#1) ty.bits) 0x1#1) rm).extractLsb' 5 2 = ty.bits := ((ext_left _ _ _ _ (by decide)).trans ((ext_left _ _ _ _ (by decide)).trans (ext_right _ _)))
    have h9 : (join (join (join (join (join (join (join (join (join c.bits 0x3#7) (BitVec.ofBool s)) rn) rd) rs) 0x0#1) ty.bits) 0x1#1) rm).extractLsb' 0 4 = rm := (ext_right _ _)
    exact congr (congr (congr (congr (congr (congr (congrArg Instr.rsbRsr ((congrArg Cond.ofBits h0).trans (cond_ofBits c))) (h2)) (h3)) (h4)) (h5)) ((congrArg ShiftType.ofBits h7).trans (shiftType_ofBits ty))) (h9)

theorem EncodesToItself.addImm (c : Cond) (s : Bool) (rn : Reg) (rd : Reg) (rotate : BitVec 4) (imm8 : BitVec 8) :
    EncodesToItself.Statement (.addImm c s rn rd rotate imm8) := by
  refine ⟨_, rfl, ?_, ?_⟩
  · show encode (.addImm c s rn rd rotate imm8) &&& (join (join (join (join (join (join 0x0#4 0x7f#7) 0x0#1) 0x0#4) 0x0#4) 0x0#4) 0x0#8) =
      (join (join (join (join (join (join 0x0#4 0x14#7) 0x0#1) 0x0#4) 0x0#4) 0x0#4) 0x0#8)
    exact (and_parts _ _ _ _).trans (by simp only [and_parts, BitVec.and_zero]; try rfl)
  · have h0 : (join (join (join (join (join (join c.bits 0x14#7) (BitVec.ofBool s)) rn) rd) rotate) imm8).extractLsb' 28 4 = c.bits := ((ext_left _ _ _ _ (by decide)).trans ((ext_left _ _ _ _ (by decide)).trans ((ext_left _ _ _ _ (by decide)).trans ((ext_left _ _ _ _ (by decide)).trans ((ext_left _ _ _ _ (by decide)).trans ((ext_left _ _ _ _ (by decide)).trans (ext_only _)))))))
    have h2 : (join (join (join (join (join (join c.bits 0x14#7) (BitVec.ofBool s)) rn) rd) rotate) imm8).getLsbD 20 = s := ((bit_left _ _ _ (by decide)).trans ((bit_left _ _ _ (by decide)).trans ((bit_left _ _ _ (by decide)).trans ((bit_left _ _ _ (by decide)).trans (bit_right _ _)))))
    have h3 : (join (join (join (join (join (join c.bits 0x14#7) (BitVec.ofBool s)) rn) rd) rotate) imm8).extractLsb' 16 4 = rn := ((ext_left _ _ _ _ (by decide)).trans ((ext_left _ _ _ _ (by decide)).trans ((ext_left _ _ _ _ (by decide)).trans (ext_right _ _))))
    have h4 : (join (join (join (join (join (join c.bits 0x14#7) (BitVec.ofBool s)) rn) rd) rotate) imm8).extractLsb' 12 4 = rd := ((ext_left _ _ _ _ (by decide)).trans ((ext_left _ _ _ _ (by decide)).trans (ext_right _ _)))
    have h5 : (join (join (join (join (join (join c.bits 0x14#7) (BitVec.ofBool s)) rn) rd) rotate) imm8).extractLsb' 8 4 = rotate := ((ext_left _ _ _ _ (by decide)).trans (ext_right _ _))
    have h6 : (join (join (join (join (join (join c.bits 0x14#7) (BitVec.ofBool s)) rn) rd) rotate) imm8).extractLsb' 0 8 = imm8 := (ext_right _ _)
    exact congr (congr (congr (congr (congr (congrArg Instr.addImm ((congrArg Cond.ofBits h0).trans (cond_ofBits c))) (h2)) (h3)) (h4)) (h5)) (h6)

theorem EncodesToItself.addReg (c : Cond) (s : Bool) (rn : Reg) (rd : Reg) (imm5 : BitVec 5) (ty : ShiftType) (rm : Reg) :
    EncodesToItself.Statement (.addReg c s rn rd imm5 ty rm) := by
  refine ⟨_, rfl, ?_, ?_⟩
  · show encode (.addReg c s rn rd imm5 ty rm) &&& (join (join (join (join (join (join (join (join 0x0#4 0x7f#7) 0x0#1) 0x0#4) 0x0#4) 0x0#5) 0x0#2) 0x1#1) 0x0#4) =
      (join (join (join (join (join (join (join (join 0x0#4 0x4#7) 0x0#1) 0x0#4) 0x0#4) 0x0#5) 0x0#2) 0x0#1) 0x0#4)
    exact (and_parts _ _ _ _).trans (by simp only [and_parts, BitVec.and_zero]; try rfl)
  · have h0 : (join (join (join (join (join (join (join (join c.bits 0x4#7) (BitVec.ofBool s)) rn) rd) imm5) ty.bits) 0x0#1) rm).extractLsb' 28 4 = c.bits := ((ext_left _ _ _ _ (by decide)).trans ((ext_left _ _ _ _ (by decide)).trans ((ext_left _ _ _ _ (by decide)).trans ((ext_left _ _ _ _ (by decide)).trans ((ext_left _ _ _ _ (by decide)).trans ((ext_left _ _ _ _ (by decide)).trans ((ext_left _ _ _ _ (by decide)).trans ((ext_left _ _ _ _ (by decide)).trans (ext_only _)))))))))
    have h2 : (join (join (join (join (join (join (join (join c.bits 0x4#7) (BitVec.ofBool s)) rn) rd) imm5) ty.bits) 0x0#1) rm).getLsbD 20 = s := ((bit_left _ _ _ (by decide)).trans ((bit_left _ _ _ (by decide)).trans ((bit_left _ _ _ (by decide)).trans ((bit_left _ _ _ (by decide)).trans ((bit_left _ _ _ (by decide)).trans ((bit_left _ _ _ (by decide)).trans (bit_right _ _)))))))
    have h3 : (join (join (join (join (join (join (join (join c.bits 0x4#7) (BitVec.ofBool s)) rn) rd) imm5) ty.bits) 0x0#1) rm).extractLsb' 16 4 = rn := ((ext_left _ _ _ _ (by decide)).trans ((ext_left _ _ _ _ (by decide)).trans ((ext_left _ _ _ _ (by decide)).trans ((ext_left _ _ _ _ (by decide)).trans ((ext_left _ _ _ _ (by decide)).trans (ext_right _ _))))))
    have h4 : (join (join (join (join (join (join (join (join c.bits 0x4#7) (BitVec.ofBool s)) rn) rd) imm5) ty.bits) 0x0#1) rm).extractLsb' 12 4 = rd := ((ext_left _ _ _ _ (by decide)).trans ((ext_left _ _ _ _ (by decide)).trans ((ext_left _ _ _ _ (by decide)).trans ((ext_left _ _ _ _ (by decide)).trans (ext_right _ _)))))
    have h5 : (join (join (join (join (join (join (join (join c.bits 0x4#7) (BitVec.ofBool s)) rn) rd) imm5) ty.bits) 0x0#1) rm).extractLsb' 7 5 = imm5 := ((ext_left _ _ _ _ (by decide)).trans ((ext_left _ _ _ _ (by decide)).trans ((ext_left _ _ _ _ (by decide)).trans (ext_right _ _))))
    have h6 : (join (join (join (join (join (join (join (join c.bits 0x4#7) (BitVec.ofBool s)) rn) rd) imm5) ty.bits) 0x0#1) rm).extractLsb' 5 2 = ty.bits := ((ext_left _ _ _ _ (by decide)).trans ((ext_left _ _ _ _ (by decide)).trans (ext_right _ _)))
    have h8 : (join (join (join (join (join (join (join (join c.bits 0x4#7) (BitVec.ofBool s)) rn) rd) imm5) ty.bits) 0x0#1) rm).extractLsb' 0 4 = rm := (ext_right _ _)
    exact congr (congr (congr (congr (congr (congr (congrArg Instr.addReg ((congrArg Cond.ofBits h0).trans (cond_ofBits c))) (h2)) (h3)) (h4)) (h5)) ((congrArg ShiftType.ofBits h6).trans (shiftType_ofBits ty))) (h8)

theorem EncodesToItself.addRsr (c : Cond) (s : Bool) (rn : Reg) (rd : Reg) (rs : Reg) (ty : ShiftType) (rm : Reg) :
    EncodesToItself.Statement (.addRsr c s rn rd rs ty rm) := by
  refine ⟨_, rfl, ?_, ?_⟩
  · show encode (.addRsr c s rn rd rs ty rm) &&& (join (join (join (join (join (join (join (join (join 0x0#4 0x7f#7) 0x0#1) 0x0#4) 0x0#4) 0x0#4) 0x1#1) 0x0#2) 0x1#1) 0x0#4) =
      (join (join (join (join (join (join (join (join (join 0x0#4 0x4#7) 0x0#1) 0x0#4) 0x0#4) 0x0#4) 0x0#1) 0x0#2) 0x1#1) 0x0#4)
    exact (and_parts _ _ _ _).trans (by simp only [and_parts, BitVec.and_zero]; try rfl)
  · have h0 : (join (join (join (join (join (join (join (join (join c.bits 0x4#7) (BitVec.ofBool s)) rn) rd) rs) 0x0#1) ty.bits) 0x1#1) rm).extractLsb' 28 4 = c.bits := ((ext_left _ _ _ _ (by decide)).trans ((ext_left _ _ _ _ (by decide)).trans ((ext_left _ _ _ _ (by decide)).trans ((ext_left _ _ _ _ (by decide)).trans ((ext_left _ _ _ _ (by decide)).trans ((ext_left _ _ _ _ (by decide)).trans ((ext_left _ _ _ _ (by decide)).trans ((ext_left _ _ _ _ (by decide)).trans ((ext_left _ _ _ _ (by decide)).trans (ext_only _))))))))))
    have h2 : (join (join (join (join (join (join (join (join (join c.bits 0x4#7) (BitVec.ofBool s)) rn) rd) rs) 0x0#1) ty.bits) 0x1#1) rm).getLsbD 20 = s := ((bit_left _ _ _ (by decide)).trans ((bit_left _ _ _ (by decide)).trans ((bit_left _ _ _ (by decide)).trans ((bit_left _ _ _ (by decide)).trans ((bit_left _ _ _ (by decide)).trans ((bit_left _ _ _ (by decide)).trans ((bit_left _ _ _ (by decide)).trans (bit_right _ _))))))))
    have h3 : (join (join (join (join (join (join (join (join (join c.bits 0x4#7) (BitVec.ofBool s)) rn) rd) rs) 0x0#1) ty.bits) 0x1#1) rm).extractLsb' 16 4 = rn := ((ext_left _ _ _ _ (by decide)).trans ((ext_left _ _ _ _ (by decide)).trans ((ext_left _ _ _ _ (by decide)).trans ((ext_left _ _ _ _ (by decide)).trans ((ext_left _ _ _ _ (by decide)).trans ((ext_left _ _ _ _ (by decide)).trans (ext_right _ _)))))))
    have h4 : (join (join (join (join (join (join (join (join (join c.bits 0x4#7) (BitVec.ofBool s)) rn) rd) rs) 0x0#1) ty.bits) 0x1#1) rm).extractLsb' 12 4 = rd := ((ext_left _ _ _ _ (by decide)).trans ((ext_left _ _ _ _ (by decide)).trans ((ext_left _ _ _ _ (by decide)).trans ((ext_left _ _ _ _ (by decide)).trans ((ext_left _ _ _ _ (by decide)).trans (ext_right _ _))))))
    have h5 : (join (join (join (join (join (join (join (join (join c.bits 0x4#7) (BitVec.ofBool s)) rn) rd) rs) 0x0#1) ty.bits) 0x1#1) rm).extractLsb' 8 4 = rs := ((ext_left _ _ _ _ (by decide)).trans ((ext_left _ _ _ _ (by decide)).trans ((ext_left _ _ _ _ (by decide)).trans ((ext_left _ _ _ _ (by decide)).trans (ext_right _ _)))))
    have h7 : (join (join (join (join (join (join (join (join (join c.bits 0x4#7) (BitVec.ofBool s)) rn) rd) rs) 0x0#1) ty.bits) 0x1#1) rm).extractLsb' 5 2 = ty.bits := ((ext_left _ _ _ _ (by decide)).trans ((ext_left _ _ _ _ (by decide)).trans (ext_right _ _)))
    have h9 : (join (join (join (join (join (join (join (join (join c.bits 0x4#7) (BitVec.ofBool s)) rn) rd) rs) 0x0#1) ty.bits) 0x1#1) rm).extractLsb' 0 4 = rm := (ext_right _ _)
    exact congr (congr (congr (congr (congr (congr (congrArg Instr.addRsr ((congrArg Cond.ofBits h0).trans (cond_ofBits c))) (h2)) (h3)) (h4)) (h5)) ((congrArg ShiftType.ofBits h7).trans (shiftType_ofBits ty))) (h9)

theorem EncodesToItself.adcImm (c : Cond) (s : Bool) (rn : Reg) (rd : Reg) (rotate : BitVec 4) (imm8 : BitVec 8) :
    EncodesToItself.Statement (.adcImm c s rn rd rotate imm8) := by
  refine ⟨_, rfl, ?_, ?_⟩
  · show encode (.adcImm c s rn rd rotate imm8) &&& (join (join (join (join (join (join 0x0#4 0x7f#7) 0x0#1) 0x0#4) 0x0#4) 0x0#4) 0x0#8) =
      (join (join (join (join (join (join 0x0#4 0x15#7) 0x0#1) 0x0#4) 0x0#4) 0x0#4) 0x0#8)
    exact (and_parts _ _ _ _).trans (by simp only [and_parts, BitVec.and_zero]; try rfl)
  · have h0 : (join (join (join (join (join (join c.bits 0x15#7) (BitVec.ofBool s)) rn) rd) rotate) imm8).extractLsb' 28 4 = c.bits := ((ext_left _ _ _ _ (by decide)).trans ((ext_left _ _ _ _ (by decide)).trans ((ext_left _ _ _ _ (by decide)).trans ((ext_left _ _ _ _ (by decide)).trans ((ext_left _ _ _ _ (by decide)).trans ((ext_left _ _ _ _ (by decide)).trans (ext_only _)))))))
    have h2 : (join (join (join (join (join (join c.bits 0x15#7) (BitVec.ofBool s)) rn) rd) rotate) imm8).getLsbD 20 = s := ((bit_left _ _ _ (by decide)).trans ((bit_left _ _ _ (by decide)).trans ((bit_left _ _ _ (by decide)).trans ((bit_left _ _ _ (by decide)).trans (bit_right _ _)))))
    have h3 : (join (join (join (join (join (join c.bits 0x15#7) (BitVec.ofBool s)) rn) rd) rotate) imm8).extractLsb' 16 4 = rn := ((ext_left _ _ _ _ (by decide)).trans ((ext_left _ _ _ _ (by decide)).trans ((ext_left _ _ _ _ (by decide)).trans (ext_right _ _))))
    have h4 : (join (join (join (join (join (join c.bits 0x15#7) (BitVec.ofBool s)) rn) rd) rotate) imm8).extractLsb' 12 4 = rd := ((ext_left _ _ _ _ (by decide)).trans ((ext_left _ _ _ _ (by decide)).trans (ext_right _ _)))
    have h5 : (join (join (join (join (join (join c.bits 0x15#7) (BitVec.ofBool s)) rn) rd) rotate) imm8).extractLsb' 8 4 = rotate := ((ext_left _ _ _ _ (by decide)).trans (ext_right _ _))
    have h6 : (join (join (join (join (join (join c.bits 0x15#7) (BitVec.ofBool s)) rn) rd) rotate) imm8).extractLsb' 0 8 = imm8 := (ext_right _ _)
    exact congr (congr (congr (congr (congr (congrArg Instr.adcImm ((congrArg Cond.ofBits h0).trans (cond_ofBits c))) (h2)) (h3)) (h4)) (h5)) (h6)

theorem EncodesToItself.adcReg (c : Cond) (s : Bool) (rn : Reg) (rd : Reg) (imm5 : BitVec 5) (ty : ShiftType) (rm : Reg) :
    EncodesToItself.Statement (.adcReg c s rn rd imm5 ty rm) := by
  refine ⟨_, rfl, ?_, ?_⟩
  · show encode (.adcReg c s rn rd imm5 ty rm) &&& (join (join (join (join (join (join (join (join 0x0#4 0x7f#7) 0x0#1) 0x0#4) 0x0#4) 0x0#5) 0x0#2) 0x1#1) 0x0#4) =
      (join (join (join (join (join (join (join (join 0x0#4 0x5#7) 0x0#1) 0x0#4) 0x0#4) 0x0#5) 0x0#2) 0x0#1) 0x0#4)
    exact (and_parts _ _ _ _).trans (by simp only [and_parts, BitVec.and_zero]; try rfl)
  · have h0 : (join (join (join (join (join (join (join (join c.bits 0x5#7) (BitVec.ofBool s)) rn) rd) imm5) ty.bits) 0x0#1) rm).extractLsb' 28 4 = c.bits := ((ext_left _ _ _ _ (by decide)).trans ((ext_left _ _ _ _ (by decide)).trans ((ext_left _ _ _ _ (by decide)).trans ((ext_left _ _ _ _ (by decide)).trans ((ext_left _ _ _ _ (by decide)).trans ((ext_left _ _ _ _ (by decide)).trans ((ext_left _ _ _ _ (by decide)).trans ((ext_left _ _ _ _ (by decide)).trans (ext_only _)))))))))
    have h2 : (join (join (join (join (join (join (join (join c.bits 0x5#7) (BitVec.ofBool s)) rn) rd) imm5) ty.bits) 0x0#1) rm).getLsbD 20 = s := ((bit_left _ _ _ (by decide)).trans ((bit_left _ _ _ (by decide)).trans ((bit_left _ _ _ (by decide)).trans ((bit_left _ _ _ (by decide)).trans ((bit_left _ _ _ (by decide)).trans ((bit_left _ _ _ (by decide)).trans (bit_right _ _)))))))
    have h3 : (join (join (join (join (join (join (join (join c.bits 0x5#7) (BitVec.ofBool s)) rn) rd) imm5) ty.bits) 0x0#1) rm).extractLsb' 16 4 = rn := ((ext_left _ _ _ _ (by decide)).trans ((ext_left _ _ _ _ (by decide)).trans ((ext_left _ _ _ _ (by decide)).trans ((ext_left _ _ _ _ (by decide)).trans ((ext_left _ _ _ _ (by decide)).trans (ext_right _ _))))))
    have h4 : (join (join (join (join (join (join (join (join c.bits 0x5#7) (BitVec.ofBool s)) rn) rd) imm5) ty.bits) 0x0#1) rm).extractLsb' 12 4 = rd := ((ext_left _ _ _ _ (by decide)).trans ((ext_left _ _ _ _ (by decide)).trans ((ext_left _ _ _ _ (by decide)).trans ((ext_left _ _ _ _ (by decide)).trans (ext_right _ _)))))
    have h5 : (join (join (join (join (join (join (join (join c.bits 0x5#7) (BitVec.ofBool s)) rn) rd) imm5) ty.bits) 0x0#1) rm).extractLsb' 7 5 = imm5 := ((ext_left _ _ _ _ (by decide)).trans ((ext_left _ _ _ _ (by decide)).trans ((ext_left _ _ _ _ (by decide)).trans (ext_right _ _))))
    have h6 : (join (join (join (join (join (join (join (join c.bits 0x5#7) (BitVec.ofBool s)) rn) rd) imm5) ty.bits) 0x0#1) rm).extractLsb' 5 2 = ty.bits := ((ext_left _ _ _ _ (by decide)).trans ((ext_left _ _ _ _ (by decide)).trans (ext_right _ _)))
    have h8 : (join (join (join (join (join (join (join (join c.bits 0x5#7) (BitVec.ofBool s)) rn) rd) imm5) ty.bits) 0x0#1) rm).extractLsb' 0 4 = rm := (ext_right _ _)
    exact congr (congr (congr (congr (congr (congr (congrArg Instr.adcReg ((congrArg Cond.ofBits h0).trans (cond_ofBits c))) (h2)) (h3)) (h4)) (h5)) ((congrArg ShiftType.ofBits h6).trans (shiftType_ofBits ty))) (h8)

theorem EncodesToItself.adcRsr (c : Cond) (s : Bool) (rn : Reg) (rd : Reg) (rs : Reg) (ty : ShiftType) (rm : Reg) :
    EncodesToItself.Statement (.adcRsr c s rn rd rs ty rm) := by
  refine ⟨_, rfl, ?_, ?_⟩
  · show encode (.adcRsr c s rn rd rs ty rm) &&& (join (join (join (join (join (join (join (join (join 0x0#4 0x7f#7) 0x0#1) 0x0#4) 0x0#4) 0x0#4) 0x1#1) 0x0#2) 0x1#1) 0x0#4) =
      (join (join (join (join (join (join (join (join (join 0x0#4 0x5#7) 0x0#1) 0x0#4) 0x0#4) 0x0#4) 0x0#1) 0x0#2) 0x1#1) 0x0#4)
    exact (and_parts _ _ _ _).trans (by simp only [and_parts, BitVec.and_zero]; try rfl)
  · have h0 : (join (join (join (join (join (join (join (join (join c.bits 0x5#7) (BitVec.ofBool s)) rn) rd) rs) 0x0#1) ty.bits) 0x1#1) rm).extractLsb' 28 4 = c.bits := ((ext_left _ _ _ _ (by decide)).trans ((ext_left _ _ _ _ (by decide)).trans ((ext_left _ _ _ _ (by decide)).trans ((ext_left _ _ _ _ (by decide)).trans ((ext_left _ _ _ _ (by decide)).trans ((ext_left _ _ _ _ (by decide)).trans ((ext_left _ _ _ _ (by decide)).trans ((ext_left _ _ _ _ (by decide)).trans ((ext_left _ _ _ _ (by decide)).trans (ext_only _))))))))))
    have h2 : (join (join (join (join (join (join (join (join (join c.bits 0x5#7) (BitVec.ofBool s)) rn) rd) rs) 0x0#1) ty.bits) 0x1#1) rm).getLsbD 20 = s := ((bit_left _ _ _ (by decide)).trans ((bit_left _ _ _ (by decide)).trans ((bit_left _ _ _ (by decide)).trans ((bit_left _ _ _ (by decide)).trans ((bit_left _ _ _ (by decide)).trans ((bit_left _ _ _ (by decide)).trans ((bit_left _ _ _ (by decide)).trans (bit_right _ _))))))))
    have h3 : (join (join (join (join (join (join (join (join (join c.bits 0x5#7) (BitVec.ofBool s)) rn) rd) rs) 0x0#1) ty.bits) 0x1#1) rm).extractLsb' 16 4 = rn := ((ext_left _ _ _ _ (by decide)).trans ((ext_left _ _ _ _ (by decide)).trans ((ext_left _ _ _ _ (by decide)).trans ((ext_left _ _ _ _ (by decide)).trans ((ext_left _ _ _ _ (by decide)).trans ((ext_left _ _ _ _ (by decide)).trans (ext_right _ _)))))))
    have h4 : (join (join (join (join (join (join (join (join (join c.bits 0x5#7) (BitVec.ofBool s)) rn) rd) rs) 0x0#1) ty.bits) 0x1#1) rm).extractLsb' 12 4 = rd := ((ext_left _ _ _ _ (by decide)).trans ((ext_left _ _ _ _ (by decide)).trans ((ext_left _ _ _ _ (by decide)).trans ((ext_left _ _ _ _ (by decide)).trans ((ext_left _ _ _ _ (by decide)).trans (ext_right _ _))))))
    have h5 : (join (join (join (join (join (join (join (join (join c.bits 0x5#7) (BitVec.ofBool s)) rn) rd) rs) 0x0#1) ty.bits) 0x1#1) rm).extractLsb' 8 4 = rs := ((ext_left _ _ _ _ (by decide)).trans ((ext_left _ _ _ _ (by decide)).trans ((ext_left _ _ _ _ (by decide)).trans ((ext_left _ _ _ _ (by decide)).trans (ext_right _ _)))))
    have h7 : (join (join (join (join (join (join (join (join (join c.bits 0x5#7) (BitVec.ofBool s)) rn) rd) rs) 0x0#1) ty.bits) 0x1#1) rm).extractLsb' 5 2 = ty.bits := ((ext_left _ _ _ _ (by decide)).trans ((ext_left _ _ _ _ (by decide)).trans (ext_right _ _)))
    have h9 : (join (join (join (join (join (join (join (join (join c.bits 0x5#7) (BitVec.ofBool s)) rn) rd) rs) 0x0#1) ty.bits) 0x1#1) rm).extractLsb' 0 4 = rm := (ext_right _ _)
    exact congr (congr (congr (congr (congr (congr (congrArg Instr.adcRsr ((congrArg Cond.ofBits h0).trans (cond_ofBits c))) (h2)) (h3)) (h4)) (h5)) ((congrArg ShiftType.ofBits h7).trans (shiftType_ofBits ty))) (h9)

theorem EncodesToItself.sbcImm (c : Cond) (s : Bool) (rn : Reg) (rd : Reg) (rotate : BitVec 4) (imm8 : BitVec 8) :
    EncodesToItself.Statement (.sbcImm c s rn rd rotate imm8) := by
  refine ⟨_, rfl, ?_, ?_⟩
  · show encode (.sbcImm c s rn rd rotate imm8) &&& (join (join (join (join (join (join 0x0#4 0x7f#7) 0x0#1) 0x0#4) 0x0#4) 0x0#4) 0x0#8) =
      (join (join (join (join (join (join 0x0#4 0x16#7) 0x0#1) 0x0#4) 0x0#4) 0x0#4) 0x0#8)
    exact (and_parts _ _ _ _).trans (by simp only [and_parts, BitVec.and_zero]; try rfl)
  · have h0 : (join (join (join (join (join (join c.bits 0x16#7) (BitVec.ofBool s)) rn) rd) rotate) imm8).extractLsb' 28 4 = c.bits := ((ext_left _ _ _ _ (by decide)).trans ((ext_left _ _ _ _ (by decide)).trans ((ext_left _ _ _ _ (by decide)).trans ((ext_left _ _ _ _ (by decide)).trans ((ext_left _ _ _ _ (by decide)).trans ((ext_left _ _ _ _ (by decide)).trans (ext_only _)))))))
    have h2 : (join (join (join (join (join (join c.bits 0x16#7) (BitVec.ofBool s)) rn) rd) rotate) imm8).getLsbD 20 = s := ((bit_left _ _ _ (by decide)).trans ((bit_left _ _ _ (by decide)).trans ((bit_left _ _ _ (by decide)).trans ((bit_left _ _ _ (by decide)).trans (bit_right _ _)))))
    have h3 : (join (join (join (join (join (join c.bits 0x16#7) (BitVec.ofBool s)) rn) rd) rotate) imm8).extractLsb' 16 4 = rn := ((ext_left _ _ _ _ (by decide)).trans ((ext_left _ _ _ _ (by decide)).trans ((ext_left _ _ _ _ (by decide)).trans (ext_right _ _))))
    have h4 : (join (join (join (join (join (join c.bits 0x16#7) (BitVec.ofBool s)) rn) rd) rotate) imm8).extractLsb' 12 4 = rd := ((ext_left _ _ _ _ (by decide)).trans ((ext_left _ _ _ _ (by decide)).trans (ext_right _ _)))
    have h5 : (join (join (join (join (join (join c.bits 0x16#7) (BitVec.ofBool s)) rn) rd) rotate) imm8).extractLsb' 8 4 = rotate := ((ext_left _ _ _ _ (by decide)).trans (ext_right _ _))
    have h6 : (join (join (join (join (join (join c.bits 0x16#7) (BitVec.ofBool s)) rn) rd) rotate) imm8).extractLsb' 0 8 = imm8 := (ext_right _ _)
    exact congr (congr (congr (congr (congr (congrArg Instr.sbcImm ((congrArg Cond.ofBits h0).trans (cond_ofBits c))) (h2)) (h3)) (h4)) (h5)) (h6)

theorem EncodesToItself.sbcReg (c : Cond) (s : Bool) (rn : Reg) (rd : Reg) (imm5 : BitVec 5) (ty : ShiftType) (rm : Reg) :
    EncodesToItself.Statement (.sbcReg c s rn rd imm5 ty rm) := by
  refine ⟨_, rfl, ?_, ?_⟩
  · show encode (.sbcReg c s rn rd imm5 ty rm) &&& (join (join (join (join (join (join (join (join 0x0#4 0x7f#7) 0x0#1) 0x0#4) 0x0#4) 0x0#5) 0x0#2) 0x1#1) 0x0#4) =
      (join (join (join (join (join (join (join (join 0x0#4 0x6#7) 0x0#1) 0x0#4) 0x0#4) 0x0#5) 0x0#2) 0x0#1) 0x0#4)
    exact (and_parts _ _ _ _).trans (by simp only [and_parts, BitVec.and_zero]; try rfl)
  · have h0 : (join (join (join (join (join (join (join (join c.bits 0x6#7) (BitVec.ofBool s)) rn) rd) imm5) ty.bits) 0x0#1) rm).extractLsb' 28 4 = c.bits := ((ext_left _ _ _ _ (by decide)).trans ((ext_left _ _ _ _ (by decide)).trans ((ext_left _ _ _ _ (by decide)).trans ((ext_left _ _ _ _ (by decide)).trans ((ext_left _ _ _ _ (by decide)).trans ((ext_left _ _ _ _ (by decide)).trans ((ext_left _ _ _ _ (by decide)).trans ((ext_left _ _ _ _ (by decide)).trans (ext_only _)))))))))
    have h2 : (join (join (join (join (join (join (join (join c.bits 0x6#7) (BitVec.ofBool s)) rn) rd) imm5) ty.bits) 0x0#1) rm).getLsbD 20 = s := ((bit_left _ _ _ (by decide)).trans ((bit_left _ _ _ (by decide)).trans ((bit_left _ _ _ (by decide)).trans ((bit_left _ _ _ (by decide)).trans ((bit_left _ _ _ (by decide)).trans ((bit_left _ _ _ (by decide)).trans (bit_right _ _)))))))
    have h3 : (join (join (join (join (join (join (join (join c.bits 0x6#7) (BitVec.ofBool s)) rn) rd) imm5) ty.bits) 0x0#1) rm).extractLsb' 16 4 = rn := ((ext_left _ _ _ _ (by decide)).trans ((ext_left _ _ _ _ (by decide)).trans ((ext_left _ _ _ _ (by decide)).trans ((ext_left _ _ _ _ (by decide)).trans ((ext_left _ _ _ _ (by decide)).trans (ext_right _ _))))))
    have h4 : (join (join (join (join (join (join (join (join c.bits 0x6#7) (BitVec.ofBool s)) rn) rd) imm5) ty.bits) 0x0#1) rm).extractLsb' 12 4 = rd := ((ext_left _ _ _ _ (by decide)).trans ((ext_left _ _ _ _ (by decide)).trans ((ext_left _ _ _ _ (by decide)).trans ((ext_left _ _ _ _ (by decide)).trans (ext_right _ _)))))
    have h5 : (join (join (join (join (join (join (join (join c.bits 0x6#7) (BitVec.ofBool s)) rn) rd) imm5) ty.bits) 0x0#1) rm).extractLsb' 7 5 = imm5 := ((ext_left _ _ _ _ (by decide)).trans ((ext_left _ _ _ _ (by decide)).trans ((ext_left _ _ _ _ (by decide)).trans (ext_right _ _))))
    have h6 : (join (join (join (join (join (join (join (join c.bits 0x6#7) (BitVec.ofBool s)) rn) rd) imm5) ty.bits) 0x0#1) rm).extractLsb' 5 2 = ty.bits := ((ext_left _ _ _ _ (by decide)).trans ((ext_left _ _ _ _ (by decide)).trans (ext_right _ _)))
    have h8 : (join (join (join (join (join (join (join (join c.bits 0x6#7) (BitVec.ofBool s)) rn) rd) imm5) ty.bits) 0x0#1) rm).extractLsb' 0 4 = rm := (ext_right _ _)
    exact congr (congr (congr (congr (congr (congr (congrArg Instr.sbcReg ((congrArg Cond.ofBits h0).trans (cond_ofBits c))) (h2)) (h3)) (h4)) (h5)) ((congrArg ShiftType.ofBits h6).trans (shiftType_ofBits ty))) (h8)

theorem EncodesToItself.sbcRsr (c : Cond) (s : Bool) (rn : Reg) (rd : Reg) (rs : Reg) (ty : ShiftType) (rm : Reg) :
    EncodesToItself.Statement (.sbcRsr c s rn rd rs ty rm) := by
  refine ⟨_, rfl, ?_, ?_⟩
  · show encode (.sbcRsr c s rn rd rs ty rm) &&& (join (join (join (join (join (join (join (join (join 0x0#4 0x7f#7) 0x0#1) 0x0#4) 0x0#4) 0x0#4) 0x1#1) 0x0#2) 0x1#1) 0x0#4) =
      (join (join (join (join (join (join (join (join (join 0x0#4 0x6#7) 0x0#1) 0x0#4) 0x0#4) 0x0#4) 0x0#1) 0x0#2) 0x1#1) 0x0#4)
    exact (and_parts _ _ _ _).trans (by simp only [and_parts, BitVec.and_zero]; try rfl)
  · have h0 : (join (join (join (join (join (join (join (join (join c.bits 0x6#7) (BitVec.ofBool s)) rn) rd) rs) 0x0#1) ty.bits) 0x1#1) rm).extractLsb' 28 4 = c.bits := ((ext_left _ _ _ _ (by decide)).trans ((ext_left _ _ _ _ (by decide)).trans ((ext_left _ _ _ _ (by decide)).trans ((ext_left _ _ _ _ (by decide)).trans ((ext_left _ _ _ _ (by decide)).trans ((ext_left _ _ _ _ (by decide)).trans ((ext_left _ _ _ _ (by decide)).trans ((ext_left _ _ _ _ (by decide)).trans ((ext_left _ _ _ _ (by decide)).trans (ext_only _))))))))))
    have h2 : (join (join (join (join (join (join (join (join (join c.bits 0x6#7) (BitVec.ofBool s)) rn) rd) rs) 0x0#1) ty.bits) 0x1#1) rm).getLsbD 20 = s := ((bit_left _ _ _ (by decide)).trans ((bit_left _ _ _ (by decide)).trans ((bit_left _ _ _ (by decide)).trans ((bit_left _ _ _ (by decide)).trans ((bit_left _ _ _ (by decide)).trans ((bit_left _ _ _ (by decide)).trans ((bit_left _ _ _ (by decide)).trans (bit_right _ _))))))))
    have h3 : (join (join (join (join (join (join (join (join (join c.bits 0x6#7) (BitVec.ofBool s)) rn) rd) rs) 0x0#1) ty.bits) 0x1#1) rm).extractLsb' 16 4 = rn := ((ext_left _ _ _ _ (by decide)).trans ((ext_left _ _ _ _ (by decide)).trans ((ext_left _ _ _ _ (by decide)).trans ((ext_left _ _ _ _ (by decide)).trans ((ext_left _ _ _ _ (by decide)).trans ((ext_left _ _ _ _ (by decide)).trans (ext_right _ _)))))))
    have h4 : (join (join (join (join (join (join (join (join (join c.bits 0x6#7) (BitVec.ofBool s)) rn) rd) rs) 0x0#1) ty.bits) 0x1#1) rm).extractLsb' 12 4 = rd := ((ext_left _ _ _ _ (by decide)).trans ((ext_left _ _ _ _ (by decide)).trans ((ext_left _ _ _ _ (by decide)).trans ((ext_left _ _ _ _ (by decide)).trans ((ext_left _ _ _ _ (by decide)).trans (ext_right _ _))))))
    have h5 : (join (join (join (join (join (join (join (join (join c.bits 0x6#7) (BitVec.ofBool s)) rn) rd) rs) 0x0#1) ty.bits) 0x1#1) rm).extractLsb' 8 4 = rs := ((ext_left _ _ _ _ (by decide)).trans ((ext_left _ _ _ _ (by decide)).trans ((ext_left _ _ _ _ (by decide)).trans ((ext_left _ _ _ _ (by decide)).trans (ext_right _ _)))))
    have h7 : (join (join (join (join (join (join (join (join (join c.bits 0x6#7) (BitVec.ofBool s)) rn) rd) rs) 0x0#1) ty.bits) 0x1#1) rm).extractLsb' 5 2 = ty.bits := ((ext_left _ _ _ _ (by decide)).trans ((ext_left _ _ _ _ (by decide)).trans (ext_right _ _)))
    have h9 : (join (join (join (join (join (join (join (join (join c.bits 0x6#7) (BitVec.ofBool s)) rn) rd) rs) 0x0#1) ty.bits) 0x1#1) rm).extractLsb' 0 4 = rm := (ext_right _ _)
    exact congr (congr (congr (congr (congr (congr (congrArg Instr.sbcRsr ((congrArg Cond.ofBits h0).trans (cond_ofBits c))) (h2)) (h3)) (h4)) (h5)) ((congrArg ShiftType.ofBits h7).trans (shiftType_ofBits ty))) (h9)

theorem EncodesToItself.rscImm (c : Cond) (s : Bool) (rn : Reg) (rd : Reg) (rotate : BitVec 4) (imm8 : BitVec 8) :
    EncodesToItself.Statement (.rscImm c s rn rd rotate imm8) := by
  refine ⟨_, rfl, ?_, ?_⟩
  · show encode (.rscImm c s rn rd rotate imm8) &&& (join (join (join (join (join (join 0x0#4 0x7f#7) 0x0#1) 0x0#4) 0x0#4) 0x0#4) 0x0#8) =
      (join (join (join (join (join (join 0x0#4 0x17#7) 0x0#1) 0x0#4) 0x0#4) 0x0#4) 0x0#8)
    exact (and_parts _ _ _ _).trans (by simp only [and_parts, BitVec.and_zero]; try rfl)
  · have h0 : (join (join (join (join (join (join c.bits 0x17#7) (BitVec.ofBool s)) rn) rd) rotate) imm8).extractLsb' 28 4 = c.bits := ((ext_left _ _ _ _ (by decide)).trans ((ext_left _ _ _ _ (by decide)).trans ((ext_left _ _ _ _ (by decide)).trans ((ext_left _ _ _ _ (by decide)).trans ((ext_left _ _ _ _ (by decide)).trans ((ext_left _ _ _ _ (by decide)).trans (ext_only _)))))))
    have h2 : (join (join (join (join (join (join c.bits 0x17#7) (BitVec.ofBool s)) rn) rd) rotate) imm8).getLsbD 20 = s := ((bit_left _ _ _ (by decide)).trans ((bit_left _ _ _ (by decide)).trans ((bit_left _ _ _ (by decide)).trans ((bit_left _ _ _ (by decide)).trans (bit_right _ _)))))
    have h3 : (join (join (join (join (join (join c.bits 0x17#7) (BitVec.ofBool s)) rn) rd) rotate) imm8).extractLsb' 16 4 = rn := ((ext_left _ _ _ _ (by decide)).trans ((ext_left _ _ _ _ (by decide)).trans ((ext_left _ _ _ _ (by decide)).trans (ext_right _ _))))
    have h4 : (join (join (join (join (join (join c.bits 0x17#7) (BitVec.ofBool s)) rn) rd) rotate) imm8).extractLsb' 12 4 = rd := ((ext_left _ _ _ _ (by decide)).trans ((ext_left _ _ _ _ (by decide)).trans (ext_right _ _)))
    have h5 : (join (join (join (join (join (join c.bits 0x17#7) (BitVec.ofBool s)) rn) rd) rotate) imm8).extractLsb' 8 4 = rotate := ((ext_left _ _ _ _ (by decide)).trans (ext_right _ _))
    have h6 : (join (join (join (join (join (join c.bits 0x17#7) (BitVec.ofBool s)) rn) rd) rotate) imm8).extractLsb' 0 8 = imm8 := (ext_right _ _)
    exact congr (congr (congr (congr (congr (congrArg Instr.rscImm ((congrArg Cond.ofBits h0).trans (cond_ofBits c))) (h2)) (h3)) (h4)) (h5)) (h6)

theorem EncodesToItself.rscReg (c : Cond) (s : Bool) (rn : Reg) (rd : Reg) (imm5 : BitVec 5) (ty : ShiftType) (rm : Reg) :
    EncodesToItself.Statement (.rscReg c s rn rd imm5 ty rm) := by
  refine ⟨_, rfl, ?_, ?_⟩
  · show encode (.rscReg c s rn rd imm5 ty rm) &&& (join (join (join (join (join (join (join (join 0x0#4 0x7f#7) 0x0#1) 0x0#4) 0x0#4) 0x0#5) 0x0#2) 0x1#1) 0x0#4) =
      (join (join (join (join (join (join (join (join 0x0#4 0x7#7) 0x0#1) 0x0#4) 0x0#4) 0x0#5) 0x0#2) 0x0#1) 0x0#4)
    exact (and_parts _ _ _ _).trans (by simp only [and_parts, BitVec.and_zero]; try rfl)
  · have h0 : (join (join (join (join (join (join (join (join c.bits 0x7#7) (BitVec.ofBool s)) rn) rd) imm5) ty.bits) 0x0#1) rm).extractLsb' 28 4 = c.bits := ((ext_left _ _ _ _ (by decide)).trans ((ext_left _ _ _ _ (by decide)).trans ((ext_left _ _ _ _ (by decide)).trans ((ext_left _ _ _ _ (by decide)).trans ((ext_left _ _ _ _ (by decide)).trans ((ext_left _ _ _ _ (by decide)).trans ((ext_left _ _ _ _ (by decide)).trans ((ext_left _ _ _ _ (by decide)).trans (ext_only _)))))))))
    have h2 : (join (join (join (join (join (join (join (join c.bits 0x7#7) (BitVec.ofBool s)) rn) rd) imm5) ty.bits) 0x0#1) rm).getLsbD 20 = s := ((bit_left _ _ _ (by decide)).trans ((bit_left _ _ _ (by decide)).trans ((bit_left _ _ _ (by decide)).trans ((bit_left _ _ _ (by decide)).trans ((bit_left _ _ _ (by decide)).trans ((bit_left _ _ _ (by decide)).trans (bit_right _ _)))))))
    have h3 : (join (join (join (join (join (join (join (join c.bits 0x7#7) (BitVec.ofBool s)) rn) rd) imm5) ty.bits) 0x0#1) rm).extractLsb' 16 4 = rn := ((ext_left _ _ _ _ (by decide)).trans ((ext_left _ _ _ _ (by decide)).trans ((ext_left _ _ _ _ (by decide)).trans ((ext_left _ _ _ _ (by decide)).trans ((ext_left _ _ _ _ (by decide)).trans (ext_right _ _))))))
    have h4 : (join (join (join (join (join (join (join (join c.bits 0x7#7) (BitVec.ofBool s)) rn) rd) imm5) ty.bits) 0x0#1) rm).extractLsb' 12 4 = rd := ((ext_left _ _ _ _ (by decide)).trans ((ext_left _ _ _ _ (by decide)).trans ((ext_left _ _ _ _ (by decide)).trans ((ext_left _ _ _ _ (by decide)).trans (ext_right _ _)))))
    have h5 : (join (join (join (join (join (join (join (join c.bits 0x7#7) (BitVec.ofBool s)) rn) rd) imm5) ty.bits) 0x0#1) rm).extractLsb' 7 5 = imm5 := ((ext_left _ _ _ _ (by decide)).trans ((ext_left _ _ _ _ (by decide)).trans ((ext_left _ _ _ _ (by decide)).trans (ext_right _ _))))
    have h6 : (join (join (join (join (join (join (join (join c.bits 0x7#7) (BitVec.ofBool s)) rn) rd) imm5) ty.bits) 0x0#1) rm).extractLsb' 5 2 = ty.bits := ((ext_left _ _ _ _ (by decide)).trans ((ext_left _ _ _ _ (by decide)).trans (ext_right _ _)))
    have h8 : (join (join (join (join (join (join (join (join c.bits 0x7#7) (BitVec.ofBool s)) rn) rd) imm5) ty.bits) 0x0#1) rm).extractLsb' 0 4 = rm := (ext_right _ _)
    exact congr (congr (congr (congr (congr (congr (congrArg Instr.rscReg ((congrArg Cond.ofBits h0).trans (cond_ofBits c))) (h2)) (h3)) (h4)) (h5)) ((congrArg ShiftType.ofBits h6).trans (shiftType_ofBits ty))) (h8)

theorem EncodesToItself.rscRsr (c : Cond) (s : Bool) (rn : Reg) (rd : Reg) (rs : Reg) (ty : ShiftType) (rm : Reg) :
    EncodesToItself.Statement (.rscRsr c s rn rd rs ty rm) := by
  refine ⟨_, rfl, ?_, ?_⟩
  · show encode (.rscRsr c s rn rd rs ty rm) &&& (join (join (join (join (join (join (join (join (join 0x0#4 0x7f#7) 0x0#1) 0x0#4) 0x0#4) 0x0#4) 0x1#1) 0x0#2) 0x1#1) 0x0#4) =
      (join (join (join (join (join (join (join (join (join 0x0#4 0x7#7) 0x0#1) 0x0#4) 0x0#4) 0x0#4) 0x0#1) 0x0#2) 0x1#1) 0x0#4)
    exact (and_parts _ _ _ _).trans (by simp only [and_parts, BitVec.and_zero]; try rfl)
  · have h0 : (join (join (join (join (join (join (join (join (join c.bits 0x7#7) (BitVec.ofBool s)) rn) rd) rs) 0x0#1) ty.bits) 0x1#1) rm).extractLsb' 28 4 = c.bits := ((ext_left _ _ _ _ (by decide)).trans ((ext_left _ _ _ _ (by decide)).trans ((ext_left _ _ _ _ (by decide)).trans ((ext_left _ _ _ _ (by decide)).trans ((ext_left _ _ _ _ (by decide)).trans ((ext_left _ _ _ _ (by decide)).trans ((ext_left _ _ _ _ (by decide)).trans ((ext_left _ _ _ _ (by decide)).trans ((ext_left _ _ _ _ (by decide)).trans (ext_only _))))))))))
    have h2 : (join (join (join (join (join (join (join (join (join c.bits 0x7#7) (BitVec.ofBool s)) rn) rd) rs) 0x0#1) ty.bits) 0x1#1) rm).getLsbD 20 = s := ((bit_left _ _ _ (by decide)).trans ((bit_left _ _ _ (by decide)).trans ((bit_left _ _ _ (by decide)).trans ((bit_left _ _ _ (by decide)).trans ((bit_left _ _ _ (by decide)).trans ((bit_left _ _ _ (by decide)).trans ((bit_left _ _ _ (by decide)).trans (bit_right _ _))))))))
    have h3 : (join (join (join (join (join (join (join (join (join c.bits 0x7#7) (BitVec.ofBool s)) rn) rd) rs) 0x0#1) ty.bits) 0x1#1) rm).extractLsb' 16 4 = rn := ((ext_left _ _ _ _ (by decide)).trans ((ext_left _ _ _ _ (by decide)).trans ((ext_left _ _ _ _ (by decide)).trans ((ext_left _ _ _ _ (by decide)).trans ((ext_left _ _ _ _ (by decide)).trans ((ext_left _ _ _ _ (by decide)).trans (ext_right _ _)))))))
    have h4 : (join (join (join (join (join (join (join (join (join c.bits 0x7#7) (BitVec.ofBool s)) rn) rd) rs) 0x0#1) ty.bits) 0x1#1) rm).extractLsb' 12 4 = rd := ((ext_left _ _ _ _ (by decide)).trans ((ext_left _ _ _ _ (by decide)).trans ((ext_left _ _ _ _ (by decide)).trans ((ext_left _ _ _ _ (by decide)).trans ((ext_left _ _ _ _ (by decide)).trans (ext_right _ _))))))
    have h5 : (join (join (join (join (join (join (join (join (join c.bits 0x7#7) (BitVec.ofBool s)) rn) rd) rs) 0x0#1) ty.bits) 0x1#1) rm).extractLsb' 8 4 = rs := ((ext_left _ _ _ _ (by decide)).trans ((ext_left _ _ _ _ (by decide)).trans ((ext_left _ _ _ _ (by decide)).trans ((ext_left _ _ _ _ (by decide)).trans (ext_right _ _)))))
    have h7 : (join (join (join (join (join (join (join (join (join c.bits 0x7#7) (BitVec.ofBool s)) rn) rd) rs) 0x0#1) ty.bits) 0x1#1) rm).extractLsb' 5 2 = ty.bits := ((ext_left _ _ _ _ (by decide)).trans ((ext_left _ _ _ _ (by decide)).trans (ext_right _ _)))
    have h9 : (join (join (join (join (join (join (join (join (join c.bits 0x7#7) (BitVec.ofBool s)) rn) rd) rs) 0x0#1) ty.bits) 0x1#1) rm).extractLsb' 0 4 = rm := (ext_right _ _)
    exact congr (congr (congr (congr (congr (congr (congrArg Instr.rscRsr ((congrArg Cond.ofBits h0).trans (cond_ofBits c))) (h2)) (h3)) (h4)) (h5)) ((congrArg ShiftType.ofBits h7).trans (shiftType_ofBits ty))) (h9)

theorem EncodesToItself.tstImm (c : Cond) (rn : Reg) (sbz : BitVec 4) (rotate : BitVec 4) (imm8 : BitVec 8) :
    EncodesToItself.Statement (.tstImm c rn sbz rotate imm8) := by
  refine ⟨_, rfl, ?_, ?_⟩
  · show encode (.tstImm c rn sbz rotate imm8) &&& (join (join (join (join (join 0x0#4 0xff#8) 0x0#4) 0x0#4) 0x0#4) 0x0#8) =
      (join (join (join (join (join 0x0#4 0x31#8) 0x0#4) 0x0#4) 0x0#4) 0x0#8)
    exact (and_parts _ _ _ _).trans (by simp only [and_parts, BitVec.and_zero]; try rfl)
  · have h0 : (join (join (join (join (join c.bits 0x31#8) rn) sbz) rotate) imm8).extractLsb' 28 4 = c.bits := ((ext_left _ _ _ _ (by decide)).trans ((ext_left _ _ _ _ (by decide)).trans ((ext_left _ _ _ _ (by decide)).trans ((ext_left _ _ _ _ (by decide)).trans ((ext_left _ _ _ _ (by decide)).trans (ext_only _))))))
    have h2 : (join (join (join (join (join c.bits 0x31#8) rn) sbz) rotate) imm8).extractLsb' 16 4 = rn := ((ext_left _ _ _ _ (by decide)).trans ((ext_left _ _ _ _ (by decide)).trans ((ext_left _ _ _ _ (by decide)).trans (ext_right _ _))))
    have h3 : (join (join (join (join (join c.bits 0x31#8) rn) sbz) rotate) imm8).extractLsb' 12 4 = sbz := ((ext_left _ _ _ _ (by decide)).trans ((ext_left _ _ _ _ (by decide)).trans (ext_right _ _)))
    have h4 : (join (join (join (join (join c.bits 0x31#8) rn) sbz) rotate) imm8).extractLsb' 8 4 = rotate := ((ext_left _ _ _ _ (by decide)).trans (ext_right _ _))
    have h5 : (join (join (join (join (join c.bits 0x31#8) rn) sbz) rotate) imm8).extractLsb' 0 8 = imm8 := (ext_right _ _)
    exact congr (congr (congr (congr (congrArg Instr.tstImm ((congrArg Cond.ofBits h0).trans (cond_ofBits c))) (h2)) (h3)) (h4)) (h5)

theorem EncodesToItself.tstReg (c : Cond) (rn : Reg) (sbz : BitVec 4) (imm5 : BitVec 5) (ty : ShiftType) (rm : Reg) :
    EncodesToItself.Statement (.tstReg c rn sbz imm5 ty rm) := by
  refine ⟨_, rfl, ?_, ?_⟩
  · show encode (.tstReg c rn sbz imm5 ty rm) &&& (join (join (join (join (join (join (join 0x0#4 0xff#8) 0x0#4) 0x0#4) 0x0#5) 0x0#2) 0x1#1) 0x0#4) =
      (join (join (join (join (join (join (join 0x0#4 0x11#8) 0x0#4) 0x0#4) 0x0#5) 0x0#2) 0x0#1) 0x0#4)
    exact (and_parts _ _ _ _).trans (by simp only [and_parts, BitVec.and_zero]; try rfl)
  · have h0 : (join (join (join (join (join (join (join c.bits 0x11#8) rn) sbz) imm5) ty.bits) 0x0#1) rm).extractLsb' 28 4 = c.bits := ((ext_left _ _ _ _ (by decide)).trans ((ext_left _ _ _ _ (by decide)).trans ((ext_left _ _ _ _ (by decide)).trans ((ext_left _ _ _ _ (by decide)).trans ((ext_left _ _ _ _ (by decide)).trans ((ext_left _ _ _ _ (by decide)).trans ((ext_left _ _ _ _ (by decide)).trans (ext_only _))))))))
    have h2 : (join (join (join (join (join (join (join c.bits 0x11#8) rn) sbz) imm5) ty.bits) 0x0#1) rm).extractLsb' 16 4 = rn := ((ext_left _ _ _ _ (by decide)).trans ((ext_left _ _ _ _ (by decide)).trans ((ext_left _ _ _ _ (by decide)).trans ((ext_left _ _ _ _ (by decide)).trans ((ext_left _ _ _ _ (by decide)).trans (ext_right _ _))))))
    have h3 : (join (join (join (join (join (join (join c.bits 0x11#8) rn) sbz) imm5) ty.bits) 0x0#1) rm).extractLsb' 12 4 = sbz := ((ext_left _ _ _ _ (by decide)).trans ((ext_left _ _ _ _ (by decide)).trans ((ext_left _ _ _ _ (by decide)).trans ((ext_left _ _ _ _ (by decide)).trans (ext_right _ _)))))
    have h4 : (join (join (join (join (join (join (join c.bits 0x11#8) rn) sbz) imm5) ty.bits) 0x0#1) rm).extractLsb' 7 5 = imm5 := ((ext_left _ _ _ _ (by decide)).trans ((ext_left _ _ _ _ (by decide)).trans ((ext_left _ _ _ _ (by decide)).trans (ext_right _ _))))
    have h5 : (join (join (join (join (join (join (join c.bits 0x11#8) rn) sbz) imm5) ty.bits) 0x0#1) rm).extractLsb' 5 2 = ty.bits := ((ext_left _ _ _ _ (by decide)).trans ((ext_left _ _ _ _ (by decide)).trans (ext_right _ _)))
    have h7 : (join (join (join (join (join (join (join c.bits 0x11#8) rn) sbz) imm5) ty.bits) 0x0#1) rm).extractLsb' 0 4 = rm := (ext_right _ _)
    exact congr (congr (congr (congr (congr (congrArg Instr.tstReg ((congrArg Cond.ofBits h0).trans (cond_ofBits c))) (h2)) (h3)) (h4)) ((congrArg ShiftType.ofBits h5).trans (shiftType_ofBits ty))) (h7)

theorem EncodesToItself.tstRsr (c : Cond) (rn : Reg) (sbz : BitVec 4) (rs : Reg) (ty : ShiftType) (rm : Reg) :
    EncodesToItself.Statement (.tstRsr c rn sbz rs ty rm) := by
  refine ⟨_, rfl, ?_, ?_⟩
  · show encode (.tstRsr c rn sbz rs ty rm) &&& (join (join (join (join (join (join (join (join 0x0#4 0xff#8) 0x0#4) 0x0#4) 0x0#4) 0x1#1) 0x0#2) 0x1#1) 0x0#4) =
      (join (join (join (join (join (join (join (join 0x0#4 0x11#8) 0x0#4) 0x0#4) 0x0#4) 0x0#1) 0x0#2) 0x1#1) 0x0#4)
    exact (and_parts _ _ _ _).trans (by simp only [and_parts, BitVec.and_zero]; try rfl)
  · have h0 : (join (join (join (join (join (join (join (join c.bits 0x11#8) rn) sbz) rs) 0x0#1) ty.bits) 0x1#1) rm).extractLsb' 28 4 = c.bits := ((ext_left _ _ _ _ (by decide)).trans ((ext_left _ _ _ _ (by decide)).trans ((ext_left _ _ _ _ (by decide)).trans ((ext_left _ _ _ _ (by decide)).trans ((ext_left _ _ _ _ (by decide)).trans ((ext_left _ _ _ _ (by decide)).trans ((ext_left _ _ _ _ (by decide)).trans ((ext_left _ _ _ _ (by decide)).trans (ext_only _)))))))))
    have h2 : (join (join (join (join (join (join (join (join c.bits 0x11#8) rn) sbz) rs) 0x0#1) ty.bits) 0x1#1) rm).extractLsb' 16 4 = rn := ((ext_left _ _ _ _ (by decide)).trans ((ext_left _ _ _ _ (by decide)).trans ((ext_left _ _ _ _ (by decide)).trans ((ext_left _ _ _ _ (by decide)).trans ((ext_left _ _ _ _ (by decide)).trans ((ext_left _ _ _ _ (by decide)).trans (ext_right _ _)))))))
    have h3 : (join (join (join (join (join (join (join (join c.bits 0x11#8) rn) sbz) rs) 0x0#1) ty.bits) 0x1#1) rm).extractLsb' 12 4 = sbz := ((ext_left _ _ _ _ (by decide)).trans ((ext_left _ _ _ _ (by decide)).trans ((ext_left _ _ _ _ (by decide)).trans ((ext_left _ _ _ _ (by decide)).trans ((ext_left _ _ _ _ (by decide)).trans (ext_right _ _))))))
    have h4 : (join (join (join (join (join (join (join (join c.bits 0x11#8) rn) sbz) rs) 0x0#1) ty.bits) 0x1#1) rm).extractLsb' 8 4 = rs := ((ext_left _ _ _ _ (by decide)).trans ((ext_left _ _ _ _ (by decide)).trans ((ext_left _ _ _ _ (by decide)).trans ((ext_left _ _ _ _ (by decide)).trans (ext_right _ _)))))
    have h6 : (join (join (join (join (join (join (join (join c.bits 0x11#8) rn) sbz) rs) 0x0#1) ty.bits) 0x1#1) rm).extractLsb' 5 2 = ty.bits := ((ext_left _ _ _ _ (by decide)).trans ((ext_left _ _ _ _ (by decide)).trans (ext_right _ _)))
    have h8 : (join (join (join (join (join (join (join (join c.bits 0x11#8) rn) sbz) rs) 0x0#1) ty.bits) 0x1#1) rm).extractLsb' 0 4 = rm := (ext_right _ _)
    exact congr (congr (congr (congr (congr (congrArg Instr.tstRsr ((congrArg Cond.ofBits h0).trans (cond_ofBits c))) (h2)) (h3)) (h4)) ((congrArg ShiftType.ofBits h6).trans (shiftType_ofBits ty))) (h8)

theorem EncodesToItself.teqImm (c : Cond) (rn : Reg) (sbz : BitVec 4) (rotate : BitVec 4) (imm8 : BitVec 8) :
    EncodesToItself.Statement (.teqImm c rn sbz rotate imm8) := by
  refine ⟨_, rfl, ?_, ?_⟩
  · show encode (.teqImm c rn sbz rotate imm8) &&& (join (join (join (join (join 0x0#4 0xff#8) 0x0#4) 0x0#4) 0x0#4) 0x0#8) =
      (join (join (join (join (join 0x0#4 0x33#8) 0x0#4) 0x0#4) 0x0#4) 0x0#8)
    exact (and_parts _ _ _ _).trans (by simp only [and_parts, BitVec.and_zero]; try rfl)
  · have h0 : (join (join (join (join (join c.bits 0x33#8) rn) sbz) rotate) imm8).extractLsb' 28 4 = c.bits := ((ext_left _ _ _ _ (by decide)).trans ((ext_left _ _ _ _ (by decide)).trans ((ext_left _ _ _ _ (by decide)).trans ((ext_left _ _ _ _ (by decide)).trans ((ext_left _ _ _ _ (by decide)).trans (ext_only _))))))
    have h2 : (join (join (join (join (join c.bits 0x33#8) rn) sbz) rotate) imm8).extractLsb' 16 4 = rn := ((ext_left _ _ _ _ (by decide)).trans ((ext_left _ _ _ _ (by decide)).trans ((ext_left _ _ _ _ (by decide)).trans (ext_right _ _))))
    have h3 : (join (join (join (join (join c.bits 0x33#8) rn) sbz) rotate) imm8).extractLsb' 12 4 = sbz := ((ext_left _ _ _ _ (by decide)).trans ((ext_left _ _ _ _ (by decide)).trans (ext_right _ _)))
    have h4 : (join (join (join (join (join c.bits 0x33#8) rn) sbz) rotate) imm8).extractLsb' 8 4 = rotate := ((ext_left _ _ _ _ (by decide)).trans (ext_right _ _))
    have h5 : (join (join (join (join (join c.bits 0x33#8) rn) sbz) rotate) imm8).extractLsb' 0 8 = imm8 := (ext_right _ _)
    exact congr (congr (congr (congr (congrArg Instr.teqImm ((congrArg Cond.ofBits h0).trans (cond_ofBits c))) (h2)) (h3)) (h4)) (h5)

theorem EncodesToItself.teqReg (c : Cond) (rn : Reg) (sbz : BitVec 4) (imm5 : BitVec 5) (ty : ShiftType) (rm : Reg) :
    EncodesToItself.Statement (.teqReg c rn sbz imm5 ty rm) := by
  refine ⟨_, rfl, ?_, ?_⟩
  · show encode (.teqReg c rn sbz imm5 ty rm) &&& (join (join (join (join (join (join (join 0x0#4 0xff#8) 0x0#4) 0x0#4) 0x0#5) 0x0#2) 0x1#1) 0x0#4) =
      (join (join (join (join (join (join (join 0x0#4 0x13#8) 0x0#4) 0x0#4) 0x0#5) 0x0#2) 0x0#1) 0x0#4)
    exact (and_parts _ _ _ _).trans (by simp only [and_parts, BitVec.and_zero]; try rfl)
  · have h0 : (join (join (join (join (join (join (join c.bits 0x13#8) rn) sbz) imm5) ty.bits) 0x0#1) rm).extractLsb' 28 4 = c.bits := ((ext_left _ _ _ _ (by decide)).trans ((ext_left _ _ _ _ (by decide)).trans ((ext_left _ _ _ _ (by decide)).trans ((ext_left _ _ _ _ (by decide)).trans ((ext_left _ _ _ _ (by decide)).trans ((ext_left _ _ _ _ (by decide)).trans ((ext_left _ _ _ _ (by decide)).trans (ext_only _))))))))
    have h2 : (join (join (join (join (join (join (join c.bits 0x13#8) rn) sbz) imm5) ty.bits) 0x0#1) rm).extractLsb' 16 4 = rn := ((ext_left _ _ _ _ (by decide)).trans ((ext_left _ _ _ _ (by decide)).trans ((ext_left _ _ _ _ (by decide)).trans ((ext_left _ _ _ _ (by decide)).trans ((ext_left _ _ _ _ (by decide)).trans (ext_right _ _))))))
    have h3 : (join (join (join (join (join (join (join c.bits 0x13#8) rn) sbz) imm5) ty.bits) 0x0#1) rm).extractLsb' 12 4 = sbz := ((ext_left _ _ _ _ (by decide)).trans ((ext_left _ _ _ _ (by decide)).trans ((ext_left _ _ _ _ (by decide)).trans ((ext_left _ _ _ _ (by decide)).trans (ext_right _ _)))))
    have h4 : (join (join (join (join (join (join (join c.bits 0x13#8) rn) sbz) imm5) ty.bits) 0x0#1) rm).extractLsb' 7 5 = imm5 := ((ext_left _ _ _ _ (by decide)).trans ((ext_left _ _ _ _ (by decide)).trans ((ext_left _ _ _ _ (by decide)).trans (ext_right _ _))))
    have h5 : (join (join (join (join (join (join (join c.bits 0x13#8) rn) sbz) imm5) ty.bits) 0x0#1) rm).extractLsb' 5 2 = ty.bits := ((ext_left _ _ _ _ (by decide)).trans ((ext_left _ _ _ _ (by decide)).trans (ext_right _ _)))
    have h7 : (join (join (join (join (join (join (join c.bits 0x13#8) rn) sbz) imm5) ty.bits) 0x0#1) rm).extractLsb' 0 4 = rm := (ext_right _ _)
    exact congr (congr (congr (congr (congr (congrArg Instr.teqReg ((congrArg Cond.ofBits h0).trans (cond_ofBits c))) (h2)) (h3)) (h4)) ((congrArg ShiftType.ofBits h5).trans (shiftType_ofBits ty))) (h7)

theorem EncodesToItself.teqRsr (c : Cond) (rn : Reg) (sbz : BitVec 4) (rs : Reg) (ty : ShiftType) (rm : Reg) :
    EncodesToItself.Statement (.teqRsr c rn sbz rs ty rm) := by
  refine ⟨_, rfl, ?_, ?_⟩
  · show encode (.teqRsr c rn sbz rs ty rm) &&& (join (join (join (join (join (join (join (join 0x0#4 0xff#8) 0x0#4) 0x0#4) 0x0#4) 0x1#1) 0x0#2) 0x1#1) 0x0#4) =
      (join (join (join (join (join (join (join (join 0x0#4 0x13#8) 0x0#4) 0x0#4) 0x0#4) 0x0#1) 0x0#2) 0x1#1) 0x0#4)
    exact (and_parts _ _ _ _).trans (by simp only [and_parts, BitVec.and_zero]; try rfl)
  · have h0 : (join (join (join (join (join (join (join (join c.bits 0x13#8) rn) sbz) rs) 0x0#1) ty.bits) 0x1#1) rm).extractLsb' 28 4 = c.bits := ((ext_left _ _ _ _ (by decide)).trans ((ext_left _ _ _ _ (by decide)).trans ((ext_left _ _ _ _ (by decide)).trans ((ext_left _ _ _ _ (by decide)).trans ((ext_left _ _ _ _ (by decide)).trans ((ext_left _ _ _ _ (by decide)).trans ((ext_left _ _ _ _ (by decide)).trans ((ext_left _ _ _ _ (by decide)).trans (ext_only _)))))))))
    have h2 : (join (join (join (join (join (join (join (join c.bits 0x13#8) rn) sbz) rs) 0x0#1) ty.bits) 0x1#1) rm).extractLsb' 16 4 = rn := ((ext_left _ _ _ _ (by decide)).trans ((ext_left _ _ _ _ (by decide)).trans ((ext_left _ _ _ _ (by decide)).trans ((ext_left _ _ _ _ (by decide)).trans ((ext_left _ _ _ _ (by decide)).trans ((ext_left _ _ _ _ (by decide)).trans (ext_right _ _)))))))
    have h3 : (join (join (join (join (join (join (join (join c.bits 0x13#8) rn) sbz) rs) 0x0#1) ty.bits) 0x1#1) rm).extractLsb' 12 4 = sbz := ((ext_left _ _ _ _ (by decide)).trans ((ext_left _ _ _ _ (by decide)).trans ((ext_left _ _ _ _ (by decide)).trans ((ext_left _ _ _ _ (by decide)).trans ((ext_left _ _ _ _ (by decide)).trans (ext_right _ _))))))
    have h4 : (join (join (join (join (join (join (join (join c.bits 0x13#8) rn) sbz) rs) 0x0#1) ty.bits) 0x1#1) rm).extractLsb' 8 4 = rs := ((ext_left _ _ _ _ (by decide)).trans ((ext_left _ _ _ _ (by decide)).trans ((ext_left _ _ _ _ (by decide)).trans ((ext_left _ _ _ _ (by decide)).trans (ext_right _ _)))))
    have h6 : (join (join (join (join (join (join (join (join c.bits 0x13#8) rn) sbz) rs) 0x0#1) ty.bits) 0x1#1) rm).extractLsb' 5 2 = ty.bits := ((ext_left _ _ _ _ (by decide)).trans ((ext_left _ _ _ _ (by decide)).trans (ext_right _ _)))
    have h8 : (join (join (join (join (join (join (join (join c.bits 0x13#8) rn) sbz) rs) 0x0#1) ty.bits) 0x1#1) rm).extractLsb' 0 4 = rm := (ext_right _ _)
    exact congr (congr (congr (congr (congr (congrArg Instr.teqRsr ((congrArg Cond.ofBits h0).trans (cond_ofBits c))) (h2)) (h3)) (h4)) ((congrArg ShiftType.ofBits h6).trans (shiftType_ofBits ty))) (h8)

theorem EncodesToItself.cmpImm (c : Cond) (rn : Reg) (sbz : BitVec 4) (rotate : BitVec 4) (imm8 : BitVec 8) :
    EncodesToItself.Statement (.cmpImm c rn sbz rotate imm8) := by
  refine ⟨_, rfl, ?_, ?_⟩
  · show encode (.cmpImm c rn sbz rotate imm8) &&& (join (join (join (join (join 0x0#4 0xff#8) 0x0#4) 0x0#4) 0x0#4) 0x0#8) =
      (join (join (join (join (join 0x0#4 0x35#8) 0x0#4) 0x0#4) 0x0#4) 0x0#8)
    exact (and_parts _ _ _ _).trans (by simp only [and_parts, BitVec.and_zero]; try rfl)
  · have h0 : (join (join (join (join (join c.bits 0x35#8) rn) sbz) rotate) imm8).extractLsb' 28 4 = c.bits := ((ext_left _ _ _ _ (by decide)).trans ((ext_left _ _ _ _ (by decide)).trans ((ext_left _ _ _ _ (by decide)).trans ((ext_left _ _ _ _ (by decide)).trans ((ext_left _ _ _ _ (by decide)).trans (ext_only _))))))
    have h2 : (join (join (join (join (join c.bits 0x35#8) rn) sbz) rotate) imm8).extractLsb' 16 4 = rn := ((ext_left _ _ _ _ (by decide)).trans ((ext_left _ _ _ _ (by decide)).trans ((ext_left _ _ _ _ (by decide)).trans (ext_right _ _))))
    have h3 : (join (join (join (join (join c.bits 0x35#8) rn) sbz) rotate) imm8).extractLsb' 12 4 = sbz := ((ext_left _ _ _ _ (by decide)).trans ((ext_left _ _ _ _ (by decide)).trans (ext_right _ _)))
    have h4 : (join (join (join (join (join c.bits 0x35#8) rn) sbz) rotate) imm8).extractLsb' 8 4 = rotate := ((ext_left _ _ _ _ (by decide)).trans (ext_right _ _))
    have h5 : (join (join (join (join (join c.bits 0x35#8) rn) sbz) rotate) imm8).extractLsb' 0 8 = imm8 := (ext_right _ _)
    exact congr (congr (congr (congr (congrArg Instr.cmpImm ((congrArg Cond.ofBits h0).trans (cond_ofBits c))) (h2)) (h3)) (h4)) (h5)

theorem EncodesToItself.cmpReg (c : Cond) (rn : Reg) (sbz : BitVec 4) (imm5 : BitVec 5) (ty : ShiftType) (rm : Reg) :
    EncodesToItself.Statement (.cmpReg c rn sbz imm5 ty rm) := by
  refine ⟨_, rfl, ?_, ?_⟩
  · show encode (.cmpReg c rn sbz imm5 ty rm) &&& (join (join (join (join (join (join (join 0x0#4 0xff#8) 0x0#4) 0x0#4) 0x0#5) 0x0#2) 0x1#1) 0x0#4) =
      (join (join (join (join (join (join (join 0x0#4 0x15#8) 0x0#4) 0x0#4) 0x0#5) 0x0#2) 0x0#1) 0x0#4)
    exact (and_parts _ _ _ _).trans (by simp only [and_parts, BitVec.and_zero]; try rfl)
  · have h0 : (join (join (join (join (join (join (join c.bits 0x15#8) rn) sbz) imm5) ty.bits) 0x0#1) rm).extractLsb' 28 4 = c.bits := ((ext_left _ _ _ _ (by decide)).trans ((ext_left _ _ _ _ (by decide)).trans ((ext_left _ _ _ _ (by decide)).trans ((ext_left _ _ _ _ (by decide)).trans ((ext_left _ _ _ _ (by decide)).trans ((ext_left _ _ _ _ (by decide)).trans ((ext_left _ _ _ _ (by decide)).trans (ext_only _))))))))
    have h2 : (join (join (join (join (join (join (join c.bits 0x15#8) rn) sbz) imm5) ty.bits) 0x0#1) rm).extractLsb' 16 4 = rn := ((ext_left _ _ _ _ (by decide)).trans ((ext_left _ _ _ _ (by decide)).trans ((ext_left _ _ _ _ (by decide)).trans ((ext_left _ _ _ _ (by decide)).trans ((ext_left _ _ _ _ (by decide)).trans (ext_right _ _))))))
    have h3 : (join (join (join (join (join (join (join c.bits 0x15#8) rn) sbz) imm5) ty.bits) 0x0#1) rm).extractLsb' 12 4 = sbz := ((ext_left _ _ _ _ (by decide)).trans ((ext_left _ _ _ _ (by decide)).trans ((ext_left _ _ _ _ (by decide)).trans ((ext_left _ _ _ _ (by decide)).trans (ext_right _ _)))))
    have h4 : (join (join (join (join (join (join (join c.bits 0x15#8) rn) sbz) imm5) ty.bits) 0x0#1) rm).extractLsb' 7 5 = imm5 := ((ext_left _ _ _ _ (by decide)).trans ((ext_left _ _ _ _ (by decide)).trans ((ext_left _ _ _ _ (by decide)).trans (ext_right _ _))))
    have h5 : (join (join (join (join (join (join (join c.bits 0x15#8) rn) sbz) imm5) ty.bits) 0x0#1) rm).extractLsb' 5 2 = ty.bits := ((ext_left _ _ _ _ (by decide)).trans ((ext_left _ _ _ _ (by decide)).trans (ext_right _ _)))
    have h7 : (join (join (join (join (join (join (join c.bits 0x15#8) rn) sbz) imm5) ty.bits) 0x0#1) rm).extractLsb' 0 4 = rm := (ext_right _ _)
    exact congr (congr (congr (congr (congr (congrArg Instr.cmpReg ((congrArg Cond.ofBits h0).trans (cond_ofBits c))) (h2)) (h3)) (h4)) ((congrArg ShiftType.ofBits h5).trans (shiftType_ofBits ty))) (h7)

theorem EncodesToItself.cmpRsr (c : Cond) (rn : Reg) (sbz : BitVec 4) (rs : Reg) (ty : ShiftType) (rm : Reg) :
    EncodesToItself.Statement (.cmpRsr c rn sbz rs ty rm) := by
  refine ⟨_, rfl, ?_, ?_⟩
  · show encode (.cmpRsr c rn sbz rs ty rm) &&& (join (join (join (join (join (join (join (join 0x0#4 0xff#8) 0x0#4) 0x0#4) 0x0#4) 0x1#1) 0x0#2) 0x1#1) 0x0#4) =
      (join (join (join (join (join (join (join (join 0x0#4 0x15#8) 0x0#4) 0x0#4) 0x0#4) 0x0#1) 0x0#2) 0x1#1) 0x0#4)
    exact (and_parts _ _ _ _).trans (by simp only [and_parts, BitVec.and_zero]; try rfl)
  · have h0 : (join (join (join (join (join (join (join (join c.bits 0x15#8) rn) sbz) rs) 0x0#1) ty.bits) 0x1#1) rm).extractLsb' 28 4 = c.bits := ((ext_left _ _ _ _ (by decide)).trans ((ext_left _ _ _ _ (by decide)).trans ((ext_left _ _ _ _ (by decide)).trans ((ext_left _ _ _ _ (by decide)).trans ((ext_left _ _ _ _ (by decide)).trans ((ext_left _ _ _ _ (by decide)).trans ((ext_left _ _ _ _ (by decide)).trans ((ext_left _ _ _ _ (by decide)).trans (ext_only _)))))))))
    have h2 : (join (join (join (join (join (join (join (join c.bits 0x15#8) rn) sbz) rs) 0x0#1) ty.bits) 0x1#1) rm).extractLsb' 16 4 = rn := ((ext_left _ _ _ _ (by decide)).trans ((ext_left _ _ _ _ (by decide)).trans ((ext_left _ _ _ _ (by decide)).trans ((ext_left _ _ _ _ (by decide)).trans ((ext_left _ _ _ _ (by decide)).trans ((ext_left _ _ _ _ (by decide)).trans (ext_right _ _)))))))
    have h3 : (join (join (join (join (join (join (join (join c.bits 0x15#8) rn) sbz) rs) 0x0#1) ty.bits) 0x1#1) rm).extractLsb' 12 4 = sbz := ((ext_left _ _ _ _ (by decide)).trans ((ext_left _ _ _ _ (by decide)).trans ((ext_left _ _ _ _ (by decide)).trans ((ext_left _ _ _ _ (by decide)).trans ((ext_left _ _ _ _ (by decide)).trans (ext_right _ _))))))
    have h4 : (join (join (join (join (join (join (join (join c.bits 0x15#8) rn) sbz) rs) 0x0#1) ty.bits) 0x1#1) rm).extractLsb' 8 4 = rs := ((ext_left _ _ _ _ (by decide)).trans ((ext_left _ _ _ _ (by decide)).trans ((ext_left _ _ _ _ (by decide)).trans ((ext_left _ _ _ _ (by decide)).trans (ext_right _ _)))))
    have h6 : (join (join (join (join (join (join (join (join c.bits 0x15#8) rn) sbz) rs) 0x0#1) ty.bits) 0x1#1) rm).extractLsb' 5 2 = ty.bits := ((ext_left _ _ _ _ (by decide)).trans ((ext_left _ _ _ _ (by decide)).trans (ext_right _ _)))
    have h8 : (join (join (join (join (join (join (join (join c.bits 0x15#8) rn) sbz) rs) 0x0#1) ty.bits) 0x1#1) rm).extractLsb' 0 4 = rm := (ext_right _ _)
    exact congr (congr (congr (congr (congr (congrArg Instr.cmpRsr ((congrArg Cond.ofBits h0).trans (cond_ofBits c))) (h2)) (h3)) (h4)) ((congrArg ShiftType.ofBits h6).trans (shiftType_ofBits ty))) (h8)

theorem EncodesToItself.cmnImm (c : Cond) (rn : Reg) (sbz : BitVec 4) (rotate : BitVec 4) (imm8 : BitVec 8) :
    EncodesToItself.Statement (.cmnImm c rn sbz rotate imm8) := by
  refine ⟨_, rfl, ?_, ?_⟩
  · show encode (.cmnImm c rn sbz rotate imm8) &&& (join (join (join (join (join 0x0#4 0xff#8) 0x0#4) 0x0#4) 0x0#4) 0x0#8) =
      (join (join (join (join (join 0x0#4 0x37#8) 0x0#4) 0x0#4) 0x0#4) 0x0#8)
    exact (and_parts _ _ _ _).trans (by simp only [and_parts, BitVec.and_zero]; try rfl)
  · have h0 : (join (join (join (join (join c.bits 0x37#8) rn) sbz) rotate) imm8).extractLsb' 28 4 = c.bits := ((ext_left _ _ _ _ (by decide)).trans ((ext_left _ _ _ _ (by decide)).trans ((ext_left _ _ _ _ (by decide)).trans ((ext_left _ _ _ _ (by decide)).trans ((ext_left _ _ _ _ (by decide)).trans (ext_only _))))))
    have h2 : (join (join (join (join (join c.bits 0x37#8) rn) sbz) rotate) imm8).extractLsb' 16 4 = rn := ((ext_left _ _ _ _ (by decide)).trans ((ext_left _ _ _ _ (by decide)).trans ((ext_left _ _ _ _ (by decide)).trans (ext_right _ _))))
    have h3 : (join (join (join (join (join c.bits 0x37#8) rn) sbz) rotate) imm8).extractLsb' 12 4 = sbz := ((ext_left _ _ _ _ (by decide)).trans ((ext_left _ _ _ _ (by decide)).trans (ext_right _ _)))
    have h4 : (join (join (join (join (join c.bits 0x37#8) rn) sbz) rotate) imm8).extractLsb' 8 4 = rotate := ((ext_left _ _ _ _ (by decide)).trans (ext_right _ _))
    have h5 : (join (join (join (join (join c.bits 0x37#8) rn) sbz) rotate) imm8).extractLsb' 0 8 = imm8 := (ext_right _ _)
    exact congr (congr (congr (congr (congrArg Instr.cmnImm ((congrArg Cond.ofBits h0).trans (cond_ofBits c))) (h2)) (h3)) (h4)) (h5)

theorem EncodesToItself.cmnReg (c : Cond) (rn : Reg) (sbz : BitVec 4) (imm5 : BitVec 5) (ty : ShiftType) (rm : Reg) :
    EncodesToItself.Statement (.cmnReg c rn sbz imm5 ty rm) := by
  refine ⟨_, rfl, ?_, ?_⟩
  · show encode (.cmnReg c rn sbz imm5 ty rm) &&& (join (join (join (join (join (join (join 0x0#4 0xff#8) 0x0#4) 0x0#4) 0x0#5) 0x0#2) 0x1#1) 0x0#4) =
      (join (join (join (join (join (join (join 0x0#4 0x17#8) 0x0#4) 0x0#4) 0x0#5) 0x0#2) 0x0#1) 0x0#4)
    exact (and_parts _ _ _ _).trans (by simp only [and_parts, BitVec.and_zero]; try rfl)
  · have h0 : (join (join (join (join (join (join (join c.bits 0x17#8) rn) sbz) imm5) ty.bits) 0x0#1) rm).extractLsb' 28 4 = c.bits := ((ext_left _ _ _ _ (by decide)).trans ((ext_left _ _ _ _ (by decide)).trans ((ext_left _ _ _ _ (by decide)).trans ((ext_left _ _ _ _ (by decide)).trans ((ext_left _ _ _ _ (by decide)).trans ((ext_left _ _ _ _ (by decide)).trans ((ext_left _ _ _ _ (by decide)).trans (ext_only _))))))))
    have h2 : (join (join (join (join (join (join (join c.bits 0x17#8) rn) sbz) imm5) ty.bits) 0x0#1) rm).extractLsb' 16 4 = rn := ((ext_left _ _ _ _ (by decide)).trans ((ext_left _ _ _ _ (by decide)).trans ((ext_left _ _ _ _ (by decide)).trans ((ext_left _ _ _ _ (by decide)).trans ((ext_left _ _ _ _ (by decide)).trans (ext_right _ _))))))
    have h3 : (join (join (join (join (join (join (join c.bits 0x17#8) rn) sbz) imm5) ty.bits) 0x0#1) rm).extractLsb' 12 4 = sbz := ((ext_left _ _ _ _ (by decide)).trans ((ext_left _ _ _ _ (by decide)).trans ((ext_left _ _ _ _ (by decide)).trans ((ext_left _ _ _ _ (by decide)).trans (ext_right _ _)))))
    have h4 : (join (join (join (join (join (join (join c.bits 0x17#8) rn) sbz) imm5) ty.bits) 0x0#1) rm).extractLsb' 7 5 = imm5 := ((ext_left _ _ _ _ (by decide)).trans ((ext_left _ _ _ _ (by decide)).trans ((ext_left _ _ _ _ (by decide)).trans (ext_right _ _))))
    have h5 : (join (join (join (join (join (join (join c.bits 0x17#8) rn) sbz) imm5) ty.bits) 0x0#1) rm).extractLsb' 5 2 = ty.bits := ((ext_left _ _ _ _ (by decide)).trans ((ext_left _ _ _ _ (by decide)).trans (ext_right _ _)))
    have h7 : (join (join (join (join (join (join (join c.bits 0x17#8) rn) sbz) imm5) ty.bits) 0x0#1) rm).extractLsb' 0 4 = rm := (ext_right _ _)
    exact congr (congr (congr (congr (congr (congrArg Instr.cmnReg ((congrArg Cond.ofBits h0).trans (cond_ofBits c))) (h2)) (h3)) (h4)) ((congrArg ShiftType.ofBits h5).trans (shiftType_ofBits ty))) (h7)

theorem EncodesToItself.cmnRsr (c : Cond) (rn : Reg) (sbz : BitVec 4) (rs : Reg) (ty : ShiftType) (rm : Reg) :
    EncodesToItself.Statement (.cmnRsr c rn sbz rs ty rm) := by
  refine ⟨_, rfl, ?_, ?_⟩
  · show encode (.cmnRsr c rn sbz rs ty rm) &&& (join (join (join (join (join (join (join (join 0x0#4 0xff#8) 0x0#4) 0x0#4) 0x0#4) 0x1#1) 0x0#2) 0x1#1) 0x0#4) =
      (join (join (join (join (join (join (join (join 0x0#4 0x17#8) 0x0#4) 0x0#4) 0x0#4) 0x0#1) 0x0#2) 0x1#1) 0x0#4)
    exact (and_parts _ _ _ _).trans (by simp only [and_parts, BitVec.and_zero]; try rfl)
  · have h0 : (join (join (join (join (join (join (join (join c.bits 0x17#8) rn) sbz) rs) 0x0#1) ty.bits) 0x1#1) rm).extractLsb' 28 4 = c.bits := ((ext_left _ _ _ _ (by decide)).trans ((ext_left _ _ _ _ (by decide)).trans ((ext_left _ _ _ _ (by decide)).trans ((ext_left _ _ _ _ (by decide)).trans ((ext_left _ _ _ _ (by decide)).trans ((ext_left _ _ _ _ (by decide)).trans ((ext_left _ _ _ _ (by decide)).trans ((ext_left _ _ _ _ (by decide)).trans (ext_only _)))))))))
    have h2 : (join (join (join (join (join (join (join (join c.bits 0x17#8) rn) sbz) rs) 0x0#1) ty.bits) 0x1#1) rm).extractLsb' 16 4 = rn := ((ext_left _ _ _ _ (by decide)).trans ((ext_left _ _ _ _ (by decide)).trans ((ext_left _ _ _ _ (by decide)).trans ((ext_left _ _ _ _ (by decide)).trans ((ext_left _ _ _ _ (by decide)).trans ((ext_left _ _ _ _ (by decide)).trans (ext_right _ _)))))))
    have h3 : (join (join (join (join (join (join (join (join c.bits 0x17#8) rn) sbz) rs) 0x0#1) ty.bits) 0x1#1) rm).extractLsb' 12 4 = sbz := ((ext_left _ _ _ _ (by decide)).trans ((ext_left _ _ _ _ (by decide)).trans ((ext_left _ _ _ _ (by decide)).trans ((ext_left _ _ _ _ (by decide)).trans ((ext_left _ _ _ _ (by decide)).trans (ext_right _ _))))))
    have h4 : (join (join (join (join (join (join (join (join c.bits 0x17#8) rn) sbz) rs) 0x0#1) ty.bits) 0x1#1) rm).extractLsb' 8 4 = rs := ((ext_left _ _ _ _ (by decide)).trans ((ext_left _ _ _ _ (by decide)).trans ((ext_left _ _ _ _ (by decide)).trans ((ext_left _ _ _ _ (by decide)).trans (ext_right _ _)))))
    have h6 : (join (join (join (join (join (join (join (join c.bits 0x17#8) rn) sbz) rs) 0x0#1) ty.bits) 0x1#1) rm).extractLsb' 5 2 = ty.bits := ((ext_left _ _ _ _ (by decide)).trans ((ext_left _ _ _ _ (by decide)).trans (ext_right _ _)))
    have h8 : (join (join (join (join (join (join (join (join c.bits 0x17#8) rn) sbz) rs) 0x0#1) ty.bits) 0x1#1) rm).extractLsb' 0 4 = rm := (ext_right _ _)
    exact congr (congr (congr (congr (congr (congrArg Instr.cmnRsr ((congrArg Cond.ofBits h0).trans (cond_ofBits c))) (h2)) (h3)) (h4)) ((congrArg ShiftType.ofBits h6).trans (shiftType_ofBits ty))) (h8)

theorem EncodesToItself.orrImm (c : Cond) (s : Bool) (rn : Reg) (rd : Reg) (rotate : BitVec 4) (imm8 : BitVec 8) :
    EncodesToItself.Statement (.orrImm c s rn rd rotate imm8) := by
  refine ⟨_, rfl, ?_, ?_⟩
  · show encode (.orrImm c s rn rd rotate imm8) &&& (join (join (join (join (join (join 0x0#4 0x7f#7) 0x0#1) 0x0#4) 0x0#4) 0x0#4) 0x0#8) =
      (join (join (join (join (join (join 0x0#4 0x1c#7) 0x0#1) 0x0#4) 0x0#4) 0x0#4) 0x0#8)
    exact (and_parts _ _ _ _).trans (by simp only [and_parts, BitVec.and_zero]; try rfl)
  · have h0 : (join (join (join (join (join (join c.bits 0x1c#7) (BitVec.ofBool s)) rn) rd) rotate) imm8).extractLsb' 28 4 = c.bits := ((ext_left _ _ _ _ (by decide)).trans ((ext_left _ _ _ _ (by decide)).trans ((ext_left _ _ _ _ (by decide)).trans ((ext_left _ _ _ _ (by decide)).trans ((ext_left _ _ _ _ (by decide)).trans ((ext_left _ _ _ _ (by decide)).trans (ext_only _)))))))
    have h2 : (join (join (join (join (join (join c.bits 0x1c#7) (BitVec.ofBool s)) rn) rd) rotate) imm8).getLsbD 20 = s := ((bit_left _ _ _ (by decide)).trans ((bit_left _ _ _ (by decide)).trans ((bit_left _ _ _ (by decide)).trans ((bit_left _ _ _ (by decide)).trans (bit_right _ _)))))
    have h3 : (join (join (join (join (join (join c.bits 0x1c#7) (BitVec.ofBool s)) rn) rd) rotate) imm8).extractLsb' 16 4 = rn := ((ext_left _ _ _ _ (by decide)).trans ((ext_left _ _ _ _ (by decide)).trans ((ext_left _ _ _ _ (by decide)).trans (ext_right _ _))))
    have h4 : (join (join (join (join (join (join c.bits 0x1c#7) (BitVec.ofBool s)) rn) rd) rotate) imm8).extractLsb' 12 4 = rd := ((ext_left _ _ _ _ (by decide)).trans ((ext_left _ _ _ _ (by decide)).trans (ext_right _ _)))
    have h5 : (join (join (join (join (join (join c.bits 0x1c#7) (BitVec.ofBool s)) rn) rd) rotate) imm8).extractLsb' 8 4 = rotate := ((ext_left _ _ _ _ (by decide)).trans (ext_right _ _))
    have h6 : (join (join (join (join (join (join c.bits 0x1c#7) (BitVec.ofBool s)) rn) rd) rotate) imm8).extractLsb' 0 8 = imm8 := (ext_right _ _)
    exact congr (congr (congr (congr (congr (congrArg Instr.orrImm ((congrArg Cond.ofBits h0).trans (cond_ofBits c))) (h2)) (h3)) (h4)) (h5)) (h6)

theorem EncodesToItself.orrReg (c : Cond) (s : Bool) (rn : Reg) (rd : Reg) (imm5 : BitVec 5) (ty : ShiftType) (rm : Reg) :
    EncodesToItself.Statement (.orrReg c s rn rd imm5 ty rm) := by
  refine ⟨_, rfl, ?_, ?_⟩
  · show encode (.orrReg c s rn rd imm5 ty rm) &&& (join (join (join (join (join (join (join (join 0x0#4 0x7f#7) 0x0#1) 0x0#4) 0x0#4) 0x0#5) 0x0#2) 0x1#1) 0x0#4) =
      (join (join (join (join (join (join (join (join 0x0#4 0xc#7) 0x0#1) 0x0#4) 0x0#4) 0x0#5) 0x0#2) 0x0#1) 0x0#4)
    exact (and_parts _ _ _ _).trans (by simp only [and_parts, BitVec.and_zero]; try rfl)
  · have h0 : (join (join (join (join (join (join (join (join c.bits 0xc#7) (BitVec.ofBool s)) rn) rd) imm5) ty.bits) 0x0#1) rm).extractLsb' 28 4 = c.bits := ((ext_left _ _ _ _ (by decide)).trans ((ext_left _ _ _ _ (by decide)).trans ((ext_left _ _ _ _ (by decide)).trans ((ext_left _ _ _ _ (by decide)).trans ((ext_left _ _ _ _ (by decide)).trans ((ext_left _ _ _ _ (by decide)).trans ((ext_left _ _ _ _ (by decide)).trans ((ext_left _ _ _ _ (by decide)).trans (ext_only _)))))))))
    have h2 : (join (join (join (join (join (join (join (join c.bits 0xc#7) (BitVec.ofBool s)) rn) rd) imm5) ty.bits) 0x0#1) rm).getLsbD 20 = s := ((bit_left _ _ _ (by decide)).trans ((bit_left _ _ _ (by decide)).trans ((bit_left _ _ _ (by decide)).trans ((bit_left _ _ _ (by decide)).trans ((bit_left _ _ _ (by decide)).trans ((bit_left _ _ _ (by decide)).trans (bit_right _ _)))))))
    have h3 : (join (join (join (join (join (join (join (join c.bits 0xc#7) (BitVec.ofBool s)) rn) rd) imm5) ty.bits) 0x0#1) rm).extractLsb' 16 4 = rn := ((ext_left _ _ _ _ (by decide)).trans ((ext_left _ _ _ _ (by decide)).trans ((ext_left _ _ _ _ (by decide)).trans ((ext_left _ _ _ _ (by decide)).trans ((ext_left _ _ _ _ (by decide)).trans (ext_right _ _))))))
    have h4 : (join (join (join (join (join (join (join (join c.bits 0xc#7) (BitVec.ofBool s)) rn) rd) imm5) ty.bits) 0x0#1) rm).extractLsb' 12 4 = rd := ((ext_left _ _ _ _ (by decide)).trans ((ext_left _ _ _ _ (by decide)).trans ((ext_left _ _ _ _ (by decide)).trans ((ext_left _ _ _ _ (by decide)).trans (ext_right _ _)))))
    have h5 : (join (join (join (join (join (join (join (join c.bits 0xc#7) (BitVec.ofBool s)) rn) rd) imm5) ty.bits) 0x0#1) rm).extractLsb' 7 5 = imm5 := ((ext_left _ _ _ _ (by decide)).trans ((ext_left _ _ _ _ (by decide)).trans ((ext_left _ _ _ _ (by decide)).trans (ext_right _ _))))
    have h6 : (join (join (join (join (join (join (join (join c.bits 0xc#7) (BitVec.ofBool s)) rn) rd) imm5) ty.bits) 0x0#1) rm).extractLsb' 5 2 = ty.bits := ((ext_left _ _ _ _ (by decide)).trans ((ext_left _ _ _ _ (by decide)).trans (ext_right _ _)))
    have h8 : (join (join (join (join (join (join (join (join c.bits 0xc#7) (BitVec.ofBool s)) rn) rd) imm5) ty.bits) 0x0#1) rm).extractLsb' 0 4 = rm := (ext_right _ _)
    exact congr (congr (congr (congr (congr (congr (congrArg Instr.orrReg ((congrArg Cond.ofBits h0).trans (cond_ofBits c))) (h2)) (h3)) (h4)) (h5)) ((congrArg ShiftType.ofBits h6).trans (shiftType_ofBits ty))) (h8)

theorem EncodesToItself.orrRsr (c : Cond) (s : Bool) (rn : Reg) (rd : Reg) (rs : Reg) (ty : ShiftType) (rm : Reg) :
    EncodesToItself.Statement (.orrRsr c s rn rd rs ty rm) := by
  refine ⟨_, rfl, ?_, ?_⟩
  · show encode (.orrRsr c s rn rd rs ty rm) &&& (join (join (join (join (join (join (join (join (join 0x0#4 0x7f#7) 0x0#1) 0x0#4) 0x0#4) 0x0#4) 0x1#1) 0x0#2) 0x1#1) 0x0#4) =
      (join (join (join (join (join (join (join (join (join 0x0#4 0xc#7) 0x0#1) 0x0#4) 0x0#4) 0x0#4) 0x0#1) 0x0#2) 0x1#1) 0x0#4)
    exact (and_parts _ _ _ _).trans (by simp only [and_parts, BitVec.and_zero]; try rfl)
  · have h0 : (join (join (join (join (join (join (join (join (join c.bits 0xc#7) (BitVec.ofBool s)) rn) rd) rs) 0x0#1) ty.bits) 0x1#1) rm).extractLsb' 28 4 = c.bits := ((ext_left _ _ _ _ (by decide)).trans ((ext_left _ _ _ _ (by decide)).trans ((ext_left _ _ _ _ (by decide)).trans ((ext_left _ _ _ _ (by decide)).trans ((ext_left _ _ _ _ (by decide)).trans ((ext_left _ _ _ _ (by decide)).trans ((ext_left _ _ _ _ (by decide)).trans ((ext_left _ _ _ _ (by decide)).trans ((ext_left _ _ _ _ (by decide)).trans (ext_only _))))))))))
    have h2 : (join (join (join (join (join (join (join (join (join c.bits 0xc#7) (BitVec.ofBool s)) rn) rd) rs) 0x0#1) ty.bits) 0x1#1) rm).getLsbD 20 = s := ((bit_left _ _ _ (by decide)).trans ((bit_left _ _ _ (by decide)).trans ((bit_left _ _ _ (by decide)).trans ((bit_left _ _ _ (by decide)).trans ((bit_left _ _ _ (by decide)).trans ((bit_left _ _ _ (by decide)).trans ((bit_left _ _ _ (by decide)).trans (bit_right _ _))))))))
    have h3 : (join (join (join (join (join (join (join (join (join c.bits 0xc#7) (BitVec.ofBool s)) rn) rd) rs) 0x0#1) ty.bits) 0x1#1) rm).extractLsb' 16 4 = rn := ((ext_left _ _ _ _ (by decide)).trans ((ext_left _ _ _ _ (by decide)).trans ((ext_left _ _ _ _ (by decide)).trans ((ext_left _ _ _ _ (by decide)).trans ((ext_left _ _ _ _ (by decide)).trans ((ext_left _ _ _ _ (by decide)).trans (ext_right _ _)))))))
    have h4 : (join (join (join (join (join (join (join (join (join c.bits 0xc#7) (BitVec.ofBool s)) rn) rd) rs) 0x0#1) ty.bits) 0x1#1) rm).extractLsb' 12 4 = rd := ((ext_left _ _ _ _ (by decide)).trans ((ext_left _ _ _ _ (by decide)).trans ((ext_left _ _ _ _ (by decide)).trans ((ext_left _ _ _ _ (by decide)).trans ((ext_left _ _ _ _ (by decide)).trans (ext_right _ _))))))
    have h5 : (join (join (join (join (join (join (join (join (join c.bits 0xc#7) (BitVec.ofBool s)) rn) rd) rs) 0x0#1) ty.bits) 0x1#1) rm).extractLsb' 8 4 = rs := ((ext_left _ _ _ _ (by decide)).trans ((ext_left _ _ _ _ (by decide)).trans ((ext_left _ _ _ _ (by decide)).trans ((ext_left _ _ _ _ (by decide)).trans (ext_right _ _)))))
    have h7 : (join (join (join (join (join (join (join (join (join c.bits 0xc#7) (BitVec.ofBool s)) rn) rd) rs) 0x0#1) ty.bits) 0x1#1) rm).extractLsb' 5 2 = ty.bits := ((ext_left _ _ _ _ (by decide)).trans ((ext_left _ _ _ _ (by decide)).trans (ext_right _ _)))
    have h9 : (join (join (join (join (join (join (join (join (join c.bits 0xc#7) (BitVec.ofBool s)) rn) rd) rs) 0x0#1) ty.bits) 0x1#1) rm).extractLsb' 0 4 = rm := (ext_right _ _)
    exact congr (congr (congr (congr (congr (congr (congrArg Instr.orrRsr ((congrArg Cond.ofBits h0).trans (cond_ofBits c))) (h2)) (h3)) (h4)) (h5)) ((congrArg ShiftType.ofBits h7).trans (shiftType_ofBits ty))) (h9)

theorem EncodesToItself.movImm (c : Cond) (s : Bool) (sbz : BitVec 4) (rd : Reg) (rotate : BitVec 4) (imm8 : BitVec 8) :
    EncodesToItself.Statement (.movImm c s sbz rd rotate imm8) := by
  refine ⟨_, rfl, ?_, ?_⟩
  · show encode (.movImm c s sbz rd rotate imm8) &&& (join (join (join (join (join (join 0x0#4 0x7f#7) 0x0#1) 0x0#4) 0x0#4) 0x0#4) 0x0#8) =
      (join (join (join (join (join (join 0x0#4 0x1d#7) 0x0#1) 0x0#4) 0x0#4) 0x0#4) 0x0#8)
    exact (and_parts _ _ _ _).trans (by simp only [and_parts, BitVec.and_zero]; try rfl)
  · have h0 : (join (join (join (join (join (join c.bits 0x1d#7) (BitVec.ofBool s)) sbz) rd) rotate) imm8).extractLsb' 28 4 = c.bits := ((ext_left _ _ _ _ (by decide)).trans ((ext_left _ _ _ _ (by decide)).trans ((ext_left _ _ _ _ (by decide)).trans ((ext_left _ _ _ _ (by decide)).trans ((ext_left _ _ _ _ (by decide)).trans ((ext_left _ _ _ _ (by decide)).trans (ext_only _)))))))
    have h2 : (join (join (join (join (join (join c.bits 0x1d#7) (BitVec.ofBool s)) sbz) rd) rotate) imm8).getLsbD 20 = s := ((bit_left _ _ _ (by decide)).trans ((bit_left _ _ _ (by decide)).trans ((bit_left _ _ _ (by decide)).trans ((bit_left _ _ _ (by decide)).trans (bit_right _ _)))))
    have h3 : (join (join (join (join (join (join c.bits 0x1d#7) (BitVec.ofBool s)) sbz) rd) rotate) imm8).extractLsb' 16 4 = sbz := ((ext_left _ _ _ _ (by decide)).trans ((ext_left _ _ _ _ (by decide)).trans ((ext_left _ _ _ _ (by decide)).trans (ext_right _ _))))
    have h4 : (join (join (join (join (join (join c.bits 0x1d#7) (BitVec.ofBool s)) sbz) rd) rotate) imm8).extractLsb' 12 4 = rd := ((ext_left _ _ _ _ (by decide)).trans ((ext_left _ _ _ _ (by decide)).trans (ext_right _ _)))
    have h5 : (join (join (join (join (join (join c.bits 0x1d#7) (BitVec.ofBool s)) sbz) rd) rotate) imm8).extractLsb' 8 4 = rotate := ((ext_left _ _ _ _ (by decide)).trans (ext_right _ _))
    have h6 : (join (join (join (join (join (join c.bits 0x1d#7) (BitVec.ofBool s)) sbz) rd) rotate) imm8).extractLsb' 0 8 = imm8 := (ext_right _ _)
    exact congr (congr (congr (congr (congr (congrArg Instr.movImm ((congrArg Cond.ofBits h0).trans (cond_ofBits c))) (h2)) (h3)) (h4)) (h5)) (h6)

theorem EncodesToItself.movReg (c : Cond) (s : Bool) (rd : Reg) (rm : Reg) :
    EncodesToItself.Statement (.movReg c s rd rm) := by
  refine ⟨_, rfl, ?_, ?_⟩
  · show encode (.movReg c s rd rm) &&& (join (join (join (join (join (join 0x0#4 0x7f#7) 0x0#1) 0xf#4) 0x0#4) 0xff#8) 0x0#4) =
      (join (join (join (join (join (join 0x0#4 0xd#7) 0x0#1) 0x0#4) 0x0#4) 0x0#8) 0x0#4)
    exact (and_parts _ _ _ _).trans (by simp only [and_parts, BitVec.and_zero]; try rfl)
  · have h0 : (join (join (join (join (join (join c.bits 0xd#7) (BitVec.ofBool s)) 0x0#4) rd) 0x0#8) rm).extractLsb' 28 4 = c.bits := ((ext_left _ _ _ _ (by decide)).trans ((ext_left _ _ _ _ (by decide)).trans ((ext_left _ _ _ _ (by decide)).trans ((ext_left _ _ _ _ (by decide)).trans ((ext_left _ _ _ _ (by decide)).trans ((ext_left _ _ _ _ (by decide)).trans (ext_only _)))))))
    have h2 : (join (join (join (join (join (join c.bits 0xd#7) (BitVec.ofBool s)) 0x0#4) rd) 0x0#8) rm).getLsbD 20 = s := ((bit_left _ _ _ (by decide)).trans ((bit_left _ _ _ (by decide)).trans ((bit_left _ _ _ (by decide)).trans ((bit_left _ _ _ (by decide)).trans (bit_right _ _)))))
    have h4 : (join (join (join (join (join (join c.bits 0xd#7) (BitVec.ofBool s)) 0x0#4) rd) 0x0#8) rm).extractLsb' 12 4 = rd := ((ext_left _ _ _ _ (by decide)).trans ((ext_left _ _ _ _ (by decide)).trans (ext_right _ _)))
    have h6 : (join (join (join (join (join (join c.bits 0xd#7) (BitVec.ofBool s)) 0x0#4) rd) 0x0#8) rm).extractLsb' 0 4 = rm := (ext_right _ _)
    exact congr (congr (congr (congrArg Instr.movReg ((congrArg Cond.ofBits h0).trans (cond_ofBits c))) (h2)) (h4)) (h6)

theorem EncodesToItself.rrx (c : Cond) (s : Bool) (rd : Reg) (rm : Reg) :
    EncodesToItself.Statement (.rrx c s rd rm) := by
  refine ⟨_, rfl, ?_, ?_⟩
  · show encode (.rrx c s rd rm) &&& (join (join (join (join (join (join 0x0#4 0x7f#7) 0x0#1) 0xf#4) 0x0#4) 0xff#8) 0x0#4) =
      (join (join (join (join (join (join 0x0#4 0xd#7) 0x0#1) 0x0#4) 0x0#4) 0x6#8) 0x0#4)
    exact (and_parts _ _ _ _).trans (by simp only [and_parts, BitVec.and_zero]; try rfl)
  · have h0 : (join (join (join (join (join (join c.bits 0xd#7) (BitVec.ofBool s)) 0x0#4) rd) 0x6#8) rm).extractLsb' 28 4 = c.bits := ((ext_left _ _ _ _ (by decide)).trans ((ext_left _ _ _ _ (by decide)).trans ((ext_left _ _ _ _ (by decide)).trans ((ext_left _ _ _ _ (by decide)).trans ((ext_left _ _ _ _ (by decide)).trans ((ext_left _ _ _ _ (by decide)).trans (ext_only _)))))))
    have h2 : (join (join (join (join (join (join c.bits 0xd#7) (BitVec.ofBool s)) 0x0#4) rd) 0x6#8) rm).getLsbD 20 = s := ((bit_left _ _ _ (by decide)).trans ((bit_left _ _ _ (by decide)).trans ((bit_left _ _ _ (by decide)).trans ((bit_left _ _ _ (by decide)).trans (bit_right _ _)))))
    have h4 : (join (join (join (join (join (join c.bits 0xd#7) (BitVec.ofBool s)) 0x0#4) rd) 0x6#8) rm).extractLsb' 12 4 = rd := ((ext_left _ _ _ _ (by decide)).trans ((ext_left _ _ _ _ (by decide)).trans (ext_right _ _)))
    have h6 : (join (join (join (join (join (join c.bits 0xd#7) (BitVec.ofBool s)) 0x0#4) rd) 0x6#8) rm).extractLsb' 0 4 = rm := (ext_right _ _)
    exact congr (congr (congr (congrArg Instr.rrx ((congrArg Cond.ofBits h0).trans (cond_ofBits c))) (h2)) (h4)) (h6)

theorem EncodesToItself.lslImm (c : Cond) (s : Bool) (rd : Reg) (imm5 : BitVec 5) (rm : Reg) :
    EncodesToItself.Statement (.lslImm c s rd imm5 rm) := by
  refine ⟨_, rfl, ?_, ?_⟩
  · show encode (.lslImm c s rd imm5 rm) &&& (join (join (join (join (join (join (join 0x0#4 0x7f#7) 0x0#1) 0xf#4) 0x0#4) 0x0#5) 0x7#3) 0x0#4) =
      (join (join (join (join (join (join (join 0x0#4 0xd#7) 0x0#1) 0x0#4) 0x0#4) 0x0#5) 0x0#3) 0x0#4)
    exact (and_parts _ _ _ _).trans (by simp only [and_parts, BitVec.and_zero]; try rfl)
  · have h0 : (join (join (join (join (join (join (join c.bits 0xd#7) (BitVec.ofBool s)) 0x0#4) rd) imm5) 0x0#3) rm).extractLsb' 28 4 = c.bits := ((ext_left _ _ _ _ (by decide)).trans ((ext_left _ _ _ _ (by decide)).trans ((ext_left _ _ _ _ (by decide)).trans ((ext_left _ _ _ _ (by decide)).trans ((ext_left _ _ _ _ (by decide)).trans ((ext_left _ _ _ _ (by decide)).trans ((ext_left _ _ _ _ (by decide)).trans (ext_only _))))))))
    have h2 : (join (join (join (join (join (join (join c.bits 0xd#7) (BitVec.ofBool s)) 0x0#4) rd) imm5) 0x0#3) rm).getLsbD 20 = s := ((bit_left _ _ _ (by decide)).trans ((bit_left _ _ _ (by decide)).trans ((bit_left _ _ _ (by decide)).trans ((bit_left _ _ _ (by decide)).trans ((bit_left _ _ _ (by decide)).trans (bit_right _ _))))))
    have h4 : (join (join (join (join (join (join (join c.bits 0xd#7) (BitVec.ofBool s)) 0x0#4) rd) imm5) 0x0#3) rm).extractLsb' 12 4 = rd := ((ext_left _ _ _ _ (by decide)).trans ((ext_left _ _ _ _ (by decide)).trans ((ext_left _ _ _ _ (by decide)).trans (ext_right _ _))))
    have h5 : (join (join (join (join (join (join (join c.bits 0xd#7) (BitVec.ofBool s)) 0x0#4) rd) imm5) 0x0#3) rm).extractLsb' 7 5 = imm5 := ((ext_left _ _ _ _ (by decide)).trans ((ext_left _ _ _ _ (by decide)).trans (ext_right _ _)))
    have h7 : (join (join (join (join (join (join (join c.bits 0xd#7) (BitVec.ofBool s)) 0x0#4) rd) imm5) 0x0#3) rm).extractLsb' 0 4 = rm := (ext_right _ _)
    exact congr (congr (congr (congr (congrArg Instr.lslImm ((congrArg Cond.ofBits h0).trans (cond_ofBits c))) (h2)) (h4)) (h5)) (h7)

theorem EncodesToItself.lsrImm (c : Cond) (s : Bool) (rd : Reg) (imm5 : BitVec 5) (rm : Reg) :
    EncodesToItself.Statement (.lsrImm c s rd imm5 rm) := by
  refine ⟨_, rfl, ?_, ?_⟩
  · show encode (.lsrImm c s rd imm5 rm) &&& (join (join (join (join (join (join (join 0x0#4 0x7f#7) 0x0#1) 0xf#4) 0x0#4) 0x0#5) 0x7#3) 0x0#4) =
      (join (join (join (join (join (join (join 0x0#4 0xd#7) 0x0#1) 0x0#4) 0x0#4) 0x0#5) 0x2#3) 0x0#4)
    exact (and_parts _ _ _ _).trans (by simp only [and_parts, BitVec.and_zero]; try rfl)
  · have h0 : (join (join (join (join (join (join (join c.bits 0xd#7) (BitVec.ofBool s)) 0x0#4) rd) imm5) 0x2#3) rm).extractLsb' 28 4 = c.bits := ((ext_left _ _ _ _ (by decide)).trans ((ext_left _ _ _ _ (by decide)).trans ((ext_left _ _ _ _ (by decide)).trans ((ext_left _ _ _ _ (by decide)).trans ((ext_left _ _ _ _ (by decide)).trans ((ext_left _ _ _ _ (by decide)).trans ((ext_left _ _ _ _ (by decide)).trans (ext_only _))))))))
    have h2 : (join (join (join (join (join (join (join c.bits 0xd#7) (BitVec.ofBool s)) 0x0#4) rd) imm5) 0x2#3) rm).getLsbD 20 = s := ((bit_left _ _ _ (by decide)).trans ((bit_left _ _ _ (by decide)).trans ((bit_left _ _ _ (by decide)).trans ((bit_left _ _ _ (by decide)).trans ((bit_left _ _ _ (by decide)).trans (bit_right _ _))))))
    have h4 : (join (join (join (join (join (join (join c.bits 0xd#7) (BitVec.ofBool s)) 0x0#4) rd) imm5) 0x2#3) rm).extractLsb' 12 4 = rd := ((ext_left _ _ _ _ (by decide)).trans ((ext_left _ _ _ _ (by decide)).trans ((ext_left _ _ _ _ (by decide)).trans (ext_right _ _))))
    have h5 : (join (join (join (join (join (join (join c.bits 0xd#7) (BitVec.ofBool s)) 0x0#4) rd) imm5) 0x2#3) rm).extractLsb' 7 5 = imm5 := ((ext_left _ _ _ _ (by decide)).trans ((ext_left _ _ _ _ (by decide)).trans (ext_right _ _)))
    have h7 : (join (join (join (join (join (join (join c.bits 0xd#7) (BitVec.ofBool s)) 0x0#4) rd) imm5) 0x2#3) rm).extractLsb' 0 4 = rm := (ext_right _ _)
    exact congr (congr (congr (congr (congrArg Instr.lsrImm ((congrArg Cond.ofBits h0).trans (cond_ofBits c))) (h2)) (h4)) (h5)) (h7)

theorem EncodesToItself.asrImm (c : Cond) (s : Bool) (rd : Reg) (imm5 : BitVec 5) (rm : Reg) :
    EncodesToItself.Statement (.asrImm c s rd imm5 rm) := by
  refine ⟨_, rfl, ?_, ?_⟩
  · show encode (.asrImm c s rd imm5 rm) &&& (join (join (join (join (join (join (join 0x0#4 0x7f#7) 0x0#1) 0xf#4) 0x0#4) 0x0#5) 0x7#3) 0x0#4) =
      (join (join (join (join (join (join (join 0x0#4 0xd#7) 0x0#1) 0x0#4) 0x0#4) 0x0#5) 0x4#3) 0x0#4)
    exact (and_parts _ _ _ _).trans (by simp only [and_parts, BitVec.and_zero]; try rfl)
  · have h0 : (join (join (join (join (join (join (join c.bits 0xd#7) (BitVec.ofBool s)) 0x0#4) rd) imm5) 0x4#3) rm).extractLsb' 28 4 = c.bits := ((ext_left _ _ _ _ (by decide)).trans ((ext_left _ _ _ _ (by decide)).trans ((ext_left _ _ _ _ (by decide)).trans ((ext_left _ _ _ _ (by decide)).trans ((ext_left _ _ _ _ (by decide)).trans ((ext_left _ _ _ _ (by decide)).trans ((ext_left _ _ _ _ (by decide)).trans (ext_only _))))))))
    have h2 : (join (join (join (join (join (join (join c.bits 0xd#7) (BitVec.ofBool s)) 0x0#4) rd) imm5) 0x4#3) rm).getLsbD 20 = s := ((bit_left _ _ _ (by decide)).trans ((bit_left _ _ _ (by decide)).trans ((bit_left _ _ _ (by decide)).trans ((bit_left _ _ _ (by decide)).trans ((bit_left _ _ _ (by decide)).trans (bit_right _ _))))))
    have h4 : (join (join (join (join (join (join (join c.bits 0xd#7) (BitVec.ofBool s)) 0x0#4) rd) imm5) 0x4#3) rm).extractLsb' 12 4 = rd := ((ext_left _ _ _ _ (by decide)).trans ((ext_left _ _ _ _ (by decide)).trans ((ext_left _ _ _ _ (by decide)).trans (ext_right _ _))))
    have h5 : (join (join (join (join (join (join (join c.bits 0xd#7) (BitVec.ofBool s)) 0x0#4) rd) imm5) 0x4#3) rm).extractLsb' 7 5 = imm5 := ((ext_left _ _ _ _ (by decide)).trans ((ext_left _ _ _ _ (by decide)).trans (ext_right _ _)))
    have h7 : (join (join (join (join (join (join (join c.bits 0xd#7) (BitVec.ofBool s)) 0x0#4) rd) imm5) 0x4#3) rm).extractLsb' 0 4 = rm := (ext_right _ _)
    exact congr (congr (congr (congr (congrArg Instr.asrImm ((congrArg Cond.ofBits h0).trans (cond_ofBits c))) (h2)) (h4)) (h5)) (h7)

theorem EncodesToItself.rorImm (c : Cond) (s : Bool) (rd : Reg) (imm5 : BitVec 5) (rm : Reg) :
    EncodesToItself.Statement (.rorImm c s rd imm5 rm) := by
  refine ⟨_, rfl, ?_, ?_⟩
  · show encode (.rorImm c s rd imm5 rm) &&& (join (join (join (join (join (join (join 0x0#4 0x7f#7) 0x0#1) 0xf#4) 0x0#4) 0x0#5) 0x7#3) 0x0#4) =
      (join (join (join (join (join (join (join 0x0#4 0xd#7) 0x0#1) 0x0#4) 0x0#4) 0x0#5) 0x6#3) 0x0#4)
    exact (and_parts _ _ _ _).trans (by simp only [and_parts, BitVec.and_zero]; try rfl)
  · have h0 : (join (join (join (join (join (join (join c.bits 0xd#7) (BitVec.ofBool s)) 0x0#4) rd) imm5) 0x6#3) rm).extractLsb' 28 4 = c.bits := ((ext_left _ _ _ _ (by decide)).trans ((ext_left _ _ _ _ (by decide)).trans ((ext_left _ _ _ _ (by decide)).trans ((ext_left _ _ _ _ (by decide)).trans ((ext_left _ _ _ _ (by decide)).trans ((ext_left _ _ _ _ (by decide)).trans ((ext_left _ _ _ _ (by decide)).trans (ext_only _))))))))
    have h2 : (join (join (join (join (join (join (join c.bits 0xd#7) (BitVec.ofBool s)) 0x0#4) rd) imm5) 0x6#3) rm).getLsbD 20 = s := ((bit_left _ _ _ (by decide)).trans ((bit_left _ _ _ (by decide)).trans ((bit_left _ _ _ (by decide)).trans ((bit_left _ _ _ (by decide)).trans ((bit_left _ _ _ (by decide)).trans (bit_right _ _))))))
    have h4 : (join (join (join (join (join (join (join c.bits 0xd#7) (BitVec.ofBool s)) 0x0#4) rd) imm5) 0x6#3) rm).extractLsb' 12 4 = rd := ((ext_left _ _ _ _ (by decide)).trans ((ext_left _ _ _ _ (by decide)).trans ((ext_left _ _ _ _ (by decide)).trans (ext_right _ _))))
    have h5 : (join (join (join (join (join (join (join c.bits 0xd#7) (BitVec.ofBool s)) 0x0#4) rd) imm5) 0x6#3) rm).extractLsb' 7 5 = imm5 := ((ext_left _ _ _ _ (by decide)).trans ((ext_left _ _ _ _ (by decide)).trans (ext_right _ _)))
    have h7 : (join (join (join (join (join (join (join c.bits 0xd#7) (BitVec.ofBool s)) 0x0#4) rd) imm5) 0x6#3) rm).extractLsb' 0 4 = rm := (ext_right _ _)
    exact congr (congr (congr (congr (congrArg Instr.rorImm ((congrArg Cond.ofBits h0).trans (cond_ofBits c))) (h2)) (h4)) (h5)) (h7)

theorem EncodesToItself.lslReg (c : Cond) (s : Bool) (rd : Reg) (rs : Reg) (rm : Reg) :
    EncodesToItself.Statement (.lslReg c s rd rs rm) := by
  refine ⟨_, rfl, ?_, ?_⟩
  · show encode (.lslReg c s rd rs rm) &&& (join (join (join (join (join (join (join 0x0#4 0x7f#7) 0x0#1) 0xf#4) 0x0#4) 0x0#4) 0xf#4) 0x0#4) =
      (join (join (join (join (join (join (join 0x0#4 0xd#7) 0x0#1) 0x0#4) 0x0#4) 0x0#4) 0x1#4) 0x0#4)
    exact (and_parts _ _ _ _).trans (by simp only [and_parts, BitVec.and_zero]; try rfl)
  · have h0 : (join (join (join (join (join (join (join c.bits 0xd#7) (BitVec.ofBool s)) 0x0#4) rd) rs) 0x1#4) rm).extractLsb' 28 4 = c.bits := ((ext_left _ _ _ _ (by decide)).trans ((ext_left _ _ _ _ (by decide)).trans ((ext_left _ _ _ _ (by decide)).trans ((ext_left _ _ _ _ (by decide)).trans ((ext_left _ _ _ _ (by decide)).trans ((ext_left _ _ _ _ (by decide)).trans ((ext_left _ _ _ _ (by decide)).trans (ext_only _))))))))
    have h2 : (join (join (join (join (join (join (join c.bits 0xd#7) (BitVec.ofBool s)) 0x0#4) rd) rs) 0x1#4) rm).getLsbD 20 = s := ((bit_left _ _ _ (by decide)).trans ((bit_left _ _ _ (by decide)).trans ((bit_left _ _ _ (by decide)).trans ((bit_left _ _ _ (by decide)).trans ((bit_left _ _ _ (by decide)).trans (bit_right _ _))))))
    have h4 : (join (join (join (join (join (join (join c.bits 0xd#7) (BitVec.ofBool s)) 0x0#4) rd) rs) 0x1#4) rm).extractLsb' 12 4 = rd := ((ext_left _ _ _ _ (by decide)).trans ((ext_left _ _ _ _ (by decide)).trans ((ext_left _ _ _ _ (by decide)).trans (ext_right _ _))))
    have h5 : (join (join (join (join (join (join (join c.bits 0xd#7) (BitVec.ofBool s)) 0x0#4) rd) rs) 0x1#4) rm).extractLsb' 8 4 = rs := ((ext_left _ _ _ _ (by decide)).trans ((ext_left _ _ _ _ (by decide)).trans (ext_right _ _)))
    have h7 : (join (join (join (join (join (join (join c.bits 0xd#7) (BitVec.ofBool s)) 0x0#4) rd) rs) 0x1#4) rm).extractLsb' 0 4 = rm := (ext_right _ _)
    exact congr (congr (congr (congr (congrArg Instr.lslReg ((congrArg Cond.ofBits h0).trans (cond_ofBits c))) (h2)) (h4)) (h5)) (h7)

theorem EncodesToItself.lsrReg (c : Cond) (s : Bool) (rd : Reg) (rs : Reg) (rm : Reg) :
    EncodesToItself.Statement (.lsrReg c s rd rs rm) := by
  refine ⟨_, rfl, ?_, ?_⟩
  · show encode (.lsrReg c s rd rs rm) &&& (join (join (join (join (join (join (join 0x0#4 0x7f#7) 0x0#1) 0xf#4) 0x0#4) 0x0#4) 0xf#4) 0x0#4) =
      (join (join (join (join (join (join (join 0x0#4 0xd#7) 0x0#1) 0x0#4) 0x0#4) 0x0#4) 0x3#4) 0x0#4)
    exact (and_parts _ _ _ _).trans (by simp only [and_parts, BitVec.and_zero]; try rfl)
  · have h0 : (join (join (join (join (join (join (join c.bits 0xd#7) (BitVec.ofBool s)) 0x0#4) rd) rs) 0x3#4) rm).extractLsb' 28 4 = c.bits := ((ext_left _ _ _ _ (by decide)).trans ((ext_left _ _ _ _ (by decide)).trans ((ext_left _ _ _ _ (by decide)).trans ((ext_left _ _ _ _ (by decide)).trans ((ext_left _ _ _ _ (by decide)).trans ((ext_left _ _ _ _ (by decide)).trans ((ext_left _ _ _ _ (by decide)).trans (ext_only _))))))))
    have h2 : (join (join (join (join (join (join (join c.bits 0xd#7) (BitVec.ofBool s)) 0x0#4) rd) rs) 0x3#4) rm).getLsbD 20 = s := ((bit_left _ _ _ (by decide)).trans ((bit_left _ _ _ (by decide)).trans ((bit_left _ _ _ (by decide)).trans ((bit_left _ _ _ (by decide)).trans ((bit_left _ _ _ (by decide)).trans (bit_right _ _))))))
    have h4 : (join (join (join (join (join (join (join c.bits 0xd#7) (BitVec.ofBool s)) 0x0#4) rd) rs) 0x3#4) rm).extractLsb' 12 4 = rd := ((ext_left _ _ _ _ (by decide)).trans ((ext_left _ _ _ _ (by decide)).trans ((ext_left _ _ _ _ (by decide)).trans (ext_right _ _))))
    have h5 : (join (join (join (join (join (join (join c.bits 0xd#7) (BitVec.ofBool s)) 0x0#4) rd) rs) 0x3#4) rm).extractLsb' 8 4 = rs := ((ext_left _ _ _ _ (by decide)).trans ((ext_left _ _ _ _ (by decide)).trans (ext_right _ _)))
    have h7 : (join (join (join (join (join (join (join c.bits 0xd#7) (BitVec.ofBool s)) 0x0#4) rd) rs) 0x3#4) rm).extractLsb' 0 4 = rm := (ext_right _ _)
    exact congr (congr (congr (congr (congrArg Instr.lsrReg ((congrArg Cond.ofBits h0).trans (cond_ofBits c))) (h2)) (h4)) (h5)) (h7)

theorem EncodesToItself.asrReg (c : Cond) (s : Bool) (rd : Reg) (rs : Reg) (rm : Reg) :
    EncodesToItself.Statement (.asrReg c s rd rs rm) := by
  refine ⟨_, rfl, ?_, ?_⟩
  · show encode (.asrReg c s rd rs rm) &&& (join (join (join (join (join (join (join 0x0#4 0x7f#7) 0x0#1) 0xf#4) 0x0#4) 0x0#4) 0xf#4) 0x0#4) =
      (join (join (join (join (join (join (join 0x0#4 0xd#7) 0x0#1) 0x0#4) 0x0#4) 0x0#4) 0x5#4) 0x0#4)
    exact (and_parts _ _ _ _).trans (by simp only [and_parts, BitVec.and_zero]; try rfl)
  · have h0 : (join (join (join (join (join (join (join c.bits 0xd#7) (BitVec.ofBool s)) 0x0#4) rd) rs) 0x5#4) rm).extractLsb' 28 4 = c.bits := ((ext_left _ _ _ _ (by decide)).trans ((ext_left _ _ _ _ (by decide)).trans ((ext_left _ _ _ _ (by decide)).trans ((ext_left _ _ _ _ (by decide)).trans ((ext_left _ _ _ _ (by decide)).trans ((ext_left _ _ _ _ (by decide)).trans ((ext_left _ _ _ _ (by decide)).trans (ext_only _))))))))
    have h2 : (join (join (join (join (join (join (join c.bits 0xd#7) (BitVec.ofBool s)) 0x0#4) rd) rs) 0x5#4) rm).getLsbD 20 = s := ((bit_left _ _ _ (by decide)).trans ((bit_left _ _ _ (by decide)).trans ((bit_left _ _ _ (by decide)).trans ((bit_left _ _ _ (by decide)).trans ((bit_left _ _ _ (by decide)).trans (bit_right _ _))))))
    have h4 : (join (join (join (join (join (join (join c.bits 0xd#7) (BitVec.ofBool s)) 0x0#4) rd) rs) 0x5#4) rm).extractLsb' 12 4 = rd := ((ext_left _ _ _ _ (by decide)).trans ((ext_left _ _ _ _ (by decide)).trans ((ext_left _ _ _ _ (by decide)).trans (ext_right _ _))))
    have h5 : (join (join (join (join (join (join (join c.bits 0xd#7) (BitVec.ofBool s)) 0x0#4) rd) rs) 0x5#4) rm).extractLsb' 8 4 = rs := ((ext_left _ _ _ _ (by decide)).trans ((ext_left _ _ _ _ (by decide)).trans (ext_right _ _)))
    have h7 : (join (join (join (join (join (join (join c.bits 0xd#7) (BitVec.ofBool s)) 0x0#4) rd) rs) 0x5#4) rm).extractLsb' 0 4 = rm := (ext_right _ _)
    exact congr (congr (congr (congr (congrArg Instr.asrReg ((congrArg Cond.ofBits h0).trans (cond_ofBits c))) (h2)) (h4)) (h5)) (h7)

theorem EncodesToItself.rorReg (c : Cond) (s : Bool) (rd : Reg) (rs : Reg) (rm : Reg) :
    EncodesToItself.Statement (.rorReg c s rd rs rm) := by
  refine ⟨_, rfl, ?_, ?_⟩
  · show encode (.rorReg c s rd rs rm) &&& (join (join (join (join (join (join (join 0x0#4 0x7f#7) 0x0#1) 0xf#4) 0x0#4) 0x0#4) 0xf#4) 0x0#4) =
      (join (join (join (join (join (join (join 0x0#4 0xd#7) 0x0#1) 0x0#4) 0x0#4) 0x0#4) 0x7#4) 0x0#4)
    exact (and_parts _ _ _ _).trans (by simp only [and_parts, BitVec.and_zero]; try rfl)
  · have h0 : (join (join (join (join (join (join (join c.bits 0xd#7) (BitVec.ofBool s)) 0x0#4) rd) rs) 0x7#4) rm).extractLsb' 28 4 = c.bits := ((ext_left _ _ _ _ (by decide)).trans ((ext_left _ _ _ _ (by decide)).trans ((ext_left _ _ _ _ (by decide)).trans ((ext_left _ _ _ _ (by decide)).trans ((ext_left _ _ _ _ (by decide)).trans ((ext_left _ _ _ _ (by decide)).trans ((ext_left _ _ _ _ (by decide)).trans (ext_only _))))))))
    have h2 : (join (join (join (join (join (join (join c.bits 0xd#7) (BitVec.ofBool s)) 0x0#4) rd) rs) 0x7#4) rm).getLsbD 20 = s := ((bit_left _ _ _ (by decide)).trans ((bit_left _ _ _ (by decide)).trans ((bit_left _ _ _ (by decide)).trans ((bit_left _ _ _ (by decide)).trans ((bit_left _ _ _ (by decide)).trans (bit_right _ _))))))
    have h4 : (join (join (join (join (join (join (join c.bits 0xd#7) (BitVec.ofBool s)) 0x0#4) rd) rs) 0x7#4) rm).extractLsb' 12 4 = rd := ((ext_left _ _ _ _ (by decide)).trans ((ext_left _ _ _ _ (by decide)).trans ((ext_left _ _ _ _ (by decide)).trans (ext_right _ _))))
    have h5 : (join (join (join (join (join (join (join c.bits 0xd#7) (BitVec.ofBool s)) 0x0#4) rd) rs) 0x7#4) rm).extractLsb' 8 4 = rs := ((ext_left _ _ _ _ (by decide)).trans ((ext_left _ _ _ _ (by decide)).trans (ext_right _ _)))
    have h7 : (join (join (join (join (join (join (join c.bits 0xd#7) (BitVec.ofBool s)) 0x0#4) rd) rs) 0x7#4) rm).extractLsb' 0 4 = rm := (ext_right _ _)
    exact congr (congr (congr (congr (congrArg Instr.rorReg ((congrArg Cond.ofBits h0).trans (cond_ofBits c))) (h2)) (h4)) (h5)) (h7)

theorem EncodesToItself.bicImm (c : Cond) (s : Bool) (rn : Reg) (rd : Reg) (rotate : BitVec 4) (imm8 : BitVec 8) :
    EncodesToItself.Statement (.bicImm c s rn rd rotate imm8) := by
  refine ⟨_, rfl, ?_, ?_⟩
  · show encode (.bicImm c s rn rd rotate imm8) &&& (join (join (join (join (join (join 0x0#4 0x7f#7) 0x0#1) 0x0#4) 0x0#4) 0x0#4) 0x0#8) =
      (join (join (join (join (join (join 0x0#4 0x1e#7) 0x0#1) 0x0#4) 0x0#4) 0x0#4) 0x0#8)
    exact (and_parts _ _ _ _).trans (by simp only [and_parts, BitVec.and_zero]; try rfl)
  · have h0 : (join (join (join (join (join (join c.bits 0x1e#7) (BitVec.ofBool s)) rn) rd) rotate) imm8).extractLsb' 28 4 = c.bits := ((ext_left _ _ _ _ (by decide)).trans ((ext_left _ _ _ _ (by decide)).trans ((ext_left _ _ _ _ (by decide)).trans ((ext_left _ _ _ _ (by decide)).trans ((ext_left _ _ _ _ (by decide)).trans ((ext_left _ _ _ _ (by decide)).trans (ext_only _)))))))
    have h2 : (join (join (join (join (join (join c.bits 0x1e#7) (BitVec.ofBool s)) rn) rd) rotate) imm8).getLsbD 20 = s := ((bit_left _ _ _ (by decide)).trans ((bit_left _ _ _ (by decide)).trans ((bit_left _ _ _ (by decide)).trans ((bit_left _ _ _ (by decide)).trans (bit_right _ _)))))
    have h3 : (join (join (join (join (join (join c.bits 0x1e#7) (BitVec.ofBool s)) rn) rd) rotate) imm8).extractLsb' 16 4 = rn := ((ext_left _ _ _ _ (by decide)).trans ((ext_left _ _ _ _ (by decide)).trans ((ext_left _ _ _ _ (by decide)).trans (ext_right _ _))))
    have h4 : (join (join (join (join (join (join c.bits 0x1e#7) (BitVec.ofBool s)) rn) rd) rotate) imm8).extractLsb' 12 4 = rd := ((ext_left _ _ _ _ (by decide)).trans ((ext_left _ _ _ _ (by decide)).trans (ext_right _ _)))
    have h5 : (join (join (join (join (join (join c.bits 0x1e#7) (BitVec.ofBool s)) rn) rd) rotate) imm8).extractLsb' 8 4 = rotate := ((ext_left _ _ _ _ (by decide)).trans (ext_right _ _))
    have h6 : (join (join (join (join (join (join c.bits 0x1e#7) (BitVec.ofBool s)) rn) rd) rotate) imm8).extractLsb' 0 8 = imm8 := (ext_right _ _)
    exact congr (congr (congr (congr (congr (congrArg Instr.bicImm ((congrArg Cond.ofBits h0).trans (cond_ofBits c))) (h2)) (h3)) (h4)) (h5)) (h6)

theorem EncodesToItself.bicReg (c : Cond) (s : Bool) (rn : Reg) (rd : Reg) (imm5 : BitVec 5) (ty : ShiftType) (rm : Reg) :
    EncodesToItself.Statement (.bicReg c s rn rd imm5 ty rm) := by
  refine ⟨_, rfl, ?_, ?_⟩
  · show encode (.bicReg c s rn rd imm5 ty rm) &&& (join (join (join (join (join (join (join (join 0x0#4 0x7f#7) 0x0#1) 0x0#4) 0x0#4) 0x0#5) 0x0#2) 0x1#1) 0x0#4) =
      (join (join (join (join (join (join (join (join 0x0#4 0xe#7) 0x0#1) 0x0#4) 0x0#4) 0x0#5) 0x0#2) 0x0#1) 0x0#4)
    exact (and_parts _ _ _ _).trans (by simp only [and_parts, BitVec.and_zero]; try rfl)
  · have h0 : (join (join (join (join (join (join (join (join c.bits 0xe#7) (BitVec.ofBool s)) rn) rd) imm5) ty.bits) 0x0#1) rm).extractLsb' 28 4 = c.bits := ((ext_left _ _ _ _ (by decide)).trans ((ext_left _ _ _ _ (by decide)).trans ((ext_left _ _ _ _ (by decide)).trans ((ext_left _ _ _ _ (by decide)).trans ((ext_left _ _ _ _ (by decide)).trans ((ext_left _ _ _ _ (by decide)).trans ((ext_left _ _ _ _ (by decide)).trans ((ext_left _ _ _ _ (by decide)).trans (ext_only _)))))))))
    have h2 : (join (join (join (join (join (join (join (join c.bits 0xe#7) (BitVec.ofBool s)) rn) rd) imm5) ty.bits) 0x0#1) rm).getLsbD 20 = s := ((bit_left _ _ _ (by decide)).trans ((bit_left _ _ _ (by decide)).trans ((bit_left _ _ _ (by decide)).trans ((bit_left _ _ _ (by decide)).trans ((bit_left _ _ _ (by decide)).trans ((bit_left _ _ _ (by decide)).trans (bit_right _ _)))))))
    have h3 : (join (join (join (join (join (join (join (join c.bits 0xe#7) (BitVec.ofBool s)) rn) rd) imm5) ty.bits) 0x0#1) rm).extractLsb' 16 4 = rn := ((ext_left _ _ _ _ (by decide)).trans ((ext_left _ _ _ _ (by decide)).trans ((ext_left _ _ _ _ (by decide)).trans ((ext_left _ _ _ _ (by decide)).trans ((ext_left _ _ _ _ (by decide)).trans (ext_right _ _))))))
    have h4 : (join (join (join (join (join (join (join (join c.bits 0xe#7) (BitVec.ofBool s)) rn) rd) imm5) ty.bits) 0x0#1) rm).extractLsb' 12 4 = rd := ((ext_left _ _ _ _ (by decide)).trans ((ext_left _ _ _ _ (by decide)).trans ((ext_left _ _ _ _ (by decide)).trans ((ext_left _ _ _ _ (by decide)).trans (ext_right _ _)))))
    have h5 : (join (join (join (join (join (join (join (join c.bits 0xe#7) (BitVec.ofBool s)) rn) rd) imm5) ty.bits) 0x0#1) rm).extractLsb' 7 5 = imm5 := ((ext_left _ _ _ _ (by decide)).trans ((ext_left _ _ _ _ (by decide)).trans ((ext_left _ _ _ _ (by decide)).trans (ext_right _ _))))
    have h6 : (join (join (join (join (join (join (join (join c.bits 0xe#7) (BitVec.ofBool s)) rn) rd) imm5) ty.bits) 0x0#1) rm).extractLsb' 5 2 = ty.bits := ((ext_left _ _ _ _ (by decide)).trans ((ext_left _ _ _ _ (by decide)).trans (ext_right _ _)))
    have h8 : (join (join (join (join (join (join (join (join c.bits 0xe#7) (BitVec.ofBool s)) rn) rd) imm5) ty.bits) 0x0#1) rm).extractLsb' 0 4 = rm := (ext_right _ _)
    exact congr (congr (congr (congr (congr (congr (congrArg Instr.bicReg ((congrArg Cond.ofBits h0).trans (cond_ofBits c))) (h2)) (h3)) (h4)) (h5)) ((congrArg ShiftType.ofBits h6).trans (shiftType_ofBits ty))) (h8)

theorem EncodesToItself.bicRsr (c : Cond) (s : Bool) (rn : Reg) (rd : Reg) (rs : Reg) (ty : ShiftType) (rm : Reg) :
    EncodesToItself.Statement (.bicRsr c s rn rd rs ty rm) := by
  refine ⟨_, rfl, ?_, ?_⟩
  · show encode (.bicRsr c s rn rd rs ty rm) &&& (join (join (join (join (join (join (join (join (join 0x0#4 0x7f#7) 0x0#1) 0x0#4) 0x0#4) 0x0#4) 0x1#1) 0x0#2) 0x1#1) 0x0#4) =
      (join (join (join (join (join (join (join (join (join 0x0#4 0xe#7) 0x0#1) 0x0#4) 0x0#4) 0x0#4) 0x0#1) 0x0#2) 0x1#1) 0x0#4)
    exact (and_parts _ _ _ _).trans (by simp only [and_parts, BitVec.and_zero]; try rfl)
  · have h0 : (join (join (join (join (join (join (join (join (join c.bits 0xe#7) (BitVec.ofBool s)) rn) rd) rs) 0x0#1) ty.bits) 0x1#1) rm).extractLsb' 28 4 = c.bits := ((ext_left _ _ _ _ (by decide)).trans ((ext_left _ _ _ _ (by decide)).trans ((ext_left _ _ _ _ (by decide)).trans ((ext_left _ _ _ _ (by decide)).trans ((ext_left _ _ _ _ (by decide)).trans ((ext_left _ _ _ _ (by decide)).trans ((ext_left _ _ _ _ (by decide)).trans ((ext_left _ _ _ _ (by decide)).trans ((ext_left _ _ _ _ (by decide)).trans (ext_only _))))))))))
    have h2 : (join (join (join (join (join (join (join (join (join c.bits 0xe#7) (BitVec.ofBool s)) rn) rd) rs) 0x0#1) ty.bits) 0x1#1) rm).getLsbD 20 = s := ((bit_left _ _ _ (by decide)).trans ((bit_left _ _ _ (by decide)).trans ((bit_left _ _ _ (by decide)).trans ((bit_left _ _ _ (by decide)).trans ((bit_left _ _ _ (by decide)).trans ((bit_left _ _ _ (by decide)).trans ((bit_left _ _ _ (by decide)).trans (bit_right _ _))))))))
    have h3 : (join (join (join (join (join (join (join (join (join c.bits 0xe#7) (BitVec.ofBool s)) rn) rd) rs) 0x0#1) ty.bits) 0x1#1) rm).extractLsb' 16 4 = rn := ((ext_left _ _ _ _ (by decide)).trans ((ext_left _ _ _ _ (by decide)).trans ((ext_left _ _ _ _ (by decide)).trans ((ext_left _ _ _ _ (by decide)).trans ((ext_left _ _ _ _ (by decide)).trans ((ext_left _ _ _ _ (by decide)).trans (ext_right _ _)))))))
    have h4 : (join (join (join (join (join (join (join (join (join c.bits 0xe#7) (BitVec.ofBool s)) rn) rd) rs) 0x0#1) ty.bits) 0x1#1) rm).extractLsb' 12 4 = rd := ((ext_left _ _ _ _ (by decide)).trans ((ext_left _ _ _ _ (by decide)).trans ((ext_left _ _ _ _ (by decide)).trans ((ext_left _ _ _ _ (by decide)).trans ((ext_left _ _ _ _ (by decide)).trans (ext_right _ _))))))
    have h5 : (join (join (join (join (join (join (join (join (join c.bits 0xe#7) (BitVec.ofBool s)) rn) rd) rs) 0x0#1) ty.bits) 0x1#1) rm).extractLsb' 8 4 = rs := ((ext_left _ _ _ _ (by decide)).trans ((ext_left _ _ _ _ (by decide)).trans ((ext_left _ _ _ _ (by decide)).trans ((ext_left _ _ _ _ (by decide)).trans (ext_right _ _)))))
    have h7 : (join (join (join (join (join (join (join (join (join c.bits 0xe#7) (BitVec.ofBool s)) rn) rd) rs) 0x0#1) ty.bits) 0x1#1) rm).extractLsb' 5 2 = ty.bits := ((ext_left _ _ _ _ (by decide)).trans ((ext_left _ _ _ _ (by decide)).trans (ext_right _ _)))
    have h9 : (join (join (join (join (join (join (join (join (join c.bits 0xe#7) (BitVec.ofBool s)) rn) rd) rs) 0x0#1) ty.bits) 0x1#1) rm).extractLsb' 0 4 = rm := (ext_right _ _)
    exact congr (congr (congr (congr (congr (congr (congrArg Instr.bicRsr ((congrArg Cond.ofBits h0).trans (cond_ofBits c))) (h2)) (h3)) (h4)) (h5)) ((congrArg ShiftType.ofBits h7).trans (shiftType_ofBits ty))) (h9)

theorem EncodesToItself.mvnImm (c : Cond) (s : Bool) (sbz : BitVec 4) (rd : Reg) (rotate : BitVec 4) (imm8 : BitVec 8) :
    EncodesToItself.Statement (.mvnImm c s sbz rd rotate imm8) := by
  refine ⟨_, rfl, ?_, ?_⟩
  · show encode (.mvnImm c s sbz rd rotate imm8) &&& (join (join (join (join (join (join 0x0#4 0x7f#7) 0x0#1) 0x0#4) 0x0#4) 0x0#4) 0x0#8) =
      (join (join (join (join (join (join 0x0#4 0x1f#7) 0x0#1) 0x0#4) 0x0#4) 0x0#4) 0x0#8)
    exact (and_parts _ _ _ _).trans (by simp only [and_parts, BitVec.and_zero]; try rfl)
  · have h0 : (join (join (join (join (join (join c.bits 0x1f#7) (BitVec.ofBool s)) sbz) rd) rotate) imm8).extractLsb' 28 4 = c.bits := ((ext_left _ _ _ _ (by decide)).trans ((ext_left _ _ _ _ (by decide)).trans ((ext_left _ _ _ _ (by decide)).trans ((ext_left _ _ _ _ (by decide)).trans ((ext_left _ _ _ _ (by decide)).trans ((ext_left _ _ _ _ (by decide)).trans (ext_only _)))))))
    have h2 : (join (join (join (join (join (join c.bits 0x1f#7) (BitVec.ofBool s)) sbz) rd) rotate) imm8).getLsbD 20 = s := ((bit_left _ _ _ (by decide)).trans ((bit_left _ _ _ (by decide)).trans ((bit_left _ _ _ (by decide)).trans ((bit_left _ _ _ (by decide)).trans (bit_right _ _)))))
    have h3 : (join (join (join (join (join (join c.bits 0x1f#7) (BitVec.ofBool s)) sbz) rd) rotate) imm8).extractLsb' 16 4 = sbz := ((ext_left _ _ _ _ (by decide)).trans ((ext_left _ _ _ _ (by decide)).trans ((ext_left _ _ _ _ (by decide)).trans (ext_right _ _))))
    have h4 : (join (join (join (join (join (join c.bits 0x1f#7) (BitVec.ofBool s)) sbz) rd) rotate) imm8).extractLsb' 12 4 = rd := ((ext_left _ _ _ _ (by decide)).trans ((ext_left _ _ _ _ (by decide)).trans (ext_right _ _)))
    have h5 : (join (join (join (join (join (join c.bits 0x1f#7) (BitVec.ofBool s)) sbz) rd) rotate) imm8).extractLsb' 8 4 = rotate := ((ext_left _ _ _ _ (by decide)).trans (ext_right _ _))
    have h6 : (join (join (join (join (join (join c.bits 0x1f#7) (BitVec.ofBool s)) sbz) rd) rotate) imm8).extractLsb' 0 8 = imm8 := (ext_right _ _)
    exact congr (congr (congr (congr (congr (congrArg Instr.mvnImm ((congrArg Cond.ofBits h0).trans (cond_ofBits c))) (h2)) (h3)) (h4)) (h5)) (h6)

theorem EncodesToItself.mvnReg (c : Cond) (s : Bool) (sbz : BitVec 4) (rd : Reg) (imm5 : BitVec 5) (ty : ShiftType) (rm : Reg) :
    EncodesToItself.Statement (.mvnReg c s sbz rd imm5 ty rm) := by
  refine ⟨_, rfl, ?_, ?_⟩
  · show encode (.mvnReg c s sbz rd imm5 ty rm) &&& (join (join (join (join (join (join (join (join 0x0#4 0x7f#7) 0x0#1) 0x0#4) 0x0#4) 0x0#5) 0x0#2) 0x1#1) 0x0#4) =
      (join (join (join (join (join (join (join (join 0x0#4 0xf#7) 0x0#1) 0x0#4) 0x0#4) 0x0#5) 0x0#2) 0x0#1) 0x0#4)
    exact (and_parts _ _ _ _).trans (by simp only [and_parts, BitVec.and_zero]; try rfl)
  · have h0 : (join (join (join (join (join (join (join (join c.bits 0xf#7) (BitVec.ofBool s)) sbz) rd) imm5) ty.bits) 0x0#1) rm).extractLsb' 28 4 = c.bits := ((ext_left _ _ _ _ (by decide)).trans ((ext_left _ _ _ _ (by decide)).trans ((ext_left _ _ _ _ (by decide)).trans ((ext_left _ _ _ _ (by decide)).trans ((ext_left _ _ _ _ (by decide)).trans ((ext_left _ _ _ _ (by decide)).trans ((ext_left _ _ _ _ (by decide)).trans ((ext_left _ _ _ _ (by decide)).trans (ext_only _)))))))))
    have h2 : (join (join (join (join (join (join (join (join c.bits 0xf#7) (BitVec.ofBool s)) sbz) rd) imm5) ty.bits) 0x0#1) rm).getLsbD 20 = s := ((bit_left _ _ _ (by decide)).trans ((bit_left _ _ _ (by decide)).trans ((bit_left _ _ _ (by decide)).trans ((bit_left _ _ _ (by decide)).trans ((bit_left _ _ _ (by decide)).trans ((bit_left _ _ _ (by decide)).trans (bit_right _ _)))))))
    have h3 : (join (join (join (join (join (join (join (join c.bits 0xf#7) (BitVec.ofBool s)) sbz) rd) imm5) ty.bits) 0x0#1) rm).extractLsb' 16 4 = sbz := ((ext_left _ _ _ _ (by decide)).trans ((ext_left _ _ _ _ (by decide)).trans ((ext_left _ _ _ _ (by decide)).trans ((ext_left _ _ _ _ (by decide)).trans ((ext_left _ _ _ _ (by decide)).trans (ext_right _ _))))))
    have h4 : (join (join (join (join (join (join (join (join c.bits 0xf#7) (BitVec.ofBool s)) sbz) rd) imm5) ty.bits) 0x0#1) rm).extractLsb' 12 4 = rd := ((ext_left _ _ _ _ (by decide)).trans ((ext_left _ _ _ _ (by decide)).trans ((ext_left _ _ _ _ (by decide)).trans ((ext_left _ _ _ _ (by decide)).trans (ext_right _ _)))))
    have h5 : (join (join (join (join (join (join (join (join c.bits 0xf#7) (BitVec.ofBool s)) sbz) rd) imm5) ty.bits) 0x0#1) rm).extractLsb' 7 5 = imm5 := ((ext_left _ _ _ _ (by decide)).trans ((ext_left _ _ _ _ (by decide)).trans ((ext_left _ _ _ _ (by decide)).trans (ext_right _ _))))
    have h6 : (join (join (join (join (join (join (join (join c.bits 0xf#7) (BitVec.ofBool s)) sbz) rd) imm5) ty.bits) 0x0#1) rm).extractLsb' 5 2 = ty.bits := ((ext_left _ _ _ _ (by decide)).trans ((ext_left _ _ _ _ (by decide)).trans (ext_right _ _)))
    have h8 : (join (join (join (join (join (join (join (join c.bits 0xf#7) (BitVec.ofBool s)) sbz) rd) imm5) ty.bits) 0x0#1) rm).extractLsb' 0 4 = rm := (ext_right _ _)
    exact congr (congr (congr (congr (congr (congr (congrArg Instr.mvnReg ((congrArg Cond.ofBits h0).trans (cond_ofBits c))) (h2)) (h3)) (h4)) (h5)) ((congrArg ShiftType.ofBits h6).trans (shiftType_ofBits ty))) (h8)

theorem EncodesToItself.mvnRsr (c : Cond) (s : Bool) (sbz : BitVec 4) (rd : Reg) (rs : Reg) (ty : ShiftType) (rm : Reg) :
    EncodesToItself.Statement (.mvnRsr c s sbz rd rs ty rm) := by
  refine ⟨_, rfl, ?_, ?_⟩
  · show encode (.mvnRsr c s sbz rd rs ty rm) &&& (join (join (join (join (join (join (join (join (join 0x0#4 0x7f#7) 0x0#1) 0x0#4) 0x0#4) 0x0#4) 0x1#1) 0x0#2) 0x1#1) 0x0#4) =
      (join (join (join (join (join (join (join (join (join 0x0#4 0xf#7) 0x0#1) 0x0#4) 0x0#4) 0x0#4) 0x0#1) 0x0#2) 0x1#1) 0x0#4)
    exact (and_parts _ _ _ _).trans (by simp only [and_parts, BitVec.and_zero]; try rfl)
  · have h0 : (join (join (join (join (join (join (join (join (join c.bits 0xf#7) (BitVec.ofBool s)) sbz) rd) rs) 0x0#1) ty.bits) 0x1#1) rm).extractLsb' 28 4 = c.bits := ((ext_left _ _ _ _ (by decide)).trans ((ext_left _ _ _ _ (by decide)).trans ((ext_left _ _ _ _ (by decide)).trans ((ext_left _ _ _ _ (by decide)).trans ((ext_left _ _ _ _ (by decide)).trans ((ext_left _ _ _ _ (by decide)).trans ((ext_left _ _ _ _ (by decide)).trans ((ext_left _ _ _ _ (by decide)).trans ((ext_left _ _ _ _ (by decide)).trans (ext_only _))))))))))
    have h2 : (join (join (join (join (join (join (join (join (join c.bits 0xf#7) (BitVec.ofBool s)) sbz) rd) rs) 0x0#1) ty.bits) 0x1#1) rm).getLsbD 20 = s := ((bit_left _ _ _ (by decide)).trans ((bit_left _ _ _ (by decide)).trans ((bit_left _ _ _ (by decide)).trans ((bit_left _ _ _ (by decide)).trans ((bit_left _ _ _ (by decide)).trans ((bit_left _ _ _ (by decide)).trans ((bit_left _ _ _ (by decide)).trans (bit_right _ _))))))))
    have h3 : (join (join (join (join (join (join (join (join (join c.bits 0xf#7) (BitVec.ofBool s)) sbz) rd) rs) 0x0#1) ty.bits) 0x1#1) rm).extractLsb' 16 4 = sbz := ((ext_left _ _ _ _ (by decide)).trans ((ext_left _ _ _ _ (by decide)).trans ((ext_left _ _ _ _ (by decide)).trans ((ext_left _ _ _ _ (by decide)).trans ((ext_left _ _ _ _ (by decide)).trans ((ext_left _ _ _ _ (by decide)).trans (ext_right _ _)))))))
    have h4 : (join (join (join (join (join (join (join (join (join c.bits 0xf#7) (BitVec.ofBool s)) sbz) rd) rs) 0x0#1) ty.bits) 0x1#1) rm).extractLsb' 12 4 = rd := ((ext_left _ _ _ _ (by decide)).trans ((ext_left _ _ _ _ (by decide)).trans ((ext_left _ _ _ _ (by decide)).trans ((ext_left _ _ _ _ (by decide)).trans ((ext_left _ _ _ _ (by decide)).trans (ext_right _ _))))))
    have h5 : (join (join (join (join (join (join (join (join (join c.bits 0xf#7) (BitVec.ofBool s)) sbz) rd) rs) 0x0#1) ty.bits) 0x1#1) rm).extractLsb' 8 4 = rs := ((ext_left _ _ _ _ (by decide)).trans ((ext_left _ _ _ _ (by decide)).trans ((ext_left _ _ _ _ (by decide)).trans ((ext_left _ _ _ _ (by decide)).trans (ext_right _ _)))))
    have h7 : (join (join (join (join (join (join (join (join (join c.bits 0xf#7) (BitVec.ofBool s)) sbz) rd) rs) 0x0#1) ty.bits) 0x1#1) rm).extractLsb' 5 2 = ty.bits := ((ext_left _ _ _ _ (by decide)).trans ((ext_left _ _ _ _ (by decide)).trans (ext_right _ _)))
    have h9 : (join (join (join (join (join (join (join (join (join c.bits 0xf#7) (BitVec.ofBool s)) sbz) rd) rs) 0x0#1) ty.bits) 0x1#1) rm).extractLsb' 0 4 = rm := (ext_right _ _)
    exact congr (congr (congr (congr (congr (congr (congrArg Instr.mvnRsr ((congrArg Cond.ofBits h0).trans (cond_ofBits c))) (h2)) (h3)) (h4)) (h5)) ((congrArg ShiftType.ofBits h7).trans (shiftType_ofBits ty))) (h9)

theorem EncodesToItself.ldrImm (c : Cond) (p : Bool) (u : Bool) (w : Bool) (rn : Reg) (rt : Reg) (imm12 : BitVec 12) :
    EncodesToItself.Statement (.ldrImm c p u w rn rt imm12) := by
  refine ⟨_, rfl, ?_, ?_⟩
  · show encode (.ldrImm c p u w rn rt imm12) &&& (join (join (join (join (join (join (join (join (join 0x0#4 0x7#3) 0x0#1) 0x0#1) 0x1#1) 0x0#1) 0x1#1) 0x0#4) 0x0#4) 0x0#12) =
      (join (join (join (join (join (join (join (join (join 0x0#4 0x2#3) 0x0#1) 0x0#1) 0x0#1) 0x0#1) 0x1#1) 0x0#4) 0x0#4) 0x0#12)
    exact (and_parts _ _ _ _).trans (by simp only [and_parts, BitVec.and_zero]; try rfl)
  · have h0 : (join (join (join (join (join (join (join (join (join c.bits 0x2#3) (BitVec.ofBool p)) (BitVec.ofBool u)) 0x0#1) (BitVec.ofBool w)) 0x1#1) rn) rt) imm12).extractLsb' 28 4 = c.bits := ((ext_left _ _ _ _ (by decide)).trans ((ext_left _ _ _ _ (by decide)).trans ((ext_left _ _ _ _ (by decide)).trans ((ext_left _ _ _ _ (by decide)).trans ((ext_left _ _ _ _ (by decide)).trans ((ext_left _ _ _ _ (by decide)).trans ((ext_left _ _ _ _ (by decide)).trans ((ext_left _ _ _ _ (by decide)).trans ((ext_left _ _ _ _ (by decide)).trans (ext_only _))))))))))
    have h2 : (join (join (join (join (join (join (join (join (join c.bits 0x2#3) (BitVec.ofBool p)) (BitVec.ofBool u)) 0x0#1) (BitVec.ofBool w)) 0x1#1) rn) rt) imm12).getLsbD 24 = p := ((bit_left _ _ _ (by decide)).trans ((bit_left _ _ _ (by decide)).trans ((bit_left _ _ _ (by decide)).trans ((bit_left _ _ _ (by decide)).trans ((bit_left _ _ _ (by decide)).trans ((bit_left _ _ _ (by decide)).trans ((bit_left _ _ _ (by decide)).trans (bit_right _ _))))))))
    have h3 : (join (join (join (join (join (join (join (join (join c.bits 0x2#3) (BitVec.ofBool p)) (BitVec.ofBool u)) 0x0#1) (BitVec.ofBool w)) 0x1#1) rn) rt) imm12).getLsbD 23 = u := ((bit_left _ _ _ (by decide)).trans ((bit_left _ _ _ (by decide)).trans ((bit_left _ _ _ (by decide)).trans ((bit_left _ _ _ (by decide)).trans ((bit_left _ _ _ (by decide)).trans ((bit_left _ _ _ (by decide)).trans (bit_right _ _)))))))
    have h5 : (join (join (join (join (join (join (join (join (join c.bits 0x2#3) (BitVec.ofBool p)) (BitVec.ofBool u)) 0x0#1) (BitVec.ofBool w)) 0x1#1) rn) rt) imm12).getLsbD 21 = w := ((bit_left _ _ _ (by decide)).trans ((bit_left _ _ _ (by decide)).trans ((bit_left _ _ _ (by decide)).trans ((bit_left _ _ _ (by decide)).trans (bit_right _ _)))))
    have h7 : (join (join (join (join (join (join (join (join (join c.bits 0x2#3) (BitVec.ofBool p)) (BitVec.ofBool u)) 0x0#1) (BitVec.ofBool w)) 0x1#1) rn) rt) imm12).extractLsb' 16 4 = rn := ((ext_left _ _ _ _ (by decide)).trans ((ext_left _ _ _ _ (by decide)).trans (ext_right _ _)))
    have h8 : (join (join (join (join (join (join (join (join (join c.bits 0x2#3) (BitVec.ofBool p)) (BitVec.ofBool u)) 0x0#1) (BitVec.ofBool w)) 0x1#1) rn) rt) imm12).extractLsb' 12 4 = rt := ((ext_left _ _ _ _ (by decide)).trans (ext_right _ _))
    have h9 : (join (join (join (join (join (join (join (join (join c.bits 0x2#3) (BitVec.ofBool p)) (BitVec.ofBool u)) 0x0#1) (BitVec.ofBool w)) 0x1#1) rn) rt) imm12).extractLsb' 0 12 = imm12 := (ext_right _ _)
    exact congr (congr (congr (congr (congr (congr (congrArg Instr.ldrImm ((congrArg Cond.ofBits h0).trans (cond_ofBits c))) (h2)) (h3)) (h5)) (h7)) (h8)) (h9)

theorem EncodesToItself.ldrReg (c : Cond) (p : Bool) (u : Bool) (w : Bool) (rn : Reg) (rt : Reg) (imm5 : BitVec 5) (ty : ShiftType) (rm : Reg) :
    EncodesToItself.Statement (.ldrReg c p u w rn rt imm5 ty rm) := by
  refine ⟨_, rfl, ?_, ?_⟩
  · show encode (.ldrReg c p u w rn rt imm5 ty rm) &&& (join (join (join (join (join (join (join (join (join (join (join (join 0x0#4 0x7#3) 0x0#1) 0x0#1) 0x1#1) 0x0#1) 0x1#1) 0x0#4) 0x0#4) 0x0#5) 0x0#2) 0x1#1) 0x0#4) =
      (join (join (join (join (join (join (join (join (join (join (join (join 0x0#4 0x3#3) 0x0#1) 0x0#1) 0x0#1) 0x0#1) 0x1#1) 0x0#4) 0x0#4) 0x0#5) 0x0#2) 0x0#1) 0x0#4)
    exact (and_parts _ _ _ _).trans (by simp only [and_parts, BitVec.and_zero]; try rfl)
  · have h0 : (join (join (join (join (join (join (join (join (join (join (join (join c.bits 0x3#3) (BitVec.ofBool p)) (BitVec.ofBool u)) 0x0#1) (BitVec.ofBool w)) 0x1#1) rn) rt) imm5) ty.bits) 0x0#1) rm).extractLsb' 28 4 = c.bits := ((ext_left _ _ _ _ (by decide)).trans ((ext_left _ _ _ _ (by decide)).trans ((ext_left _ _ _ _ (by decide)).trans ((ext_left _ _ _ _ (by decide)).trans ((ext_left _ _ _ _ (by decide)).trans ((ext_left _ _ _ _ (by decide)).trans ((ext_left _ _ _ _ (by decide)).trans ((ext_left _ _ _ _ (by decide)).trans ((ext_left _ _ _ _ (by decide)).trans ((ext_left _ _ _ _ (by decide)).trans ((ext_left _ _ _ _ (by decide)).trans ((ext_left _ _ _ _ (by decide)).trans (ext_only _)))))))))))))
    have h2 : (join (join (join (join (join (join (join (join (join (join (join (join c.bits 0x3#3) (BitVec.ofBool p)) (BitVec.ofBool u)) 0x0#1) (BitVec.ofBool w)) 0x1#1) rn) rt) imm5) ty.bits) 0x0#1) rm).getLsbD 24 = p := ((bit_left _ _ _ (by decide)).trans ((bit_left _ _ _ (by decide)).trans ((bit_left _ _ _ (by decide)).trans ((bit_left _ _ _ (by decide)).trans ((bit_left _ _ _ (by decide)).trans ((bit_left _ _ _ (by decide)).trans ((bit_left _ _ _ (by decide)).trans ((bit_left _ _ _ (by decide)).trans ((bit_left _ _ _ (by decide)).trans ((bit_left _ _ _ (by decide)).trans (bit_right _ _)))))))))))
    have h3 : (join (join (join (join (join (join (join (join (join (join (join (join c.bits 0x3#3) (BitVec.ofBool p)) (BitVec.ofBool u)) 0x0#1) (BitVec.ofBool w)) 0x1#1) rn) rt) imm5) ty.bits) 0x0#1) rm).getLsbD 23 = u := ((bit_left _ _ _ (by decide)).trans ((bit_left _ _ _ (by decide)).trans ((bit_left _ _ _ (by decide)).trans ((bit_left _ _ _ (by decide)).trans ((bit_left _ _ _ (by decide)).trans ((bit_left _ _ _ (by decide)).trans ((bit_left _ _ _ (by decide)).trans ((bit_left _ _ _ (by decide)).trans ((bit_left _ _ _ (by decide)).trans (bit_right _ _))))))))))
    have h5 : (join (join (join (join (join (join (join (join (join (join (join (join c.bits 0x3#3) (BitVec.ofBool p)) (BitVec.ofBool u)) 0x0#1) (BitVec.ofBool w)) 0x1#1) rn) rt) imm5) ty.bits) 0x0#1) rm).getLsbD 21 = w := ((bit_left _ _ _ (by decide)).trans ((bit_left _ _ _ (by decide)).trans ((bit_left _ _ _ (by decide)).trans ((bit_left _ _ _ (by decide)).trans ((bit_left _ _ _ (by decide)).trans ((bit_left _ _ _ (by decide)).trans ((bit_left _ _ _ (by decide)).trans (bit_right _ _))))))))
    have h7 : (join (join (join (join (join (join (join (join (join (join (join (join c.bits 0x3#3) (BitVec.ofBool p)) (BitVec.ofBool u)) 0x0#1) (BitVec.ofBool w)) 0x1#1) rn) rt) imm5) ty.bits) 0x0#1) rm).extractLsb' 16 4 = rn := ((ext_left _ _ _ _ (by decide)).trans ((ext_left _ _ _ _ (by decide)).trans ((ext_left _ _ _ _ (by decide)).trans ((ext_left _ _ _ _ (by decide)).trans ((ext_left _ _ _ _ (by decide)).trans (ext_right _ _))))))
    have h8 : (join (join (join (join (join (join (join (join (join (join (join (join c.bits 0x3#3) (BitVec.ofBool p)) (BitVec.ofBool u)) 0x0#1) (BitVec.ofBool w)) 0x1#1) rn) rt) imm5) ty.bits) 0x0#1) rm).extractLsb' 12 4 = rt := ((ext_left _ _ _ _ (by decide)).trans ((ext_left _ _ _ _ (by decide)).trans ((ext_left _ _ _ _ (by decide)).trans ((ext_left _ _ _ _ (by decide)).trans (ext_right _ _)))))
    have h9 : (join (join (join (join (join (join (join (join (join (join (join (join c.bits 0x3#3) (BitVec.ofBool p)) (BitVec.ofBool u)) 0x0#1) (BitVec.ofBool w)) 0x1#1) rn) rt) imm5) ty.bits) 0x0#1) rm).extractLsb' 7 5 = imm5 := ((ext_left _ _ _ _ (by decide)).trans ((ext_left _ _ _ _ (by decide)).trans ((ext_left _ _ _ _ (by decide)).trans (ext_right _ _))))
    have h10 : (join (join (join (join (join (join (join (join (join (join (join (join c.bits 0x3#3) (BitVec.ofBool p)) (BitVec.ofBool u)) 0x0#1) (BitVec.ofBool w)) 0x1#1) rn) rt) imm5) ty.bits) 0x0#1) rm).extractLsb' 5 2 = ty.bits := ((ext_left _ _ _ _ (by decide)).trans ((ext_left _ _ _ _ (by decide)).trans (ext_right _ _)))
    have h12 : (join (join (join (join (join (join (join (join (join (join (join (join c.bits 0x3#3) (BitVec.ofBool p)) (BitVec.ofBool u)) 0x0#1) (BitVec.ofBool w)) 0x1#1) rn) rt) imm5) ty.bits) 0x0#1) rm).extractLsb' 0 4 = rm := (ext_right _ _)
    exact congr (congr (congr (congr (congr (congr (congr (congr (congrArg Instr.ldrReg ((congrArg Cond.ofBits h0).trans (cond_ofBits c))) (h2)) (h3)) (h5)) (h7)) (h8)) (h9)) ((congrArg ShiftType.ofBits h10).trans (shiftType_ofBits ty))) (h12)

theorem EncodesToItself.strImm (c : Cond) (p : Bool) (u : Bool) (w : Bool) (rn : Reg) (rt : Reg) (imm12 : BitVec 12) :
    EncodesToItself.Statement (.strImm c p u w rn rt imm12) := by
  refine ⟨_, rfl, ?_, ?_⟩
  · show encode (.strImm c p u w rn rt imm12) &&& (join (join (join (join (join (join (join (join (join 0x0#4 0x7#3) 0x0#1) 0x0#1) 0x1#1) 0x0#1) 0x1#1) 0x0#4) 0x0#4) 0x0#12) =
      (join (join (join (join (join (join (join (join (join 0x0#4 0x2#3) 0x0#1) 0x0#1) 0x0#1) 0x0#1) 0x0#1) 0x0#4) 0x0#4) 0x0#12)
    exact (and_parts _ _ _ _).trans (by simp only [and_parts, BitVec.and_zero]; try rfl)
  · have h0 : (join (join (join (join (join (join (join (join (join c.bits 0x2#3) (BitVec.ofBool p)) (BitVec.ofBool u)) 0x0#1) (BitVec.ofBool w)) 0x0#1) rn) rt) imm12).extractLsb' 28 4 = c.bits := ((ext_left _ _ _ _ (by decide)).trans ((ext_left _ _ _ _ (by decide)).trans ((ext_left _ _ _ _ (by decide)).trans ((ext_left _ _ _ _ (by decide)).trans ((ext_left _ _ _ _ (by decide)).trans ((ext_left _ _ _ _ (by decide)).trans ((ext_left _ _ _ _ (by decide)).trans ((ext_left _ _ _ _ (by decide)).trans ((ext_left _ _ _ _ (by decide)).trans (ext_only _))))))))))
    have h2 : (join (join (join (join (join (join (join (join (join c.bits 0x2#3) (BitVec.ofBool p)) (BitVec.ofBool u)) 0x0#1) (BitVec.ofBool w)) 0x0#1) rn) rt) imm12).getLsbD 24 = p := ((bit_left _ _ _ (by decide)).trans ((bit_left _ _ _ (by decide)).trans ((bit_left _ _ _ (by decide)).trans ((bit_left _ _ _ (by decide)).trans ((bit_left _ _ _ (by decide)).trans ((bit_left _ _ _ (by decide)).trans ((bit_left _ _ _ (by decide)).trans (bit_right _ _))))))))
    have h3 : (join (join (join (join (join (join (join (join (join c.bits 0x2#3) (BitVec.ofBool p)) (BitVec.ofBool u)) 0x0#1) (BitVec.ofBool w)) 0x0#1) rn) rt) imm12).getLsbD 23 = u := ((bit_left _ _ _ (by decide)).trans ((bit_left _ _ _ (by decide)).trans ((bit_left _ _ _ (by decide)).trans ((bit_left _ _ _ (by decide)).trans ((bit_left _ _ _ (by decide)).trans ((bit_left _ _ _ (by decide)).trans (bit_right _ _)))))))
    have h5 : (join (join (join (join (join (join (join (join (join c.bits 0x2#3) (BitVec.ofBool p)) (BitVec.ofBool u)) 0x0#1) (BitVec.ofBool w)) 0x0#1) rn) rt) imm12).getLsbD 21 = w := ((bit_left _ _ _ (by decide)).trans ((bit_left _ _ _ (by decide)).trans ((bit_left _ _ _ (by decide)).trans ((bit_left _ _ _ (by decide)).trans (bit_right _ _)))))
    have h7 : (join (join (join (join (join (join (join (join (join c.bits 0x2#3) (BitVec.ofBool p)) (BitVec.ofBool u)) 0x0#1) (BitVec.ofBool w)) 0x0#1) rn) rt) imm12).extractLsb' 16 4 = rn := ((ext_left _ _ _ _ (by decide)).trans ((ext_left _ _ _ _ (by decide)).trans (ext_right _ _)))
    have h8 : (join (join (join (join (join (join (join (join (join c.bits 0x2#3) (BitVec.ofBool p)) (BitVec.ofBool u)) 0x0#1) (BitVec.ofBool w)) 0x0#1) rn) rt) imm12).extractLsb' 12 4 = rt := ((ext_left _ _ _ _ (by decide)).trans (ext_right _ _))
    have h9 : (join (join (join (join (join (join (join (join (join c.bits 0x2#3) (BitVec.ofBool p)) (BitVec.ofBool u)) 0x0#1) (BitVec.ofBool w)) 0x0#1) rn) rt) imm12).extractLsb' 0 12 = imm12 := (ext_right _ _)
    exact congr (congr (congr (congr (congr (congr (congrArg Instr.strImm ((congrArg Cond.ofBits h0).trans (cond_ofBits c))) (h2)) (h3)) (h5)) (h7)) (h8)) (h9)

theorem EncodesToItself.strReg (c : Cond) (p : Bool) (u : Bool) (w : Bool) (rn : Reg) (rt : Reg) (imm5 : BitVec 5) (ty : ShiftType) (rm : Reg) :
    EncodesToItself.Statement (.strReg c p u w rn rt imm5 ty rm) := by
  refine ⟨_, rfl, ?_, ?_⟩
  · show encode (.strReg c p u w rn rt imm5 ty rm) &&& (join (join (join (join (join (join (join (join (join (join (join (join 0x0#4 0x7#3) 0x0#1) 0x0#1) 0x1#1) 0x0#1) 0x1#1) 0x0#4) 0x0#4) 0x0#5) 0x0#2) 0x1#1) 0x0#4) =
      (join (join (join (join (join (join (join (join (join (join (join (join 0x0#4 0x3#3) 0x0#1) 0x0#1) 0x0#1) 0x0#1) 0x0#1) 0x0#4) 0x0#4) 0x0#5) 0x0#2) 0x0#1) 0x0#4)
    exact (and_parts _ _ _ _).trans (by simp only [and_parts, BitVec.and_zero]; try rfl)
  · have h0 : (join (join (join (join (join (join (join (join (join (join (join (join c.bits 0x3#3) (BitVec.ofBool p)) (BitVec.ofBool u)) 0x0#1) (BitVec.ofBool w)) 0x0#1) rn) rt) imm5) ty.bits) 0x0#1) rm).extractLsb' 28 4 = c.bits := ((ext_left _ _ _ _ (by decide)).trans ((ext_left _ _ _ _ (by decide)).trans ((ext_left _ _ _ _ (by decide)).trans ((ext_left _ _ _ _ (by decide)).trans ((ext_left _ _ _ _ (by decide)).trans ((ext_left _ _ _ _ (by decide)).trans ((ext_left _ _ _ _ (by decide)).trans ((ext_left _ _ _ _ (by decide)).trans ((ext_left _ _ _ _ (by decide)).trans ((ext_left _ _ _ _ (by decide)).trans ((ext_left _ _ _ _ (by decide)).trans ((ext_left _ _ _ _ (by decide)).trans (ext_only _)))))))))))))
    have h2 : (join (join (join (join (join (join (join (join (join (join (join (join c.bits 0x3#3) (BitVec.ofBool p)) (BitVec.ofBool u)) 0x0#1) (BitVec.ofBool w)) 0x0#1) rn) rt) imm5) ty.bits) 0x0#1) rm).getLsbD 24 = p := ((bit_left _ _ _ (by decide)).trans ((bit_left _ _ _ (by decide)).trans ((bit_left _ _ _ (by decide)).trans ((bit_left _ _ _ (by decide)).trans ((bit_left _ _ _ (by decide)).trans ((bit_left _ _ _ (by decide)).trans ((bit_left _ _ _ (by decide)).trans ((bit_left _ _ _ (by decide)).trans ((bit_left _ _ _ (by decide)).trans ((bit_left _ _ _ (by decide)).trans (bit_right _ _)))))))))))
    have h3 : (join (join (join (join (join (join (join (join (join (join (join (join c.bits 0x3#3) (BitVec.ofBool p)) (BitVec.ofBool u)) 0x0#1) (BitVec.ofBool w)) 0x0#1) rn) rt) imm5) ty.bits) 0x0#1) rm).getLsbD 23 = u := ((bit_left _ _ _ (by decide)).trans ((bit_left _ _ _ (by decide)).trans ((bit_left _ _ _ (by decide)).trans ((bit_left _ _ _ (by decide)).trans ((bit_left _ _ _ (by decide)).trans ((bit_left _ _ _ (by decide)).trans ((bit_left _ _ _ (by decide)).trans ((bit_left _ _ _ (by decide)).trans ((bit_left _ _ _ (by decide)).trans (bit_right _ _))))))))))
    have h5 : (join (join (join (join (join (join (join (join (join (join (join (join c.bits 0x3#3) (BitVec.ofBool p)) (BitVec.ofBool u)) 0x0#1) (BitVec.ofBool w)) 0x0#1) rn) rt) imm5) ty.bits) 0x0#1) rm).getLsbD 21 = w := ((bit_left _ _ _ (by decide)).trans ((bit_left _ _ _ (by decide)).trans ((bit_left _ _ _ (by decide)).trans ((bit_left _ _ _ (by decide)).trans ((bit_left _ _ _ (by decide)).trans ((bit_left _ _ _ (by decide)).trans ((bit_left _ _ _ (by decide)).trans (bit_right _ _))))))))
    have h7 : (join (join (join (join (join (join (join (join (join (join (join (join c.bits 0x3#3) (BitVec.ofBool p)) (BitVec.ofBool u)) 0x0#1) (BitVec.ofBool w)) 0x0#1) rn) rt) imm5) ty.bits) 0x0#1) rm).extractLsb' 16 4 = rn := ((ext_left _ _ _ _ (by decide)).trans ((ext_left _ _ _ _ (by decide)).trans ((ext_left _ _ _ _ (by decide)).trans ((ext_left _ _ _ _ (by decide)).trans ((ext_left _ _ _ _ (by decide)).trans (ext_right _ _))))))
    have h8 : (join (join (join (join (join (join (join (join (join (join (join (join c.bits 0x3#3) (BitVec.ofBool p)) (BitVec.ofBool u)) 0x0#1) (BitVec.ofBool w)) 0x0#1) rn) rt) imm5) ty.bits) 0x0#1) rm).extractLsb' 12 4 = rt := ((ext_left _ _ _ _ (by decide)).trans ((ext_left _ _ _ _ (by decide)).trans ((ext_left _ _ _ _ (by decide)).trans ((ext_left _ _ _ _ (by decide)).trans (ext_right _ _)))))
    have h9 : (join (join (join (join (join (join (join (join (join (join (join (join c.bits 0x3#3) (BitVec.ofBool p)) (BitVec.ofBool u)) 0x0#1) (BitVec.ofBool w)) 0x0#1) rn) rt) imm5) ty.bits) 0x0#1) rm).extractLsb' 7 5 = imm5 := ((ext_left _ _ _ _ (by decide)).trans ((ext_left _ _ _ _ (by decide)).trans ((ext_left _ _ _ _ (by decide)).trans (ext_right _ _))))
    have h10 : (join (join (join (join (join (join (join (join (join (join (join (join c.bits 0x3#3) (BitVec.ofBool p)) (BitVec.ofBool u)) 0x0#1) (BitVec.ofBool w)) 0x0#1) rn) rt) imm5) ty.bits) 0x0#1) rm).extractLsb' 5 2 = ty.bits := ((ext_left _ _ _ _ (by decide)).trans ((ext_left _ _ _ _ (by decide)).trans (ext_right _ _)))
    have h12 : (join (join (join (join (join (join (join (join (join (join (join (join c.bits 0x3#3) (BitVec.ofBool p)) (BitVec.ofBool u)) 0x0#1) (BitVec.ofBool w)) 0x0#1) rn) rt) imm5) ty.bits) 0x0#1) rm).extractLsb' 0 4 = rm := (ext_right _ _)
    exact congr (congr (congr (congr (congr (congr (congr (congr (congrArg Instr.strReg ((congrArg Cond.ofBits h0).trans (cond_ofBits c))) (h2)) (h3)) (h5)) (h7)) (h8)) (h9)) ((congrArg ShiftType.ofBits h10).trans (shiftType_ofBits ty))) (h12)

theorem EncodesToItself.ldrbImm (c : Cond) (p : Bool) (u : Bool) (w : Bool) (rn : Reg) (rt : Reg) (imm12 : BitVec 12) :
    EncodesToItself.Statement (.ldrbImm c p u w rn rt imm12) := by
  refine ⟨_, rfl, ?_, ?_⟩
  · show encode (.ldrbImm c p u w rn rt imm12) &&& (join (join (join (join (join (join (join (join (join 0x0#4 0x7#3) 0x0#1) 0x0#1) 0x1#1) 0x0#1) 0x1#1) 0x0#4) 0x0#4) 0x0#12) =
      (join (join (join (join (join (join (join (join (join 0x0#4 0x2#3) 0x0#1) 0x0#1) 0x1#1) 0x0#1) 0x1#1) 0x0#4) 0x0#4) 0x0#12)
    exact (and_parts _ _ _ _).trans (by simp only [and_parts, BitVec.and_zero]; try rfl)
  · have h0 : (join (join (join (join (join (join (join (join (join c.bits 0x2#3) (BitVec.ofBool p)) (BitVec.ofBool u)) 0x1#1) (BitVec.ofBool w)) 0x1#1) rn) rt) imm12).extractLsb' 28 4 = c.bits := ((ext_left _ _ _ _ (by decide)).trans ((ext_left _ _ _ _ (by decide)).trans ((ext_left _ _ _ _ (by decide)).trans ((ext_left _ _ _ _ (by decide)).trans ((ext_left _ _ _ _ (by decide)).trans ((ext_left _ _ _ _ (by decide)).trans ((ext_left _ _ _ _ (by decide)).trans ((ext_left _ _ _ _ (by decide)).trans ((ext_left _ _ _ _ (by decide)).trans (ext_only _))))))))))
    have h2 : (join (join (join (join (join (join (join (join (join c.bits 0x2#3) (BitVec.ofBool p)) (BitVec.ofBool u)) 0x1#1) (BitVec.ofBool w)) 0x1#1) rn) rt) imm12).getLsbD 24 = p := ((bit_left _ _ _ (by decide)).trans ((bit_left _ _ _ (by decide)).trans ((bit_left _ _ _ (by decide)).trans ((bit_left _ _ _ (by decide)).trans ((bit_left _ _ _ (by decide)).trans ((bit_left _ _ _ (by decide)).trans ((bit_left _ _ _ (by decide)).trans (bit_right _ _))))))))
    have h3 : (join (join (join (join (join (join (join (join (join c.bits 0x2#3) (BitVec.ofBool p)) (BitVec.ofBool u)) 0x1#1) (BitVec.ofBool w)) 0x1#1) rn) rt) imm12).getLsbD 23 = u := ((bit_left _ _ _ (by decide)).trans ((bit_left _ _ _ (by decide)).trans ((bit_left _ _ _ (by decide)).trans ((bit_left _ _ _ (by decide)).trans ((bit_left _ _ _ (by decide)).trans ((bit_left _ _ _ (by decide)).trans (bit_right _ _)))))))
    have h5 : (join (join (join (join (join (join (join (join (join c.bits 0x2#3) (BitVec.ofBool p)) (BitVec.ofBool u)) 0x1#1) (BitVec.ofBool w)) 0x1#1) rn) rt) imm12).getLsbD 21 = w := ((bit_left _ _ _ (by decide)).trans ((bit_left _ _ _ (by decide)).trans ((bit_left _ _ _ (by decide)).trans ((bit_left _ _ _ (by decide)).trans (bit_right _ _)))))
    have h7 : (join (join (join (join (join (join (join (join (join c.bits 0x2#3) (BitVec.ofBool p)) (BitVec.ofBool u)) 0x1#1) (BitVec.ofBool w)) 0x1#1) rn) rt) imm12).extractLsb' 16 4 = rn := ((ext_left _ _ _ _ (by decide)).trans ((ext_left _ _ _ _ (by decide)).trans (ext_right _ _)))
    have h8 : (join (join (join (join (join (join (join (join (join c.bits 0x2#3) (BitVec.ofBool p)) (BitVec.ofBool u)) 0x1#1) (BitVec.ofBool w)) 0x1#1) rn) rt) imm12).extractLsb' 12 4 = rt := ((ext_left _ _ _ _ (by decide)).trans (ext_right _ _))
    have h9 : (join (join (join (join (join (join (join (join (join c.bits 0x2#3) (BitVec.ofBool p)) (BitVec.ofBool u)) 0x1#1) (BitVec.ofBool w)) 0x1#1) rn) rt) imm12).extractLsb' 0 12 = imm12 := (ext_right _ _)
    exact congr (congr (congr (congr (congr (congr (congrArg Instr.ldrbImm ((congrArg Cond.ofBits h0).trans (cond_ofBits c))) (h2)) (h3)) (h5)) (h7)) (h8)) (h9)

theorem EncodesToItself.ldrbReg (c : Cond) (p : Bool) (u : Bool) (w : Bool) (rn : Reg) (rt : Reg) (imm5 : BitVec 5) (ty : ShiftType) (rm : Reg) :
    EncodesToItself.Statement (.ldrbReg c p u w rn rt imm5 ty rm) := by
  refine ⟨_, rfl, ?_, ?_⟩
  · show encode (.ldrbReg c p u w rn rt imm5 ty rm) &&& (join (join (join (join (join (join (join (join (join (join (join (join 0x0#4 0x7#3) 0x0#1) 0x0#1) 0x1#1) 0x0#1) 0x1#1) 0x0#4) 0x0#4) 0x0#5) 0x0#2) 0x1#1) 0x0#4) =
      (join (join (join (join (join (join (join (join (join (join (join (join 0x0#4 0x3#3) 0x0#1) 0x0#1) 0x1#1) 0x0#1) 0x1#1) 0x0#4) 0x0#4) 0x0#5) 0x0#2) 0x0#1) 0x0#4)
    exact (and_parts _ _ _ _).trans (by simp only [and_parts, BitVec.and_zero]; try rfl)
  · have h0 : (join (join (join (join (join (join (join (join (join (join (join (join c.bits 0x3#3) (BitVec.ofBool p)) (BitVec.ofBool u)) 0x1#1) (BitVec.ofBool w)) 0x1#1) rn) rt) imm5) ty.bits) 0x0#1) rm).extractLsb' 28 4 = c.bits := ((ext_left _ _ _ _ (by decide)).trans ((ext_left _ _ _ _ (by decide)).trans ((ext_left _ _ _ _ (by decide)).trans ((ext_left _ _ _ _ (by decide)).trans ((ext_left _ _ _ _ (by decide)).trans ((ext_left _ _ _ _ (by decide)).trans ((ext_left _ _ _ _ (by decide)).trans ((ext_left _ _ _ _ (by decide)).trans ((ext_left _ _ _ _ (by decide)).trans ((ext_left _ _ _ _ (by decide)).trans ((ext_left _ _ _ _ (by decide)).trans ((ext_left _ _ _ _ (by decide)).trans (ext_only _)))))))))))))
    have h2 : (join (join (join (join (join (join (join (join (join (join (join (join c.bits 0x3#3) (BitVec.ofBool p)) (BitVec.ofBool u)) 0x1#1) (BitVec.ofBool w)) 0x1#1) rn) rt) imm5) ty.bits) 0x0#1) rm).getLsbD 24 = p := ((bit_left _ _ _ (by decide)).trans ((bit_left _ _ _ (by decide)).trans ((bit_left _ _ _ (by decide)).trans ((bit_left _ _ _ (by decide)).trans ((bit_left _ _ _ (by decide)).trans ((bit_left _ _ _ (by decide)).trans ((bit_left _ _ _ (by decide)).trans ((bit_left _ _ _ (by decide)).trans ((bit_left _ _ _ (by decide)).trans ((bit_left _ _ _ (by decide)).trans (bit_right _ _)))))))))))
    have h3 : (join (join (join (join (join (join (join (join (join (join (join (join c.bits 0x3#3) (BitVec.ofBool p)) (BitVec.ofBool u)) 0x1#1) (BitVec.ofBool w)) 0x1#1) rn) rt) imm5) ty.bits) 0x0#1) rm).getLsbD 23 = u := ((bit_left _ _ _ (by decide)).trans ((bit_left _ _ _ (by decide)).trans ((bit_left _ _ _ (by decide)).trans ((bit_left _ _ _ (by decide)).trans ((bit_left _ _ _ (by decide)).trans ((bit_left _ _ _ (by decide)).trans ((bit_left _ _ _ (by decide)).trans ((bit_left _ _ _ (by decide)).trans ((bit_left _ _ _ (by decide)).trans (bit_right _ _))))))))))
    have h5 : (join (join (join (join (join (join (join (join (join (join (join (join c.bits 0x3#3) (BitVec.ofBool p)) (BitVec.ofBool u)) 0x1#1) (BitVec.ofBool w)) 0x1#1) rn) rt) imm5) ty.bits) 0x0#1) rm).getLsbD 21 = w := ((bit_left _ _ _ (by decide)).trans ((bit_left _ _ _ (by decide)).trans ((bit_left _ _ _ (by decide)).trans ((bit_left _ _ _ (by decide)).trans ((bit_left _ _ _ (by decide)).trans ((bit_left _ _ _ (by decide)).trans ((bit_left _ _ _ (by decide)).trans (bit_right _ _))))))))
    have h7 : (join (join (join (join (join (join (join (join (join (join (join (join c.bits 0x3#3) (BitVec.ofBool p)) (BitVec.ofBool u)) 0x1#1) (BitVec.ofBool w)) 0x1#1) rn) rt) imm5) ty.bits) 0x0#1) rm).extractLsb' 16 4 = rn := ((ext_left _ _ _ _ (by decide)).trans ((ext_left _ _ _ _ (by decide)).trans ((ext_left _ _ _ _ (by decide)).trans ((ext_left _ _ _ _ (by decide)).trans ((ext_left _ _ _ _ (by decide)).trans (ext_right _ _))))))
    have h8 : (join (join (join (join (join (join (join (join (join (join (join (join c.bits 0x3#3) (BitVec.ofBool p)) (BitVec.ofBool u)) 0x1#1) (BitVec.ofBool w)) 0x1#1) rn) rt) imm5) ty.bits) 0x0#1) rm).extractLsb' 12 4 = rt := ((ext_left _ _ _ _ (by decide)).trans ((ext_left _ _ _ _ (by decide)).trans ((ext_left _ _ _ _ (by decide)).trans ((ext_left _ _ _ _ (by decide)).trans (ext_right _ _)))))
    have h9 : (join (join (join (join (join (join (join (join (join (join (join (join c.bits 0x3#3) (BitVec.ofBool p)) (BitVec.ofBool u)) 0x1#1) (BitVec.ofBool w)) 0x1#1) rn) rt) imm5) ty.bits) 0x0#1) rm).extractLsb' 7 5 = imm5 := ((ext_left _ _ _ _ (by decide)).trans ((ext_left _ _ _ _ (by decide)).trans ((ext_left _ _ _ _ (by decide)).trans (ext_right _ _))))
    have h10 : (join (join (join (join (join (join (join (join (join (join (join (join c.bits 0x3#3) (BitVec.ofBool p)) (BitVec.ofBool u)) 0x1#1) (BitVec.ofBool w)) 0x1#1) rn) rt) imm5) ty.bits) 0x0#1) rm).extractLsb' 5 2 = ty.bits := ((ext_left _ _ _ _ (by decide)).trans ((ext_left _ _ _ _ (by decide)).trans (ext_right _ _)))
    have h12 : (join (join (join (join (join (join (join (join (join (join (join (join c.bits 0x3#3) (BitVec.ofBool p)) (BitVec.ofBool u)) 0x1#1) (BitVec.ofBool w)) 0x1#1) rn) rt) imm5) ty.bits) 0x0#1) rm).extractLsb' 0 4 = rm := (ext_right _ _)
    exact congr (congr (congr (congr (congr (congr (congr (congr (congrArg Instr.ldrbReg ((congrArg Cond.ofBits h0).trans (cond_ofBits c))) (h2)) (h3)) (h5)) (h7)) (h8)) (h9)) ((congrArg ShiftType.ofBits h10).trans (shiftType_ofBits ty))) (h12)

theorem EncodesToItself.strbImm (c : Cond) (p : Bool) (u : Bool) (w : Bool) (rn : Reg) (rt : Reg) (imm12 : BitVec 12) :
    EncodesToItself.Statement (.strbImm c p u w rn rt imm12) := by
  refine ⟨_, rfl, ?_, ?_⟩
  · show encode (.strbImm c p u w rn rt imm12) &&& (join (join (join (join (join (join (join (join (join 0x0#4 0x7#3) 0x0#1) 0x0#1) 0x1#1) 0x0#1) 0x1#1) 0x0#4) 0x0#4) 0x0#12) =
      (join (join (join (join (join (join (join (join (join 0x0#4 0x2#3) 0x0#1) 0x0#1) 0x1#1) 0x0#1) 0x0#1) 0x0#4) 0x0#4) 0x0#12)
    exact (and_parts _ _ _ _).trans (by simp only [and_parts, BitVec.and_zero]; try rfl)
  · have h0 : (join (join (join (join (join (join (join (join (join c.bits 0x2#3) (BitVec.ofBool p)) (BitVec.ofBool u)) 0x1#1) (BitVec.ofBool w)) 0x0#1) rn) rt) imm12).extractLsb' 28 4 = c.bits := ((ext_left _ _ _ _ (by decide)).trans ((ext_left _ _ _ _ (by decide)).trans ((ext_left _ _ _ _ (by decide)).trans ((ext_left _ _ _ _ (by decide)).trans ((ext_left _ _ _ _ (by decide)).trans ((ext_left _ _ _ _ (by decide)).trans ((ext_left _ _ _ _ (by decide)).trans ((ext_left _ _ _ _ (by decide)).trans ((ext_left _ _ _ _ (by decide)).trans (ext_only _))))))))))
    have h2 : (join (join (join (join (join (join (join (join (join c.bits 0x2#3) (BitVec.ofBool p)) (BitVec.ofBool u)) 0x1#1) (BitVec.ofBool w)) 0x0#1) rn) rt) imm12).getLsbD 24 = p := ((bit_left _ _ _ (by decide)).trans ((bit_left _ _ _ (by decide)).trans ((bit_left _ _ _ (by decide)).trans ((bit_left _ _ _ (by decide)).trans ((bit_left _ _ _ (by decide)).trans ((bit_left _ _ _ (by decide)).trans ((bit_left _ _ _ (by decide)).trans (bit_right _ _))))))))
    have h3 : (join (join (join (join (join (join (join (join (join c.bits 0x2#3) (BitVec.ofBool p)) (BitVec.ofBool u)) 0x1#1) (BitVec.ofBool w)) 0x0#1) rn) rt) imm12).getLsbD 23 = u := ((bit_left _ _ _ (by decide)).trans ((bit_left _ _ _ (by decide)).trans ((bit_left _ _ _ (by decide)).trans ((bit_left _ _ _ (by decide)).trans ((bit_left _ _ _ (by decide)).trans ((bit_left _ _ _ (by decide)).trans (bit_right _ _)))))))
    have h5 : (join (join (join (join (join (join (join (join (join c.bits 0x2#3) (BitVec.ofBool p)) (BitVec.ofBool u)) 0x1#1) (BitVec.ofBool w)) 0x0#1) rn) rt) imm12).getLsbD 21 = w := ((bit_left _ _ _ (by decide)).trans ((bit_left _ _ _ (by decide)).trans ((bit_left _ _ _ (by decide)).trans ((bit_left _ _ _ (by decide)).trans (bit_right _ _)))))
    have h7 : (join (join (join (join (join (join (join (join (join c.bits 0x2#3) (BitVec.ofBool p)) (BitVec.ofBool u)) 0x1#1) (BitVec.ofBool w)) 0x0#1) rn) rt) imm12).extractLsb' 16 4 = rn := ((ext_left _ _ _ _ (by decide)).trans ((ext_left _ _ _ _ (by decide)).trans (ext_right _ _)))
    have h8 : (join (join (join (join (join (join (join (join (join c.bits 0x2#3) (BitVec.ofBool p)) (BitVec.ofBool u)) 0x1#1) (BitVec.ofBool w)) 0x0#1) rn) rt) imm12).extractLsb' 12 4 = rt := ((ext_left _ _ _ _ (by decide)).trans (ext_right _ _))
    have h9 : (join (join (join (join (join (join (join (join (join c.bits 0x2#3) (BitVec.ofBool p)) (BitVec.ofBool u)) 0x1#1) (BitVec.ofBool w)) 0x0#1) rn) rt) imm12).extractLsb' 0 12 = imm12 := (ext_right _ _)
    exact congr (congr (congr (congr (congr (congr (congrArg Instr.strbImm ((congrArg Cond.ofBits h0).trans (cond_ofBits c))) (h2)) (h3)) (h5)) (h7)) (h8)) (h9)

theorem EncodesToItself.strbReg (c : Cond) (p : Bool) (u : Bool) (w : Bool) (rn : Reg) (rt : Reg) (imm5 : BitVec 5) (ty : ShiftType) (rm : Reg) :
    EncodesToItself.Statement (.strbReg c p u w rn rt imm5 ty rm) := by
  refine ⟨_, rfl, ?_, ?_⟩
  · show encode (.strbReg c p u w rn rt imm5 ty rm) &&& (join (join (join (join (join (join (join (join (join (join (join (join 0x0#4 0x7#3) 0x0#1) 0x0#1) 0x1#1) 0x0#1) 0x1#1) 0x0#4) 0x0#4) 0x0#5) 0x0#2) 0x1#1) 0x0#4) =
      (join (join (join (join (join (join (join (join (join (join (join (join 0x0#4 0x3#3) 0x0#1) 0x0#1) 0x1#1) 0x0#1) 0x0#1) 0x0#4) 0x0#4) 0x0#5) 0x0#2) 0x0#1) 0x0#4)
    exact (and_parts _ _ _ _).trans (by simp only [and_parts, BitVec.and_zero]; try rfl)
  · have h0 : (join (join (join (join (join (join (join (join (join (join (join (join c.bits 0x3#3) (BitVec.ofBool p)) (BitVec.ofBool u)) 0x1#1) (BitVec.ofBool w)) 0x0#1) rn) rt) imm5) ty.bits) 0x0#1) rm).extractLsb' 28 4 = c.bits := ((ext_left _ _ _ _ (by decide)).trans ((ext_left _ _ _ _ (by decide)).trans ((ext_left _ _ _ _ (by decide)).trans ((ext_left _ _ _ _ (by decide)).trans ((ext_left _ _ _ _ (by decide)).trans ((ext_left _ _ _ _ (by decide)).trans ((ext_left _ _ _ _ (by decide)).trans ((ext_left _ _ _ _ (by decide)).trans ((ext_left _ _ _ _ (by decide)).trans ((ext_left _ _ _ _ (by decide)).trans ((ext_left _ _ _ _ (by decide)).trans ((ext_left _ _ _ _ (by decide)).trans (ext_only _)))))))))))))
    have h2 : (join (join (join (join (join (join (join (join (join (join (join (join c.bits 0x3#3) (BitVec.ofBool p)) (BitVec.ofBool u)) 0x1#1) (BitVec.ofBool w)) 0x0#1) rn) rt) imm5) ty.bits) 0x0#1) rm).getLsbD 24 = p := ((bit_left _ _ _ (by decide)).trans ((bit_left _ _ _ (by decide)).trans ((bit_left _ _ _ (by decide)).trans ((bit_left _ _ _ (by decide)).trans ((bit_left _ _ _ (by decide)).trans ((bit_left _ _ _ (by decide)).trans ((bit_left _ _ _ (by decide)).trans ((bit_left _ _ _ (by decide)).trans ((bit_left _ _ _ (by decide)).trans ((bit_left _ _ _ (by decide)).trans (bit_right _ _)))))))))))
    have h3 : (join (join (join (join (join (join (join (join (join (join (join (join c.bits 0x3#3) (BitVec.ofBool p)) (BitVec.ofBool u)) 0x1#1) (BitVec.ofBool w)) 0x0#1) rn) rt) imm5) ty.bits) 0x0#1) rm).getLsbD 23 = u := ((bit_left _ _ _ (by decide)).trans ((bit_left _ _ _ (by decide)).trans ((bit_left _ _ _ (by decide)).trans ((bit_left _ _ _ (by decide)).trans ((bit_left _ _ _ (by decide)).trans ((bit_left _ _ _ (by decide)).trans ((bit_left _ _ _ (by decide)).trans ((bit_left _ _ _ (by decide)).trans ((bit_left _ _ _ (by decide)).trans (bit_right _ _))))))))))
    have h5 : (join (join (join (join (join (join (join (join (join (join (join (join c.bits 0x3#3) (BitVec.ofBool p)) (BitVec.ofBool u)) 0x1#1) (BitVec.ofBool w)) 0x0#1) rn) rt) imm5) ty.bits) 0x0#1) rm).getLsbD 21 = w := ((bit_left _ _ _ (by decide)).trans ((bit_left _ _ _ (by decide)).trans ((bit_left _ _ _ (by decide)).trans ((bit_left _ _ _ (by decide)).trans ((bit_left _ _ _ (by decide)).trans ((bit_left _ _ _ (by decide)).trans ((bit_left _ _ _ (by decide)).trans (bit_right _ _))))))))
    have h7 : (join (join (join (join (join (join (join (join (join (join (join (join c.bits 0x3#3) (BitVec.ofBool p)) (BitVec.ofBool u)) 0x1#1) (BitVec.ofBool w)) 0x0#1) rn) rt) imm5) ty.bits) 0x0#1) rm).extractLsb' 16 4 = rn := ((ext_left _ _ _ _ (by decide)).trans ((ext_left _ _ _ _ (by decide)).trans ((ext_left _ _ _ _ (by decide)).trans ((ext_left _ _ _ _ (by decide)).trans ((ext_left _ _ _ _ (by decide)).trans (ext_right _ _))))))
    have h8 : (join (join (join (join (join (join (join (join (join (join (join (join c.bits 0x3#3) (BitVec.ofBool p)) (BitVec.ofBool u)) 0x1#1) (BitVec.ofBool w)) 0x0#1) rn) rt) imm5) ty.bits) 0x0#1) rm).extractLsb' 12 4 = rt := ((ext_left _ _ _ _ (by decide)).trans ((ext_left _ _ _ _ (by decide)).trans ((ext_left _ _ _ _ (by decide)).trans ((ext_left _ _ _ _ (by decide)).trans (ext_right _ _)))))
    have h9 : (join (join (join (join (join (join (join (join (join (join (join (join c.bits 0x3#3) (BitVec.ofBool p)) (BitVec.ofBool u)) 0x1#1) (BitVec.ofBool w)) 0x0#1) rn) rt) imm5) ty.bits) 0x0#1) rm).extractLsb' 7 5 = imm5 := ((ext_left _ _ _ _ (by decide)).trans ((ext_left _ _ _ _ (by decide)).trans ((ext_left _ _ _ _ (by decide)).trans (ext_right _ _))))
    have h10 : (join (join (join (join (join (join (join (join (join (join (join (join c.bits 0x3#3) (BitVec.ofBool p)) (BitVec.ofBool u)) 0x1#1) (BitVec.ofBool w)) 0x0#1) rn) rt) imm5) ty.bits) 0x0#1) rm).extractLsb' 5 2 = ty.bits := ((ext_left _ _ _ _ (by decide)).trans ((ext_left _ _ _ _ (by decide)).trans (ext_right _ _)))
    have h12 : (join (join (join (join (join (join (join (join (join (join (join (join c.bits 0x3#3) (BitVec.ofBool p)) (BitVec.ofBool u)) 0x1#1) (BitVec.ofBool w)) 0x0#1) rn) rt) imm5) ty.bits) 0x0#1) rm).extractLsb' 0 4 = rm := (ext_right _ _)
    exact congr (congr (congr (congr (congr (congr (congr (congr (congrArg Instr.strbReg ((congrArg Cond.ofBits h0).trans (cond_ofBits c))) (h2)) (h3)) (h5)) (h7)) (h8)) (h9)) ((congrArg ShiftType.ofBits h10).trans (shiftType_ofBits ty))) (h12)

theorem EncodesToItself.pop (c : Cond) (regs : BitVec 16) :
    EncodesToItself.Statement (.pop c regs) := by
  refine ⟨_, rfl, ?_, ?_⟩
  · show encode (.pop c regs) &&& (join (join 0x0#4 0xfff#12) 0x0#16) =
      (join (join 0x0#4 0x8bd#12) 0x0#16)
    exact (and_parts _ _ _ _).trans (by simp only [and_parts, BitVec.and_zero]; try rfl)
  · have h0 : (join (join c.bits 0x8bd#12) regs).extractLsb' 28 4 = c.bits := ((ext_left _ _ _ _ (by decide)).trans ((ext_left _ _ _ _ (by decide)).trans (ext_only _)))
    have h2 : (join (join c.bits 0x8bd#12) regs).extractLsb' 0 16 = regs := (ext_right _ _)
    exact congr (congrArg Instr.pop ((congrArg Cond.ofBits h0).trans (cond_ofBits c))) (h2)

theorem EncodesToItself.push (c : Cond) (regs : BitVec 16) :
    EncodesToItself.Statement (.push c regs) := by
  refine ⟨_, rfl, ?_, ?_⟩
  · show encode (.push c regs) &&& (join (join 0x0#4 0xfff#12) 0x0#16) =
      (join (join 0x0#4 0x92d#12) 0x0#16)
    exact (and_parts _ _ _ _).trans (by simp only [and_parts, BitVec.and_zero]; try rfl)
  · have h0 : (join (join c.bits 0x92d#12) regs).extractLsb' 28 4 = c.bits := ((ext_left _ _ _ _ (by decide)).trans ((ext_left _ _ _ _ (by decide)).trans (ext_only _)))
    have h2 : (join (join c.bits 0x92d#12) regs).extractLsb' 0 16 = regs := (ext_right _ _)
    exact congr (congrArg Instr.push ((congrArg Cond.ofBits h0).trans (cond_ofBits c))) (h2)

theorem EncodesToItself.ldm (c : Cond) (p : Bool) (u : Bool) (s : Bool) (w : Bool) (rn : Reg) (regs : BitVec 16) :
    EncodesToItself.Statement (.ldm c p u s w rn regs) := by
  refine ⟨_, rfl, ?_, ?_⟩
  · show encode (.ldm c p u s w rn regs) &&& (join (join (join (join (join (join (join (join 0x0#4 0x7#3) 0x0#1) 0x0#1) 0x0#1) 0x0#1) 0x1#1) 0x0#4) 0x0#16) =
      (join (join (join (join (join (join (join (join 0x0#4 0x4#3) 0x0#1) 0x0#1) 0x0#1) 0x0#1) 0x1#1) 0x0#4) 0x0#16)
    exact (and_parts _ _ _ _).trans (by simp only [and_parts, BitVec.and_zero]; try rfl)
  · have h0 : (join (join (join (join (join (join (join (join c.bits 0x4#3) (BitVec.ofBool p)) (BitVec.ofBool u)) (BitVec.ofBool s)) (BitVec.ofBool w)) 0x1#1) rn) regs).extractLsb' 28 4 = c.bits := ((ext_left _ _ _ _ (by decide)).trans ((ext_left _ _ _ _ (by decide)).trans ((ext_left _ _ _ _ (by decide)).trans ((ext_left _ _ _ _ (by decide)).trans ((ext_left _ _ _ _ (by decide)).trans ((ext_left _ _ _ _ (by decide)).trans ((ext_left _ _ _ _ (by decide)).trans ((ext_left _ _ _ _ (by decide)).trans (ext_only _)))))))))
    have h2 : (join (join (join (join (join (join (join (join c.bits 0x4#3) (BitVec.ofBool p)) (BitVec.ofBool u)) (BitVec.ofBool s)) (BitVec.ofBool w)) 0x1#1) rn) regs).getLsbD 24 = p := ((bit_left _ _ _ (by decide)).trans ((bit_left _ _ _ (by decide)).trans ((bit_left _ _ _ (by decide)).trans ((bit_left _ _ _ (by decide)).trans ((bit_left _ _ _ (by decide)).trans ((bit_left _ _ _ (by decide)).trans (bit_right _ _)))))))
    have h3 : (join (join (join (join (join (join (join (join c.bits 0x4#3) (BitVec.ofBool p)) (BitVec.ofBool u)) (BitVec.ofBool s)) (BitVec.ofBool w)) 0x1#1) rn) regs).getLsbD 23 = u := ((bit_left _ _ _ (by decide)).trans ((bit_left _ _ _ (by decide)).trans ((bit_left _ _ _ (by decide)).trans ((bit_left _ _ _ (by decide)).trans ((bit_left _ _ _ (by decide)).trans (bit_right _ _))))))
    have h4 : (join (join (join (join (join (join (join (join c.bits 0x4#3) (BitVec.ofBool p)) (BitVec.ofBool u)) (BitVec.ofBool s)) (BitVec.ofBool w)) 0x1#1) rn) regs).getLsbD 22 = s := ((bit_left _ _ _ (by decide)).trans ((bit_left _ _ _ (by decide)).trans ((bit_left _ _ _ (by decide)).trans ((bit_left _ _ _ (by decide)).trans (bit_right _ _)))))
    have h5 : (join (join (join (join (join (join (join (join c.bits 0x4#3) (BitVec.ofBool p)) (BitVec.ofBool u)) (BitVec.ofBool s)) (BitVec.ofBool w)) 0x1#1) rn) regs).getLsbD 21 = w := ((bit_left _ _ _ (by decide)).trans ((bit_left _ _ _ (by decide)).trans ((bit_left _ _ _ (by decide)).trans (bit_right _ _))))
    have h7 : (join (join (join (join (join (join (join (join c.bits 0x4#3) (BitVec.ofBool p)) (BitVec.ofBool u)) (BitVec.ofBool s)) (BitVec.ofBool w)) 0x1#1) rn) regs).extractLsb' 16 4 = rn := ((ext_left _ _ _ _ (by decide)).trans (ext_right _ _))
    have h8 : (join (join (join (join (join (join (join (join c.bits 0x4#3) (BitVec.ofBool p)) (BitVec.ofBool u)) (BitVec.ofBool s)) (BitVec.ofBool w)) 0x1#1) rn) regs).extractLsb' 0 16 = regs := (ext_right _ _)
    exact congr (congr (congr (congr (congr (congr (congrArg Instr.ldm ((congrArg Cond.ofBits h0).trans (cond_ofBits c))) (h2)) (h3)) (h4)) (h5)) (h7)) (h8)

theorem EncodesToItself.stm (c : Cond) (p : Bool) (u : Bool) (s : Bool) (w : Bool) (rn : Reg) (regs : BitVec 16) :
    EncodesToItself.Statement (.stm c p u s w rn regs) := by
  refine ⟨_, rfl, ?_, ?_⟩
  · show encode (.stm c p u s w rn regs) &&& (join (join (join (join (join (join (join (join 0x0#4 0x7#3) 0x0#1) 0x0#1) 0x0#1) 0x0#1) 0x1#1) 0x0#4) 0x0#16) =
      (join (join (join (join (join (join (join (join 0x0#4 0x4#3) 0x0#1) 0x0#1) 0x0#1) 0x0#1) 0x0#1) 0x0#4) 0x0#16)
    exact (and_parts _ _ _ _).trans (by simp only [and_parts, BitVec.and_zero]; try rfl)
  · have h0 : (join (join (join (join (join (join (join (join c.bits 0x4#3) (BitVec.ofBool p)) (BitVec.ofBool u)) (BitVec.ofBool s)) (BitVec.ofBool w)) 0x0#1) rn) regs).extractLsb' 28 4 = c.bits := ((ext_left _ _ _ _ (by decide)).trans ((ext_left _ _ _ _ (by decide)).trans ((ext_left _ _ _ _ (by decide)).trans ((ext_left _ _ _ _ (by decide)).trans ((ext_left _ _ _ _ (by decide)).trans ((ext_left _ _ _ _ (by decide)).trans ((ext_left _ _ _ _ (by decide)).trans ((ext_left _ _ _ _ (by decide)).trans (ext_only _)))))))))
    have h2 : (join (join (join (join (join (join (join (join c.bits 0x4#3) (BitVec.ofBool p)) (BitVec.ofBool u)) (BitVec.ofBool s)) (BitVec.ofBool w)) 0x0#1) rn) regs).getLsbD 24 = p := ((bit_left _ _ _ (by decide)).trans ((bit_left _ _ _ (by decide)).trans ((bit_left _ _ _ (by decide)).trans ((bit_left _ _ _ (by decide)).trans ((bit_left _ _ _ (by decide)).trans ((bit_left _ _ _ (by decide)).trans (bit_right _ _)))))))
    have h3 : (join (join (join (join (join (join (join (join c.bits 0x4#3) (BitVec.ofBool p)) (BitVec.ofBool u)) (BitVec.ofBool s)) (BitVec.ofBool w)) 0x0#1) rn) regs).getLsbD 23 = u := ((bit_left _ _ _ (by decide)).trans ((bit_left _ _ _ (by decide)).trans ((bit_left _ _ _ (by decide)).trans ((bit_left _ _ _ (by decide)).trans ((bit_left _ _ _ (by decide)).trans (bit_right _ _))))))
    have h4 : (join (join (join (join (join (join (join (join c.bits 0x4#3) (BitVec.ofBool p)) (BitVec.ofBool u)) (BitVec.ofBool s)) (BitVec.ofBool w)) 0x0#1) rn) regs).getLsbD 22 = s := ((bit_left _ _ _ (by decide)).trans ((bit_left _ _ _ (by decide)).trans ((bit_left _ _ _ (by decide)).trans ((bit_left _ _ _ (by decide)).trans (bit_right _ _)))))
    have h5 : (join (join (join (join (join (join (join (join c.bits 0x4#3) (BitVec.ofBool p)) (BitVec.ofBool u)) (BitVec.ofBool s)) (BitVec.ofBool w)) 0x0#1) rn) regs).getLsbD 21 = w := ((bit_left _ _ _ (by decide)).trans ((bit_left _ _ _ (by decide)).trans ((bit_left _ _ _ (by decide)).trans (bit_right _ _))))
    have h7 : (join (join (join (join (join (join (join (join c.bits 0x4#3) (BitVec.ofBool p)) (BitVec.ofBool u)) (BitVec.ofBool s)) (BitVec.ofBool w)) 0x0#1) rn) regs).extractLsb' 16 4 = rn := ((ext_left _ _ _ _ (by decide)).trans (ext_right _ _))
    have h8 : (join (join (join (join (join (join (join (join c.bits 0x4#3) (BitVec.ofBool p)) (BitVec.ofBool u)) (BitVec.ofBool s)) (BitVec.ofBool w)) 0x0#1) rn) regs).extractLsb' 0 16 = regs := (ext_right _ _)
    exact congr (congr (congr (congr (congr (congr (congrArg Instr.stm ((congrArg Cond.ofBits h0).trans (cond_ofBits c))) (h2)) (h3)) (h4)) (h5)) (h7)) (h8)

theorem EncodesToItself.b (c : Cond) (imm24 : BitVec 24) :
    EncodesToItself.Statement (.b c imm24) := by
  refine ⟨_, rfl, ?_, ?_⟩
  · show encode (.b c imm24) &&& (join (join 0x0#4 0xf#4) 0x0#24) =
      (join (join 0x0#4 0xa#4) 0x0#24)
    exact (and_parts _ _ _ _).trans (by simp only [and_parts, BitVec.and_zero]; try rfl)
  · have h0 : (join (join c.bits 0xa#4) imm24).extractLsb' 28 4 = c.bits := ((ext_left _ _ _ _ (by decide)).trans ((ext_left _ _ _ _ (by decide)).trans (ext_only _)))
    have h2 : (join (join c.bits 0xa#4) imm24).extractLsb' 0 24 = imm24 := (ext_right _ _)
    exact congr (congrArg Instr.b ((congrArg Cond.ofBits h0).trans (cond_ofBits c))) (h2)

theorem EncodesToItself.bl (c : Cond) (imm24 : BitVec 24) :
    EncodesToItself.Statement (.bl c imm24) := by
  refine ⟨_, rfl, ?_, ?_⟩
  · show encode (.bl c imm24) &&& (join (join 0x0#4 0xf#4) 0x0#24) =
      (join (join 0x0#4 0xb#4) 0x0#24)
    exact (and_parts _ _ _ _).trans (by simp only [and_parts, BitVec.and_zero]; try rfl)
  · have h0 : (join (join c.bits 0xb#4) imm24).extractLsb' 28 4 = c.bits := ((ext_left _ _ _ _ (by decide)).trans ((ext_left _ _ _ _ (by decide)).trans (ext_only _)))
    have h2 : (join (join c.bits 0xb#4) imm24).extractLsb' 0 24 = imm24 := (ext_right _ _)
    exact congr (congrArg Instr.bl ((congrArg Cond.ofBits h0).trans (cond_ofBits c))) (h2)

theorem EncodesToItself.svc (c : Cond) (imm24 : BitVec 24) :
    EncodesToItself.Statement (.svc c imm24) := by
  refine ⟨_, rfl, ?_, ?_⟩
  · show encode (.svc c imm24) &&& (join (join 0x0#4 0xf#4) 0x0#24) =
      (join (join 0x0#4 0xf#4) 0x0#24)
    exact (and_parts _ _ _ _).trans (by simp only [and_parts, BitVec.and_zero]; try rfl)
  · have h0 : (join (join c.bits 0xf#4) imm24).extractLsb' 28 4 = c.bits := ((ext_left _ _ _ _ (by decide)).trans ((ext_left _ _ _ _ (by decide)).trans (ext_only _)))
    have h2 : (join (join c.bits 0xf#4) imm24).extractLsb' 0 24 = imm24 := (ext_right _ _)
    exact congr (congrArg Instr.svc ((congrArg Cond.ofBits h0).trans (cond_ofBits c))) (h2)

theorem EncodesToItself.vmrs (c : Cond) (reg : BitVec 4) (rt : Reg) :
    EncodesToItself.Statement (.vmrs c reg rt) := by
  refine ⟨_, rfl, ?_, ?_⟩
  · show encode (.vmrs c reg rt) &&& (join (join (join (join 0x0#4 0xff#8) 0x0#4) 0x0#4) 0xfff#12) =
      (join (join (join (join 0x0#4 0xef#8) 0x0#4) 0x0#4) 0xa10#12)
    exact (and_parts _ _ _ _).trans (by simp only [and_parts, BitVec.and_zero]; try rfl)
  · have h0 : (join (join (join (join c.bits 0xef#8) reg) rt) 0xa10#12).extractLsb' 28 4 = c.bits := ((ext_left _ _ _ _ (by decide)).trans ((ext_left _ _ _ _ (by decide)).trans ((ext_left _ _ _ _ (by decide)).trans ((ext_left _ _ _ _ (by decide)).trans (ext_only _)))))
    have h2 : (join (join (join (join c.bits 0xef#8) reg) rt) 0xa10#12).extractLsb' 16 4 = reg := ((ext_left _ _ _ _ (by decide)).trans ((ext_left _ _ _ _ (by decide)).trans (ext_right _ _)))
    have h3 : (join (join (join (join c.bits 0xef#8) reg) rt) 0xa10#12).extractLsb' 12 4 = rt := ((ext_left _ _ _ _ (by decide)).trans (ext_right _ _))
    exact congr (congr (congrArg Instr.vmrs ((congrArg Cond.ofBits h0).trans (cond_ofBits c))) (h2)) (h3)

theorem EncodesToItself.vmsr (c : Cond) (reg : BitVec 4) (rt : Reg) :
    EncodesToItself.Statement (.vmsr c reg rt) := by
  refine ⟨_, rfl, ?_, ?_⟩
  · show encode (.vmsr c reg rt) &&& (join (join (join (join 0x0#4 0xff#8) 0x0#4) 0x0#4) 0xfff#12) =
      (join (join (join (join 0x0#4 0xee#8) 0x0#4) 0x0#4) 0xa10#12)
    exact (and_parts _ _ _ _).trans (by simp only [and_parts, BitVec.and_zero]; try rfl)
  · have h0 : (join (join (join (join c.bits 0xee#8) reg) rt) 0xa10#12).extractLsb' 28 4 = c.bits := ((ext_left _ _ _ _ (by decide)).trans ((ext_left _ _ _ _ (by decide)).trans ((ext_left _ _ _ _ (by decide)).trans ((ext_left _ _ _ _ (by decide)).trans (ext_only _)))))
    have h2 : (join (join (join (join c.bits 0xee#8) reg) rt) 0xa10#12).extractLsb' 16 4 = reg := ((ext_left _ _ _ _ (by decide)).trans ((ext_left _ _ _ _ (by decide)).trans (ext_right _ _)))
    have h3 : (join (join (join (join c.bits 0xee#8) reg) rt) 0xa10#12).extractLsb' 12 4 = rt := ((ext_left _ _ _ _ (by decide)).trans (ext_right _ _))
    exact congr (congr (congrArg Instr.vmsr ((congrArg Cond.ofBits h0).trans (cond_ofBits c))) (h2)) (h3)

theorem EncodesToItself.vmrsVmsrSbz (c : Cond) (l : Bool) (reg : BitVec 4) (rt : Reg) (sbz : BitVec 3) (sbz1 : BitVec 4) :
    EncodesToItself.Statement (.vmrsVmsrSbz c l reg rt sbz sbz1) := by
  refine ⟨_, rfl, ?_, ?_⟩
  · show encode (.vmrsVmsrSbz c l reg rt sbz sbz1) &&& (join (join (join (join (join (join (join (join 0x0#4 0x7f#7) 0x0#1) 0x0#4) 0x0#4) 0xf#4) 0x0#3) 0x1#1) 0x0#4) =
      (join (join (join (join (join (join (join (join 0x0#4 0x77#7) 0x0#1) 0x0#4) 0x0#4) 0xa#4) 0x0#3) 0x1#1) 0x0#4)
    exact (and_parts _ _ _ _).trans (by simp only [and_parts, BitVec.and_zero]; try rfl)
  · have h0 : (join (join (join (join (join (join (join (join c.bits 0x77#7) (BitVec.ofBool l)) reg) rt) 0xa#4) sbz) 0x1#1) sbz1).extractLsb' 28 4 = c.bits := ((ext_left _ _ _ _ (by decide)).trans ((ext_left _ _ _ _ (by decide)).trans ((ext_left _ _ _ _ (by decide)).trans ((ext_left _ _ _ _ (by decide)).trans ((ext_left _ _ _ _ (by decide)).trans ((ext_left _ _ _ _ (by decide)).trans ((ext_left _ _ _ _ (by decide)).trans ((ext_left _ _ _ _ (by decide)).trans (ext_only _)))))))))
    have h2 : (join (join (join (join (join (join (join (join c.bits 0x77#7) (BitVec.ofBool l)) reg) rt) 0xa#4) sbz) 0x1#1) sbz1).getLsbD 20 = l := ((bit_left _ _ _ (by decide)).trans ((bit_left _ _ _ (by decide)).trans ((bit_left _ _ _ (by decide)).trans ((bit_left _ _ _ (by decide)).trans ((bit_left _ _ _ (by decide)).trans ((bit_left _ _ _ (by decide)).trans (bit_right _ _)))))))
    have h3 : (join (join (join (join (join (join (join (join c.bits 0x77#7) (BitVec.ofBool l)) reg) rt) 0xa#4) sbz) 0x1#1) sbz1).extractLsb' 16 4 = reg := ((ext_left _ _ _ _ (by decide)).trans ((ext_left _ _ _ _ (by decide)).trans ((ext_left _ _ _ _ (by decide)).trans ((ext_left _ _ _ _ (by decide)).trans ((ext_left _ _ _ _ (by decide)).trans (ext_right _ _))))))
    have h4 : (join (join (join (join (join (join (join (join c.bits 0x77#7) (BitVec.ofBool l)) reg) rt) 0xa#4) sbz) 0x1#1) sbz1).extractLsb' 12 4 = rt := ((ext_left _ _ _ _ (by decide)).trans ((ext_left _ _ _ _ (by decide)).trans ((ext_left _ _ _ _ (by decide)).trans ((ext_left _ _ _ _ (by decide)).trans (ext_right _ _)))))
    have h6 : (join (join (join (join (join (join (join (join c.bits 0x77#7) (BitVec.ofBool l)) reg) rt) 0xa#4) sbz) 0x1#1) sbz1).extractLsb' 5 3 = sbz := ((ext_left _ _ _ _ (by decide)).trans ((ext_left _ _ _ _ (by decide)).trans (ext_right _ _)))
    have h8 : (join (join (join (join (join (join (join (join c.bits 0x77#7) (BitVec.ofBool l)) reg) rt) 0xa#4) sbz) 0x1#1) sbz1).extractLsb' 0 4 = sbz1 := (ext_right _ _)
    exact congr (congr (congr (congr (congr (congrArg Instr.vmrsVmsrSbz ((congrArg Cond.ofBits h0).trans (cond_ofBits c))) (h2)) (h3)) (h4)) (h6)) (h8)

theorem EncodesToItself.mrcP15 (c : Cond) (opc1 : BitVec 3) (crn : BitVec 4) (rt : Reg) (opc2 : BitVec 3) (crm : BitVec 4) :
    EncodesToItself.Statement (.mrcP15 c opc1 crn rt opc2 crm) := by
  refine ⟨_, rfl, ?_, ?_⟩
  · show encode (.mrcP15 c opc1 crn rt opc2 crm) &&& (join (join (join (join (join (join (join (join (join 0x0#4 0xf#4) 0x0#3) 0x1#1) 0x0#4) 0x0#4) 0xf#4) 0x0#3) 0x1#1) 0x0#4) =
      (join (join (join (join (join (join (join (join (join 0x0#4 0xe#4) 0x0#3) 0x1#1) 0x0#4) 0x0#4) 0xf#4) 0x0#3) 0x1#1) 0x0#4)
    exact (and_parts _ _ _ _).trans (by simp only [and_parts, BitVec.and_zero]; try rfl)
  · have h0 : (join (join (join (join (join (join (join (join (join c.bits 0xe#4) opc1) 0x1#1) crn) rt) 0xf#4) opc2) 0x1#1) crm).extractLsb' 28 4 = c.bits := ((ext_left _ _ _ _ (by decide)).trans ((ext_left _ _ _ _ (by decide)).trans ((ext_left _ _ _ _ (by decide)).trans ((ext_left _ _ _ _ (by decide)).trans ((ext_left _ _ _ _ (by decide)).trans ((ext_left _ _ _ _ (by decide)).trans ((ext_left _ _ _ _ (by decide)).trans ((ext_left _ _ _ _ (by decide)).trans ((ext_left _ _ _ _ (by decide)).trans (ext_only _))))))))))
    have h2 : (join (join (join (join (join (join (join (join (join c.bits 0xe#4) opc1) 0x1#1) crn) rt) 0xf#4) opc2) 0x1#1) crm).extractLsb' 21 3 = opc1 := ((ext_left _ _ _ _ (by decide)).trans ((ext_left _ _ _ _ (by decide)).trans ((ext_left _ _ _ _ (by decide)).trans ((ext_left _ _ _ _ (by decide)).trans ((ext_left _ _ _ _ (by decide)).trans ((ext_left _ _ _ _ (by decide)).trans ((ext_left _ _ _ _ (by decide)).trans (ext_right _ _))))))))
    have h4 : (join (join (join (join (join (join (join (join (join c.bits 0xe#4) opc1) 0x1#1) crn) rt) 0xf#4) opc2) 0x1#1) crm).extractLsb' 16 4 = crn := ((ext_left _ _ _ _ (by decide)).trans ((ext_left _ _ _ _ (by decide)).trans ((ext_left _ _ _ _ (by decide)).trans ((ext_left _ _ _ _ (by decide)).trans ((ext_left _ _ _ _ (by decide)).trans (ext_right _ _))))))
    have h5 : (join (join (join (join (join (join (join (join (join c.bits 0xe#4) opc1) 0x1#1) crn) rt) 0xf#4) opc2) 0x1#1) crm).extractLsb' 12 4 = rt := ((ext_left _ _ _ _ (by decide)).trans ((ext_left _ _ _ _ (by decide)).trans ((ext_left _ _ _ _ (by decide)).trans ((ext_left _ _ _ _ (by decide)).trans (ext_right _ _)))))
    have h7 : (join (join (join (join (join (join (join (join (join c.bits 0xe#4) opc1) 0x1#1) crn) rt) 0xf#4) opc2) 0x1#1) crm).extractLsb' 5 3 = opc2 := ((ext_left _ _ _ _ (by decide)).trans ((ext_left _ _ _ _ (by decide)).trans (ext_right _ _)))
    have h9 : (join (join (join (join (join (join (join (join (join c.bits 0xe#4) opc1) 0x1#1) crn) rt) 0xf#4) opc2) 0x1#1) crm).extractLsb' 0 4 = crm := (ext_right _ _)
    exact congr (congr (congr (congr (congr (congrArg Instr.mrcP15 ((congrArg Cond.ofBits h0).trans (cond_ofBits c))) (h2)) (h4)) (h5)) (h7)) (h9)

theorem EncodesToItself.mcrP15 (c : Cond) (opc1 : BitVec 3) (crn : BitVec 4) (rt : Reg) (opc2 : BitVec 3) (crm : BitVec 4) :
    EncodesToItself.Statement (.mcrP15 c opc1 crn rt opc2 crm) := by
  refine ⟨_, rfl, ?_, ?_⟩
  · show encode (.mcrP15 c opc1 crn rt opc2 crm) &&& (join (join (join (join (join (join (join (join (join 0x0#4 0xf#4) 0x0#3) 0x1#1) 0x0#4) 0x0#4) 0xf#4) 0x0#3) 0x1#1) 0x0#4) =
      (join (join (join (join (join (join (join (join (join 0x0#4 0xe#4) 0x0#3) 0x0#1) 0x0#4) 0x0#4) 0xf#4) 0x0#3) 0x1#1) 0x0#4)
    exact (and_parts _ _ _ _).trans (by simp only [and_parts, BitVec.and_zero]; try rfl)
  · have h0 : (join (join (join (join (join (join (join (join (join c.bits 0xe#4) opc1) 0x0#1) crn) rt) 0xf#4) opc2) 0x1#1) crm).extractLsb' 28 4 = c.bits := ((ext_left _ _ _ _ (by decide)).trans ((ext_left _ _ _ _ (by decide)).trans ((ext_left _ _ _ _ (by decide)).trans ((ext_left _ _ _ _ (by decide)).trans ((ext_left _ _ _ _ (by decide)).trans ((ext_left _ _ _ _ (by decide)).trans ((ext_left _ _ _ _ (by decide)).trans ((ext_left _ _ _ _ (by decide)).trans ((ext_left _ _ _ _ (by decide)).trans (ext_only _))))))))))
    have h2 : (join (join (join (join (join (join (join (join (join c.bits 0xe#4) opc1) 0x0#1) crn) rt) 0xf#4) opc2) 0x1#1) crm).extractLsb' 21 3 = opc1 := ((ext_left _ _ _ _ (by decide)).trans ((ext_left _ _ _ _ (by decide)).trans ((ext_left _ _ _ _ (by decide)).trans ((ext_left _ _ _ _ (by decide)).trans ((ext_left _ _ _ _ (by decide)).trans ((ext_left _ _ _ _ (by decide)).trans ((ext_left _ _ _ _ (by decide)).trans (ext_right _ _))))))))
    have h4 : (join (join (join (join (join (join (join (join (join c.bits 0xe#4) opc1) 0x0#1) crn) rt) 0xf#4) opc2) 0x1#1) crm).extractLsb' 16 4 = crn := ((ext_left _ _ _ _ (by decide)).trans ((ext_left _ _ _ _ (by decide)).trans ((ext_left _ _ _ _ (by decide)).trans ((ext_left _ _ _ _ (by decide)).trans ((ext_left _ _ _ _ (by decide)).trans (ext_right _ _))))))
    have h5 : (join (join (join (join (join (join (join (join (join c.bits 0xe#4) opc1) 0x0#1) crn) rt) 0xf#4) opc2) 0x1#1) crm).extractLsb' 12 4 = rt := ((ext_left _ _ _ _ (by decide)).trans ((ext_left _ _ _ _ (by decide)).trans ((ext_left _ _ _ _ (by decide)).trans ((ext_left _ _ _ _ (by decide)).trans (ext_right _ _)))))
    have h7 : (join (join (join (join (join (join (join (join (join c.bits 0xe#4) opc1) 0x0#1) crn) rt) 0xf#4) opc2) 0x1#1) crm).extractLsb' 5 3 = opc2 := ((ext_left _ _ _ _ (by decide)).trans ((ext_left _ _ _ _ (by decide)).trans (ext_right _ _)))
    have h9 : (join (join (join (join (join (join (join (join (join c.bits 0xe#4) opc1) 0x0#1) crn) rt) 0xf#4) opc2) 0x1#1) crm).extractLsb' 0 4 = crm := (ext_right _ _)
    exact congr (congr (congr (congr (congr (congrArg Instr.mcrP15 ((congrArg Cond.ofBits h0).trans (cond_ofBits c))) (h2)) (h4)) (h5)) (h7)) (h9)

theorem EncodesToItself.mrcP14 (c : Cond) (opc1 : BitVec 3) (crn : BitVec 4) (rt : Reg) (opc2 : BitVec 3) (crm : BitVec 4) :
    EncodesToItself.Statement (.mrcP14 c opc1 crn rt opc2 crm) := by
  refine ⟨_, rfl, ?_, ?_⟩
  · show encode (.mrcP14 c opc1 crn rt opc2 crm) &&& (join (join (join (join (join (join (join (join (join 0x0#4 0xf#4) 0x0#3) 0x1#1) 0x0#4) 0x0#4) 0xf#4) 0x0#3) 0x1#1) 0x0#4) =
      (join (join (join (join (join (join (join (join (join 0x0#4 0xe#4) 0x0#3) 0x1#1) 0x0#4) 0x0#4) 0xe#4) 0x0#3) 0x1#1) 0x0#4)
    exact (and_parts _ _ _ _).trans (by simp only [and_parts, BitVec.and_zero]; try rfl)
  · have h0 : (join (join (join (join (join (join (join (join (join c.bits 0xe#4) opc1) 0x1#1) crn) rt) 0xe#4) opc2) 0x1#1) crm).extractLsb' 28 4 = c.bits := ((ext_left _ _ _ _ (by decide)).trans ((ext_left _ _ _ _ (by decide)).trans ((ext_left _ _ _ _ (by decide)).trans ((ext_left _ _ _ _ (by decide)).trans ((ext_left _ _ _ _ (by decide)).trans ((ext_left _ _ _ _ (by decide)).trans ((ext_left _ _ _ _ (by decide)).trans ((ext_left _ _ _ _ (by decide)).trans ((ext_left _ _ _ _ (by decide)).trans (ext_only _))))))))))
    have h2 : (join (join (join (join (join (join (join (join (join c.bits 0xe#4) opc1) 0x1#1) crn) rt) 0xe#4) opc2) 0x1#1) crm).extractLsb' 21 3 = opc1 := ((ext_left _ _ _ _ (by decide)).trans ((ext_left _ _ _ _ (by decide)).trans ((ext_left _ _ _ _ (by decide)).trans ((ext_left _ _ _ _ (by decide)).trans ((ext_left _ _ _ _ (by decide)).trans ((ext_left _ _ _ _ (by decide)).trans ((ext_left _ _ _ _ (by decide)).trans (ext_right _ _))))))))
    have h4 : (join (join (join (join (join (join (join (join (join c.bits 0xe#4) opc1) 0x1#1) crn) rt) 0xe#4) opc2) 0x1#1) crm).extractLsb' 16 4 = crn := ((ext_left _ _ _ _ (by decide)).trans ((ext_left _ _ _ _ (by decide)).trans ((ext_left _ _ _ _ (by decide)).trans ((ext_left _ _ _ _ (by decide)).trans ((ext_left _ _ _ _ (by decide)).trans (ext_right _ _))))))
    have h5 : (join (join (join (join (join (join (join (join (join c.bits 0xe#4) opc1) 0x1#1) crn) rt) 0xe#4) opc2) 0x1#1) crm).extractLsb' 12 4 = rt := ((ext_left _ _ _ _ (by decide)).trans ((ext_left _ _ _ _ (by decide)).trans ((ext_left _ _ _ _ (by decide)).trans ((ext_left _ _ _ _ (by decide)).trans (ext_right _ _)))))
    have h7 : (join (join (join (join (join (join (join (join (join c.bits 0xe#4) opc1) 0x1#1) crn) rt) 0xe#4) opc2) 0x1#1) crm).extractLsb' 5 3 = opc2 := ((ext_left _ _ _ _ (by decide)).trans ((ext_left _ _ _ _ (by decide)).trans (ext_right _ _)))
    have h9 : (join (join (join (join (join (join (join (join (join c.bits 0xe#4) opc1) 0x1#1) crn) rt) 0xe#4) opc2) 0x1#1) crm).extractLsb' 0 4 = crm := (ext_right _ _)
    exact congr (congr (congr (congr (congr (congrArg Instr.mrcP14 ((congrArg Cond.ofBits h0).trans (cond_ofBits c))) (h2)) (h4)) (h5)) (h7)) (h9)

theorem EncodesToItself.mcrP14 (c : Cond) (opc1 : BitVec 3) (crn : BitVec 4) (rt : Reg) (opc2 : BitVec 3) (crm : BitVec 4) :
    EncodesToItself.Statement (.mcrP14 c opc1 crn rt opc2 crm) := by
  refine ⟨_, rfl, ?_, ?_⟩
  · show encode (.mcrP14 c opc1 crn rt opc2 crm) &&& (join (join (join (join (join (join (join (join (join 0x0#4 0xf#4) 0x0#3) 0x1#1) 0x0#4) 0x0#4) 0xf#4) 0x0#3) 0x1#1) 0x0#4) =
      (join (join (join (join (join (join (join (join (join 0x0#4 0xe#4) 0x0#3) 0x0#1) 0x0#4) 0x0#4) 0xe#4) 0x0#3) 0x1#1) 0x0#4)
    exact (and_parts _ _ _ _).trans (by simp only [and_parts, BitVec.and_zero]; try rfl)
  · have h0 : (join (join (join (join (join (join (join (join (join c.bits 0xe#4) opc1) 0x0#1) crn) rt) 0xe#4) opc2) 0x1#1) crm).extractLsb' 28 4 = c.bits := ((ext_left _ _ _ _ (by decide)).trans ((ext_left _ _ _ _ (by decide)).trans ((ext_left _ _ _ _ (by decide)).trans ((ext_left _ _ _ _ (by decide)).trans ((ext_left _ _ _ _ (by decide)).trans ((ext_left _ _ _ _ (by decide)).trans ((ext_left _ _ _ _ (by decide)).trans ((ext_left _ _ _ _ (by decide)).trans ((ext_left _ _ _ _ (by decide)).trans (ext_only _))))))))))
    have h2 : (join (join (join (join (join (join (join (join (join c.bits 0xe#4) opc1) 0x0#1) crn) rt) 0xe#4) opc2) 0x1#1) crm).extractLsb' 21 3 = opc1 := ((ext_left _ _ _ _ (by decide)).trans ((ext_left _ _ _ _ (by decide)).trans ((ext_left _ _ _ _ (by decide)).trans ((ext_left _ _ _ _ (by decide)).trans ((ext_left _ _ _ _ (by decide)).trans ((ext_left _ _ _ _ (by decide)).trans ((ext_left _ _ _ _ (by decide)).trans (ext_right _ _))))))))
    have h4 : (join (join (join (join (join (join (join (join (join c.bits 0xe#4) opc1) 0x0#1) crn) rt) 0xe#4) opc2) 0x1#1) crm).extractLsb' 16 4 = crn := ((ext_left _ _ _ _ (by decide)).trans ((ext_left _ _ _ _ (by decide)).trans ((ext_left _ _ _ _ (by decide)).trans ((ext_left _ _ _ _ (by decide)).trans ((ext_left _ _ _ _ (by decide)).trans (ext_right _ _))))))
    have h5 : (join (join (join (join (join (join (join (join (join c.bits 0xe#4) opc1) 0x0#1) crn) rt) 0xe#4) opc2) 0x1#1) crm).extractLsb' 12 4 = rt := ((ext_left _ _ _ _ (by decide)).trans ((ext_left _ _ _ _ (by decide)).trans ((ext_left _ _ _ _ (by decide)).trans ((ext_left _ _ _ _ (by decide)).trans (ext_right _ _)))))
    have h7 : (join (join (join (join (join (join (join (join (join c.bits 0xe#4) opc1) 0x0#1) crn) rt) 0xe#4) opc2) 0x1#1) crm).extractLsb' 5 3 = opc2 := ((ext_left _ _ _ _ (by decide)).trans ((ext_left _ _ _ _ (by decide)).trans (ext_right _ _)))
    have h9 : (join (join (join (join (join (join (join (join (join c.bits 0xe#4) opc1) 0x0#1) crn) rt) 0xe#4) opc2) 0x1#1) crm).extractLsb' 0 4 = crm := (ext_right _ _)
    exact congr (congr (congr (congr (congr (congrArg Instr.mcrP14 ((congrArg Cond.ofBits h0).trans (cond_ofBits c))) (h2)) (h4)) (h5)) (h7)) (h9)

theorem EncodesToItself.vmla (c : Cond) (d : Bool) (vn : BitVec 4) (vd : BitVec 4) (sz : Bool) (n : Bool) (m : Bool) (vm : BitVec 4) :
    EncodesToItself.Statement (.vmla c d vn vd sz n m vm) := by
  refine ⟨_, rfl, ?_, ?_⟩
  · show encode (.vmla c d vn vd sz n m vm) &&& (join (join (join (join (join (join (join (join (join (join (join (join 0x0#4 0x1f#5) 0x0#1) 0x3#2) 0x0#4) 0x0#4) 0x7#3) 0x0#1) 0x0#1) 0x1#1) 0x0#1) 0x1#1) 0x0#4) =
      (join (join (join (join (join (join (join (join (join (join (join (join 0x0#4 0x1c#5) 0x0#1) 0x0#2) 0x0#4) 0x0#4) 0x5#3) 0x0#1) 0x0#1) 0x0#1) 0x0#1) 0x0#1) 0x0#4)
    exact (and_parts _ _ _ _).trans (by simp only [and_parts, BitVec.and_zero]; try rfl)
  · have h0 : (join (join (join (join (join (join (join (join (join (join (join (join c.bits 0x1c#5) (BitVec.ofBool d)) 0x0#2) vn) vd) 0x5#3) (BitVec.ofBool sz)) (BitVec.ofBool n)) 0x0#1) (BitVec.ofBool m)) 0x0#1) vm).extractLsb' 28 4 = c.bits := ((ext_left _ _ _ _ (by decide)).trans ((ext_left _ _ _ _ (by decide)).trans ((ext_left _ _ _ _ (by decide)).trans ((ext_left _ _ _ _ (by decide)).trans ((ext_left _ _ _ _ (by decide)).trans ((ext_left _ _ _ _ (by decide)).trans ((ext_left _ _ _ _ (by decide)).trans ((ext_left _ _ _ _ (by decide)).trans ((ext_left _ _ _ _ (by decide)).trans ((ext_left _ _ _ _ (by decide)).trans ((ext_left _ _ _ _ (by decide)).trans ((ext_left _ _ _ _ (by decide)).trans (ext_only _)))))))))))))
    have h2 : (join (join (join (join (join (join (join (join (join (join (join (join c.bits 0x1c#5) (BitVec.ofBool d)) 0x0#2) vn) vd) 0x5#3) (BitVec.ofBool sz)) (BitVec.ofBool n)) 0x0#1) (BitVec.ofBool m)) 0x0#1) vm).getLsbD 22 = d := ((bit_left _ _ _ (by decide)).trans ((bit_left _ _ _ (by decide)).trans ((bit_left _ _ _ (by decide)).trans ((bit_left _ _ _ (by decide)).trans ((bit_left _ _ _ (by decide)).trans ((bit_left _ _ _ (by decide)).trans ((bit_left _ _ _ (by decide)).trans ((bit_left _ _ _ (by decide)).trans ((bit_left _ _ _ (by decide)).trans ((bit_left _ _ _ (by decide)).trans (bit_right _ _)))))))))))
    have h4 : (join (join (join (join (join (join (join (join (join (join (join (join c.bits 0x1c#5) (BitVec.ofBool d)) 0x0#2) vn) vd) 0x5#3) (BitVec.ofBool sz)) (BitVec.ofBool n)) 0x0#1) (BitVec.ofBool m)) 0x0#1) vm).extractLsb' 16 4 = vn := ((ext_left _ _ _ _ (by decide)).trans ((ext_left _ _ _ _ (by decide)).trans ((ext_left _ _ _ _ (by decide)).trans ((ext_left _ _ _ _ (by decide)).trans ((ext_left _ _ _ _ (by decide)).trans ((ext_left _ _ _ _ (by decide)).trans ((ext_left _ _ _ _ (by decide)).trans ((ext_left _ _ _ _ (by decide)).trans (ext_right _ _)))))))))
    have h5 : (join (join (join (join (join (join (join (join (join (join (join (join c.bits 0x1c#5) (BitVec.ofBool d)) 0x0#2) vn) vd) 0x5#3) (BitVec.ofBool sz)) (BitVec.ofBool n)) 0x0#1) (BitVec.ofBool m)) 0x0#1) vm).extractLsb' 12 4 = vd := ((ext_left _ _ _ _ (by decide)).trans ((ext_left _ _ _ _ (by decide)).trans ((ext_left _ _ _ _ (by decide)).trans ((ext_left _ _ _ _ (by decide)).trans ((ext_left _ _ _ _ (by decide)).trans ((ext_left _ _ _ _ (by decide)).trans ((ext_left _ _ _ _ (by decide)).trans (ext_right _ _))))))))
    have h7 : (join (join (join (join (join (join (join (join (join (join (join (join c.bits 0x1c#5) (BitVec.ofBool d)) 0x0#2) vn) vd) 0x5#3) (BitVec.ofBool sz)) (BitVec.ofBool n)) 0x0#1) (BitVec.ofBool m)) 0x0#1) vm).getLsbD 8 = sz := ((bit_left _ _ _ (by decide)).trans ((bit_left _ _ _ (by decide)).trans ((bit_left _ _ _ (by decide)).trans ((bit_left _ _ _ (by decide)).trans ((bit_left _ _ _ (by decide)).trans (bit_right _ _))))))
    have h8 : (join (join (join (join (join (join (join (join (join (join (join (join c.bits 0x1c#5) (BitVec.ofBool d)) 0x0#2) vn) vd) 0x5#3) (BitVec.ofBool sz)) (BitVec.ofBool n)) 0x0#1) (BitVec.ofBool m)) 0x0#1) vm).getLsbD 7 = n := ((bit_left _ _ _ (by decide)).trans ((bit_left _ _ _ (by decide)).trans ((bit_left _ _ _ (by decide)).trans ((bit_left _ _ _ (by decide)).trans (bit_right _ _)))))
    have h10 : (join (join (join (join (join (join (join (join (join (join (join (join c.bits 0x1c#5) (BitVec.ofBool d)) 0x0#2) vn) vd) 0x5#3) (BitVec.ofBool sz)) (BitVec.ofBool n)) 0x0#1) (BitVec.ofBool m)) 0x0#1) vm).getLsbD 5 = m := ((bit_left _ _ _ (by decide)).trans ((bit_left _ _ _ (by decide)).trans (bit_right _ _)))
    have h12 : (join (join (join (join (join (join (join (join (join (join (join (join c.bits 0x1c#5) (BitVec.ofBool d)) 0x0#2) vn) vd) 0x5#3) (BitVec.ofBool sz)) (BitVec.ofBool n)) 0x0#1) (BitVec.ofBool m)) 0x0#1) vm).extractLsb' 0 4 = vm := (ext_right _ _)
    exact congr (congr (congr (congr (congr (congr (congr (congrArg Instr.vmla ((congrArg Cond.ofBits h0).trans (cond_ofBits c))) (h2)) (h4)) (h5)) (h7)) (h8)) (h10)) (h12)

theorem EncodesToItself.vmls (c : Cond) (d : Bool) (vn : BitVec 4) (vd : BitVec 4) (sz : Bool) (n : Bool) (m : Bool) (vm : BitVec 4) :
    EncodesToItself.Statement (.vmls c d vn vd sz n m vm) := by
  refine ⟨_, rfl, ?_, ?_⟩
  · show encode (.vmls c d vn vd sz n m vm) &&& (join (join (join (join (join (join (join (join (join (join (join (join 0x0#4 0x1f#5) 0x0#1) 0x3#2) 0x0#4) 0x0#4) 0x7#3) 0x0#1) 0x0#1) 0x1#1) 0x0#1) 0x1#1) 0x0#4) =
      (join (join (join (join (join (join (join (join (join (join (join (join 0x0#4 0x1c#5) 0x0#1) 0x0#2) 0x0#4) 0x0#4) 0x5#3) 0x0#1) 0x0#1) 0x1#1) 0x0#1) 0x0#1) 0x0#4)
    exact (and_parts _ _ _ _).trans (by simp only [and_parts, BitVec.and_zero]; try rfl)
  · have h0 : (join (join (join (join (join (join (join (join (join (join (join (join c.bits 0x1c#5) (BitVec.ofBool d)) 0x0#2) vn) vd) 0x5#3) (BitVec.ofBool sz)) (BitVec.ofBool n)) 0x1#1) (BitVec.ofBool m)) 0x0#1) vm).extractLsb' 28 4 = c.bits := ((ext_left _ _ _ _ (by decide)).trans ((ext_left _ _ _ _ (by decide)).trans ((ext_left _ _ _ _ (by decide)).trans ((ext_left _ _ _ _ (by decide)).trans ((ext_left _ _ _ _ (by decide)).trans ((ext_left _ _ _ _ (by decide)).trans ((ext_left _ _ _ _ (by decide)).trans ((ext_left _ _ _ _ (by decide)).trans ((ext_left _ _ _ _ (by decide)).trans ((ext_left _ _ _ _ (by decide)).trans ((ext_left _ _ _ _ (by decide)).trans ((ext_left _ _ _ _ (by decide)).trans (ext_only _)))))))))))))
    have h2 : (join (join (join (join (join (join (join (join (join (join (join (join c.bits 0x1c#5) (BitVec.ofBool d)) 0x0#2) vn) vd) 0x5#3) (BitVec.ofBool sz)) (BitVec.ofBool n)) 0x1#1) (BitVec.ofBool m)) 0x0#1) vm).getLsbD 22 = d := ((bit_left _ _ _ (by decide)).trans ((bit_left _ _ _ (by decide)).trans ((bit_left _ _ _ (by decide)).trans ((bit_left _ _ _ (by decide)).trans ((bit_left _ _ _ (by decide)).trans ((bit_left _ _ _ (by decide)).trans ((bit_left _ _ _ (by decide)).trans ((bit_left _ _ _ (by decide)).trans ((bit_left _ _ _ (by decide)).trans ((bit_left _ _ _ (by decide)).trans (bit_right _ _)))))))))))
    have h4 : (join (join (join (join (join (join (join (join (join (join (join (join c.bits 0x1c#5) (BitVec.ofBool d)) 0x0#2) vn) vd) 0x5#3) (BitVec.ofBool sz)) (BitVec.ofBool n)) 0x1#1) (BitVec.ofBool m)) 0x0#1) vm).extractLsb' 16 4 = vn := ((ext_left _ _ _ _ (by decide)).trans ((ext_left _ _ _ _ (by decide)).trans ((ext_left _ _ _ _ (by decide)).trans ((ext_left _ _ _ _ (by decide)).trans ((ext_left _ _ _ _ (by decide)).trans ((ext_left _ _ _ _ (by decide)).trans ((ext_left _ _ _ _ (by decide)).trans ((ext_left _ _ _ _ (by decide)).trans (ext_right _ _)))))))))
    have h5 : (join (join (join (join (join (join (join (join (join (join (join (join c.bits 0x1c#5) (BitVec.ofBool d)) 0x0#2) vn) vd) 0x5#3) (BitVec.ofBool sz)) (BitVec.ofBool n)) 0x1#1) (BitVec.ofBool m)) 0x0#1) vm).extractLsb' 12 4 = vd := ((ext_left _ _ _ _ (by decide)).trans ((ext_left _ _ _ _ (by decide)).trans ((ext_left _ _ _ _ (by decide)).trans ((ext_left _ _ _ _ (by decide)).trans ((ext_left _ _ _ _ (by decide)).trans ((ext_left _ _ _ _ (by decide)).trans ((ext_left _ _ _ _ (by decide)).trans (ext_right _ _))))))))
    have h7 : (join (join (join (join (join (join (join (join (join (join (join (join c.bits 0x1c#5) (BitVec.ofBool d)) 0x0#2) vn) vd) 0x5#3) (BitVec.ofBool sz)) (BitVec.ofBool n)) 0x1#1) (BitVec.ofBool m)) 0x0#1) vm).getLsbD 8 = sz := ((bit_left _ _ _ (by decide)).trans ((bit_left _ _ _ (by decide)).trans ((bit_left _ _ _ (by decide)).trans ((bit_left _ _ _ (by decide)).trans ((bit_left _ _ _ (by decide)).trans (bit_right _ _))))))
    have h8 : (join (join (join (join (join (join (join (join (join (join (join (join c.bits 0x1c#5) (BitVec.ofBool d)) 0x0#2) vn) vd) 0x5#3) (BitVec.ofBool sz)) (BitVec.ofBool n)) 0x1#1) (BitVec.ofBool m)) 0x0#1) vm).getLsbD 7 = n := ((bit_left _ _ _ (by decide)).trans ((bit_left _ _ _ (by decide)).trans ((bit_left _ _ _ (by decide)).trans ((bit_left _ _ _ (by decide)).trans (bit_right _ _)))))
    have h10 : (join (join (join (join (join (join (join (join (join (join (join (join c.bits 0x1c#5) (BitVec.ofBool d)) 0x0#2) vn) vd) 0x5#3) (BitVec.ofBool sz)) (BitVec.ofBool n)) 0x1#1) (BitVec.ofBool m)) 0x0#1) vm).getLsbD 5 = m := ((bit_left _ _ _ (by decide)).trans ((bit_left _ _ _ (by decide)).trans (bit_right _ _)))
    have h12 : (join (join (join (join (join (join (join (join (join (join (join (join c.bits 0x1c#5) (BitVec.ofBool d)) 0x0#2) vn) vd) 0x5#3) (BitVec.ofBool sz)) (BitVec.ofBool n)) 0x1#1) (BitVec.ofBool m)) 0x0#1) vm).extractLsb' 0 4 = vm := (ext_right _ _)
    exact congr (congr (congr (congr (congr (congr (congr (congrArg Instr.vmls ((congrArg Cond.ofBits h0).trans (cond_ofBits c))) (h2)) (h4)) (h5)) (h7)) (h8)) (h10)) (h12)

theorem EncodesToItself.vnmls (c : Cond) (d : Bool) (vn : BitVec 4) (vd : BitVec 4) (sz : Bool) (n : Bool) (m : Bool) (vm : BitVec 4) :
    EncodesToItself.Statement (.vnmls c d vn vd sz n m vm) := by
  refine ⟨_, rfl, ?_, ?_⟩
  · show encode (.vnmls c d vn vd sz n m vm) &&& (join (join (join (join (join (join (join (join (join (join (join (join 0x0#4 0x1f#5) 0x0#1) 0x3#2) 0x0#4) 0x0#4) 0x7#3) 0x0#1) 0x0#1) 0x1#1) 0x0#1) 0x1#1) 0x0#4) =
      (join (join (join (join (join (join (join (join (join (join (join (join 0x0#4 0x1c#5) 0x0#1) 0x1#2) 0x0#4) 0x0#4) 0x5#3) 0x0#1) 0x0#1) 0x0#1) 0x0#1) 0x0#1) 0x0#4)
    exact (and_parts _ _ _ _).trans (by simp only [and_parts, BitVec.and_zero]; try rfl)
  · have h0 : (join (join (join (join (join (join (join (join (join (join (join (join c.bits 0x1c#5) (BitVec.ofBool d)) 0x1#2) vn) vd) 0x5#3) (BitVec.ofBool sz)) (BitVec.ofBool n)) 0x0#1) (BitVec.ofBool m)) 0x0#1) vm).extractLsb' 28 4 = c.bits := ((ext_left _ _ _ _ (by decide)).trans ((ext_left _ _ _ _ (by decide)).trans ((ext_left _ _ _ _ (by decide)).trans ((ext_left _ _ _ _ (by decide)).trans ((ext_left _ _ _ _ (by decide)).trans ((ext_left _ _ _ _ (by decide)).trans ((ext_left _ _ _ _ (by decide)).trans ((ext_left _ _ _ _ (by decide)).trans ((ext_left _ _ _ _ (by decide)).trans ((ext_left _ _ _ _ (by decide)).trans ((ext_left _ _ _ _ (by decide)).trans ((ext_left _ _ _ _ (by decide)).trans (ext_only _)))))))))))))
    have h2 : (join (join (join (join (join (join (join (join (join (join (join (join c.bits 0x1c#5) (BitVec.ofBool d)) 0x1#2) vn) vd) 0x5#3) (BitVec.ofBool sz)) (BitVec.ofBool n)) 0x0#1) (BitVec.ofBool m)) 0x0#1) vm).getLsbD 22 = d := ((bit_left _ _ _ (by decide)).trans ((bit_left _ _ _ (by decide)).trans ((bit_left _ _ _ (by decide)).trans ((bit_left _ _ _ (by decide)).trans ((bit_left _ _ _ (by decide)).trans ((bit_left _ _ _ (by decide)).trans ((bit_left _ _ _ (by decide)).trans ((bit_left _ _ _ (by decide)).trans ((bit_left _ _ _ (by decide)).trans ((bit_left _ _ _ (by decide)).trans (bit_right _ _)))))))))))
    have h4 : (join (join (join (join (join (join (join (join (join (join (join (join c.bits 0x1c#5) (BitVec.ofBool d)) 0x1#2) vn) vd) 0x5#3) (BitVec.ofBool sz)) (BitVec.ofBool n)) 0x0#1) (BitVec.ofBool m)) 0x0#1) vm).extractLsb' 16 4 = vn := ((ext_left _ _ _ _ (by decide)).trans ((ext_left _ _ _ _ (by decide)).trans ((ext_left _ _ _ _ (by decide)).trans ((ext_left _ _ _ _ (by decide)).trans ((ext_left _ _ _ _ (by decide)).trans ((ext_left _ _ _ _ (by decide)).trans ((ext_left _ _ _ _ (by decide)).trans ((ext_left _ _ _ _ (by decide)).trans (ext_right _ _)))))))))
    have h5 : (join (join (join (join (join (join (join (join (join (join (join (join c.bits 0x1c#5) (BitVec.ofBool d)) 0x1#2) vn) vd) 0x5#3) (BitVec.ofBool sz)) (BitVec.ofBool n)) 0x0#1) (BitVec.ofBool m)) 0x0#1) vm).extractLsb' 12 4 = vd := ((ext_left _ _ _ _ (by decide)).trans ((ext_left _ _ _ _ (by decide)).trans ((ext_left _ _ _ _ (by decide)).trans ((ext_left _ _ _ _ (by decide)).trans ((ext_left _ _ _ _ (by decide)).trans ((ext_left _ _ _ _ (by decide)).trans ((ext_left _ _ _ _ (by decide)).trans (ext_right _ _))))))))
    have h7 : (join (join (join (join (join (join (join (join (join (join (join (join c.bits 0x1c#5) (BitVec.ofBool d)) 0x1#2) vn) vd) 0x5#3) (BitVec.ofBool sz)) (BitVec.ofBool n)) 0x0#1) (BitVec.ofBool m)) 0x0#1) vm).getLsbD 8 = sz := ((bit_left _ _ _ (by decide)).trans ((bit_left _ _ _ (by decide)).trans ((bit_left _ _ _ (by decide)).trans ((bit_left _ _ _ (by decide)).trans ((bit_left _ _ _ (by decide)).trans (bit_right _ _))))))
    have h8 : (join (join (join (join (join (join (join (join (join (join (join (join c.bits 0x1c#5) (BitVec.ofBool d)) 0x1#2) vn) vd) 0x5#3) (BitVec.ofBool sz)) (BitVec.ofBool n)) 0x0#1) (BitVec.ofBool m)) 0x0#1) vm).getLsbD 7 = n := ((bit_left _ _ _ (by decide)).trans ((bit_left _ _ _ (by decide)).trans ((bit_left _ _ _ (by decide)).trans ((bit_left _ _ _ (by decide)).trans (bit_right _ _)))))
    have h10 : (join (join (join (join (join (join (join (join (join (join (join (join c.bits 0x1c#5) (BitVec.ofBool d)) 0x1#2) vn) vd) 0x5#3) (BitVec.ofBool sz)) (BitVec.ofBool n)) 0x0#1) (BitVec.ofBool m)) 0x0#1) vm).getLsbD 5 = m := ((bit_left _ _ _ (by decide)).trans ((bit_left _ _ _ (by decide)).trans (bit_right _ _)))
    have h12 : (join (join (join (join (join (join (join (join (join (join (join (join c.bits 0x1c#5) (BitVec.ofBool d)) 0x1#2) vn) vd) 0x5#3) (BitVec.ofBool sz)) (BitVec.ofBool n)) 0x0#1) (BitVec.ofBool m)) 0x0#1) vm).extractLsb' 0 4 = vm := (ext_right _ _)
    exact congr (congr (congr (congr (congr (congr (congr (congrArg Instr.vnmls ((congrArg Cond.ofBits h0).trans (cond_ofBits c))) (h2)) (h4)) (h5)) (h7)) (h8)) (h10)) (h12)

theorem EncodesToItself.vnmla (c : Cond) (d : Bool) (vn : BitVec 4) (vd : BitVec 4) (sz : Bool) (n : Bool) (m : Bool) (vm : BitVec 4) :
    EncodesToItself.Statement (.vnmla c d vn vd sz n m vm) := by
  refine ⟨_, rfl, ?_, ?_⟩
  · show encode (.vnmla c d vn vd sz n m vm) &&& (join (join (join (join (join (join (join (join (join (join (join (join 0x0#4 0x1f#5) 0x0#1) 0x3#2) 0x0#4) 0x0#4) 0x7#3) 0x0#1) 0x0#1) 0x1#1) 0x0#1) 0x1#1) 0x0#4) =
      (join (join (join (join (join (join (join (join (join (join (join (join 0x0#4 0x1c#5) 0x0#1) 0x1#2) 0x0#4) 0x0#4) 0x5#3) 0x0#1) 0x0#1) 0x1#1) 0x0#1) 0x0#1) 0x0#4)
    exact (and_parts _ _ _ _).trans (by simp only [and_parts, BitVec.and_zero]; try rfl)
  · have h0 : (join (join (join (join (join (join (join (join (join (join (join (join c.bits 0x1c#5) (BitVec.ofBool d)) 0x1#2) vn) vd) 0x5#3) (BitVec.ofBool sz)) (BitVec.ofBool n)) 0x1#1) (BitVec.ofBool m)) 0x0#1) vm).extractLsb' 28 4 = c.bits := ((ext_left _ _ _ _ (by decide)).trans ((ext_left _ _ _ _ (by decide)).trans ((ext_left _ _ _ _ (by decide)).trans ((ext_left _ _ _ _ (by decide)).trans ((ext_left _ _ _ _ (by decide)).trans ((ext_left _ _ _ _ (by decide)).trans ((ext_left _ _ _ _ (by decide)).trans ((ext_left _ _ _ _ (by decide)).trans ((ext_left _ _ _ _ (by decide)).trans ((ext_left _ _ _ _ (by decide)).trans ((ext_left _ _ _ _ (by decide)).trans ((ext_left _ _ _ _ (by decide)).trans (ext_only _)))))))))))))
    have h2 : (join (join (join (join (join (join (join (join (join (join (join (join c.bits 0x1c#5) (BitVec.ofBool d)) 0x1#2) vn) vd) 0x5#3) (BitVec.ofBool sz)) (BitVec.ofBool n)) 0x1#1) (BitVec.ofBool m)) 0x0#1) vm).getLsbD 22 = d := ((bit_left _ _ _ (by decide)).trans ((bit_left _ _ _ (by decide)).trans ((bit_left _ _ _ (by decide)).trans ((bit_left _ _ _ (by decide)).trans ((bit_left _ _ _ (by decide)).trans ((bit_left _ _ _ (by decide)).trans ((bit_left _ _ _ (by decide)).trans ((bit_left _ _ _ (by decide)).trans ((bit_left _ _ _ (by decide)).trans ((bit_left _ _ _ (by decide)).trans (bit_right _ _)))))))))))
    have h4 : (join (join (join (join (join (join (join (join (join (join (join (join c.bits 0x1c#5) (BitVec.ofBool d)) 0x1#2) vn) vd) 0x5#3) (BitVec.ofBool sz)) (BitVec.ofBool n)) 0x1#1) (BitVec.ofBool m)) 0x0#1) vm).extractLsb' 16 4 = vn := ((ext_left _ _ _ _ (by decide)).trans ((ext_left _ _ _ _ (by decide)).trans ((ext_left _ _ _ _ (by decide)).trans ((ext_left _ _ _ _ (by decide)).trans ((ext_left _ _ _ _ (by decide)).trans ((ext_left _ _ _ _ (by decide)).trans ((ext_left _ _ _ _ (by decide)).trans ((ext_left _ _ _ _ (by decide)).trans (ext_right _ _)))))))))
    have h5 : (join (join (join (join (join (join (join (join (join (join (join (join c.bits 0x1c#5) (BitVec.ofBool d)) 0x1#2) vn) vd) 0x5#3) (BitVec.ofBool sz)) (BitVec.ofBool n)) 0x1#1) (BitVec.ofBool m)) 0x0#1) vm).extractLsb' 12 4 = vd := ((ext_left _ _ _ _ (by decide)).trans ((ext_left _ _ _ _ (by decide)).trans ((ext_left _ _ _ _ (by decide)).trans ((ext_left _ _ _ _ (by decide)).trans ((ext_left _ _ _ _ (by decide)).trans ((ext_left _ _ _ _ (by decide)).trans ((ext_left _ _ _ _ (by decide)).trans (ext_right _ _))))))))
    have h7 : (join (join (join (join (join (join (join (join (join (join (join (join c.bits 0x1c#5) (BitVec.ofBool d)) 0x1#2) vn) vd) 0x5#3) (BitVec.ofBool sz)) (BitVec.ofBool n)) 0x1#1) (BitVec.ofBool m)) 0x0#1) vm).getLsbD 8 = sz := ((bit_left _ _ _ (by decide)).trans ((bit_left _ _ _ (by decide)).trans ((bit_left _ _ _ (by decide)).trans ((bit_left _ _ _ (by decide)).trans ((bit_left _ _ _ (by decide)).trans (bit_right _ _))))))
    have h8 : (join (join (join (join (join (join (join (join (join (join (join (join c.bits 0x1c#5) (BitVec.ofBool d)) 0x1#2) vn) vd) 0x5#3) (BitVec.ofBool sz)) (BitVec.ofBool n)) 0x1#1) (BitVec.ofBool m)) 0x0#1) vm).getLsbD 7 = n := ((bit_left _ _ _ (by decide)).trans ((bit_left _ _ _ (by decide)).trans ((bit_left _ _ _ (by decide)).trans ((bit_left _ _ _ (by decide)).trans (bit_right _ _)))))
    have h10 : (join (join (join (join (join (join (join (join (join (join (join (join c.bits 0x1c#5) (BitVec.ofBool d)) 0x1#2) vn) vd) 0x5#3) (BitVec.ofBool sz)) (BitVec.ofBool n)) 0x1#1) (BitVec.ofBool m)) 0x0#1) vm).getLsbD 5 = m := ((bit_left _ _ _ (by decide)).trans ((bit_left _ _ _ (by decide)).trans (bit_right _ _)))
    have h12 : (join (join (join (join (join (join (join (join (join (join (join (join c.bits 0x1c#5) (BitVec.ofBool d)) 0x1#2) vn) vd) 0x5#3) (BitVec.ofBool sz)) (BitVec.ofBool n)) 0x1#1) (BitVec.ofBool m)) 0x0#1) vm).extractLsb' 0 4 = vm := (ext_right _ _)
    exact congr (congr (congr (congr (congr (congr (congr (congrArg Instr.vnmla ((congrArg Cond.ofBits h0).trans (cond_ofBits c))) (h2)) (h4)) (h5)) (h7)) (h8)) (h10)) (h12)

theorem EncodesToItself.vmul (c : Cond) (d : Bool) (vn : BitVec 4) (vd : BitVec 4) (sz : Bool) (n : Bool) (m : Bool) (vm : BitVec 4) :
    EncodesToItself.Statement (.vmul c d vn vd sz n m vm) := by
  refine ⟨_, rfl, ?_, ?_⟩
  · show encode (.vmul c d vn vd sz n m vm) &&& (join (join (join (join (join (join (join (join (join (join (join (join 0x0#4 0x1f#5) 0x0#1) 0x3#2) 0x0#4) 0x0#4) 0x7#3) 0x0#1) 0x0#1) 0x1#1) 0x0#1) 0x1#1) 0x0#4) =
      (join (join (join (join (join (join (join (join (join (join (join (join 0x0#4 0x1c#5) 0x0#1) 0x2#2) 0x0#4) 0x0#4) 0x5#3) 0x0#1) 0x0#1) 0x0#1) 0x0#1) 0x0#1) 0x0#4)
    exact (and_parts _ _ _ _).trans (by simp only [and_parts, BitVec.and_zero]; try rfl)
  · have h0 : (join (join (join (join (join (join (join (join (join (join (join (join c.bits 0x1c#5) (BitVec.ofBool d)) 0x2#2) vn) vd) 0x5#3) (BitVec.ofBool sz)) (BitVec.ofBool n)) 0x0#1) (BitVec.ofBool m)) 0x0#1) vm).extractLsb' 28 4 = c.bits := ((ext_left _ _ _ _ (by decide)).trans ((ext_left _ _ _ _ (by decide)).trans ((ext_left _ _ _ _ (by decide)).trans ((ext_left _ _ _ _ (by decide)).trans ((ext_left _ _ _ _ (by decide)).trans ((ext_left _ _ _ _ (by decide)).trans ((ext_left _ _ _ _ (by decide)).trans ((ext_left _ _ _ _ (by decide)).trans ((ext_left _ _ _ _ (by decide)).trans ((ext_left _ _ _ _ (by decide)).trans ((ext_left _ _ _ _ (by decide)).trans ((ext_left _ _ _ _ (by decide)).trans (ext_only _)))))))))))))
    have h2 : (join (join (join (join (join (join (join (join (join (join (join (join c.bits 0x1c#5) (BitVec.ofBool d)) 0x2#2) vn) vd) 0x5#3) (BitVec.ofBool sz)) (BitVec.ofBool n)) 0x0#1) (BitVec.ofBool m)) 0x0#1) vm).getLsbD 22 = d := ((bit_left _ _ _ (by decide)).trans ((bit_left _ _ _ (by decide)).trans ((bit_left _ _ _ (by decide)).trans ((bit_left _ _ _ (by decide)).trans ((bit_left _ _ _ (by decide)).trans ((bit_left _ _ _ (by decide)).trans ((bit_left _ _ _ (by decide)).trans ((bit_left _ _ _ (by decide)).trans ((bit_left _ _ _ (by decide)).trans ((bit_left _ _ _ (by decide)).trans (bit_right _ _)))))))))))
    have h4 : (join (join (join (join (join (join (join (join (join (join (join (join c.bits 0x1c#5) (BitVec.ofBool d)) 0x2#2) vn) vd) 0x5#3) (BitVec.ofBool sz)) (BitVec.ofBool n)) 0x0#1) (BitVec.ofBool m)) 0x0#1) vm).extractLsb' 16 4 = vn := ((ext_left _ _ _ _ (by decide)).trans ((ext_left _ _ _ _ (by decide)).trans ((ext_left _ _ _ _ (by decide)).trans ((ext_left _ _ _ _ (by decide)).trans ((ext_left _ _ _ _ (by decide)).trans ((ext_left _ _ _ _ (by decide)).trans ((ext_left _ _ _ _ (by decide)).trans ((ext_left _ _ _ _ (by decide)).trans (ext_right _ _)))))))))
    have h5 : (join (join (join (join (join (join (join (join (join (join (join (join c.bits 0x1c#5) (BitVec.ofBool d)) 0x2#2) vn) vd) 0x5#3) (BitVec.ofBool sz)) (BitVec.ofBool n)) 0x0#1) (BitVec.ofBool m)) 0x0#1) vm).extractLsb' 12 4 = vd := ((ext_left _ _ _ _ (by decide)).trans ((ext_left _ _ _ _ (by decide)).trans ((ext_left _ _ _ _ (by decide)).trans ((ext_left _ _ _ _ (by decide)).trans ((ext_left _ _ _ _ (by decide)).trans ((ext_left _ _ _ _ (by decide)).trans ((ext_left _ _ _ _ (by decide)).trans (ext_right _ _))))))))
    have h7 : (join (join (join (join (join (join (join (join (join (join (join (join c.bits 0x1c#5) (BitVec.ofBool d)) 0x2#2) vn) vd) 0x5#3) (BitVec.ofBool sz)) (BitVec.ofBool n)) 0x0#1) (BitVec.ofBool m)) 0x0#1) vm).getLsbD 8 = sz := ((bit_left _ _ _ (by decide)).trans ((bit_left _ _ _ (by decide)).trans ((bit_left _ _ _ (by decide)).trans ((bit_left _ _ _ (by decide)).trans ((bit_left _ _ _ (by decide)).trans (bit_right _ _))))))
    have h8 : (join (join (join (join (join (join (join (join (join (join (join (join c.bits 0x1c#5) (BitVec.ofBool d)) 0x2#2) vn) vd) 0x5#3) (BitVec.ofBool sz)) (BitVec.ofBool n)) 0x0#1) (BitVec.ofBool m)) 0x0#1) vm).getLsbD 7 = n := ((bit_left _ _ _ (by decide)).trans ((bit_left _ _ _ (by decide)).trans ((bit_left _ _ _ (by decide)).trans ((bit_left _ _ _ (by decide)).trans (bit_right _ _)))))
    have h10 : (join (join (join (join (join (join (join (join (join (join (join (join c.bits 0x1c#5) (BitVec.ofBool d)) 0x2#2) vn) vd) 0x5#3) (BitVec.ofBool sz)) (BitVec.ofBool n)) 0x0#1) (BitVec.ofBool m)) 0x0#1) vm).getLsbD 5 = m := ((bit_left _ _ _ (by decide)).trans ((bit_left _ _ _ (by decide)).trans (bit_right _ _)))
    have h12 : (join (join (join (join (join (join (join (join (join (join (join (join c.bits 0x1c#5) (BitVec.ofBool d)) 0x2#2) vn) vd) 0x5#3) (BitVec.ofBool sz)) (BitVec.ofBool n)) 0x0#1) (BitVec.ofBool m)) 0x0#1) vm).extractLsb' 0 4 = vm := (ext_right _ _)
    exact congr (congr (congr (congr (congr (congr (congr (congrArg Instr.vmul ((congrArg Cond.ofBits h0).trans (cond_ofBits c))) (h2)) (h4)) (h5)) (h7)) (h8)) (h10)) (h12)

theorem EncodesToItself.vnmul (c : Cond) (d : Bool) (vn : BitVec 4) (vd : BitVec 4) (sz : Bool) (n : Bool) (m : Bool) (vm : BitVec 4) :
    EncodesToItself.Statement (.vnmul c d vn vd sz n m vm) := by
  refine ⟨_, rfl, ?_, ?_⟩
  · show encode (.vnmul c d vn vd sz n m vm) &&& (join (join (join (join (join (join (join (join (join (join (join (join 0x0#4 0x1f#5) 0x0#1) 0x3#2) 0x0#4) 0x0#4) 0x7#3) 0x0#1) 0x0#1) 0x1#1) 0x0#1) 0x1#1) 0x0#4) =
      (join (join (join (join (join (join (join (join (join (join (join (join 0x0#4 0x1c#5) 0x0#1) 0x2#2) 0x0#4) 0x0#4) 0x5#3) 0x0#1) 0x0#1) 0x1#1) 0x0#1) 0x0#1) 0x0#4)
    exact (and_parts _ _ _ _).trans (by simp only [and_parts, BitVec.and_zero]; try rfl)
  · have h0 : (join (join (join (join (join (join (join (join (join (join (join (join c.bits 0x1c#5) (BitVec.ofBool d)) 0x2#2) vn) vd) 0x5#3) (BitVec.ofBool sz)) (BitVec.ofBool n)) 0x1#1) (BitVec.ofBool m)) 0x0#1) vm).extractLsb' 28 4 = c.bits := ((ext_left _ _ _ _ (by decide)).trans ((ext_left _ _ _ _ (by decide)).trans ((ext_left _ _ _ _ (by decide)).trans ((ext_left _ _ _ _ (by decide)).trans ((ext_left _ _ _ _ (by decide)).trans ((ext_left _ _ _ _ (by decide)).trans ((ext_left _ _ _ _ (by decide)).trans ((ext_left _ _ _ _ (by decide)).trans ((ext_left _ _ _ _ (by decide)).trans ((ext_left _ _ _ _ (by decide)).trans ((ext_left _ _ _ _ (by decide)).trans ((ext_left _ _ _ _ (by decide)).trans (ext_only _)))))))))))))
    have h2 : (join (join (join (join (join (join (join (join (join (join (join (join c.bits 0x1c#5) (BitVec.ofBool d)) 0x2#2) vn) vd) 0x5#3) (BitVec.ofBool sz)) (BitVec.ofBool n)) 0x1#1) (BitVec.ofBool m)) 0x0#1) vm).getLsbD 22 = d := ((bit_left _ _ _ (by decide)).trans ((bit_left _ _ _ (by decide)).trans ((bit_left _ _ _ (by decide)).trans ((bit_left _ _ _ (by decide)).trans ((bit_left _ _ _ (by decide)).trans ((bit_left _ _ _ (by decide)).trans ((bit_left _ _ _ (by decide)).trans ((bit_left _ _ _ (by decide)).trans ((bit_left _ _ _ (by decide)).trans ((bit_left _ _ _ (by decide)).trans (bit_right _ _)))))))))))
    have h4 : (join (join (join (join (join (join (join (join (join (join (join (join c.bits 0x1c#5) (BitVec.ofBool d)) 0x2#2) vn) vd) 0x5#3) (BitVec.ofBool sz)) (BitVec.ofBool n)) 0x1#1) (BitVec.ofBool m)) 0x0#1) vm).extractLsb' 16 4 = vn := ((ext_left _ _ _ _ (by decide)).trans ((ext_left _ _ _ _ (by decide)).trans ((ext_left _ _ _ _ (by decide)).trans ((ext_left _ _ _ _ (by decide)).trans ((ext_left _ _ _ _ (by decide)).trans ((ext_left _ _ _ _ (by decide)).trans ((ext_left _ _ _ _ (by decide)).trans ((ext_left _ _ _ _ (by decide)).trans (ext_right _ _)))))))))
    have h5 : (join (join (join (join (join (join (join (join (join (join (join (join c.bits 0x1c#5) (BitVec.ofBool d)) 0x2#2) vn) vd) 0x5#3) (BitVec.ofBool sz)) (BitVec.ofBool n)) 0x1#1) (BitVec.ofBool m)) 0x0#1) vm).extractLsb' 12 4 = vd := ((ext_left _ _ _ _ (by decide)).trans ((ext_left _ _ _ _ (by decide)).trans ((ext_left _ _ _ _ (by decide)).trans ((ext_left _ _ _ _ (by decide)).trans ((ext_left _ _ _ _ (by decide)).trans ((ext_left _ _ _ _ (by decide)).trans ((ext_left _ _ _ _ (by decide)).trans (ext_right _ _))))))))
    have h7 : (join (join (join (join (join (join (join (join (join (join (join (join c.bits 0x1c#5) (BitVec.ofBool d)) 0x2#2) vn) vd) 0x5#3) (BitVec.ofBool sz)) (BitVec.ofBool n)) 0x1#1) (BitVec.ofBool m)) 0x0#1) vm).getLsbD 8 = sz := ((bit_left _ _ _ (by decide)).trans ((bit_left _ _ _ (by decide)).trans ((bit_left _ _ _ (by decide)).trans ((bit_left _ _ _ (by decide)).trans ((bit_left _ _ _ (by decide)).trans (bit_right _ _))))))
    have h8 : (join (join (join (join (join (join (join (join (join (join (join (join c.bits 0x1c#5) (BitVec.ofBool d)) 0x2#2) vn) vd) 0x5#3) (BitVec.ofBool sz)) (BitVec.ofBool n)) 0x1#1) (BitVec.ofBool m)) 0x0#1) vm).getLsbD 7 = n := ((bit_left _ _ _ (by decide)).trans ((bit_left _ _ _ (by decide)).trans ((bit_left _ _ _ (by decide)).trans ((bit_left _ _ _ (by decide)).trans (bit_right _ _)))))
    have h10 : (join (join (join (join (join (join (join (join (join (join (join (join c.bits 0x1c#5) (BitVec.ofBool d)) 0x2#2) vn) vd) 0x5#3) (BitVec.ofBool sz)) (BitVec.ofBool n)) 0x1#1) (BitVec.ofBool m)) 0x0#1) vm).getLsbD 5 = m := ((bit_left _ _ _ (by decide)).trans ((bit_left _ _ _ (by decide)).trans (bit_right _ _)))
    have h12 : (join (join (join (join (join (join (join (join (join (join (join (join c.bits 0x1c#5) (BitVec.ofBool d)) 0x2#2) vn) vd) 0x5#3) (BitVec.ofBool sz)) (BitVec.ofBool n)) 0x1#1) (BitVec.ofBool m)) 0x0#1) vm).extractLsb' 0 4 = vm := (ext_right _ _)
    exact congr (congr (congr (congr (congr (congr (congr (congrArg Instr.vnmul ((congrArg Cond.ofBits h0).trans (cond_ofBits c))) (h2)) (h4)) (h5)) (h7)) (h8)) (h10)) (h12)

theorem EncodesToItself.vadd (c : Cond) (d : Bool) (vn : BitVec 4) (vd : BitVec 4) (sz : Bool) (n : Bool) (m : Bool) (vm : BitVec 4) :
    EncodesToItself.Statement (.vadd c d vn vd sz n m vm) := by
  refine ⟨_, rfl, ?_, ?_⟩
  · show encode (.vadd c d vn vd sz n m vm) &&& (join (join (join (join (join (join (join (join (join (join (join (join 0x0#4 0x1f#5) 0x0#1) 0x3#2) 0x0#4) 0x0#4) 0x7#3) 0x0#1) 0x0#1) 0x1#1) 0x0#1) 0x1#1) 0x0#4) =
      (join (join (join (join (join (join (join (join (join (join (join (join 0x0#4 0x1c#5) 0x0#1) 0x3#2) 0x0#4) 0x0#4) 0x5#3) 0x0#1) 0x0#1) 0x0#1) 0x0#1) 0x0#1) 0x0#4)
    exact (and_parts _ _ _ _).trans (by simp only [and_parts, BitVec.and_zero]; try rfl)
  · have h0 : (join (join (join (join (join (join (join (join (join (join (join (join c.bits 0x1c#5) (BitVec.ofBool d)) 0x3#2) vn) vd) 0x5#3) (BitVec.ofBool sz)) (BitVec.ofBool n)) 0x0#1) (BitVec.ofBool m)) 0x0#1) vm).extractLsb' 28 4 = c.bits := ((ext_left _ _ _ _ (by decide)).trans ((ext_left _ _ _ _ (by decide)).trans ((ext_left _ _ _ _ (by decide)).trans ((ext_left _ _ _ _ (by decide)).trans ((ext_left _ _ _ _ (by decide)).trans ((ext_left _ _ _ _ (by decide)).trans ((ext_left _ _ _ _ (by decide)).trans ((ext_left _ _ _ _ (by decide)).trans ((ext_left _ _ _ _ (by decide)).trans ((ext_left _ _ _ _ (by decide)).trans ((ext_left _ _ _ _ (by decide)).trans ((ext_left _ _ _ _ (by decide)).trans (ext_only _)))))))))))))
    have h2 : (join (join (join (join (join (join (join (join (join (join (join (join c.bits 0x1c#5) (BitVec.ofBool d)) 0x3#2) vn) vd) 0x5#3) (BitVec.ofBool sz)) (BitVec.ofBool n)) 0x0#1) (BitVec.ofBool m)) 0x0#1) vm).getLsbD 22 = d := ((bit_left _ _ _ (by decide)).trans ((bit_left _ _ _ (by decide)).trans ((bit_left _ _ _ (by decide)).trans ((bit_left _ _ _ (by decide)).trans ((bit_left _ _ _ (by decide)).trans ((bit_left _ _ _ (by decide)).trans ((bit_left _ _ _ (by decide)).trans ((bit_left _ _ _ (by decide)).trans ((bit_left _ _ _ (by decide)).trans ((bit_left _ _ _ (by decide)).trans (bit_right _ _)))))))))))
    have h4 : (join (join (join (join (join (join (join (join (join (join (join (join c.bits 0x1c#5) (BitVec.ofBool d)) 0x3#2) vn) vd) 0x5#3) (BitVec.ofBool sz)) (BitVec.ofBool n)) 0x0#1) (BitVec.ofBool m)) 0x0#1) vm).extractLsb' 16 4 = vn := ((ext_left _ _ _ _ (by decide)).trans ((ext_left _ _ _ _ (by decide)).trans ((ext_left _ _ _ _ (by decide)).trans ((ext_left _ _ _ _ (by decide)).trans ((ext_left _ _ _ _ (by decide)).trans ((ext_left _ _ _ _ (by decide)).trans ((ext_left _ _ _ _ (by decide)).trans ((ext_left _ _ _ _ (by decide)).trans (ext_right _ _)))))))))
    have h5 : (join (join (join (join (join (join (join (join (join (join (join (join c.bits 0x1c#5) (BitVec.ofBool d)) 0x3#2) vn) vd) 0x5#3) (BitVec.ofBool sz)) (BitVec.ofBool n)) 0x0#1) (BitVec.ofBool m)) 0x0#1) vm).extractLsb' 12 4 = vd := ((ext_left _ _ _ _ (by decide)).trans ((ext_left _ _ _ _ (by decide)).trans ((ext_left _ _ _ _ (by decide)).trans ((ext_left _ _ _ _ (by decide)).trans ((ext_left _ _ _ _ (by decide)).trans ((ext_left _ _ _ _ (by decide)).trans ((ext_left _ _ _ _ (by decide)).trans (ext_right _ _))))))))
    have h7 : (join (join (join (join (join (join (join (join (join (join (join (join c.bits 0x1c#5) (BitVec.ofBool d)) 0x3#2) vn) vd) 0x5#3) (BitVec.ofBool sz)) (BitVec.ofBool n)) 0x0#1) (BitVec.ofBool m)) 0x0#1) vm).getLsbD 8 = sz := ((bit_left _ _ _ (by decide)).trans ((bit_left _ _ _ (by decide)).trans ((bit_left _ _ _ (by decide)).trans ((bit_left _ _ _ (by decide)).trans ((bit_left _ _ _ (by decide)).trans (bit_right _ _))))))
    have h8 : (join (join (join (join (join (join (join (join (join (join (join (join c.bits 0x1c#5) (BitVec.ofBool d)) 0x3#2) vn) vd) 0x5#3) (BitVec.ofBool sz)) (BitVec.ofBool n)) 0x0#1) (BitVec.ofBool m)) 0x0#1) vm).getLsbD 7 = n := ((bit_left _ _ _ (by decide)).trans ((bit_left _ _ _ (by decide)).trans ((bit_left _ _ _ (by decide)).trans ((bit_left _ _ _ (by decide)).trans (bit_right _ _)))))
    have h10 : (join (join (join (join (join (join (join (join (join (join (join (join c.bits 0x1c#5) (BitVec.ofBool d)) 0x3#2) vn) vd) 0x5#3) (BitVec.ofBool sz)) (BitVec.ofBool n)) 0x0#1) (BitVec.ofBool m)) 0x0#1) vm).getLsbD 5 = m := ((bit_left _ _ _ (by decide)).trans ((bit_left _ _ _ (by decide)).trans (bit_right _ _)))
    have h12 : (join (join (join (join (join (join (join (join (join (join (join (join c.bits 0x1c#5) (BitVec.ofBool d)) 0x3#2) vn) vd) 0x5#3) (BitVec.ofBool sz)) (BitVec.ofBool n)) 0x0#1) (BitVec.ofBool m)) 0x0#1) vm).extractLsb' 0 4 = vm := (ext_right _ _)
    exact congr (congr (congr (congr (congr (congr (congr (congrArg Instr.vadd ((congrArg Cond.ofBits h0).trans (cond_ofBits c))) (h2)) (h4)) (h5)) (h7)) (h8)) (h10)) (h12)

theorem EncodesToItself.vsub (c : Cond) (d : Bool) (vn : BitVec 4) (vd : BitVec 4) (sz : Bool) (n : Bool) (m : Bool) (vm : BitVec 4) :
    EncodesToItself.Statement (.vsub c d vn vd sz n m vm) := by
  refine ⟨_, rfl, ?_, ?_⟩
  · show encode (.vsub c d vn vd sz n m vm) &&& (join (join (join (join (join (join (join (join (join (join (join (join 0x0#4 0x1f#5) 0x0#1) 0x3#2) 0x0#4) 0x0#4) 0x7#3) 0x0#1) 0x0#1) 0x1#1) 0x0#1) 0x1#1) 0x0#4) =
      (join (join (join (join (join (join (join (join (join (join (join (join 0x0#4 0x1c#5) 0x0#1) 0x3#2) 0x0#4) 0x0#4) 0x5#3) 0x0#1) 0x0#1) 0x1#1) 0x0#1) 0x0#1) 0x0#4)
    exact (and_parts _ _ _ _).trans (by simp only [and_parts, BitVec.and_zero]; try rfl)
  · have h0 : (join (join (join (join (join (join (join (join (join (join (join (join c.bits 0x1c#5) (BitVec.ofBool d)) 0x3#2) vn) vd) 0x5#3) (BitVec.ofBool sz)) (BitVec.ofBool n)) 0x1#1) (BitVec.ofBool m)) 0x0#1) vm).extractLsb' 28 4 = c.bits := ((ext_left _ _ _ _ (by decide)).trans ((ext_left _ _ _ _ (by decide)).trans ((ext_left _ _ _ _ (by decide)).trans ((ext_left _ _ _ _ (by decide)).trans ((ext_left _ _ _ _ (by decide)).trans ((ext_left _ _ _ _ (by decide)).trans ((ext_left _ _ _ _ (by decide)).trans ((ext_left _ _ _ _ (by decide)).trans ((ext_left _ _ _ _ (by decide)).trans ((ext_left _ _ _ _ (by decide)).trans ((ext_left _ _ _ _ (by decide)).trans ((ext_left _ _ _ _ (by decide)).trans (ext_only _)))))))))))))
    have h2 : (join (join (join (join (join (join (join (join (join (join (join (join c.bits 0x1c#5) (BitVec.ofBool d)) 0x3#2) vn) vd) 0x5#3) (BitVec.ofBool sz)) (BitVec.ofBool n)) 0x1#1) (BitVec.ofBool m)) 0x0#1) vm).getLsbD 22 = d := ((bit_left _ _ _ (by decide)).trans ((bit_left _ _ _ (by decide)).trans ((bit_left _ _ _ (by decide)).trans ((bit_left _ _ _ (by decide)).trans ((bit_left _ _ _ (by decide)).trans ((bit_left _ _ _ (by decide)).trans ((bit_left _ _ _ (by decide)).trans ((bit_left _ _ _ (by decide)).trans ((bit_left _ _ _ (by decide)).trans ((bit_left _ _ _ (by decide)).trans (bit_right _ _)))))))))))
    have h4 : (join (join (join (join (join (join (join (join (join (join (join (join c.bits 0x1c#5) (BitVec.ofBool d)) 0x3#2) vn) vd) 0x5#3) (BitVec.ofBool sz)) (BitVec.ofBool n)) 0x1#1) (BitVec.ofBool m)) 0x0#1) vm).extractLsb' 16 4 = vn := ((ext_left _ _ _ _ (by decide)).trans ((ext_left _ _ _ _ (by decide)).trans ((ext_left _ _ _ _ (by decide)).trans ((ext_left _ _ _ _ (by decide)).trans ((ext_left _ _ _ _ (by decide)).trans ((ext_left _ _ _ _ (by decide)).trans ((ext_left _ _ _ _ (by decide)).trans ((ext_left _ _ _ _ (by decide)).trans (ext_right _ _)))))))))
    have h5 : (join (join (join (join (join (join (join (join (join (join (join (join c.bits 0x1c#5) (BitVec.ofBool d)) 0x3#2) vn) vd) 0x5#3) (BitVec.ofBool sz)) (BitVec.ofBool n)) 0x1#1) (BitVec.ofBool m)) 0x0#1) vm).extractLsb' 12 4 = vd := ((ext_left _ _ _ _ (by decide)).trans ((ext_left _ _ _ _ (by decide)).trans ((ext_left _ _ _ _ (by decide)).trans ((ext_left _ _ _ _ (by decide)).trans ((ext_left _ _ _ _ (by decide)).trans ((ext_left _ _ _ _ (by decide)).trans ((ext_left _ _ _ _ (by decide)).trans (ext_right _ _))))))))
    have h7 : (join (join (join (join (join (join (join (join (join (join (join (join c.bits 0x1c#5) (BitVec.ofBool d)) 0x3#2) vn) vd) 0x5#3) (BitVec.ofBool sz)) (BitVec.ofBool n)) 0x1#1) (BitVec.ofBool m)) 0x0#1) vm).getLsbD 8 = sz := ((bit_left _ _ _ (by decide)).trans ((bit_left _ _ _ (by decide)).trans ((bit_left _ _ _ (by decide)).trans ((bit_left _ _ _ (by decide)).trans ((bit_left _ _ _ (by decide)).trans (bit_right _ _))))))
    have h8 : (join (join (join (join (join (join (join (join (join (join (join (join c.bits 0x1c#5) (BitVec.ofBool d)) 0x3#2) vn) vd) 0x5#3) (BitVec.ofBool sz)) (BitVec.ofBool n)) 0x1#1) (BitVec.ofBool m)) 0x0#1) vm).getLsbD 7 = n := ((bit_left _ _ _ (by decide)).trans ((bit_left _ _ _ (by decide)).trans ((bit_left _ _ _ (by decide)).trans ((bit_left _ _ _ (by decide)).trans (bit_right _ _)))))
    have h10 : (join (join (join (join (join (join (join (join (join (join (join (join c.bits 0x1c#5) (BitVec.ofBool d)) 0x3#2) vn) vd) 0x5#3) (BitVec.ofBool sz)) (BitVec.ofBool n)) 0x1#1) (BitVec.ofBool m)) 0x0#1) vm).getLsbD 5 = m := ((bit_left _ _ _ (by decide)).trans ((bit_left _ _ _ (by decide)).trans (bit_right _ _)))
    have h12 : (join (join (join (join (join (join (join (join (join (join (join (join c.bits 0x1c#5) (BitVec.ofBool d)) 0x3#2) vn) vd) 0x5#3) (BitVec.ofBool sz)) (BitVec.ofBool n)) 0x1#1) (BitVec.ofBool m)) 0x0#1) vm).extractLsb' 0 4 = vm := (ext_right _ _)
    exact congr (congr (congr (congr (congr (congr (congr (congrArg Instr.vsub ((congrArg Cond.ofBits h0).trans (cond_ofBits c))) (h2)) (h4)) (h5)) (h7)) (h8)) (h10)) (h12)

theorem EncodesToItself.vdiv (c : Cond) (d : Bool) (vn : BitVec 4) (vd : BitVec 4) (sz : Bool) (n : Bool) (m : Bool) (vm : BitVec 4) :
    EncodesToItself.Statement (.vdiv c d vn vd sz n m vm) := by
  refine ⟨_, rfl, ?_, ?_⟩
  · show encode (.vdiv c d vn vd sz n m vm) &&& (join (join (join (join (join (join (join (join (join (join (join (join 0x0#4 0x1f#5) 0x0#1) 0x3#2) 0x0#4) 0x0#4) 0x7#3) 0x0#1) 0x0#1) 0x1#1) 0x0#1) 0x1#1) 0x0#4) =
      (join (join (join (join (join (join (join (join (join (join (join (join 0x0#4 0x1d#5) 0x0#1) 0x0#2) 0x0#4) 0x0#4) 0x5#3) 0x0#1) 0x0#1) 0x0#1) 0x0#1) 0x0#1) 0x0#4)
    exact (and_parts _ _ _ _).trans (by simp only [and_parts, BitVec.and_zero]; try rfl)
  · have h0 : (join (join (join (join (join (join (join (join (join (join (join (join c.bits 0x1d#5) (BitVec.ofBool d)) 0x0#2) vn) vd) 0x5#3) (BitVec.ofBool sz)) (BitVec.ofBool n)) 0x0#1) (BitVec.ofBool m)) 0x0#1) vm).extractLsb' 28 4 = c.bits := ((ext_left _ _ _ _ (by decide)).trans ((ext_left _ _ _ _ (by decide)).trans ((ext_left _ _ _ _ (by decide)).trans ((ext_left _ _ _ _ (by decide)).trans ((ext_left _ _ _ _ (by decide)).trans ((ext_left _ _ _ _ (by decide)).trans ((ext_left _ _ _ _ (by decide)).trans ((ext_left _ _ _ _ (by decide)).trans ((ext_left _ _ _ _ (by decide)).trans ((ext_left _ _ _ _ (by decide)).trans ((ext_left _ _ _ _ (by decide)).trans ((ext_left _ _ _ _ (by decide)).trans (ext_only _)))))))))))))
    have h2 : (join (join (join (join (join (join (join (join (join (join (join (join c.bits 0x1d#5) (BitVec.ofBool d)) 0x0#2) vn) vd) 0x5#3) (BitVec.ofBool sz)) (BitVec.ofBool n)) 0x0#1) (BitVec.ofBool m)) 0x0#1) vm).getLsbD 22 = d := ((bit_left _ _ _ (by decide)).trans ((bit_left _ _ _ (by decide)).trans ((bit_left _ _ _ (by decide)).trans ((bit_left _ _ _ (by decide)).trans ((bit_left _ _ _ (by decide)).trans ((bit_left _ _ _ (by decide)).trans ((bit_left _ _ _ (by decide)).trans ((bit_left _ _ _ (by decide)).trans ((bit_left _ _ _ (by decide)).trans ((bit_left _ _ _ (by decide)).trans (bit_right _ _)))))))))))
    have h4 : (join (join (join (join (join (join (join (join (join (join (join (join c.bits 0x1d#5) (BitVec.ofBool d)) 0x0#2) vn) vd) 0x5#3) (BitVec.ofBool sz)) (BitVec.ofBool n)) 0x0#1) (BitVec.ofBool m)) 0x0#1) vm).extractLsb' 16 4 = vn := ((ext_left _ _ _ _ (by decide)).trans ((ext_left _ _ _ _ (by decide)).trans ((ext_left _ _ _ _ (by decide)).trans ((ext_left _ _ _ _ (by decide)).trans ((ext_left _ _ _ _ (by decide)).trans ((ext_left _ _ _ _ (by decide)).trans ((ext_left _ _ _ _ (by decide)).trans ((ext_left _ _ _ _ (by decide)).trans (ext_right _ _)))))))))
    have h5 : (join (join (join (join (join (join (join (join (join (join (join (join c.bits 0x1d#5) (BitVec.ofBool d)) 0x0#2) vn) vd) 0x5#3) (BitVec.ofBool sz)) (BitVec.ofBool n)) 0x0#1) (BitVec.ofBool m)) 0x0#1) vm).extractLsb' 12 4 = vd := ((ext_left _ _ _ _ (by decide)).trans ((ext_left _ _ _ _ (by decide)).trans ((ext_left _ _ _ _ (by decide)).trans ((ext_left _ _ _ _ (by decide)).trans ((ext_left _ _ _ _ (by decide)).trans ((ext_left _ _ _ _ (by decide)).trans ((ext_left _ _ _ _ (by decide)).trans (ext_right _ _))))))))
    have h7 : (join (join (join (join (join (join (join (join (join (join (join (join c.bits 0x1d#5) (BitVec.ofBool d)) 0x0#2) vn) vd) 0x5#3) (BitVec.ofBool sz)) (BitVec.ofBool n)) 0x0#1) (BitVec.ofBool m)) 0x0#1) vm).getLsbD 8 = sz := ((bit_left _ _ _ (by decide)).trans ((bit_left _ _ _ (by decide)).trans ((bit_left _ _ _ (by decide)).trans ((bit_left _ _ _ (by decide)).trans ((bit_left _ _ _ (by decide)).trans (bit_right _ _))))))
    have h8 : (join (join (join (join (join (join (join (join (join (join (join (join c.bits 0x1d#5) (BitVec.ofBool d)) 0x0#2) vn) vd) 0x5#3) (BitVec.ofBool sz)) (BitVec.ofBool n)) 0x0#1) (BitVec.ofBool m)) 0x0#1) vm).getLsbD 7 = n := ((bit_left _ _ _ (by decide)).trans ((bit_left _ _ _ (by decide)).trans ((bit_left _ _ _ (by decide)).trans ((bit_left _ _ _ (by decide)).trans (bit_right _ _)))))
    have h10 : (join (join (join (join (join (join (join (join (join (join (join (join c.bits 0x1d#5) (BitVec.ofBool d)) 0x0#2) vn) vd) 0x5#3) (BitVec.ofBool sz)) (BitVec.ofBool n)) 0x0#1) (BitVec.ofBool m)) 0x0#1) vm).getLsbD 5 = m := ((bit_left _ _ _ (by decide)).trans ((bit_left _ _ _ (by decide)).trans (bit_right _ _)))
    have h12 : (join (join (join (join (join (join (join (join (join (join (join (join c.bits 0x1d#5) (BitVec.ofBool d)) 0x0#2) vn) vd) 0x5#3) (BitVec.ofBool sz)) (BitVec.ofBool n)) 0x0#1) (BitVec.ofBool m)) 0x0#1) vm).extractLsb' 0 4 = vm := (ext_right _ _)
    exact congr (congr (congr (congr (congr (congr (congr (congrArg Instr.vdiv ((congrArg Cond.ofBits h0).trans (cond_ofBits c))) (h2)) (h4)) (h5)) (h7)) (h8)) (h10)) (h12)

theorem EncodesToItself.vmovImm (c : Cond) (d : Bool) (imm4H : BitVec 4) (vd : BitVec 4) (sz : Bool) (sbz : Bool) (sbz1 : Bool) (imm4L : BitVec 4) :
    EncodesToItself.Statement (.vmovImm c d imm4H vd sz sbz sbz1 imm4L) := by
  refine ⟨_, rfl, ?_, ?_⟩
  · show encode (.vmovImm c d imm4H vd sz sbz sbz1 imm4L) &&& (join (join (join (join (join (join (join (join (join (join (join (join 0x0#4 0x1f#5) 0x0#1) 0x3#2) 0x0#4) 0x0#4) 0x7#3) 0x0#1) 0x0#1) 0x1#1) 0x0#1) 0x1#1) 0x0#4) =
      (join (join (join (join (join (join (join (join (join (join (join (join 0x0#4 0x1d#5) 0x0#1) 0x3#2) 0x0#4) 0x0#4) 0x5#3) 0x0#1) 0x0#1) 0x0#1) 0x0#1) 0x0#1) 0x0#4)
    exact (and_parts _ _ _ _).trans (by simp only [and_parts, BitVec.and_zero]; try rfl)
  · have h0 : (join (join (join (join (join (join (join (join (join (join (join (join c.bits 0x1d#5) (BitVec.ofBool d)) 0x3#2) imm4H) vd) 0x5#3) (BitVec.ofBool sz)) (BitVec.ofBool sbz)) 0x0#1) (BitVec.ofBool sbz1)) 0x0#1) imm4L).extractLsb' 28 4 = c.bits := ((ext_left _ _ _ _ (by decide)).trans ((ext_left _ _ _ _ (by decide)).trans ((ext_left _ _ _ _ (by decide)).trans ((ext_left _ _ _ _ (by decide)).trans ((ext_left _ _ _ _ (by decide)).trans ((ext_left _ _ _ _ (by decide)).trans ((ext_left _ _ _ _ (by decide)).trans ((ext_left _ _ _ _ (by decide)).trans ((ext_left _ _ _ _ (by decide)).trans ((ext_left _ _ _ _ (by decide)).trans ((ext_left _ _ _ _ (by decide)).trans ((ext_left _ _ _ _ (by decide)).trans (ext_only _)))))))))))))
    have h2 : (join (join (join (join (join (join (join (join (join (join (join (join c.bits 0x1d#5) (BitVec.ofBool d)) 0x3#2) imm4H) vd) 0x5#3) (BitVec.ofBool sz)) (BitVec.ofBool sbz)) 0x0#1) (BitVec.ofBool sbz1)) 0x0#1) imm4L).getLsbD 22 = d := ((bit_left _ _ _ (by decide)).trans ((bit_left _ _ _ (by decide)).trans ((bit_left _ _ _ (by decide)).trans ((bit_left _ _ _ (by decide)).trans ((bit_left _ _ _ (by decide)).trans ((bit_left _ _ _ (by decide)).trans ((bit_left _ _ _ (by decide)).trans ((bit_left _ _ _ (by decide)).trans ((bit_left _ _ _ (by decide)).trans ((bit_left _ _ _ (by decide)).trans (bit_right _ _)))))))))))
    have h4 : (join (join (join (join (join (join (join (join (join (join (join (join c.bits 0x1d#5) (BitVec.ofBool d)) 0x3#2) imm4H) vd) 0x5#3) (BitVec.ofBool sz)) (BitVec.ofBool sbz)) 0x0#1) (BitVec.ofBool sbz1)) 0x0#1) imm4L).extractLsb' 16 4 = imm4H := ((ext_left _ _ _ _ (by decide)).trans ((ext_left _ _ _ _ (by decide)).trans ((ext_left _ _ _ _ (by decide)).trans ((ext_left _ _ _ _ (by decide)).trans ((ext_left _ _ _ _ (by decide)).trans ((ext_left _ _ _ _ (by decide)).trans ((ext_left _ _ _ _ (by decide)).trans ((ext_left _ _ _ _ (by decide)).trans (ext_right _ _)))))))))
    have h5 : (join (join (join (join (join (join (join (join (join (join (join (join c.bits 0x1d#5) (BitVec.ofBool d)) 0x3#2) imm4H) vd) 0x5#3) (BitVec.ofBool sz)) (BitVec.ofBool sbz)) 0x0#1) (BitVec.ofBool sbz1)) 0x0#1) imm4L).extractLsb' 12 4 = vd := ((ext_left _ _ _ _ (by decide)).trans ((ext_left _ _ _ _ (by decide)).trans ((ext_left _ _ _ _ (by decide)).trans ((ext_left _ _ _ _ (by decide)).trans ((ext_left _ _ _ _ (by decide)).trans ((ext_left _ _ _ _ (by decide)).trans ((ext_left _ _ _ _ (by decide)).trans (ext_right _ _))))))))
    have h7 : (join (join (join (join (join (join (join (join (join (join (join (join c.bits 0x1d#5) (BitVec.ofBool d)) 0x3#2) imm4H) vd) 0x5#3) (BitVec.ofBool sz)) (BitVec.ofBool sbz)) 0x0#1) (BitVec.ofBool sbz1)) 0x0#1) imm4L).getLsbD 8 = sz := ((bit_left _ _ _ (by decide)).trans ((bit_left _ _ _ (by decide)).trans ((bit_left _ _ _ (by decide)).trans ((bit_left _ _ _ (by decide)).trans ((bit_left _ _ _ (by decide)).trans (bit_right _ _))))))
    have h8 : (join (join (join (join (join (join (join (join (join (join (join (join c.bits 0x1d#5) (BitVec.ofBool d)) 0x3#2) imm4H) vd) 0x5#3) (BitVec.ofBool sz)) (BitVec.ofBool sbz)) 0x0#1) (BitVec.ofBool sbz1)) 0x0#1) imm4L).getLsbD 7 = sbz := ((bit_left _ _ _ (by decide)).trans ((bit_left _ _ _ (by decide)).trans ((bit_left _ _ _ (by decide)).trans ((bit_left _ _ _ (by decide)).trans (bit_right _ _)))))
    have h10 : (join (join (join (join (join (join (join (join (join (join (join (join c.bits 0x1d#5) (BitVec.ofBool d)) 0x3#2) imm4H) vd) 0x5#3) (BitVec.ofBool sz)) (BitVec.ofBool sbz)) 0x0#1) (BitVec.ofBool sbz1)) 0x0#1) imm4L).getLsbD 5 = sbz1 := ((bit_left _ _ _ (by decide)).trans ((bit_left _ _ _ (by decide)).trans (bit_right _ _)))
    have h12 : (join (join (join (join (join (join (join (join (join (join (join (join c.bits 0x1d#5) (BitVec.ofBool d)) 0x3#2) imm4H) vd) 0x5#3) (BitVec.ofBool sz)) (BitVec.ofBool sbz)) 0x0#1) (BitVec.ofBool sbz1)) 0x0#1) imm4L).extractLsb' 0 4 = imm4L := (ext_right _ _)
    exact congr (congr (congr (congr (congr (congr (congr (congrArg Instr.vmovImm ((congrArg Cond.ofBits h0).trans (cond_ofBits c))) (h2)) (h4)) (h5)) (h7)) (h8)) (h10)) (h12)

theorem EncodesToItself.vmovReg (c : Cond) (d : Bool) (vd : BitVec 4) (sz : Bool) (m : Bool) (vm : BitVec 4) :
    EncodesToItself.Statement (.vmovReg c d vd sz m vm) := by
  refine ⟨_, rfl, ?_, ?_⟩
  · show encode (.vmovReg c d vd sz m vm) &&& (join (join (join (join (join (join (join (join (join (join 0x0#4 0x1f#5) 0x0#1) 0x3f#6) 0x0#4) 0x7#3) 0x0#1) 0x3#2) 0x0#1) 0x1#1) 0x0#4) =
      (join (join (join (join (join (join (join (join (join (join 0x0#4 0x1d#5) 0x0#1) 0x30#6) 0x0#4) 0x5#3) 0x0#1) 0x1#2) 0x0#1) 0x0#1) 0x0#4)
    exact (and_parts _ _ _ _).trans (by simp only [and_parts, BitVec.and_zero]; try rfl)
  · have h0 : (join (join (join (join (join (join (join (join (join (join c.bits 0x1d#5) (BitVec.ofBool d)) 0x30#6) vd) 0x5#3) (BitVec.ofBool sz)) 0x1#2) (BitVec.ofBool m)) 0x0#1) vm).extractLsb' 28 4 = c.bits := ((ext_left _ _ _ _ (by decide)).trans ((ext_left _ _ _ _ (by decide)).trans ((ext_left _ _ _ _ (by decide)).trans ((ext_left _ _ _ _ (by decide)).trans ((ext_left _ _ _ _ (by decide)).trans ((ext_left _ _ _ _ (by decide)).trans ((ext_left _ _ _ _ (by decide)).trans ((ext_left _ _ _ _ (by decide)).trans ((ext_left _ _ _ _ (by decide)).trans ((ext_left _ _ _ _ (by decide)).trans (ext_only _)))))))))))
    have h2 : (join (join (join (join (join (join (join (join (join (join c.bits 0x1d#5) (BitVec.ofBool d)) 0x30#6) vd) 0x5#3) (BitVec.ofBool sz)) 0x1#2) (BitVec.ofBool m)) 0x0#1) vm).getLsbD 22 = d := ((bit_left _ _ _ (by decide)).trans ((bit_left _ _ _ (by decide)).trans ((bit_left _ _ _ (by decide)).trans ((bit_left _ _ _ (by decide)).trans ((bit_left _ _ _ (by decide)).trans ((bit_left _ _ _ (by decide)).trans ((bit_left _ _ _ (by decide)).trans ((bit_left _ _ _ (by decide)).trans (bit_right _ _)))))))))
    have h4 : (join (join (join (join (join (join (join (join (join (join c.bits 0x1d#5) (BitVec.ofBool d)) 0x30#6) vd) 0x5#3) (BitVec.ofBool sz)) 0x1#2) (BitVec.ofBool m)) 0x0#1) vm).extractLsb' 12 4 = vd := ((ext_left _ _ _ _ (by decide)).trans ((ext_left _ _ _ _ (by decide)).trans ((ext_left _ _ _ _ (by decide)).trans ((ext_left _ _ _ _ (by decide)).trans ((ext_left _ _ _ _ (by decide)).trans ((ext_left _ _ _ _ (by decide)).trans (ext_right _ _)))))))
    have h6 : (join (join (join (join (join (join (join (join (join (join c.bits 0x1d#5) (BitVec.ofBool d)) 0x30#6) vd) 0x5#3) (BitVec.ofBool sz)) 0x1#2) (BitVec.ofBool m)) 0x0#1) vm).getLsbD 8 = sz := ((bit_left _ _ _ (by decide)).trans ((bit_left _ _ _ (by decide)).trans ((bit_left _ _ _ (by decide)).trans ((bit_left _ _ _ (by decide)).trans (bit_right _ _)))))
    have h8 : (join (join (join (join (join (join (join (join (join (join c.bits 0x1d#5) (BitVec.ofBool d)) 0x30#6) vd) 0x5#3) (BitVec.ofBool sz)) 0x1#2) (BitVec.ofBool m)) 0x0#1) vm).getLsbD 5 = m := ((bit_left _ _ _ (by decide)).trans ((bit_left _ _ _ (by decide)).trans (bit_right _ _)))
    have h10 : (join (join (join (join (join (join (join (join (join (join c.bits 0x1d#5) (BitVec.ofBool d)) 0x30#6) vd) 0x5#3) (BitVec.ofBool sz)) 0x1#2) (BitVec.ofBool m)) 0x0#1) vm).extractLsb' 0 4 = vm := (ext_right _ _)
    exact congr (congr (congr (congr (congr (congrArg Instr.vmovReg ((congrArg Cond.ofBits h0).trans (cond_ofBits c))) (h2)) (h4)) (h6)) (h8)) (h10)

theorem EncodesToItself.vabs (c : Cond) (d : Bool) (vd : BitVec 4) (sz : Bool) (m : Bool) (vm : BitVec 4) :
    EncodesToItself.Statement (.vabs c d vd sz m vm) := by
  refine ⟨_, rfl, ?_, ?_⟩
  · show encode (.vabs c d vd sz m vm) &&& (join (join (join (join (join (join (join (join (join (join 0x0#4 0x1f#5) 0x0#1) 0x3f#6) 0x0#4) 0x7#3) 0x0#1) 0x3#2) 0x0#1) 0x1#1) 0x0#4) =
      (join (join (join (join (join (join (join (join (join (join 0x0#4 0x1d#5) 0x0#1) 0x30#6) 0x0#4) 0x5#3) 0x0#1) 0x3#2) 0x0#1) 0x0#1) 0x0#4)
    exact (and_parts _ _ _ _).trans (by simp only [and_parts, BitVec.and_zero]; try rfl)
  · have h0 : (join (join (join (join (join (join (join (join (join (join c.bits 0x1d#5) (BitVec.ofBool d)) 0x30#6) vd) 0x5#3) (BitVec.ofBool sz)) 0x3#2) (BitVec.ofBool m)) 0x0#1) vm).extractLsb' 28 4 = c.bits := ((ext_left _ _ _ _ (by decide)).trans ((ext_left _ _ _ _ (by decide)).trans ((ext_left _ _ _ _ (by decide)).trans ((ext_left _ _ _ _ (by decide)).trans ((ext_left _ _ _ _ (by decide)).trans ((ext_left _ _ _ _ (by decide)).trans ((ext_left _ _ _ _ (by decide)).trans ((ext_left _ _ _ _ (by decide)).trans ((ext_left _ _ _ _ (by decide)).trans ((ext_left _ _ _ _ (by decide)).trans (ext_only _)))))))))))
    have h2 : (join (join (join (join (join (join (join (join (join (join c.bits 0x1d#5) (BitVec.ofBool d)) 0x30#6) vd) 0x5#3) (BitVec.ofBool sz)) 0x3#2) (BitVec.ofBool m)) 0x0#1) vm).getLsbD 22 = d := ((bit_left _ _ _ (by decide)).trans ((bit_left _ _ _ (by decide)).trans ((bit_left _ _ _ (by decide)).trans ((bit_left _ _ _ (by decide)).trans ((bit_left _ _ _ (by decide)).trans ((bit_left _ _ _ (by decide)).trans ((bit_left _ _ _ (by decide)).trans ((bit_left _ _ _ (by decide)).trans (bit_right _ _)))))))))
    have h4 : (join (join (join (join (join (join (join (join (join (join c.bits 0x1d#5) (BitVec.ofBool d)) 0x30#6) vd) 0x5#3) (BitVec.ofBool sz)) 0x3#2) (BitVec.ofBool m)) 0x0#1) vm).extractLsb' 12 4 = vd := ((ext_left _ _ _ _ (by decide)).trans ((ext_left _ _ _ _ (by decide)).trans ((ext_left _ _ _ _ (by decide)).trans ((ext_left _ _ _ _ (by decide)).trans ((ext_left _ _ _ _ (by decide)).trans ((ext_left _ _ _ _ (by decide)).trans (ext_right _ _)))))))
    have h6 : (join (join (join (join (join (join (join (join (join (join c.bits 0x1d#5) (BitVec.ofBool d)) 0x30#6) vd) 0x5#3) (BitVec.ofBool sz)) 0x3#2) (BitVec.ofBool m)) 0x0#1) vm).getLsbD 8 = sz := ((bit_left _ _ _ (by decide)).trans ((bit_left _ _ _ (by decide)).trans ((bit_left _ _ _ (by decide)).trans ((bit_left _ _ _ (by decide)).trans (bit_right _ _)))))
    have h8 : (join (join (join (join (join (join (join (join (join (join c.bits 0x1d#5) (BitVec.ofBool d)) 0x30#6) vd) 0x5#3) (BitVec.ofBool sz)) 0x3#2) (BitVec.ofBool m)) 0x0#1) vm).getLsbD 5 = m := ((bit_left _ _ _ (by decide)).trans ((bit_left _ _ _ (by decide)).trans (bit_right _ _)))
    have h10 : (join (join (join (join (join (join (join (join (join (join c.bits 0x1d#5) (BitVec.ofBool d)) 0x30#6) vd) 0x5#3) (BitVec.ofBool sz)) 0x3#2) (BitVec.ofBool m)) 0x0#1) vm).extractLsb' 0 4 = vm := (ext_right _ _)
    exact congr (congr (congr (congr (congr (congrArg Instr.vabs ((congrArg Cond.ofBits h0).trans (cond_ofBits c))) (h2)) (h4)) (h6)) (h8)) (h10)

theorem EncodesToItself.vneg (c : Cond) (d : Bool) (vd : BitVec 4) (sz : Bool) (m : Bool) (vm : BitVec 4) :
    EncodesToItself.Statement (.vneg c d vd sz m vm) := by
  refine ⟨_, rfl, ?_, ?_⟩
  · show encode (.vneg c d vd sz m vm) &&& (join (join (join (join (join (join (join (join (join (join 0x0#4 0x1f#5) 0x0#1) 0x3f#6) 0x0#4) 0x7#3) 0x0#1) 0x3#2) 0x0#1) 0x1#1) 0x0#4) =
      (join (join (join (join (join (join (join (join (join (join 0x0#4 0x1d#5) 0x0#1) 0x31#6) 0x0#4) 0x5#3) 0x0#1) 0x1#2) 0x0#1) 0x0#1) 0x0#4)
    exact (and_parts _ _ _ _).trans (by simp only [and_parts, BitVec.and_zero]; try rfl)
  · have h0 : (join (join (join (join (join (join (join (join (join (join c.bits 0x1d#5) (BitVec.ofBool d)) 0x31#6) vd) 0x5#3) (BitVec.ofBool sz)) 0x1#2) (BitVec.ofBool m)) 0x0#1) vm).extractLsb' 28 4 = c.bits := ((ext_left _ _ _ _ (by decide)).trans ((ext_left _ _ _ _ (by decide)).trans ((ext_left _ _ _ _ (by decide)).trans ((ext_left _ _ _ _ (by decide)).trans ((ext_left _ _ _ _ (by decide)).trans ((ext_left _ _ _ _ (by decide)).trans ((ext_left _ _ _ _ (by decide)).trans ((ext_left _ _ _ _ (by decide)).trans ((ext_left _ _ _ _ (by decide)).trans ((ext_left _ _ _ _ (by decide)).trans (ext_only _)))))))))))
    have h2 : (join (join (join (join (join (join (join (join (join (join c.bits 0x1d#5) (BitVec.ofBool d)) 0x31#6) vd) 0x5#3) (BitVec.ofBool sz)) 0x1#2) (BitVec.ofBool m)) 0x0#1) vm).getLsbD 22 = d := ((bit_left _ _ _ (by decide)).trans ((bit_left _ _ _ (by decide)).trans ((bit_left _ _ _ (by decide)).trans ((bit_left _ _ _ (by decide)).trans ((bit_left _ _ _ (by decide)).trans ((bit_left _ _ _ (by decide)).trans ((bit_left _ _ _ (by decide)).trans ((bit_left _ _ _ (by decide)).trans (bit_right _ _)))))))))
    have h4 : (join (join (join (join (join (join (join (join (join (join c.bits 0x1d#5) (BitVec.ofBool d)) 0x31#6) vd) 0x5#3) (BitVec.ofBool sz)) 0x1#2) (BitVec.ofBool m)) 0x0#1) vm).extractLsb' 12 4 = vd := ((ext_left _ _ _ _ (by decide)).trans ((ext_left _ _ _ _ (by decide)).trans ((ext_left _ _ _ _ (by decide)).trans ((ext_left _ _ _ _ (by decide)).trans ((ext_left _ _ _ _ (by decide)).trans ((ext_left _ _ _ _ (by decide)).trans (ext_right _ _)))))))
    have h6 : (join (join (join (join (join (join (join (join (join (join c.bits 0x1d#5) (BitVec.ofBool d)) 0x31#6) vd) 0x5#3) (BitVec.ofBool sz)) 0x1#2) (BitVec.ofBool m)) 0x0#1) vm).getLsbD 8 = sz := ((bit_left _ _ _ (by decide)).trans ((bit_left _ _ _ (by decide)).trans ((bit_left _ _ _ (by decide)).trans ((bit_left _ _ _ (by decide)).trans (bit_right _ _)))))
    have h8 : (join (join (join (join (join (join (join (join (join (join c.bits 0x1d#5) (BitVec.ofBool d)) 0x31#6) vd) 0x5#3) (BitVec.ofBool sz)) 0x1#2) (BitVec.ofBool m)) 0x0#1) vm).getLsbD 5 = m := ((bit_left _ _ _ (by decide)).trans ((bit_left _ _ _ (by decide)).trans (bit_right _ _)))
    have h10 : (join (join (join (join (join (join (join (join (join (join c.bits 0x1d#5) (BitVec.ofBool d)) 0x31#6) vd) 0x5#3) (BitVec.ofBool sz)) 0x1#2) (BitVec.ofBool m)) 0x0#1) vm).extractLsb' 0 4 = vm := (ext_right _ _)
    exact congr (congr (congr (congr (congr (congrArg Instr.vneg ((congrArg Cond.ofBits h0).trans (cond_ofBits c))) (h2)) (h4)) (h6)) (h8)) (h10)

theorem EncodesToItself.vsqrt (c : Cond) (d : Bool) (vd : BitVec 4) (sz : Bool) (m : Bool) (vm : BitVec 4) :
    EncodesToItself.Statement (.vsqrt c d vd sz m vm) := by
  refine ⟨_, rfl, ?_, ?_⟩
  · show encode (.vsqrt c d vd sz m vm) &&& (join (join (join (join (join (join (join (join (join (join 0x0#4 0x1f#5) 0x0#1) 0x3f#6) 0x0#4) 0x7#3) 0x0#1) 0x3#2) 0x0#1) 0x1#1) 0x0#4) =
      (join (join (join (join (join (join (join (join (join (join 0x0#4 0x1d#5) 0x0#1) 0x31#6) 0x0#4) 0x5#3) 0x0#1) 0x3#2) 0x0#1) 0x0#1) 0x0#4)
    exact (and_parts _ _ _ _).trans (by simp only [and_parts, BitVec.and_zero]; try rfl)
  · have h0 : (join (join (join (join (join (join (join (join (join (join c.bits 0x1d#5) (BitVec.ofBool d)) 0x31#6) vd) 0x5#3) (BitVec.ofBool sz)) 0x3#2) (BitVec.ofBool m)) 0x0#1) vm).extractLsb' 28 4 = c.bits := ((ext_left _ _ _ _ (by decide)).trans ((ext_left _ _ _ _ (by decide)).trans ((ext_left _ _ _ _ (by decide)).trans ((ext_left _ _ _ _ (by decide)).trans ((ext_left _ _ _ _ (by decide)).trans ((ext_left _ _ _ _ (by decide)).trans ((ext_left _ _ _ _ (by decide)).trans ((ext_left _ _ _ _ (by decide)).trans ((ext_left _ _ _ _ (by decide)).trans ((ext_left _ _ _ _ (by decide)).trans (ext_only _)))))))))))
    have h2 : (join (join (join (join (join (join (join (join (join (join c.bits 0x1d#5) (BitVec.ofBool d)) 0x31#6) vd) 0x5#3) (BitVec.ofBool sz)) 0x3#2) (BitVec.ofBool m)) 0x0#1) vm).getLsbD 22 = d := ((bit_left _ _ _ (by decide)).trans ((bit_left _ _ _ (by decide)).trans ((bit_left _ _ _ (by decide)).trans ((bit_left _ _ _ (by decide)).trans ((bit_left _ _ _ (by decide)).trans ((bit_left _ _ _ (by decide)).trans ((bit_left _ _ _ (by decide)).trans ((bit_left _ _ _ (by decide)).trans (bit_right _ _)))))))))
    have h4 : (join (join (join (join (join (join (join (join (join (join c.bits 0x1d#5) (BitVec.ofBool d)) 0x31#6) vd) 0x5#3) (BitVec.ofBool sz)) 0x3#2) (BitVec.ofBool m)) 0x0#1) vm).extractLsb' 12 4 = vd := ((ext_left _ _ _ _ (by decide)).trans ((ext_left _ _ _ _ (by decide)).trans ((ext_left _ _ _ _ (by decide)).trans ((ext_left _ _ _ _ (by decide)).trans ((ext_left _ _ _ _ (by decide)).trans ((ext_left _ _ _ _ (by decide)).trans (ext_right _ _)))))))
    have h6 : (join (join (join (join (join (join (join (join (join (join c.bits 0x1d#5) (BitVec.ofBool d)) 0x31#6) vd) 0x5#3) (BitVec.ofBool sz)) 0x3#2) (BitVec.ofBool m)) 0x0#1) vm).getLsbD 8 = sz := ((bit_left _ _ _ (by decide)).trans ((bit_left _ _ _ (by decide)).trans ((bit_left _ _ _ (by decide)).trans ((bit_left _ _ _ (by decide)).trans (bit_right _ _)))))
    have h8 : (join (join (join (join (join (join (join (join (join (join c.bits 0x1d#5) (BitVec.ofBool d)) 0x31#6) vd) 0x5#3) (BitVec.ofBool sz)) 0x3#2) (BitVec.ofBool m)) 0x0#1) vm).getLsbD 5 = m := ((bit_left _ _ _ (by decide)).trans ((bit_left _ _ _ (by decide)).trans (bit_right _ _)))
    have h10 : (join (join (join (join (join (join (join (join (join (join c.bits 0x1d#5) (BitVec.ofBool d)) 0x31#6) vd) 0x5#3) (BitVec.ofBool sz)) 0x3#2) (BitVec.ofBool m)) 0x0#1) vm).extractLsb' 0 4 = vm := (ext_right _ _)
    exact congr (congr (congr (congr (congr (congrArg Instr.vsqrt ((congrArg Cond.ofBits h0).trans (cond_ofBits c))) (h2)) (h4)) (h6)) (h8)) (h10)

theorem EncodesToItself.vcvtbVcvtt (c : Cond) (d : Bool) (op : Bool) (vd : BitVec 4) (t : Bool) (m : Bool) (vm : BitVec 4) :
    EncodesToItself.Statement (.vcvtbVcvtt c d op vd t m vm) := by
  refine ⟨_, rfl, ?_, ?_⟩
  · show encode (.vcvtbVcvtt c d op vd t m vm) &&& (join (join (join (join (join (join (join (join (join (join (join 0x0#4 0x1f#5) 0x0#1) 0x1f#5) 0x0#1) 0x0#4) 0xf#4) 0x0#1) 0x1#1) 0x0#1) 0x1#1) 0x0#4) =
      (join (join (join (join (join (join (join (join (join (join (join 0x0#4 0x1d#5) 0x0#1) 0x19#5) 0x0#1) 0x0#4) 0xa#4) 0x0#1) 0x1#1) 0x0#1) 0x0#1) 0x0#4)
    exact (and_parts _ _ _ _).trans (by simp only [and_parts, BitVec.and_zero]; try rfl)
  · have h0 : (join (join (join (join (join (join (join (join (join (join (join c.bits 0x1d#5) (BitVec.ofBool d)) 0x19#5) (BitVec.ofBool op)) vd) 0xa#4) (BitVec.ofBool t)) 0x1#1) (BitVec.ofBool m)) 0x0#1) vm).extractLsb' 28 4 = c.bits := ((ext_left _ _ _ _ (by decide)).trans ((ext_left _ _ _ _ (by decide)).trans ((ext_left _ _ _ _ (by decide)).trans ((ext_left _ _ _ _ (by decide)).trans ((ext_left _ _ _ _ (by decide)).trans ((ext_left _ _ _ _ (by decide)).trans ((ext_left _ _ _ _ (by decide)).trans ((ext_left _ _ _ _ (by decide)).trans ((ext_left _ _ _ _ (by decide)).trans ((ext_left _ _ _ _ (by decide)).trans ((ext_left _ _ _ _ (by decide)).trans (ext_only _))))))))))))
    have h2 : (join (join (join (join (join (join (join (join (join (join (join c.bits 0x1d#5) (BitVec.ofBool d)) 0x19#5) (BitVec.ofBool op)) vd) 0xa#4) (BitVec.ofBool t)) 0x1#1) (BitVec.ofBool m)) 0x0#1) vm).getLsbD 22 = d := ((bit_left _ _ _ (by decide)).trans ((bit_left _ _ _ (by decide)).trans ((bit_left _ _ _ (by decide)).trans ((bit_left _ _ _ (by decide)).trans ((bit_left _ _ _ (by decide)).trans ((bit_left _ _ _ (by decide)).trans ((bit_left _ _ _ (by decide)).trans ((bit_left _ _ _ (by decide)).trans ((bit_left _ _ _ (by decide)).trans (bit_right _ _))))))))))
    have h4 : (join (join (join (join (join (join (join (join (join (join (join c.bits 0x1d#5) (BitVec.ofBool d)) 0x19#5) (BitVec.ofBool op)) vd) 0xa#4) (BitVec.ofBool t)) 0x1#1) (BitVec.ofBool m)) 0x0#1) vm).getLsbD 16 = op := ((bit_left _ _ _ (by decide)).trans ((bit_left _ _ _ (by decide)).trans ((bit_left _ _ _ (by decide)).trans ((bit_left _ _ _ (by decide)).trans ((bit_left _ _ _ (by decide)).trans ((bit_left _ _ _ (by decide)).trans ((bit_left _ _ _ (by decide)).trans (bit_right _ _))))))))
    have h5 : (join (join (join (join (join (join (join (join (join (join (join c.bits 0x1d#5) (BitVec.ofBool d)) 0x19#5) (BitVec.ofBool op)) vd) 0xa#4) (BitVec.ofBool t)) 0x1#1) (BitVec.ofBool m)) 0x0#1) vm).extractLsb' 12 4 = vd := ((ext_left _ _ _ _ (by decide)).trans ((ext_left _ _ _ _ (by decide)).trans ((ext_left _ _ _ _ (by decide)).trans ((ext_left _ _ _ _ (by decide)).trans ((ext_left _ _ _ _ (by decide)).trans ((ext_left _ _ _ _ (by decide)).trans (ext_right _ _)))))))
    have h7 : (join (join (join (join (join (join (join (join (join (join (join c.bits 0x1d#5) (BitVec.ofBool d)) 0x19#5) (BitVec.ofBool op)) vd) 0xa#4) (BitVec.ofBool t)) 0x1#1) (BitVec.ofBool m)) 0x0#1) vm).getLsbD 7 = t := ((bit_left _ _ _ (by decide)).trans ((bit_left _ _ _ (by decide)).trans ((bit_left _ _ _ (by decide)).trans ((bit_left _ _ _ (by decide)).trans (bit_right _ _)))))
    have h9 : (join (join (join (join (join (join (join (join (join (join (join c.bits 0x1d#5) (BitVec.ofBool d)) 0x19#5) (BitVec.ofBool op)) vd) 0xa#4) (BitVec.ofBool t)) 0x1#1) (BitVec.ofBool m)) 0x0#1) vm).getLsbD 5 = m := ((bit_left _ _ _ (by decide)).trans ((bit_left _ _ _ (by decide)).trans (bit_right _ _)))
    have h11 : (join (join (join (join (join (join (join (join (join (join (join c.bits 0x1d#5) (BitVec.ofBool d)) 0x19#5) (BitVec.ofBool op)) vd) 0xa#4) (BitVec.ofBool t)) 0x1#1) (BitVec.ofBool m)) 0x0#1) vm).extractLsb' 0 4 = vm := (ext_right _ _)
    exact congr (congr (congr (congr (congr (congr (congrArg Instr.vcvtbVcvtt ((congrArg Cond.ofBits h0).trans (cond_ofBits c))) (h2)) (h4)) (h5)) (h7)) (h9)) (h11)

theorem EncodesToItself.vcmpReg (c : Cond) (d : Bool) (vd : BitVec 4) (sz : Bool) (e : Bool) (m : Bool) (vm : BitVec 4) :
    EncodesToItself.Statement (.vcmpReg c d vd sz e m vm) := by
  refine ⟨_, rfl, ?_, ?_⟩
  · show encode (.vcmpReg c d vd sz e m vm) &&& (join (join (join (join (join (join (join (join (join (join (join 0x0#4 0x1f#5) 0x0#1) 0x3f#6) 0x0#4) 0x7#3) 0x0#1) 0x0#1) 0x1#1) 0x0#1) 0x1#1) 0x0#4) =
      (join (join (join (join (join (join (join (join (join (join (join 0x0#4 0x1d#5) 0x0#1) 0x34#6) 0x0#4) 0x5#3) 0x0#1) 0x0#1) 0x1#1) 0x0#1) 0x0#1) 0x0#4)
    exact (and_parts _ _ _ _).trans (by simp only [and_parts, BitVec.and_zero]; try rfl)
  · have h0 : (join (join (join (join (join (join (join (join (join (join (join c.bits 0x1d#5) (BitVec.ofBool d)) 0x34#6) vd) 0x5#3) (BitVec.ofBool sz)) (BitVec.ofBool e)) 0x1#1) (BitVec.ofBool m)) 0x0#1) vm).extractLsb' 28 4 = c.bits := ((ext_left _ _ _ _ (by decide)).trans ((ext_left _ _ _ _ (by decide)).trans ((ext_left _ _ _ _ (by decide)).trans ((ext_left _ _ _ _ (by decide)).trans ((ext_left _ _ _ _ (by decide)).trans ((ext_left _ _ _ _ (by decide)).trans ((ext_left _ _ _ _ (by decide)).trans ((ext_left _ _ _ _ (by decide)).trans ((ext_left _ _ _ _ (by decide)).trans ((ext_left _ _ _ _ (by decide)).trans ((ext_left _ _ _ _ (by decide)).trans (ext_only _))))))))))))
    have h2 : (join (join (join (join (join (join (join (join (join (join (join c.bits 0x1d#5) (BitVec.ofBool d)) 0x34#6) vd) 0x5#3) (BitVec.ofBool sz)) (BitVec.ofBool e)) 0x1#1) (BitVec.ofBool m)) 0x0#1) vm).getLsbD 22 = d := ((bit_left _ _ _ (by decide)).trans ((bit_left _ _ _ (by decide)).trans ((bit_left _ _ _ (by decide)).trans ((bit_left _ _ _ (by decide)).trans ((bit_left _ _ _ (by decide)).trans ((bit_left _ _ _ (by decide)).trans ((bit_left _ _ _ (by decide)).trans ((bit_left _ _ _ (by decide)).trans ((bit_left _ _ _ (by decide)).trans (bit_right _ _))))))))))
    have h4 : (join (join (join (join (join (join (join (join (join (join (join c.bits 0x1d#5) (BitVec.ofBool d)) 0x34#6) vd) 0x5#3) (BitVec.ofBool sz)) (BitVec.ofBool e)) 0x1#1) (BitVec.ofBool m)) 0x0#1) vm).extractLsb' 12 4 = vd := ((ext_left _ _ _ _ (by decide)).trans ((ext_left _ _ _ _ (by decide)).trans ((ext_left _ _ _ _ (by decide)).trans ((ext_left _ _ _ _ (by decide)).trans ((ext_left _ _ _ _ (by decide)).trans ((ext_left _ _ _ _ (by decide)).trans ((ext_left _ _ _ _ (by decide)).trans (ext_right _ _))))))))
    have h6 : (join (join (join (join (join (join (join (join (join (join (join c.bits 0x1d#5) (BitVec.ofBool d)) 0x34#6) vd) 0x5#3) (BitVec.ofBool sz)) (BitVec.ofBool e)) 0x1#1) (BitVec.ofBool m)) 0x0#1) vm).getLsbD 8 = sz := ((bit_left _ _ _ (by decide)).trans ((bit_left _ _ _ (by decide)).trans ((bit_left _ _ _ (by decide)).trans ((bit_left _ _ _ (by decide)).trans ((bit_left _ _ _ (by decide)).trans (bit_right _ _))))))
    have h7 : (join (join (join (join (join (join (join (join (join (join (join c.bits 0x1d#5) (BitVec.ofBool d)) 0x34#6) vd) 0x5#3) (BitVec.ofBool sz)) (BitVec.ofBool e)) 0x1#1) (BitVec.ofBool m)) 0x0#1) vm).getLsbD 7 = e := ((bit_left _ _ _ (by decide)).trans ((bit_left _ _ _ (by decide)).trans ((bit_left _ _ _ (by decide)).trans ((bit_left _ _ _ (by decide)).trans (bit_right _ _)))))
    have h9 : (join (join (join (join (join (join (join (join (join (join (join c.bits 0x1d#5) (BitVec.ofBool d)) 0x34#6) vd) 0x5#3) (BitVec.ofBool sz)) (BitVec.ofBool e)) 0x1#1) (BitVec.ofBool m)) 0x0#1) vm).getLsbD 5 = m := ((bit_left _ _ _ (by decide)).trans ((bit_left _ _ _ (by decide)).trans (bit_right _ _)))
    have h11 : (join (join (join (join (join (join (join (join (join (join (join c.bits 0x1d#5) (BitVec.ofBool d)) 0x34#6) vd) 0x5#3) (BitVec.ofBool sz)) (BitVec.ofBool e)) 0x1#1) (BitVec.ofBool m)) 0x0#1) vm).extractLsb' 0 4 = vm := (ext_right _ _)
    exact congr (congr (congr (congr (congr (congr (congrArg Instr.vcmpReg ((congrArg Cond.ofBits h0).trans (cond_ofBits c))) (h2)) (h4)) (h6)) (h7)) (h9)) (h11)

theorem EncodesToItself.vcmpZero (c : Cond) (d : Bool) (vd : BitVec 4) (sz : Bool) (e : Bool) (sbz : Bool) (sbz1 : BitVec 4) :
    EncodesToItself.Statement (.vcmpZero c d vd sz e sbz sbz1) := by
  refine ⟨_, rfl, ?_, ?_⟩
  · show encode (.vcmpZero c d vd sz e sbz sbz1) &&& (join (join (join (join (join (join (join (join (join (join (join 0x0#4 0x1f#5) 0x0#1) 0x3f#6) 0x0#4) 0x7#3) 0x0#1) 0x0#1) 0x1#1) 0x0#1) 0x1#1) 0x0#4) =
      (join (join (join (join (join (join (join (join (join (join (join 0x0#4 0x1d#5) 0x0#1) 0x35#6) 0x0#4) 0x5#3) 0x0#1) 0x0#1) 0x1#1) 0x0#1) 0x0#1) 0x0#4)
    exact (and_parts _ _ _ _).trans (by simp only [and_parts, BitVec.and_zero]; try rfl)
  · have h0 : (join (join (join (join (join (join (join (join (join (join (join c.bits 0x1d#5) (BitVec.ofBool d)) 0x35#6) vd) 0x5#3) (BitVec.ofBool sz)) (BitVec.ofBool e)) 0x1#1) (BitVec.ofBool sbz)) 0x0#1) sbz1).extractLsb' 28 4 = c.bits := ((ext_left _ _ _ _ (by decide)).trans ((ext_left _ _ _ _ (by decide)).trans ((ext_left _ _ _ _ (by decide)).trans ((ext_left _ _ _ _ (by decide)).trans ((ext_left _ _ _ _ (by decide)).trans ((ext_left _ _ _ _ (by decide)).trans ((ext_left _ _ _ _ (by decide)).trans ((ext_left _ _ _ _ (by decide)).trans ((ext_left _ _ _ _ (by decide)).trans ((ext_left _ _ _ _ (by decide)).trans ((ext_left _ _ _ _ (by decide)).trans (ext_only _))))))))))))
    have h2 : (join (join (join (join (join (join (join (join (join (join (join c.bits 0x1d#5) (BitVec.ofBool d)) 0x35#6) vd) 0x5#3) (BitVec.ofBool sz)) (BitVec.ofBool e)) 0x1#1) (BitVec.ofBool sbz)) 0x0#1) sbz1).getLsbD 22 = d := ((bit_left _ _ _ (by decide)).trans ((bit_left _ _ _ (by decide)).trans ((bit_left _ _ _ (by decide)).trans ((bit_left _ _ _ (by decide)).trans ((bit_left _ _ _ (by decide)).trans ((bit_left _ _ _ (by decide)).trans ((bit_left _ _ _ (by decide)).trans ((bit_left _ _ _ (by decide)).trans ((bit_left _ _ _ (by decide)).trans (bit_right _ _))))))))))
    have h4 : (join (join (join (join (join (join (join (join (join (join (join c.bits 0x1d#5) (BitVec.ofBool d)) 0x35#6) vd) 0x5#3) (BitVec.ofBool sz)) (BitVec.ofBool e)) 0x1#1) (BitVec.ofBool sbz)) 0x0#1) sbz1).extractLsb' 12 4 = vd := ((ext_left _ _ _ _ (by decide)).trans ((ext_left _ _ _ _ (by decide)).trans ((ext_left _ _ _ _ (by decide)).trans ((ext_left _ _ _ _ (by decide)).trans ((ext_left _ _ _ _ (by decide)).trans ((ext_left _ _ _ _ (by decide)).trans ((ext_left _ _ _ _ (by decide)).trans (ext_right _ _))))))))
    have h6 : (join (join (join (join (join (join (join (join (join (join (join c.bits 0x1d#5) (BitVec.ofBool d)) 0x35#6) vd) 0x5#3) (BitVec.ofBool sz)) (BitVec.ofBool e)) 0x1#1) (BitVec.ofBool sbz)) 0x0#1) sbz1).getLsbD 8 = sz := ((bit_left _ _ _ (by decide)).trans ((bit_left _ _ _ (by decide)).trans ((bit_left _ _ _ (by decide)).trans ((bit_left _ _ _ (by decide)).trans ((bit_left _ _ _ (by decide)).trans (bit_right _ _))))))
    have h7 : (join (join (join (join (join (join (join (join (join (join (join c.bits 0x1d#5) (BitVec.ofBool d)) 0x35#6) vd) 0x5#3) (BitVec.ofBool sz)) (BitVec.ofBool e)) 0x1#1) (BitVec.ofBool sbz)) 0x0#1) sbz1).getLsbD 7 = e := ((bit_left _ _ _ (by decide)).trans ((bit_left _ _ _ (by decide)).trans ((bit_left _ _ _ (by decide)).trans ((bit_left _ _ _ (by decide)).trans (bit_right _ _)))))
    have h9 : (join (join (join (join (join (join (join (join (join (join (join c.bits 0x1d#5) (BitVec.ofBool d)) 0x35#6) vd) 0x5#3) (BitVec.ofBool sz)) (BitVec.ofBool e)) 0x1#1) (BitVec.ofBool sbz)) 0x0#1) sbz1).getLsbD 5 = sbz := ((bit_left _ _ _ (by decide)).trans ((bit_left _ _ _ (by decide)).trans (bit_right _ _)))
    have h11 : (join (join (join (join (join (join (join (join (join (join (join c.bits 0x1d#5) (BitVec.ofBool d)) 0x35#6) vd) 0x5#3) (BitVec.ofBool sz)) (BitVec.ofBool e)) 0x1#1) (BitVec.ofBool sbz)) 0x0#1) sbz1).extractLsb' 0 4 = sbz1 := (ext_right _ _)
    exact congr (congr (congr (congr (congr (congr (congrArg Instr.vcmpZero ((congrArg Cond.ofBits h0).trans (cond_ofBits c))) (h2)) (h4)) (h6)) (h7)) (h9)) (h11)

theorem EncodesToItself.vcvtDoubleSingle (c : Cond) (d : Bool) (vd : BitVec 4) (sz : Bool) (m : Bool) (vm : BitVec 4) :
    EncodesToItself.Statement (.vcvtDoubleSingle c d vd sz m vm) := by
  refine ⟨_, rfl, ?_, ?_⟩
  · show encode (.vcvtDoubleSingle c d vd sz m vm) &&& (join (join (join (join (join (join (join (join (join (join 0x0#4 0x1f#5) 0x0#1) 0x3f#6) 0x0#4) 0x7#3) 0x0#1) 0x3#2) 0x0#1) 0x1#1) 0x0#4) =
      (join (join (join (join (join (join (join (join (join (join 0x0#4 0x1d#5) 0x0#1) 0x37#6) 0x0#4) 0x5#3) 0x0#1) 0x3#2) 0x0#1) 0x0#1) 0x0#4)
    exact (and_parts _ _ _ _).trans (by simp only [and_parts, BitVec.and_zero]; try rfl)
  · have h0 : (join (join (join (join (join (join (join (join (join (join c.bits 0x1d#5) (BitVec.ofBool d)) 0x37#6) vd) 0x5#3) (BitVec.ofBool sz)) 0x3#2) (BitVec.ofBool m)) 0x0#1) vm).extractLsb' 28 4 = c.bits := ((ext_left _ _ _ _ (by decide)).trans ((ext_left _ _ _ _ (by decide)).trans ((ext_left _ _ _ _ (by decide)).trans ((ext_left _ _ _ _ (by decide)).trans ((ext_left _ _ _ _ (by decide)).trans ((ext_left _ _ _ _ (by decide)).trans ((ext_left _ _ _ _ (by decide)).trans ((ext_left _ _ _ _ (by decide)).trans ((ext_left _ _ _ _ (by decide)).trans ((ext_left _ _ _ _ (by decide)).trans (ext_only _)))))))))))
    have h2 : (join (join (join (join (join (join (join (join (join (join c.bits 0x1d#5) (BitVec.ofBool d)) 0x37#6) vd) 0x5#3) (BitVec.ofBool sz)) 0x3#2) (BitVec.ofBool m)) 0x0#1) vm).getLsbD 22 = d := ((bit_left _ _ _ (by decide)).trans ((bit_left _ _ _ (by decide)).trans ((bit_left _ _ _ (by decide)).trans ((bit_left _ _ _ (by decide)).trans ((bit_left _ _ _ (by decide)).trans ((bit_left _ _ _ (by decide)).trans ((bit_left _ _ _ (by decide)).trans ((bit_left _ _ _ (by decide)).trans (bit_right _ _)))))))))
    have h4 : (join (join (join (join (join (join (join (join (join (join c.bits 0x1d#5) (BitVec.ofBool d)) 0x37#6) vd) 0x5#3) (BitVec.ofBool sz)) 0x3#2) (BitVec.ofBool m)) 0x0#1) vm).extractLsb' 12 4 = vd := ((ext_left _ _ _ _ (by decide)).trans ((ext_left _ _ _ _ (by decide)).trans ((ext_left _ _ _ _ (by decide)).trans ((ext_left _ _ _ _ (by decide)).trans ((ext_left _ _ _ _ (by decide)).trans ((ext_left _ _ _ _ (by decide)).trans (ext_right _ _)))))))
    have h6 : (join (join (join (join (join (join (join (join (join (join c.bits 0x1d#5) (BitVec.ofBool d)) 0x37#6) vd) 0x5#3) (BitVec.ofBool sz)) 0x3#2) (BitVec.ofBool m)) 0x0#1) vm).getLsbD 8 = sz := ((bit_left _ _ _ (by decide)).trans ((bit_left _ _ _ (by decide)).trans ((bit_left _ _ _ (by decide)).trans ((bit_left _ _ _ (by decide)).trans (bit_right _ _)))))
    have h8 : (join (join (join (join (join (join (join (join (join (join c.bits 0x1d#5) (BitVec.ofBool d)) 0x37#6) vd) 0x5#3) (BitVec.ofBool sz)) 0x3#2) (BitVec.ofBool m)) 0x0#1) vm).getLsbD 5 = m := ((bit_left _ _ _ (by decide)).trans ((bit_left _ _ _ (by decide)).trans (bit_right _ _)))
    have h10 : (join (join (join (join (join (join (join (join (join (join c.bits 0x1d#5) (BitVec.ofBool d)) 0x37#6) vd) 0x5#3) (BitVec.ofBool sz)) 0x3#2) (BitVec.ofBool m)) 0x0#1) vm).extractLsb' 0 4 = vm := (ext_right _ _)
    exact congr (congr (congr (congr (congr (congrArg Instr.vcvtDoubleSingle ((congrArg Cond.ofBits h0).trans (cond_ofBits c))) (h2)) (h4)) (h6)) (h8)) (h10)

theorem EncodesToItself.vcvtIntToFp (c : Cond) (d : Bool) (vd : BitVec 4) (sz : Bool) (op : Bool) (m : Bool) (vm : BitVec 4) :
    EncodesToItself.Statement (.vcvtIntToFp c d vd sz op m vm) := by
  refine ⟨_, rfl, ?_, ?_⟩
  · show encode (.vcvtIntToFp c d vd sz op m vm) &&& (join (join (join (join (join (join (join (join (join (join (join 0x0#4 0x1f#5) 0x0#1) 0x3f#6) 0x0#4) 0x7#3) 0x0#1) 0x0#1) 0x1#1) 0x0#1) 0x1#1) 0x0#4) =
      (join (join (join (join (join (join (join (join (join (join (join 0x0#4 0x1d#5) 0x0#1) 0x38#6) 0x0#4) 0x5#3) 0x0#1) 0x0#1) 0x1#1) 0x0#1) 0x0#1) 0x0#4)
    exact (and_parts _ _ _ _).trans (by simp only [and_parts, BitVec.and_zero]; try rfl)
  · have h0 : (join (join (join (join (join (join (join (join (join (join (join c.bits 0x1d#5) (BitVec.ofBool d)) 0x38#6) vd) 0x5#3) (BitVec.ofBool sz)) (BitVec.ofBool op)) 0x1#1) (BitVec.ofBool m)) 0x0#1) vm).extractLsb' 28 4 = c.bits := ((ext_left _ _ _ _ (by decide)).trans ((ext_left _ _ _ _ (by decide)).trans ((ext_left _ _ _ _ (by decide)).trans ((ext_left _ _ _ _ (by decide)).trans ((ext_left _ _ _ _ (by decide)).trans ((ext_left _ _ _ _ (by decide)).trans ((ext_left _ _ _ _ (by decide)).trans ((ext_left _ _ _ _ (by decide)).trans ((ext_left _ _ _ _ (by decide)).trans ((ext_left _ _ _ _ (by decide)).trans ((ext_left _ _ _ _ (by decide)).trans (ext_only _))))))))))))
    have h2 : (join (join (join (join (join (join (join (join (join (join (join c.bits 0x1d#5) (BitVec.ofBool d)) 0x38#6) vd) 0x5#3) (BitVec.ofBool sz)) (BitVec.ofBool op)) 0x1#1) (BitVec.ofBool m)) 0x0#1) vm).getLsbD 22 = d := ((bit_left _ _ _ (by decide)).trans ((bit_left _ _ _ (by decide)).trans ((bit_left _ _ _ (by decide)).trans ((bit_left _ _ _ (by decide)).trans ((bit_left _ _ _ (by decide)).trans ((bit_left _ _ _ (by decide)).trans ((bit_left _ _ _ (by decide)).trans ((bit_left _ _ _ (by decide)).trans ((bit_left _ _ _ (by decide)).trans (bit_right _ _))))))))))
    have h4 : (join (join (join (join (join (join (join (join (join (join (join c.bits 0x1d#5) (BitVec.ofBool d)) 0x38#6) vd) 0x5#3) (BitVec.ofBool sz)) (BitVec.ofBool op)) 0x1#1) (BitVec.ofBool m)) 0x0#1) vm).extractLsb' 12 4 = vd := ((ext_left _ _ _ _ (by decide)).trans ((ext_left _ _ _ _ (by decide)).trans ((ext_left _ _ _ _ (by decide)).trans ((ext_left _ _ _ _ (by decide)).trans ((ext_left _ _ _ _ (by decide)).trans ((ext_left _ _ _ _ (by decide)).trans ((ext_left _ _ _ _ (by decide)).trans (ext_right _ _))))))))
    have h6 : (join (join (join (join (join (join (join (join (join (join (join c.bits 0x1d#5) (BitVec.ofBool d)) 0x38#6) vd) 0x5#3) (BitVec.ofBool sz)) (BitVec.ofBool op)) 0x1#1) (BitVec.ofBool m)) 0x0#1) vm).getLsbD 8 = sz := ((bit_left _ _ _ (by decide)).trans ((bit_left _ _ _ (by decide)).trans ((bit_left _ _ _ (by decide)).trans ((bit_left _ _ _ (by decide)).trans ((bit_left _ _ _ (by decide)).trans (bit_right _ _))))))
    have h7 : (join (join (join (join (join (join (join (join (join (join (join c.bits 0x1d#5) (BitVec.ofBool d)) 0x38#6) vd) 0x5#3) (BitVec.ofBool sz)) (BitVec.ofBool op)) 0x1#1) (BitVec.ofBool m)) 0x0#1) vm).getLsbD 7 = op := ((bit_left _ _ _ (by decide)).trans ((bit_left _ _ _ (by decide)).trans ((bit_left _ _ _ (by decide)).trans ((bit_left _ _ _ (by decide)).trans (bit_right _ _)))))
    have h9 : (join (join (join (join (join (join (join (join (join (join (join c.bits 0x1d#5) (BitVec.ofBool d)) 0x38#6) vd) 0x5#3) (BitVec.ofBool sz)) (BitVec.ofBool op)) 0x1#1) (BitVec.ofBool m)) 0x0#1) vm).getLsbD 5 = m := ((bit_left _ _ _ (by decide)).trans ((bit_left _ _ _ (by decide)).trans (bit_right _ _)))
    have h11 : (join (join (join (join (join (join (join (join (join (join (join c.bits 0x1d#5) (BitVec.ofBool d)) 0x38#6) vd) 0x5#3) (BitVec.ofBool sz)) (BitVec.ofBool op)) 0x1#1) (BitVec.ofBool m)) 0x0#1) vm).extractLsb' 0 4 = vm := (ext_right _ _)
    exact congr (congr (congr (congr (congr (congr (congrArg Instr.vcvtIntToFp ((congrArg Cond.ofBits h0).trans (cond_ofBits c))) (h2)) (h4)) (h6)) (h7)) (h9)) (h11)

theorem EncodesToItself.vcvtFpToInt (c : Cond) (d : Bool) (sgn : Bool) (vd : BitVec 4) (sz : Bool) (op : Bool) (m : Bool) (vm : BitVec 4) :
    EncodesToItself.Statement (.vcvtFpToInt c d sgn vd sz op m vm) := by
  refine ⟨_, rfl, ?_, ?_⟩
  · show encode (.vcvtFpToInt c d sgn vd sz op m vm) &&& (join (join (join (join (join (join (join (join (join (join (join (join 0x0#4 0x1f#5) 0x0#1) 0x1f#5) 0x0#1) 0x0#4) 0x7#3) 0x0#1) 0x0#1) 0x1#1) 0x0#1) 0x1#1) 0x0#4) =
      (join (join (join (join (join (join (join (join (join (join (join (join 0x0#4 0x1d#5) 0x0#1) 0x1e#5) 0x0#1) 0x0#4) 0x5#3) 0x0#1) 0x0#1) 0x1#1) 0x0#1) 0x0#1) 0x0#4)
    exact (and_parts _ _ _ _).trans (by simp only [and_parts, BitVec.and_zero]; try rfl)
  · have h0 : (join (join (join (join (join (join (join (join (join (join (join (join c.bits 0x1d#5) (BitVec.ofBool d)) 0x1e#5) (BitVec.ofBool sgn)) vd) 0x5#3) (BitVec.ofBool sz)) (BitVec.ofBool op)) 0x1#1) (BitVec.ofBool m)) 0x0#1) vm).extractLsb' 28 4 = c.bits := ((ext_left _ _ _ _ (by decide)).trans ((ext_left _ _ _ _ (by decide)).trans ((ext_left _ _ _ _ (by decide)).trans ((ext_left _ _ _ _ (by decide)).trans ((ext_left _ _ _ _ (by decide)).trans ((ext_left _ _ _ _ (by decide)).trans ((ext_left _ _ _ _ (by decide)).trans ((ext_left _ _ _ _ (by decide)).trans ((ext_left _ _ _ _ (by decide)).trans ((ext_left _ _ _ _ (by decide)).trans ((ext_left _ _ _ _ (by decide)).trans ((ext_left _ _ _ _ (by decide)).trans (ext_only _)))))))))))))
    have h2 : (join (join (join (join (join (join (join (join (join (join (join (join c.bits 0x1d#5) (BitVec.ofBool d)) 0x1e#5) (BitVec.ofBool sgn)) vd) 0x5#3) (BitVec.ofBool sz)) (BitVec.ofBool op)) 0x1#1) (BitVec.ofBool m)) 0x0#1) vm).getLsbD 22 = d := ((bit_left _ _ _ (by decide)).trans ((bit_left _ _ _ (by decide)).trans ((bit_left _ _ _ (by decide)).trans ((bit_left _ _ _ (by decide)).trans ((bit_left _ _ _ (by decide)).trans ((bit_left _ _ _ (by decide)).trans ((bit_left _ _ _ (by decide)).trans ((bit_left _ _ _ (by decide)).trans ((bit_left _ _ _ (by decide)).trans ((bit_left _ _ _ (by decide)).trans (bit_right _ _)))))))))))
    have h4 : (join (join (join (join (join (join (join (join (join (join (join (join c.bits 0x1d#5) (BitVec.ofBool d)) 0x1e#5) (BitVec.ofBool sgn)) vd) 0x5#3) (BitVec.ofBool sz)) (BitVec.ofBool op)) 0x1#1) (BitVec.ofBool m)) 0x0#1) vm).getLsbD 16 = sgn := ((bit_left _ _ _ (by decide)).trans ((bit_left _ _ _ (by decide)).trans ((bit_left _ _ _ (by decide)).trans ((bit_left _ _ _ (by decide)).trans ((bit_left _ _ _ (by decide)).trans ((bit_left _ _ _ (by decide)).trans ((bit_left _ _ _ (by decide)).trans ((bit_left _ _ _ (by decide)).trans (bit_right _ _)))))))))
    have h5 : (join (join (join (join (join (join (join (join (join (join (join (join c.bits 0x1d#5) (BitVec.ofBool d)) 0x1e#5) (BitVec.ofBool sgn)) vd) 0x5#3) (BitVec.ofBool sz)) (BitVec.ofBool op)) 0x1#1) (BitVec.ofBool m)) 0x0#1) vm).extractLsb' 12 4 = vd := ((ext_left _ _ _ _ (by decide)).trans ((ext_left _ _ _ _ (by decide)).trans ((ext_left _ _ _ _ (by decide)).trans ((ext_left _ _ _ _ (by decide)).trans ((ext_left _ _ _ _ (by decide)).trans ((ext_left _ _ _ _ (by decide)).trans ((ext_left _ _ _ _ (by decide)).trans (ext_right _ _))))))))
    have h7 : (join (join (join (join (join (join (join (join (join (join (join (join c.bits 0x1d#5) (BitVec.ofBool d)) 0x1e#5) (BitVec.ofBool sgn)) vd) 0x5#3) (BitVec.ofBool sz)) (BitVec.ofBool op)) 0x1#1) (BitVec.ofBool m)) 0x0#1) vm).getLsbD 8 = sz := ((bit_left _ _ _ (by decide)).trans ((bit_left _ _ _ (by decide)).trans ((bit_left _ _ _ (by decide)).trans ((bit_left _ _ _ (by decide)).trans ((bit_left _ _ _ (by decide)).trans (bit_right _ _))))))
    have h8 : (join (join (join (join (join (join (join (join (join (join (join (join c.bits 0x1d#5) (BitVec.ofBool d)) 0x1e#5) (BitVec.ofBool sgn)) vd) 0x5#3) (BitVec.ofBool sz)) (BitVec.ofBool op)) 0x1#1) (BitVec.ofBool m)) 0x0#1) vm).getLsbD 7 = op := ((bit_left _ _ _ (by decide)).trans ((bit_left _ _ _ (by decide)).trans ((bit_left _ _ _ (by decide)).trans ((bit_left _ _ _ (by decide)).trans (bit_right _ _)))))
    have h10 : (join (join (join (join (join (join (join (join (join (join (join (join c.bits 0x1d#5) (BitVec.ofBool d)) 0x1e#5) (BitVec.ofBool sgn)) vd) 0x5#3) (BitVec.ofBool sz)) (BitVec.ofBool op)) 0x1#1) (BitVec.ofBool m)) 0x0#1) vm).getLsbD 5 = m := ((bit_left _ _ _ (by decide)).trans ((bit_left _ _ _ (by decide)).trans (bit_right _ _)))
    have h12 : (join (join (join (join (join (join (join (join (join (join (join (join c.bits 0x1d#5) (BitVec.ofBool d)) 0x1e#5) (BitVec.ofBool sgn)) vd) 0x5#3) (BitVec.ofBool sz)) (BitVec.ofBool op)) 0x1#1) (BitVec.ofBool m)) 0x0#1) vm).extractLsb' 0 4 = vm := (ext_right _ _)
    exact congr (congr (congr (congr (congr (congr (congr (congrArg Instr.vcvtFpToInt ((congrArg Cond.ofBits h0).trans (cond_ofBits c))) (h2)) (h4)) (h5)) (h7)) (h8)) (h10)) (h12)

theorem EncodesToItself.vcvtFixed (c : Cond) (d : Bool) (op : Bool) (u : Bool) (vd : BitVec 4) (sf : Bool) (sx : Bool) (i : Bool) (imm4 : BitVec 4) :
    EncodesToItself.Statement (.vcvtFixed c d op u vd sf sx i imm4) := by
  refine ⟨_, rfl, ?_, ?_⟩
  · show encode (.vcvtFixed c d op u vd sf sx i imm4) &&& (join (join (join (join (join (join (join (join (join (join (join (join (join (join 0x0#4 0x1f#5) 0x0#1) 0x7#3) 0x0#1) 0x1#1) 0x0#1) 0x0#4) 0x7#3) 0x0#1) 0x0#1) 0x1#1) 0x0#1) 0x1#1) 0x0#4) =
      (join (join (join (join (join (join (join (join (join (join (join (join (join (join 0x0#4 0x1d#5) 0x0#1) 0x7#3) 0x0#1) 0x1#1) 0x0#1) 0x0#4) 0x5#3) 0x0#1) 0x0#1) 0x1#1) 0x0#1) 0x0#1) 0x0#4)
    exact (and_parts _ _ _ _).trans (by simp only [and_parts, BitVec.and_zero]; try rfl)
  · have h0 : (join (join (join (join (join (join (join (join (join (join (join (join (join (join c.bits 0x1d#5) (BitVec.ofBool d)) 0x7#3) (BitVec.ofBool op)) 0x1#1) (BitVec.ofBool u)) vd) 0x5#3) (BitVec.ofBool sf)) (BitVec.ofBool sx)) 0x1#1) (BitVec.ofBool i)) 0x0#1) imm4).extractLsb' 28 4 = c.bits := ((ext_left _ _ _ _ (by decide)).trans ((ext_left _ _ _ _ (by decide)).trans ((ext_left _ _ _ _ (by decide)).trans ((ext_left _ _ _ _ (by decide)).trans ((ext_left _ _ _ _ (by decide)).trans ((ext_left _ _ _ _ (by decide)).trans ((ext_left _ _ _ _ (by decide)).trans ((ext_left _ _ _ _ (by decide)).trans ((ext_left _ _ _ _ (by decide)).trans ((ext_left _ _ _ _ (by decide)).trans ((ext_left _ _ _ _ (by decide)).trans ((ext_left _ _ _ _ (by decide)).trans ((ext_left _ _ _ _ (by decide)).trans ((ext_left _ _ _ _ (by decide)).trans (ext_only _)))))))))))))))
    have h2 : (join (join (join (join (join (join (join (join (join (join (join (join (join (join c.bits 0x1d#5) (BitVec.ofBool d)) 0x7#3) (BitVec.ofBool op)) 0x1#1) (BitVec.ofBool u)) vd) 0x5#3) (BitVec.ofBool sf)) (BitVec.ofBool sx)) 0x1#1) (BitVec.ofBool i)) 0x0#1) imm4).getLsbD 22 = d := ((bit_left _ _ _ (by decide)).trans ((bit_left _ _ _ (by decide)).trans ((bit_left _ _ _ (by decide)).trans ((bit_left _ _ _ (by decide)).trans ((bit_left _ _ _ (by decide)).trans ((bit_left _ _ _ (by decide)).trans ((bit_left _ _ _ (by decide)).trans ((bit_left _ _ _ (by decide)).trans ((bit_left _ _ _ (by decide)).trans ((bit_left _ _ _ (by decide)).trans ((bit_left _ _ _ (by decide)).trans ((bit_left _ _ _ (by decide)).trans (bit_right _ _)))))))))))))
    have h4 : (join (join (join (join (join (join (join (join (join (join (join (join (join (join c.bits 0x1d#5) (BitVec.ofBool d)) 0x7#3) (BitVec.ofBool op)) 0x1#1) (BitVec.ofBool u)) vd) 0x5#3) (BitVec.ofBool sf)) (BitVec.ofBool sx)) 0x1#1) (BitVec.ofBool i)) 0x0#1) imm4).getLsbD 18 = op := ((bit_left _ _ _ (by decide)).trans ((bit_left _ _ _ (by decide)).trans ((bit_left _ _ _ (by decide)).trans ((bit_left _ _ _ (by decide)).trans ((bit_left _ _ _ (by decide)).trans ((bit_left _ _ _ (by decide)).trans ((bit_left _ _ _ (by decide)).trans ((bit_left _ _ _ (by decide)).trans ((bit_left _ _ _ (by decide)).trans ((bit_left _ _ _ (by decide)).trans (bit_right _ _)))))))))))
    have h6 : (join (join (join (join (join (join (join (join (join (join (join (join (join (join c.bits 0x1d#5) (BitVec.ofBool d)) 0x7#3) (BitVec.ofBool op)) 0x1#1) (BitVec.ofBool u)) vd) 0x5#3) (BitVec.ofBool sf)) (BitVec.ofBool sx)) 0x1#1) (BitVec.ofBool i)) 0x0#1) imm4).getLsbD 16 = u := ((bit_left _ _ _ (by decide)).trans ((bit_left _ _ _ (by decide)).trans ((bit_left _ _ _ (by decide)).trans ((bit_left _ _ _ (by decide)).trans ((bit_left _ _ _ (by decide)).trans ((bit_left _ _ _ (by decide)).trans ((bit_left _ _ _ (by decide)).trans ((bit_left _ _ _ (by decide)).trans (bit_right _ _)))))))))
    have h7 : (join (join (join (join (join (join (join (join (join (join (join (join (join (join c.bits 0x1d#5) (BitVec.ofBool d)) 0x7#3) (BitVec.ofBool op)) 0x1#1) (BitVec.ofBool u)) vd) 0x5#3) (BitVec.ofBool sf)) (BitVec.ofBool sx)) 0x1#1) (BitVec.ofBool i)) 0x0#1) imm4).extractLsb' 12 4 = vd := ((ext_left _ _ _ _ (by decide)).trans ((ext_left _ _ _ _ (by decide)).trans ((ext_left _ _ _ _ (by decide)).trans ((ext_left _ _ _ _ (by decide)).trans ((ext_left _ _ _ _ (by decide)).trans ((ext_left _ _ _ _ (by decide)).trans ((ext_left _ _ _ _ (by decide)).trans (ext_right _ _))))))))
    have h9 : (join (join (join (join (join (join (join (join (join (join (join (join (join (join c.bits 0x1d#5) (BitVec.ofBool d)) 0x7#3) (BitVec.ofBool op)) 0x1#1) (BitVec.ofBool u)) vd) 0x5#3) (BitVec.ofBool sf)) (BitVec.ofBool sx)) 0x1#1) (BitVec.ofBool i)) 0x0#1) imm4).getLsbD 8 = sf := ((bit_left _ _ _ (by decide)).trans ((bit_left _ _ _ (by decide)).trans ((bit_left _ _ _ (by decide)).trans ((bit_left _ _ _ (by decide)).trans ((bit_left _ _ _ (by decide)).trans (bit_right _ _))))))
    have h10 : (join (join (join (join (join (join (join (join (join (join (join (join (join (join c.bits 0x1d#5) (BitVec.ofBool d)) 0x7#3) (BitVec.ofBool op)) 0x1#1) (BitVec.ofBool u)) vd) 0x5#3) (BitVec.ofBool sf)) (BitVec.ofBool sx)) 0x1#1) (BitVec.ofBool i)) 0x0#1) imm4).getLsbD 7 = sx := ((bit_left _ _ _ (by decide)).trans ((bit_left _ _ _ (by decide)).trans ((bit_left _ _ _ (by decide)).trans ((bit_left _ _ _ (by decide)).trans (bit_right _ _)))))
    have h12 : (join (join (join (join (join (join (join (join (join (join (join (join (join (join c.bits 0x1d#5) (BitVec.ofBool d)) 0x7#3) (BitVec.ofBool op)) 0x1#1) (BitVec.ofBool u)) vd) 0x5#3) (BitVec.ofBool sf)) (BitVec.ofBool sx)) 0x1#1) (BitVec.ofBool i)) 0x0#1) imm4).getLsbD 5 = i := ((bit_left _ _ _ (by decide)).trans ((bit_left _ _ _ (by decide)).trans (bit_right _ _)))
    have h14 : (join (join (join (join (join (join (join (join (join (join (join (join (join (join c.bits 0x1d#5) (BitVec.ofBool d)) 0x7#3) (BitVec.ofBool op)) 0x1#1) (BitVec.ofBool u)) vd) 0x5#3) (BitVec.ofBool sf)) (BitVec.ofBool sx)) 0x1#1) (BitVec.ofBool i)) 0x0#1) imm4).extractLsb' 0 4 = imm4 := (ext_right _ _)
    exact congr (congr (congr (congr (congr (congr (congr (congr (congrArg Instr.vcvtFixed ((congrArg Cond.ofBits h0).trans (cond_ofBits c))) (h2)) (h4)) (h6)) (h7)) (h9)) (h10)) (h12)) (h14)

theorem EncodesToItself.vldr (c : Cond) (u : Bool) (d : Bool) (rn : Reg) (vd : BitVec 4) (sz : Bool) (imm8 : BitVec 8) :
    EncodesToItself.Statement (.vldr c u d rn vd sz imm8) := by
  refine ⟨_, rfl, ?_, ?_⟩
  · show encode (.vldr c u d rn vd sz imm8) &&& (join (join (join (join (join (join (join (join (join 0x0#4 0xf#4) 0x0#1) 0x0#1) 0x3#2) 0x0#4) 0x0#4) 0x7#3) 0x0#1) 0x0#8) =
      (join (join (join (join (join (join (join (join (join 0x0#4 0xd#4) 0x0#1) 0x0#1) 0x1#2) 0x0#4) 0x0#4) 0x5#3) 0x0#1) 0x0#8)
    exact (and_parts _ _ _ _).trans (by simp only [and_parts, BitVec.and_zero]; try rfl)
  · have h0 : (join (join (join (join (join (join (join (join (join c.bits 0xd#4) (BitVec.ofBool u)) (BitVec.ofBool d)) 0x1#2) rn) vd) 0x5#3) (BitVec.ofBool sz)) imm8).extractLsb' 28 4 = c.bits := ((ext_left _ _ _ _ (by decide)).trans ((ext_left _ _ _ _ (by decide)).trans ((ext_left _ _ _ _ (by decide)).trans ((ext_left _ _ _ _ (by decide)).trans ((ext_left _ _ _ _ (by decide)).trans ((ext_left _ _ _ _ (by decide)).trans ((ext_left _ _ _ _ (by decide)).trans ((ext_left _ _ _ _ (by decide)).trans ((ext_left _ _ _ _ (by decide)).trans (ext_only _))))))))))
    have h2 : (join (join (join (join (join (join (join (join (join c.bits 0xd#4) (BitVec.ofBool u)) (BitVec.ofBool d)) 0x1#2) rn) vd) 0x5#3) (BitVec.ofBool sz)) imm8).getLsbD 23 = u := ((bit_left _ _ _ (by decide)).trans ((bit_left _ _ _ (by decide)).trans ((bit_left _ _ _ (by decide)).trans ((bit_left _ _ _ (by decide)).trans ((bit_left _ _ _ (by decide)).trans ((bit_left _ _ _ (by decide)).trans ((bit_left _ _ _ (by decide)).trans (bit_right _ _))))))))
    have h3 : (join (join (join (join (join (join (join (join (join c.bits 0xd#4) (BitVec.ofBool u)) (BitVec.ofBool d)) 0x1#2) rn) vd) 0x5#3) (BitVec.ofBool sz)) imm8).getLsbD 22 = d := ((bit_left _ _ _ (by decide)).trans ((bit_left _ _ _ (by decide)).trans ((bit_left _ _ _ (by decide)).trans ((bit_left _ _ _ (by decide)).trans ((bit_left _ _ _ (by decide)).trans ((bit_left _ _ _ (by decide)).trans (bit_right _ _)))))))
    have h5 : (join (join (join (join (join (join (join (join (join c.bits 0xd#4) (BitVec.ofBool u)) (BitVec.ofBool d)) 0x1#2) rn) vd) 0x5#3) (BitVec.ofBool sz)) imm8).extractLsb' 16 4 = rn := ((ext_left _ _ _ _ (by decide)).trans ((ext_left _ _ _ _ (by decide)).trans ((ext_left _ _ _ _ (by decide)).trans ((ext_left _ _ _ _ (by decide)).trans (ext_right _ _)))))
    have h6 : (join (join (join (join (join (join (join (join (join c.bits 0xd#4) (BitVec.ofBool u)) (BitVec.ofBool d)) 0x1#2) rn) vd) 0x5#3) (BitVec.ofBool sz)) imm8).extractLsb' 12 4 = vd := ((ext_left _ _ _ _ (by decide)).trans ((ext_left _ _ _ _ (by decide)).trans ((ext_left _ _ _ _ (by decide)).trans (ext_right _ _))))
    have h8 : (join (join (join (join (join (join (join (join (join c.bits 0xd#4) (BitVec.ofBool u)) (BitVec.ofBool d)) 0x1#2) rn) vd) 0x5#3) (BitVec.ofBool sz)) imm8).getLsbD 8 = sz := ((bit_left _ _ _ (by decide)).trans (bit_right _ _))
    have h9 : (join (join (join (join (join (join (join (join (join c.bits 0xd#4) (BitVec.ofBool u)) (BitVec.ofBool d)) 0x1#2) rn) vd) 0x5#3) (BitVec.ofBool sz)) imm8).extractLsb' 0 8 = imm8 := (ext_right _ _)
    exact congr (congr (congr (congr (congr (congr (congrArg Instr.vldr ((congrArg Cond.ofBits h0).trans (cond_ofBits c))) (h2)) (h3)) (h5)) (h6)) (h8)) (h9)

theorem EncodesToItself.vstr (c : Cond) (u : Bool) (d : Bool) (rn : Reg) (vd : BitVec 4) (sz : Bool) (imm8 : BitVec 8) :
    EncodesToItself.Statement (.vstr c u d rn vd sz imm8) := by
  refine ⟨_, rfl, ?_, ?_⟩
  · show encode (.vstr c u d rn vd sz imm8) &&& (join (join (join (join (join (join (join (join (join 0x0#4 0xf#4) 0x0#1) 0x0#1) 0x3#2) 0x0#4) 0x0#4) 0x7#3) 0x0#1) 0x0#8) =
      (join (join (join (join (join (join (join (join (join 0x0#4 0xd#4) 0x0#1) 0x0#1) 0x0#2) 0x0#4) 0x0#4) 0x5#3) 0x0#1) 0x0#8)
    exact (and_parts _ _ _ _).trans (by simp only [and_parts, BitVec.and_zero]; try rfl)
  · have h0 : (join (join (join (join (join (join (join (join (join c.bits 0xd#4) (BitVec.ofBool u)) (BitVec.ofBool d)) 0x0#2) rn) vd) 0x5#3) (BitVec.ofBool sz)) imm8).extractLsb' 28 4 = c.bits := ((ext_left _ _ _ _ (by decide)).trans ((ext_left _ _ _ _ (by decide)).trans ((ext_left _ _ _ _ (by decide)).trans ((ext_left _ _ _ _ (by decide)).trans ((ext_left _ _ _ _ (by decide)).trans ((ext_left _ _ _ _ (by decide)).trans ((ext_left _ _ _ _ (by decide)).trans ((ext_left _ _ _ _ (by decide)).trans ((ext_left _ _ _ _ (by decide)).trans (ext_only _))))))))))
    have h2 : (join (join (join (join (join (join (join (join (join c.bits 0xd#4) (BitVec.ofBool u)) (BitVec.ofBool d)) 0x0#2) rn) vd) 0x5#3) (BitVec.ofBool sz)) imm8).getLsbD 23 = u := ((bit_left _ _ _ (by decide)).trans ((bit_left _ _ _ (by decide)).trans ((bit_left _ _ _ (by decide)).trans ((bit_left _ _ _ (by decide)).trans ((bit_left _ _ _ (by decide)).trans ((bit_left _ _ _ (by decide)).trans ((bit_left _ _ _ (by decide)).trans (bit_right _ _))))))))
    have h3 : (join (join (join (join (join (join (join (join (join c.bits 0xd#4) (BitVec.ofBool u)) (BitVec.ofBool d)) 0x0#2) rn) vd) 0x5#3) (BitVec.ofBool sz)) imm8).getLsbD 22 = d := ((bit_left _ _ _ (by decide)).trans ((bit_left _ _ _ (by decide)).trans ((bit_left _ _ _ (by decide)).trans ((bit_left _ _ _ (by decide)).trans ((bit_left _ _ _ (by decide)).trans ((bit_left _ _ _ (by decide)).trans (bit_right _ _)))))))
    have h5 : (join (join (join (join (join (join (join (join (join c.bits 0xd#4) (BitVec.ofBool u)) (BitVec.ofBool d)) 0x0#2) rn) vd) 0x5#3) (BitVec.ofBool sz)) imm8).extractLsb' 16 4 = rn := ((ext_left _ _ _ _ (by decide)).trans ((ext_left _ _ _ _ (by decide)).trans ((ext_left _ _ _ _ (by decide)).trans ((ext_left _ _ _ _ (by decide)).trans (ext_right _ _)))))
    have h6 : (join (join (join (join (join (join (join (join (join c.bits 0xd#4) (BitVec.ofBool u)) (BitVec.ofBool d)) 0x0#2) rn) vd) 0x5#3) (BitVec.ofBool sz)) imm8).extractLsb' 12 4 = vd := ((ext_left _ _ _ _ (by decide)).trans ((ext_left _ _ _ _ (by decide)).trans ((ext_left _ _ _ _ (by decide)).trans (ext_right _ _))))
    have h8 : (join (join (join (join (join (join (join (join (join c.bits 0xd#4) (BitVec.ofBool u)) (BitVec.ofBool d)) 0x0#2) rn) vd) 0x5#3) (BitVec.ofBool sz)) imm8).getLsbD 8 = sz := ((bit_left _ _ _ (by decide)).trans (bit_right _ _))
    have h9 : (join (join (join (join (join (join (join (join (join c.bits 0xd#4) (BitVec.ofBool u)) (BitVec.ofBool d)) 0x0#2) rn) vd) 0x5#3) (BitVec.ofBool sz)) imm8).extractLsb' 0 8 = imm8 := (ext_right _ _)
    exact congr (congr (congr (congr (congr (congr (congrArg Instr.vstr ((congrArg Cond.ofBits h0).trans (cond_ofBits c))) (h2)) (h3)) (h5)) (h6)) (h8)) (h9)

theorem EncodesToItself.vpop (c : Cond) (d : Bool) (vd : BitVec 4) (sz : Bool) (imm8 : BitVec 8) :
    EncodesToItself.Statement (.vpop c d vd sz imm8) := by
  refine ⟨_, rfl, ?_, ?_⟩
  · show encode (.vpop c d vd sz imm8) &&& (join (join (join (join (join (join (join 0x0#4 0x1f#5) 0x0#1) 0x3f#6) 0x0#4) 0x7#3) 0x0#1) 0x0#8) =
      (join (join (join (join (join (join (join 0x0#4 0x19#5) 0x0#1) 0x3d#6) 0x0#4) 0x5#3) 0x0#1) 0x0#8)
    exact (and_parts _ _ _ _).trans (by simp only [and_parts, BitVec.and_zero]; try rfl)
  · have h0 : (join (join (join (join (join (join (join c.bits 0x19#5) (BitVec.ofBool d)) 0x3d#6) vd) 0x5#3) (BitVec.ofBool sz)) imm8).extractLsb' 28 4 = c.bits := ((ext_left _ _ _ _ (by decide)).trans ((ext_left _ _ _ _ (by decide)).trans ((ext_left _ _ _ _ (by decide)).trans ((ext_left _ _ _ _ (by decide)).trans ((ext_left _ _ _ _ (by decide)).trans ((ext_left _ _ _ _ (by decide)).trans ((ext_left _ _ _ _ (by decide)).trans (ext_only _))))))))
    have h2 : (join (join (join (join (join (join (join c.bits 0x19#5) (BitVec.ofBool d)) 0x3d#6) vd) 0x5#3) (BitVec.ofBool sz)) imm8).getLsbD 22 = d := ((bit_left _ _ _ (by decide)).trans ((bit_left _ _ _ (by decide)).trans ((bit_left _ _ _ (by decide)).trans ((bit_left _ _ _ (by decide)).trans ((bit_left _ _ _ (by decide)).trans (bit_right _ _))))))
    have h4 : (join (join (join (join (join (join (join c.bits 0x19#5) (BitVec.ofBool d)) 0x3d#6) vd) 0x5#3) (BitVec.ofBool sz)) imm8).extractLsb' 12 4 = vd := ((ext_left _ _ _ _ (by decide)).trans ((ext_left _ _ _ _ (by decide)).trans ((ext_left _ _ _ _ (by decide)).trans (ext_right _ _))))
    have h6 : (join (join (join (join (join (join (join c.bits 0x19#5) (BitVec.ofBool d)) 0x3d#6) vd) 0x5#3) (BitVec.ofBool sz)) imm8).getLsbD 8 = sz := ((bit_left _ _ _ (by decide)).trans (bit_right _ _))
    have h7 : (join (join (join (join (join (join (join c.bits 0x19#5) (BitVec.ofBool d)) 0x3d#6) vd) 0x5#3) (BitVec.ofBool sz)) imm8).extractLsb' 0 8 = imm8 := (ext_right _ _)
    exact congr (congr (congr (congr (congrArg Instr.vpop ((congrArg Cond.ofBits h0).trans (cond_ofBits c))) (h2)) (h4)) (h6)) (h7)

theorem EncodesToItself.vpush (c : Cond) (d : Bool) (vd : BitVec 4) (sz : Bool) (imm8 : BitVec 8) :
    EncodesToItself.Statement (.vpush c d vd sz imm8) := by
  refine ⟨_, rfl, ?_, ?_⟩
  · show encode (.vpush c d vd sz imm8) &&& (join (join (join (join (join (join (join 0x0#4 0x1f#5) 0x0#1) 0x3f#6) 0x0#4) 0x7#3) 0x0#1) 0x0#8) =
      (join (join (join (join (join (join (join 0x0#4 0x1a#5) 0x0#1) 0x2d#6) 0x0#4) 0x5#3) 0x0#1) 0x0#8)
    exact (and_parts _ _ _ _).trans (by simp only [and_parts, BitVec.and_zero]; try rfl)
  · have h0 : (join (join (join (join (join (join (join c.bits 0x1a#5) (BitVec.ofBool d)) 0x2d#6) vd) 0x5#3) (BitVec.ofBool sz)) imm8).extractLsb' 28 4 = c.bits := ((ext_left _ _ _ _ (by decide)).trans ((ext_left _ _ _ _ (by decide)).trans ((ext_left _ _ _ _ (by decide)).trans ((ext_left _ _ _ _ (by decide)).trans ((ext_left _ _ _ _ (by decide)).trans ((ext_left _ _ _ _ (by decide)).trans ((ext_left _ _ _ _ (by decide)).trans (ext_only _))))))))
    have h2 : (join (join (join (join (join (join (join c.bits 0x1a#5) (BitVec.ofBool d)) 0x2d#6) vd) 0x5#3) (BitVec.ofBool sz)) imm8).getLsbD 22 = d := ((bit_left _ _ _ (by decide)).trans ((bit_left _ _ _ (by decide)).trans ((bit_left _ _ _ (by decide)).trans ((bit_left _ _ _ (by decide)).trans ((bit_left _ _ _ (by decide)).trans (bit_right _ _))))))
    have h4 : (join (join (join (join (join (join (join c.bits 0x1a#5) (BitVec.ofBool d)) 0x2d#6) vd) 0x5#3) (BitVec.ofBool sz)) imm8).extractLsb' 12 4 = vd := ((ext_left _ _ _ _ (by decide)).trans ((ext_left _ _ _ _ (by decide)).trans ((ext_left _ _ _ _ (by decide)).trans (ext_right _ _))))
    have h6 : (join (join (join (join (join (join (join c.bits 0x1a#5) (BitVec.ofBool d)) 0x2d#6) vd) 0x5#3) (BitVec.ofBool sz)) imm8).getLsbD 8 = sz := ((bit_left _ _ _ (by decide)).trans (bit_right _ _))
    have h7 : (join (join (join (join (join (join (join c.bits 0x1a#5) (BitVec.ofBool d)) 0x2d#6) vd) 0x5#3) (BitVec.ofBool sz)) imm8).extractLsb' 0 8 = imm8 := (ext_right _ _)
    exact congr (congr (congr (congr (congrArg Instr.vpush ((congrArg Cond.ofBits h0).trans (cond_ofBits c))) (h2)) (h4)) (h6)) (h7)

theorem EncodesToItself.vldmIa (c : Cond) (d : Bool) (w : Bool) (rn : Reg) (vd : BitVec 4) (sz : Bool) (imm8 : BitVec 8) :
    EncodesToItself.Statement (.vldmIa c d w rn vd sz imm8) := by
  refine ⟨_, rfl, ?_, ?_⟩
  · show encode (.vldmIa c d w rn vd sz imm8) &&& (join (join (join (join (join (join (join (join (join 0x0#4 0x1f#5) 0x0#1) 0x0#1) 0x1#1) 0x0#4) 0x0#4) 0x7#3) 0x0#1) 0x0#8) =
      (join (join (join (join (join (join (join (join (join 0x0#4 0x19#5) 0x0#1) 0x0#1) 0x1#1) 0x0#4) 0x0#4) 0x5#3) 0x0#1) 0x0#8)
    exact (and_parts _ _ _ _).trans (by simp only [and_parts, BitVec.and_zero]; try rfl)
  · have h0 : (join (join (join (join (join (join (join (join (join c.bits 0x19#5) (BitVec.ofBool d)) (BitVec.ofBool w)) 0x1#1) rn) vd) 0x5#3) (BitVec.ofBool sz)) imm8).extractLsb' 28 4 = c.bits := ((ext_left _ _ _ _ (by decide)).trans ((ext_left _ _ _ _ (by decide)).trans ((ext_left _ _ _ _ (by decide)).trans ((ext_left _ _ _ _ (by decide)).trans ((ext_left _ _ _ _ (by decide)).trans ((ext_left _ _ _ _ (by decide)).trans ((ext_left _ _ _ _ (by decide)).trans ((ext_left _ _ _ _ (by decide)).trans ((ext_left _ _ _ _ (by decide)).trans (ext_only _))))))))))
    have h2 : (join (join (join (join (join (join (join (join (join c.bits 0x19#5) (BitVec.ofBool d)) (BitVec.ofBool w)) 0x1#1) rn) vd) 0x5#3) (BitVec.ofBool sz)) imm8).getLsbD 22 = d := ((bit_left _ _ _ (by decide)).trans ((bit_left _ _ _ (by decide)).trans ((bit_left _ _ _ (by decide)).trans ((bit_left _ _ _ (by decide)).trans ((bit_left _ _ _ (by decide)).trans ((bit_left _ _ _ (by decide)).trans ((bit_left _ _ _ (by decide)).trans (bit_right _ _))))))))
    have h3 : (join (join (join (join (join (join (join (join (join c.bits 0x19#5) (BitVec.ofBool d)) (BitVec.ofBool w)) 0x1#1) rn) vd) 0x5#3) (BitVec.ofBool sz)) imm8).getLsbD 21 = w := ((bit_left _ _ _ (by decide)).trans ((bit_left _ _ _ (by decide)).trans ((bit_left _ _ _ (by decide)).trans ((bit_left _ _ _ (by decide)).trans ((bit_left _ _ _ (by decide)).trans ((bit_left _ _ _ (by decide)).trans (bit_right _ _)))))))
    have h5 : (join (join (join (join (join (join (join (join (join c.bits 0x19#5) (BitVec.ofBool d)) (BitVec.ofBool w)) 0x1#1) rn) vd) 0x5#3) (BitVec.ofBool sz)) imm8).extractLsb' 16 4 = rn := ((ext_left _ _ _ _ (by decide)).trans ((ext_left _ _ _ _ (by decide)).trans ((ext_left _ _ _ _ (by decide)).trans ((ext_left _ _ _ _ (by decide)).trans (ext_right _ _)))))
    have h6 : (join (join (join (join (join (join (join (join (join c.bits 0x19#5) (BitVec.ofBool d)) (BitVec.ofBool w)) 0x1#1) rn) vd) 0x5#3) (BitVec.ofBool sz)) imm8).extractLsb' 12 4 = vd := ((ext_left _ _ _ _ (by decide)).trans ((ext_left _ _ _ _ (by decide)).trans ((ext_left _ _ _ _ (by decide)).trans (ext_right _ _))))
    have h8 : (join (join (join (join (join (join (join (join (join c.bits 0x19#5) (BitVec.ofBool d)) (BitVec.ofBool w)) 0x1#1) rn) vd) 0x5#3) (BitVec.ofBool sz)) imm8).getLsbD 8 = sz := ((bit_left _ _ _ (by decide)).trans (bit_right _ _))
    have h9 : (join (join (join (join (join (join (join (join (join c.bits 0x19#5) (BitVec.ofBool d)) (BitVec.ofBool w)) 0x1#1) rn) vd) 0x5#3) (BitVec.ofBool sz)) imm8).extractLsb' 0 8 = imm8 := (ext_right _ _)
    exact congr (congr (congr (congr (congr (congr (congrArg Instr.vldmIa ((congrArg Cond.ofBits h0).trans (cond_ofBits c))) (h2)) (h3)) (h5)) (h6)) (h8)) (h9)

theorem EncodesToItself.vldmDb (c : Cond) (d : Bool) (rn : Reg) (vd : BitVec 4) (sz : Bool) (imm8 : BitVec 8) :
    EncodesToItself.Statement (.vldmDb c d rn vd sz imm8) := by
  refine ⟨_, rfl, ?_, ?_⟩
  · show encode (.vldmDb c d rn vd sz imm8) &&& (join (join (join (join (join (join (join (join 0x0#4 0x1f#5) 0x0#1) 0x3#2) 0x0#4) 0x0#4) 0x7#3) 0x0#1) 0x0#8) =
      (join (join (join (join (join (join (join (join 0x0#4 0x1a#5) 0x0#1) 0x3#2) 0x0#4) 0x0#4) 0x5#3) 0x0#1) 0x0#8)
    exact (and_parts _ _ _ _).trans (by simp only [and_parts, BitVec.and_zero]; try rfl)
  · have h0 : (join (join (join (join (join (join (join (join c.bits 0x1a#5) (BitVec.ofBool d)) 0x3#2) rn) vd) 0x5#3) (BitVec.ofBool sz)) imm8).extractLsb' 28 4 = c.bits := ((ext_left _ _ _ _ (by decide)).trans ((ext_left _ _ _ _ (by decide)).trans ((ext_left _ _ _ _ (by decide)).trans ((ext_left _ _ _ _ (by decide)).trans ((ext_left _ _ _ _ (by decide)).trans ((ext_left _ _ _ _ (by decide)).trans ((ext_left _ _ _ _ (by decide)).trans ((ext_left _ _ _ _ (by decide)).trans (ext_only _)))))))))
    have h2 : (join (join (join (join (join (join (join (join c.bits 0x1a#5) (BitVec.ofBool d)) 0x3#2) rn) vd) 0x5#3) (BitVec.ofBool sz)) imm8).getLsbD 22 = d := ((bit_left _ _ _ (by decide)).trans ((bit_left _ _ _ (by decide)).trans ((bit_left _ _ _ (by decide)).trans ((bit_left _ _ _ (by decide)).trans ((bit_left _ _ _ (by decide)).trans ((bit_left _ _ _ (by decide)).trans (bit_right _ _)))))))
    have h4 : (join (join (join (join (join (join (join (join c.bits 0x1a#5) (BitVec.ofBool d)) 0x3#2) rn) vd) 0x5#3) (BitVec.ofBool sz)) imm8).extractLsb' 16 4 = rn := ((ext_left _ _ _ _ (by decide)).trans ((ext_left _ _ _ _ (by decide)).trans ((ext_left _ _ _ _ (by decide)).trans ((ext_left _ _ _ _ (by decide)).trans (ext_right _ _)))))
    have h5 : (join (join (join (join (join (join (join (join c.bits 0x1a#5) (BitVec.ofBool d)) 0x3#2) rn) vd) 0x5#3) (BitVec.ofBool sz)) imm8).extractLsb' 12 4 = vd := ((ext_left _ _ _ _ (by decide)).trans ((ext_left _ _ _ _ (by decide)).trans ((ext_left _ _ _ _ (by decide)).trans (ext_right _ _))))
    have h7 : (join (join (join (join (join (join (join (join c.bits 0x1a#5) (BitVec.ofBool d)) 0x3#2) rn) vd) 0x5#3) (BitVec.ofBool sz)) imm8).getLsbD 8 = sz := ((bit_left _ _ _ (by decide)).trans (bit_right _ _))
    have h8 : (join (join (join (join (join (join (join (join c.bits 0x1a#5) (BitVec.ofBool d)) 0x3#2) rn) vd) 0x5#3) (BitVec.ofBool sz)) imm8).extractLsb' 0 8 = imm8 := (ext_right _ _)
    exact congr (congr (congr (congr (congr (congrArg Instr.vldmDb ((congrArg Cond.ofBits h0).trans (cond_ofBits c))) (h2)) (h4)) (h5)) (h7)) (h8)

theorem EncodesToItself.vstmIa (c : Cond) (d : Bool) (w : Bool) (rn : Reg) (vd : BitVec 4) (sz : Bool) (imm8 : BitVec 8) :
    EncodesToItself.Statement (.vstmIa c d w rn vd sz imm8) := by
  refine ⟨_, rfl, ?_, ?_⟩
  · show encode (.vstmIa c d w rn vd sz imm8) &&& (join (join (join (join (join (join (join (join (join 0x0#4 0x1f#5) 0x0#1) 0x0#1) 0x1#1) 0x0#4) 0x0#4) 0x7#3) 0x0#1) 0x0#8) =
      (join (join (join (join (join (join (join (join (join 0x0#4 0x19#5) 0x0#1) 0x0#1) 0x0#1) 0x0#4) 0x0#4) 0x5#3) 0x0#1) 0x0#8)
    exact (and_parts _ _ _ _).trans (by simp only [and_parts, BitVec.and_zero]; try rfl)
  · have h0 : (join (join (join (join (join (join (join (join (join c.bits 0x19#5) (BitVec.ofBool d)) (BitVec.ofBool w)) 0x0#1) rn) vd) 0x5#3) (BitVec.ofBool sz)) imm8).extractLsb' 28 4 = c.bits := ((ext_left _ _ _ _ (by decide)).trans ((ext_left _ _ _ _ (by decide)).trans ((ext_left _ _ _ _ (by decide)).trans ((ext_left _ _ _ _ (by decide)).trans ((ext_left _ _ _ _ (by decide)).trans ((ext_left _ _ _ _ (by decide)).trans ((ext_left _ _ _ _ (by decide)).trans ((ext_left _ _ _ _ (by decide)).trans ((ext_left _ _ _ _ (by decide)).trans (ext_only _))))))))))
    have h2 : (join (join (join (join (join (join (join (join (join c.bits 0x19#5) (BitVec.ofBool d)) (BitVec.ofBool w)) 0x0#1) rn) vd) 0x5#3) (BitVec.ofBool sz)) imm8).getLsbD 22 = d := ((bit_left _ _ _ (by decide)).trans ((bit_left _ _ _ (by decide)).trans ((bit_left _ _ _ (by decide)).trans ((bit_left _ _ _ (by decide)).trans ((bit_left _ _ _ (by decide)).trans ((bit_left _ _ _ (by decide)).trans ((bit_left _ _ _ (by decide)).trans (bit_right _ _))))))))
    have h3 : (join (join (join (join (join (join (join (join (join c.bits 0x19#5) (BitVec.ofBool d)) (BitVec.ofBool w)) 0x0#1) rn) vd) 0x5#3) (BitVec.ofBool sz)) imm8).getLsbD 21 = w := ((bit_left _ _ _ (by decide)).trans ((bit_left _ _ _ (by decide)).trans ((bit_left _ _ _ (by decide)).trans ((bit_left _ _ _ (by decide)).trans ((bit_left _ _ _ (by decide)).trans ((bit_left _ _ _ (by decide)).trans (bit_right _ _)))))))
    have h5 : (join (join (join (join (join (join (join (join (join c.bits 0x19#5) (BitVec.ofBool d)) (BitVec.ofBool w)) 0x0#1) rn) vd) 0x5#3) (BitVec.ofBool sz)) imm8).extractLsb' 16 4 = rn := ((ext_left _ _ _ _ (by decide)).trans ((ext_left _ _ _ _ (by decide)).trans ((ext_left _ _ _ _ (by decide)).trans ((ext_left _ _ _ _ (by decide)).trans (ext_right _ _)))))
    have h6 : (join (join (join (join (join (join (join (join (join c.bits 0x19#5) (BitVec.ofBool d)) (BitVec.ofBool w)) 0x0#1) rn) vd) 0x5#3) (BitVec.ofBool sz)) imm8).extractLsb' 12 4 = vd := ((ext_left _ _ _ _ (by decide)).trans ((ext_left _ _ _ _ (by decide)).trans ((ext_left _ _ _ _ (by decide)).trans (ext_right _ _))))
    have h8 : (join (join (join (join (join (join (join (join (join c.bits 0x19#5) (BitVec.ofBool d)) (BitVec.ofBool w)) 0x0#1) rn) vd) 0x5#3) (BitVec.ofBool sz)) imm8).getLsbD 8 = sz := ((bit_left _ _ _ (by decide)).trans (bit_right _ _))
    have h9 : (join (join (join (join (join (join (join (join (join c.bits 0x19#5) (BitVec.ofBool d)) (BitVec.ofBool w)) 0x0#1) rn) vd) 0x5#3) (BitVec.ofBool sz)) imm8).extractLsb' 0 8 = imm8 := (ext_right _ _)
    exact congr (congr (congr (congr (congr (congr (congrArg Instr.vstmIa ((congrArg Cond.ofBits h0).trans (cond_ofBits c))) (h2)) (h3)) (h5)) (h6)) (h8)) (h9)

theorem EncodesToItself.vstmDb (c : Cond) (d : Bool) (rn : Reg) (vd : BitVec 4) (sz : Bool) (imm8 : BitVec 8) :
    EncodesToItself.Statement (.vstmDb c d rn vd sz imm8) := by
  refine ⟨_, rfl, ?_, ?_⟩
  · show encode (.vstmDb c d rn vd sz imm8) &&& (join (join (join (join (join (join (join (join 0x0#4 0x1f#5) 0x0#1) 0x3#2) 0x0#4) 0x0#4) 0x7#3) 0x0#1) 0x0#8) =
      (join (join (join (join (join (join (join (join 0x0#4 0x1a#5) 0x0#1) 0x2#2) 0x0#4) 0x0#4) 0x5#3) 0x0#1) 0x0#8)
    exact (and_parts _ _ _ _).trans (by simp only [and_parts, BitVec.and_zero]; try rfl)
  · have h0 : (join (join (join (join (join (join (join (join c.bits 0x1a#5) (BitVec.ofBool d)) 0x2#2) rn) vd) 0x5#3) (BitVec.ofBool sz)) imm8).extractLsb' 28 4 = c.bits := ((ext_left _ _ _ _ (by decide)).trans ((ext_left _ _ _ _ (by decide)).trans ((ext_left _ _ _ _ (by decide)).trans ((ext_left _ _ _ _ (by decide)).trans ((ext_left _ _ _ _ (by decide)).trans ((ext_left _ _ _ _ (by decide)).trans ((ext_left _ _ _ _ (by decide)).trans ((ext_left _ _ _ _ (by decide)).trans (ext_only _)))))))))
    have h2 : (join (join (join (join (join (join (join (join c.bits 0x1a#5) (BitVec.ofBool d)) 0x2#2) rn) vd) 0x5#3) (BitVec.ofBool sz)) imm8).getLsbD 22 = d := ((bit_left _ _ _ (by decide)).trans ((bit_left _ _ _ (by decide)).trans ((bit_left _ _ _ (by decide)).trans ((bit_left _ _ _ (by decide)).trans ((bit_left _ _ _ (by decide)).trans ((bit_left _ _ _ (by decide)).trans (bit_right _ _)))))))
    have h4 : (join (join (join (join (join (join (join (join c.bits 0x1a#5) (BitVec.ofBool d)) 0x2#2) rn) vd) 0x5#3) (BitVec.ofBool sz)) imm8).extractLsb' 16 4 = rn := ((ext_left _ _ _ _ (by decide)).trans ((ext_left _ _ _ _ (by decide)).trans ((ext_left _ _ _ _ (by decide)).trans ((ext_left _ _ _ _ (by decide)).trans (ext_right _ _)))))
    have h5 : (join (join (join (join (join (join (join (join c.bits 0x1a#5) (BitVec.ofBool d)) 0x2#2) rn) vd) 0x5#3) (BitVec.ofBool sz)) imm8).extractLsb' 12 4 = vd := ((ext_left _ _ _ _ (by decide)).trans ((ext_left _ _ _ _ (by decide)).trans ((ext_left _ _ _ _ (by decide)).trans (ext_right _ _))))
    have h7 : (join (join (join (join (join (join (join (join c.bits 0x1a#5) (BitVec.ofBool d)) 0x2#2) rn) vd) 0x5#3) (BitVec.ofBool sz)) imm8).getLsbD 8 = sz := ((bit_left _ _ _ (by decide)).trans (bit_right _ _))
    have h8 : (join (join (join (join (join (join (join (join c.bits 0x1a#5) (BitVec.ofBool d)) 0x2#2) rn) vd) 0x5#3) (BitVec.ofBool sz)) imm8).extractLsb' 0 8 = imm8 := (ext_right _ _)
    exact congr (congr (congr (congr (congr (congrArg Instr.vstmDb ((congrArg Cond.ofBits h0).trans (cond_ofBits c))) (h2)) (h4)) (h5)) (h7)) (h8)

theorem EncodesToItself.vmovCoreSingle (c : Cond) (l : Bool) (vn : BitVec 4) (rt : Reg) (n : Bool) (sbz : BitVec 2) (sbz1 : BitVec 4) :
    EncodesToItself.Statement (.vmovCoreSingle c l vn rt n sbz sbz1) := by
  refine ⟨_, rfl, ?_, ?_⟩
  · show encode (.vmovCoreSingle c l vn rt n sbz sbz1) &&& (join (join (join (join (join (join (join (join (join 0x0#4 0x7f#7) 0x0#1) 0x0#4) 0x0#4) 0xf#4) 0x0#1) 0x0#2) 0x1#1) 0x0#4) =
      (join (join (join (join (join (join (join (join (join 0x0#4 0x70#7) 0x0#1) 0x0#4) 0x0#4) 0xa#4) 0x0#1) 0x0#2) 0x1#1) 0x0#4)
    exact (and_parts _ _ _ _).trans (by simp only [and_parts, BitVec.and_zero]; try rfl)
  · have h0 : (join (join (join (join (join (join (join (join (join c.bits 0x70#7) (BitVec.ofBool l)) vn) rt) 0xa#4) (BitVec.ofBool n)) sbz) 0x1#1) sbz1).extractLsb' 28 4 = c.bits := ((ext_left _ _ _ _ (by decide)).trans ((ext_left _ _ _ _ (by decide)).trans ((ext_left _ _ _ _ (by decide)).trans ((ext_left _ _ _ _ (by decide)).trans ((ext_left _ _ _ _ (by decide)).trans ((ext_left _ _ _ _ (by decide)).trans ((ext_left _ _ _ _ (by decide)).trans ((ext_left _ _ _ _ (by decide)).trans ((ext_left _ _ _ _ (by decide)).trans (ext_only _))))))))))
    have h2 : (join (join (join (join (join (join (join (join (join c.bits 0x70#7) (BitVec.ofBool l)) vn) rt) 0xa#4) (BitVec.ofBool n)) sbz) 0x1#1) sbz1).getLsbD 20 = l := ((bit_left _ _ _ (by decide)).trans ((bit_left _ _ _ (by decide)).trans ((bit_left _ _ _ (by decide)).trans ((bit_left _ _ _ (by decide)).trans ((bit_left _ _ _ (by decide)).trans ((bit_left _ _ _ (by decide)).trans ((bit_left _ _ _ (by decide)).trans (bit_right _ _))))))))
    have h3 : (join (join (join (join (join (join (join (join (join c.bits 0x70#7) (BitVec.ofBool l)) vn) rt) 0xa#4) (BitVec.ofBool n)) sbz) 0x1#1) sbz1).extractLsb' 16 4 = vn := ((ext_left _ _ _ _ (by decide)).trans ((ext_left _ _ _ _ (by decide)).trans ((ext_left _ _ _ _ (by decide)).trans ((ext_left _ _ _ _ (by decide)).trans ((ext_left _ _ _ _ (by decide)).trans ((ext_left _ _ _ _ (by decide)).trans (ext_right _ _)))))))
    have h4 : (join (join (join (join (join (join (join (join (join c.bits 0x70#7) (BitVec.ofBool l)) vn) rt) 0xa#4) (BitVec.ofBool n)) sbz) 0x1#1) sbz1).extractLsb' 12 4 = rt := ((ext_left _ _ _ _ (by decide)).trans ((ext_left _ _ _ _ (by decide)).trans ((ext_left _ _ _ _ (by decide)).trans ((ext_left _ _ _ _ (by decide)).trans ((ext_left _ _ _ _ (by decide)).trans (ext_right _ _))))))
    have h6 : (join (join (join (join (join (join (join (join (join c.bits 0x70#7) (BitVec.ofBool l)) vn) rt) 0xa#4) (BitVec.ofBool n)) sbz) 0x1#1) sbz1).getLsbD 7 = n := ((bit_left _ _ _ (by decide)).trans ((bit_left _ _ _ (by decide)).trans ((bit_left _ _ _ (by decide)).trans (bit_right _ _))))
    have h7 : (join (join (join (join (join (join (join (join (join c.bits 0x70#7) (BitVec.ofBool l)) vn) rt) 0xa#4) (BitVec.ofBool n)) sbz) 0x1#1) sbz1).extractLsb' 5 2 = sbz := ((ext_left _ _ _ _ (by decide)).trans ((ext_left _ _ _ _ (by decide)).trans (ext_right _ _)))
    have h9 : (join (join (join (join (join (join (join (join (join c.bits 0x70#7) (BitVec.ofBool l)) vn) rt) 0xa#4) (BitVec.ofBool n)) sbz) 0x1#1) sbz1).extractLsb' 0 4 = sbz1 := (ext_right _ _)
    exact congr (congr (congr (congr (congr (congr (congrArg Instr.vmovCoreSingle ((congrArg Cond.ofBits h0).trans (cond_ofBits c))) (h2)) (h3)) (h4)) (h6)) (h7)) (h9)

theorem EncodesToItself.vmovCoreTwoSingles (c : Cond) (l : Bool) (rt2 : Reg) (rt : Reg) (m : Bool) (vm : BitVec 4) :
    EncodesToItself.Statement (.vmovCoreTwoSingles c l rt2 rt m vm) := by
  refine ⟨_, rfl, ?_, ?_⟩
  · show encode (.vmovCoreTwoSingles c l rt2 rt m vm) &&& (join (join (join (join (join (join (join (join 0x0#4 0x7f#7) 0x0#1) 0x0#4) 0x0#4) 0x3f#6) 0x0#1) 0x1#1) 0x0#4) =
      (join (join (join (join (join (join (join (join 0x0#4 0x62#7) 0x0#1) 0x0#4) 0x0#4) 0x28#6) 0x0#1) 0x1#1) 0x0#4)
    exact (and_parts _ _ _ _).trans (by simp only [and_parts, BitVec.and_zero]; try rfl)
  · have h0 : (join (join (join (join (join (join (join (join c.bits 0x62#7) (BitVec.ofBool l)) rt2) rt) 0x28#6) (BitVec.ofBool m)) 0x1#1) vm).extractLsb' 28 4 = c.bits := ((ext_left _ _ _ _ (by decide)).trans ((ext_left _ _ _ _ (by decide)).trans ((ext_left _ _ _ _ (by decide)).trans ((ext_left _ _ _ _ (by decide)).trans ((ext_left _ _ _ _ (by decide)).trans ((ext_left _ _ _ _ (by decide)).trans ((ext_left _ _ _ _ (by decide)).trans ((ext_left _ _ _ _ (by decide)).trans (ext_only _)))))))))
    have h2 : (join (join (join (join (join (join (join (join c.bits 0x62#7) (BitVec.ofBool l)) rt2) rt) 0x28#6) (BitVec.ofBool m)) 0x1#1) vm).getLsbD 20 = l := ((bit_left _ _ _ (by decide)).trans ((bit_left _ _ _ (by decide)).trans ((bit_left _ _ _ (by decide)).trans ((bit_left _ _ _ (by decide)).trans ((bit_left _ _ _ (by decide)).trans ((bit_left _ _ _ (by decide)).trans (bit_right _ _)))))))
    have h3 : (join (join (join (join (join (join (join (join c.bits 0x62#7) (BitVec.ofBool l)) rt2) rt) 0x28#6) (BitVec.ofBool m)) 0x1#1) vm).extractLsb' 16 4 = rt2 := ((ext_left _ _ _ _ (by decide)).trans ((ext_left _ _ _ _ (by decide)).trans ((ext_left _ _ _ _ (by decide)).trans ((ext_left _ _ _ _ (by decide)).trans ((ext_left _ _ _ _ (by decide)).trans (ext_right _ _))))))
    have h4 : (join (join (join (join (join (join (join (join c.bits 0x62#7) (BitVec.ofBool l)) rt2) rt) 0x28#6) (BitVec.ofBool m)) 0x1#1) vm).extractLsb' 12 4 = rt := ((ext_left _ _ _ _ (by decide)).trans ((ext_left _ _ _ _ (by decide)).trans ((ext_left _ _ _ _ (by decide)).trans ((ext_left _ _ _ _ (by decide)).trans (ext_right _ _)))))
    have h6 : (join (join (join (join (join (join (join (join c.bits 0x62#7) (BitVec.ofBool l)) rt2) rt) 0x28#6) (BitVec.ofBool m)) 0x1#1) vm).getLsbD 5 = m := ((bit_left _ _ _ (by decide)).trans ((bit_left _ _ _ (by decide)).trans (bit_right _ _)))
    have h8 : (join (join (join (join (join (join (join (join c.bits 0x62#7) (BitVec.ofBool l)) rt2) rt) 0x28#6) (BitVec.ofBool m)) 0x1#1) vm).extractLsb' 0 4 = vm := (ext_right _ _)
    exact congr (congr (congr (congr (congr (congrArg Instr.vmovCoreTwoSingles ((congrArg Cond.ofBits h0).trans (cond_ofBits c))) (h2)) (h3)) (h4)) (h6)) (h8)

theorem EncodesToItself.vmovCoreDouble (c : Cond) (l : Bool) (rt2 : Reg) (rt : Reg) (m : Bool) (vm : BitVec 4) :
    EncodesToItself.Statement (.vmovCoreDouble c l rt2 rt m vm) := by
  refine ⟨_, rfl, ?_, ?_⟩
  · show encode (.vmovCoreDouble c l rt2 rt m vm) &&& (join (join (join (join (join (join (join (join 0x0#4 0x7f#7) 0x0#1) 0x0#4) 0x0#4) 0x3f#6) 0x0#1) 0x1#1) 0x0#4) =
      (join (join (join (join (join (join (join (join 0x0#4 0x62#7) 0x0#1) 0x0#4) 0x0#4) 0x2c#6) 0x0#1) 0x1#1) 0x0#4)
    exact (and_parts _ _ _ _).trans (by simp only [and_parts, BitVec.and_zero]; try rfl)
  · have h0 : (join (join (join (join (join (join (join (join c.bits 0x62#7) (BitVec.ofBool l)) rt2) rt) 0x2c#6) (BitVec.ofBool m)) 0x1#1) vm).extractLsb' 28 4 = c.bits := ((ext_left _ _ _ _ (by decide)).trans ((ext_left _ _ _ _ (by decide)).trans ((ext_left _ _ _ _ (by decide)).trans ((ext_left _ _ _ _ (by decide)).trans ((ext_left _ _ _ _ (by decide)).trans ((ext_left _ _ _ _ (by decide)).trans ((ext_left _ _ _ _ (by decide)).trans ((ext_left _ _ _ _ (by decide)).trans (ext_only _)))))))))
    have h2 : (join (join (join (join (join (join (join (join c.bits 0x62#7) (BitVec.ofBool l)) rt2) rt) 0x2c#6) (BitVec.ofBool m)) 0x1#1) vm).getLsbD 20 = l := ((bit_left _ _ _ (by decide)).trans ((bit_left _ _ _ (by decide)).trans ((bit_left _ _ _ (by decide)).trans ((bit_left _ _ _ (by decide)).trans ((bit_left _ _ _ (by decide)).trans ((bit_left _ _ _ (by decide)).trans (bit_right _ _)))))))
    have h3 : (join (join (join (join (join (join (join (join c.bits 0x62#7) (BitVec.ofBool l)) rt2) rt) 0x2c#6) (BitVec.ofBool m)) 0x1#1) vm).extractLsb' 16 4 = rt2 := ((ext_left _ _ _ _ (by decide)).trans ((ext_left _ _ _ _ (by decide)).trans ((ext_left _ _ _ _ (by decide)).trans ((ext_left _ _ _ _ (by decide)).trans ((ext_left _ _ _ _ (by decide)).trans (ext_right _ _))))))
    have h4 : (join (join (join (join (join (join (join (join c.bits 0x62#7) (BitVec.ofBool l)) rt2) rt) 0x2c#6) (BitVec.ofBool m)) 0x1#1) vm).extractLsb' 12 4 = rt := ((ext_left _ _ _ _ (by decide)).trans ((ext_left _ _ _ _ (by decide)).trans ((ext_left _ _ _ _ (by decide)).trans ((ext_left _ _ _ _ (by decide)).trans (ext_right _ _)))))
    have h6 : (join (join (join (join (join (join (join (join c.bits 0x62#7) (BitVec.ofBool l)) rt2) rt) 0x2c#6) (BitVec.ofBool m)) 0x1#1) vm).getLsbD 5 = m := ((bit_left _ _ _ (by decide)).trans ((bit_left _ _ _ (by decide)).trans (bit_right _ _)))
    have h8 : (join (join (join (join (join (join (join (join c.bits 0x62#7) (BitVec.ofBool l)) rt2) rt) 0x2c#6) (BitVec.ofBool m)) 0x1#1) vm).extractLsb' 0 4 = vm := (ext_right _ _)
    exact congr (congr (congr (congr (congr (congrArg Instr.vmovCoreDouble ((congrArg Cond.ofBits h0).trans (cond_ofBits c))) (h2)) (h3)) (h4)) (h6)) (h8)

theorem EncodesToItself.vmovCoreToHalf (c : Cond) (x : Bool) (vd : BitVec 4) (rt : Reg) (d : Bool) (sbz : BitVec 4) :
    EncodesToItself.Statement (.vmovCoreToHalf c x vd rt d sbz) := by
  refine ⟨_, rfl, ?_, ?_⟩
  · show encode (.vmovCoreToHalf c x vd rt d sbz) &&& (join (join (join (join (join (join (join (join (join 0x0#4 0x3f#6) 0x0#1) 0x1#1) 0x0#4) 0x0#4) 0xf#4) 0x0#1) 0x7#3) 0x0#4) =
      (join (join (join (join (join (join (join (join (join 0x0#4 0x38#6) 0x0#1) 0x0#1) 0x0#4) 0x0#4) 0xb#4) 0x0#1) 0x1#3) 0x0#4)
    exact (and_parts _ _ _ _).trans (by simp only [and_parts, BitVec.and_zero]; try rfl)
  · have h0 : (join (join (join (join (join (join (join (join (join c.bits 0x38#6) (BitVec.ofBool x)) 0x0#1) vd) rt) 0xb#4) (BitVec.ofBool d)) 0x1#3) sbz).extractLsb' 28 4 = c.bits := ((ext_left _ _ _ _ (by decide)).trans ((ext_left _ _ _ _ (by decide)).trans ((ext_left _ _ _ _ (by decide)).trans ((ext_left _ _ _ _ (by decide)).trans ((ext_left _ _ _ _ (by decide)).trans ((ext_left _ _ _ _ (by decide)).trans ((ext_left _ _ _ _ (by decide)).trans ((ext_left _ _ _ _ (by decide)).trans ((ext_left _ _ _ _ (by decide)).trans (ext_only _))))))))))
    have h2 : (join (join (join (join (join (join (join (join (join c.bits 0x38#6) (BitVec.ofBool x)) 0x0#1) vd) rt) 0xb#4) (BitVec.ofBool d)) 0x1#3) sbz).getLsbD 21 = x := ((bit_left _ _ _ (by decide)).trans ((bit_left _ _ _ (by decide)).trans ((bit_left _ _ _ (by decide)).trans ((bit_left _ _ _ (by decide)).trans ((bit_left _ _ _ (by decide)).trans ((bit_left _ _ _ (by decide)).trans ((bit_left _ _ _ (by decide)).trans (bit_right _ _))))))))
    have h4 : (join (join (join (join (join (join (join (join (join c.bits 0x38#6) (BitVec.ofBool x)) 0x0#1) vd) rt) 0xb#4) (BitVec.ofBool d)) 0x1#3) sbz).extractLsb' 16 4 = vd := ((ext_left _ _ _ _ (by decide)).trans ((ext_left _ _ _ _ (by decide)).trans ((ext_left _ _ _ _ (by decide)).trans ((ext_left _ _ _ _ (by decide)).trans ((ext_left _ _ _ _ (by decide)).trans (ext_right _ _))))))
    have h5 : (join (join (join (join (join (join (join (join (join c.bits 0x38#6) (BitVec.ofBool x)) 0x0#1) vd) rt) 0xb#4) (BitVec.ofBool d)) 0x1#3) sbz).extractLsb' 12 4 = rt := ((ext_left _ _ _ _ (by decide)).trans ((ext_left _ _ _ _ (by decide)).trans ((ext_left _ _ _ _ (by decide)).trans ((ext_left _ _ _ _ (by decide)).trans (ext_right _ _)))))
    have h7 : (join (join (join (join (join (join (join (join (join c.bits 0x38#6) (BitVec.ofBool x)) 0x0#1) vd) rt) 0xb#4) (BitVec.ofBool d)) 0x1#3) sbz).getLsbD 7 = d := ((bit_left _ _ _ (by decide)).trans ((bit_left _ _ _ (by decide)).trans (bit_right _ _)))
    have h9 : (join (join (join (join (join (join (join (join (join c.bits 0x38#6) (BitVec.ofBool x)) 0x0#1) vd) rt) 0xb#4) (BitVec.ofBool d)) 0x1#3) sbz).extractLsb' 0 4 = sbz := (ext_right _ _)
    exact congr (congr (congr (congr (congr (congrArg Instr.vmovCoreToHalf ((congrArg Cond.ofBits h0).trans (cond_ofBits c))) (h2)) (h4)) (h5)) (h7)) (h9)

theorem EncodesToItself.vmovHalfToCore (c : Cond) (x : Bool) (vn : BitVec 4) (rt : Reg) (n : Bool) (sbz : BitVec 4) :
    EncodesToItself.Statement (.vmovHalfToCore c x vn rt n sbz) := by
  refine ⟨_, rfl, ?_, ?_⟩
  · show encode (.vmovHalfToCore c x vn rt n sbz) &&& (join (join (join (join (join (join (join (join (join 0x0#4 0x3f#6) 0x0#1) 0x1#1) 0x0#4) 0x0#4) 0xf#4) 0x0#1) 0x7#3) 0x0#4) =
      (join (join (join (join (join (join (join (join (join 0x0#4 0x38#6) 0x0#1) 0x1#1) 0x0#4) 0x0#4) 0xb#4) 0x0#1) 0x1#3) 0x0#4)
    exact (and_parts _ _ _ _).trans (by simp only [and_parts, BitVec.and_zero]; try rfl)
  · have h0 : (join (join (join (join (join (join (join (join (join c.bits 0x38#6) (BitVec.ofBool x)) 0x1#1) vn) rt) 0xb#4) (BitVec.ofBool n)) 0x1#3) sbz).extractLsb' 28 4 = c.bits := ((ext_left _ _ _ _ (by decide)).trans ((ext_left _ _ _ _ (by decide)).trans ((ext_left _ _ _ _ (by decide)).trans ((ext_left _ _ _ _ (by decide)).trans ((ext_left _ _ _ _ (by decide)).trans ((ext_left _ _ _ _ (by decide)).trans ((ext_left _ _ _ _ (by decide)).trans ((ext_left _ _ _ _ (by decide)).trans ((ext_left _ _ _ _ (by decide)).trans (ext_only _))))))))))
    have h2 : (join (join (join (join (join (join (join (join (join c.bits 0x38#6) (BitVec.ofBool x)) 0x1#1) vn) rt) 0xb#4) (BitVec.ofBool n)) 0x1#3) sbz).getLsbD 21 = x := ((bit_left _ _ _ (by decide)).trans ((bit_left _ _ _ (by decide)).trans ((bit_left _ _ _ (by decide)).trans ((bit_left _ _ _ (by decide)).trans ((bit_left _ _ _ (by decide)).trans ((bit_left _ _ _ (by decide)).trans ((bit_left _ _ _ (by decide)).trans (bit_right _ _))))))))
    have h4 : (join (join (join (join (join (join (join (join (join c.bits 0x38#6) (BitVec.ofBool x)) 0x1#1) vn) rt) 0xb#4) (BitVec.ofBool n)) 0x1#3) sbz).extractLsb' 16 4 = vn := ((ext_left _ _ _ _ (by decide)).trans ((ext_left _ _ _ _ (by decide)).trans ((ext_left _ _ _ _ (by decide)).trans ((ext_left _ _ _ _ (by decide)).trans ((ext_left _ _ _ _ (by decide)).trans (ext_right _ _))))))
    have h5 : (join (join (join (join (join (join (join (join (join c.bits 0x38#6) (BitVec.ofBool x)) 0x1#1) vn) rt) 0xb#4) (BitVec.ofBool n)) 0x1#3) sbz).extractLsb' 12 4 = rt := ((ext_left _ _ _ _ (by decide)).trans ((ext_left _ _ _ _ (by decide)).trans ((ext_left _ _ _ _ (by decide)).trans ((ext_left _ _ _ _ (by decide)).trans (ext_right _ _)))))
    have h7 : (join (join (join (join (join (join (join (join (join c.bits 0x38#6) (BitVec.ofBool x)) 0x1#1) vn) rt) 0xb#4) (BitVec.ofBool n)) 0x1#3) sbz).getLsbD 7 = n := ((bit_left _ _ _ (by decide)).trans ((bit_left _ _ _ (by decide)).trans (bit_right _ _)))
    have h9 : (join (join (join (join (join (join (join (join (join c.bits 0x38#6) (BitVec.ofBool x)) 0x1#1) vn) rt) 0xb#4) (BitVec.ofBool n)) 0x1#3) sbz).extractLsb' 0 4 = sbz := (ext_right _ _)
    exact congr (congr (congr (congr (congr (congrArg Instr.vmovHalfToCore ((congrArg Cond.ofBits h0).trans (cond_ofBits c))) (h2)) (h4)) (h5)) (h7)) (h9)

theorem EncodesToItself.vfpUnallocated (c : Cond) (rest : BitVec 14) (rest1 : BitVec 9) :
    EncodesToItself.Statement (.vfpUnallocated c rest rest1) := by
  refine ⟨_, rfl, ?_, ?_⟩
  · show encode (.vfpUnallocated c rest rest1) &&& (join (join (join (join 0x0#4 0x3#2) 0x0#14) 0x7#3) 0x0#9) =
      (join (join (join (join 0x0#4 0x3#2) 0x0#14) 0x5#3) 0x0#9)
    exact (and_parts _ _ _ _).trans (by simp only [and_parts, BitVec.and_zero]; try rfl)
  · have h0 : (join (join (join (join c.bits 0x3#2) rest) 0x5#3) rest1).extractLsb' 28 4 = c.bits := ((ext_left _ _ _ _ (by decide)).trans ((ext_left _ _ _ _ (by decide)).trans ((ext_left _ _ _ _ (by decide)).trans ((ext_left _ _ _ _ (by decide)).trans (ext_only _)))))
    have h2 : (join (join (join (join c.bits 0x3#2) rest) 0x5#3) rest1).extractLsb' 12 14 = rest := ((ext_left _ _ _ _ (by decide)).trans ((ext_left _ _ _ _ (by decide)).trans (ext_right _ _)))
    have h4 : (join (join (join (join c.bits 0x3#2) rest) 0x5#3) rest1).extractLsb' 0 9 = rest1 := (ext_right _ _)
    exact congr (congr (congrArg Instr.vfpUnallocated ((congrArg Cond.ofBits h0).trans (cond_ofBits c))) (h2)) (h4)

theorem EncodesToItself.otherCoproc (c : Cond) (rest : BitVec 14) (coproc : BitVec 4) (rest1 : BitVec 8) :
    EncodesToItself.Statement (.otherCoproc c rest coproc rest1) := by
  refine ⟨_, rfl, ?_, ?_⟩
  · show encode (.otherCoproc c rest coproc rest1) &&& (join (join (join (join 0x0#4 0x3#2) 0x0#14) 0x0#4) 0x0#8) =
      (join (join (join (join 0x0#4 0x3#2) 0x0#14) 0x0#4) 0x0#8)
    exact (and_parts _ _ _ _).trans (by simp only [and_parts, BitVec.and_zero]; try rfl)
  · have h0 : (join (join (join (join c.bits 0x3#2) rest) coproc) rest1).extractLsb' 28 4 = c.bits := ((ext_left _ _ _ _ (by decide)).trans ((ext_left _ _ _ _ (by decide)).trans ((ext_left _ _ _ _ (by decide)).trans ((ext_left _ _ _ _ (by decide)).trans (ext_only _)))))
    have h2 : (join (join (join (join c.bits 0x3#2) rest) coproc) rest1).extractLsb' 12 14 = rest := ((ext_left _ _ _ _ (by decide)).trans ((ext_left _ _ _ _ (by decide)).trans (ext_right _ _)))
    have h3 : (join (join (join (join c.bits 0x3#2) rest) coproc) rest1).extractLsb' 8 4 = coproc := ((ext_left _ _ _ _ (by decide)).trans (ext_right _ _))
    have h4 : (join (join (join (join c.bits 0x3#2) rest) coproc) rest1).extractLsb' 0 8 = rest1 := (ext_right _ _)
    exact congr (congr (congr (congrArg Instr.otherCoproc ((congrArg Cond.ofBits h0).trans (cond_ofBits c))) (h2)) (h3)) (h4)

end Sys2Proof.Laws
end

