-- ==== Sys2Proof/Machine/Axi.lean ====
section
/-! DEFINITION. What the processor puts on the AXI ports beside an access, which a platform model needs to decode its
attributes (00_scope.md R6; 20_memory.md R294, R296). -/

namespace Sys2Proof.Machine

/-- The inner attributes on AxUSER[4:1] (20_memory.md R294). DESIGN CHOICE: they are those of the MPU whatever ACTLR.SMP is, so
Write-Back Shareable memory shows its Write-Back code while it is treated as Non-cacheable (R252; log entry 121). -/
def innerCode (attr : Attr) : BitVec 4 :=
  match attr.type with
  | .stronglyOrdered => 0b0000
  | .device => 0b0001
  | .normal =>
    if attr.writeThrough then 0b0110
    else if !attr.writeBack then 0b0011
    else if attr.writeAlloc then 0b1111
    else 0b0111

/-- The origin of a transfer: this processor (20_memory.md R294). -/
def axiOrigin (cfg : Config) : BitVec 2 := if cfg.cpu then 0b10 else 0b00

/-- Whether linefills of this memory are sent speculatively on a port (71_timing.md R936): coherent ones with SCU Control bit [3],
on port 0 alone while the filtering of port 1 is on. -/
def speculates (s : State) (attr : Attr) (port : Port) : Bool :=
  s.scu.ctrl.getLsbD 3 && cacheable s attr && attr.shareable
    && (port == .master0 || (port == .master1 && !s.scu.ctrl.getLsbD 1))

/-- ARUSER[8:0] of a read on a port, which may be a linefill: origin, the hint of a speculative linefill, inner attributes,
shareable (20_memory.md R294). DESIGN CHOICE: every linefill that `speculates` has the hint, and bit [6], reserved on the peripheral
port, is 0 there (log entry 121). -/
def arUser (s : State) (attr : Attr) (port : Port) (linefill : Bool) : BitVec 9 :=
  axiOrigin s.cfg ++ BitVec.ofBool (linefill && speculates s attr port) ++ 0#1 ++ innerCode attr ++ BitVec.ofBool attr.shareable

/-- AWUSER[10:0] of a write on a port: origin, Early BRESP, inner attributes, shareable (20_memory.md R294, R296). The processor
sets Early BRESP on the master ports, with nothing to program (71_timing.md R936). DESIGN CHOICE: it does so for every write, and
bit [8], reserved on the peripheral port, is 0 there (log entry 121). -/
def awUser (cfg : Config) (attr : Attr) (port : Port) : BitVec 11 :=
  axiOrigin cfg ++ BitVec.ofBool (port != .peripheral) ++ 0#3 ++ innerCode attr ++ BitVec.ofBool attr.shareable

/-- WUSER[1:0] of a write: its origin (20_memory.md R294). -/
def wUser (cfg : Config) : BitVec 2 := axiOrigin cfg

/-- AxCACHE: the outer attributes (20_memory.md R294), in the encoding of the AXI3 protocol, which the source does not print
(log entry 82). -/
def axCache (attr : Attr) : BitVec 4 :=
  match attr.type with
  | .stronglyOrdered => 0b0000
  | .device => 0b0001
  | .normal =>
    if attr.outer = 0 then 0b0011
    else if attr.outer = 1 then 0b1111
    else if attr.outer = 2 then 0b0110
    else 0b0111

/-- AxPROT's privilege (20_memory.md R294): a cacheable write is always marked as Privileged, another access as the mode of
the instruction is. -/
def axPrivileged (s : State) (k : AccessKind) (attr : Attr) : Bool := (k == .write && cacheable s attr) || s.privileged

/-- AxPROT[2:0]: instruction fetch, non-secure (never), privileged; the places are the AXI3 protocol's (log entry 82). -/
def axProt (s : State) (k : AccessKind) (attr : Attr) : BitVec 3 :=
  BitVec.ofBool (k == .fetch) ++ 0#1 ++ BitVec.ofBool (axPrivileged s k attr)

end Sys2Proof.Machine
end

