-- ==== Sys2Proof/Tests/Slice0.lean ====
section
/-! SUPPORT. Tests of the model: ill-formed terms that WellFormed refuses, the decoding of a word of every row (written out
from the fields of spec/opcode_table.json), vectors of 95_test_vectors.md and 96_test_vectors_vfp.md, and for every statement
with hypotheses concrete values that meet them. -/

open Sys2Proof Sys2Proof.Machine

namespace Sys2Proof.Tests

set_option maxRecDepth 20000

/-! ### Well-formedness: a term each check refuses -/

theorem test_wf_refuses :
    [Instr.restOfUnconditional 0x57FF01F, .hintUnallocated .al 4, .msrImm .al false 0 0x0AB, .bfi .al 3 1 0 15,
      .lslImm .al false 1 0 2, .rorImm .al false 1 0 2, .ldm .al false true false true 13 6,
      .stm .al true false false true 13 6, .vmrsVmsrSbz .al true 1 2 0 0, .vldmIa .al false true 13 0 true 4,
      .vstmDb .al false 13 0 true 4, .vfpUnallocated .al 0x2300 0, .otherCoproc .al 0x2000 15 0x10].all
      (fun i => !wellFormed i) = true := by decide

/-- The nearest terms that have words of their own. -/
theorem test_wf_accepts :
    [Instr.restOfUnconditional 0x6500123, .hintUnallocated .al 5, .msrImm .al false 1 0x0AB, .bfi .al 3 1 0 14,
      .lslImm .al false 1 1 2, .rorImm .al false 1 31 2, .ldm .al false true false true 12 6,
      .stm .al true false false false 13 6, .vmrsVmsrSbz .al true 1 2 0 1, .vldmIa .al false false 13 0 true 4,
      .vstmDb .al false 12 0 true 4, .otherCoproc .al 0x2000 13 0x10].all wellFormed = true := by decide

/-! ### Decoding: one word of every row -/

/-- A word decodes to this instruction, whose words are its own. -/
def decodesTo (w : Word) (i : Instr) : Bool := match decode w with
  | .ok j => decide (j = i) && wellFormed i
  | .error _ => false

def decodesAll (l : List (Word × Instr)) : Bool := l.all fun p => decodesTo p.1 p.2

theorem test_decode_Unconditional : decodesAll [
    (0xF57FF01F, .clrex), (0xF57FF043, .dsb 3), (0xF57FF054, .dmb 4), (0xF57FF065, .isb 5), (0xF1010000, .setend false),
    (0xF10C0155, .cps 3 false true false true 21), (0xF8990A00, .rfe false true false 9),
    (0xF96D050B, .srs true false true 11), (0xF55BFEF6, .pldImm false 11 0xef6), (0xF595FEF7, .pldwImm true 5 0xef7),
    (0xF458FEF8, .pliImm false 8 0xef8), (0xF7DBFCE7, .pldReg true 11 25 .ror 7), (0xF715FD21, .pldwReg false 5 26 .lsr 1),
    (0xF6D8FDC4, .pliReg true 8 27 .asr 4), (0xFA68F266, .blxImm false 0x68f266),
    (0xF3234567, .advSimdDataProcessing 0x1234567), (0xF4A2B3C4, .advSimdLoadStore 5 0x2b3c4),
    (0xFE345691, .coprocTwoSpace 0x2345 6 0x91), (0xF6500123, .restOfUnconditional 0x6500123)] = true := by decide

theorem test_decode_Status : decodesAll [
    (0xC320F000, .nop .gt), (0x3320F001, .yield .cc), (0x8320F002, .wfe .hi), (0xD320F003, .wfi .le),
    (0x4320F004, .sev .mi), (0x9320F0F3, .hintUnallocated .ls 0xf3), (0x0327FB9D, .msrImm .eq false 7 0xb9d),
    (0xE125DC72, .bkpt 0x5dc 2), (0xA1600073, .smc .ge 3), (0x112FFF18, .bx .ne 8), (0x612FFF3B, .blxReg .vs 11),
    (0xB16F5F1A, .clz .lt 5 10), (0x210FA000, .mrs .cs false 10)] = true := by decide

theorem test_decode_ExclusiveAndMultiply : decodesAll [
    (0x716EF002, .msrReg .vc true 14 2), (0xC195AF9F, .ldrex .gt 5 10), (0x31880F95, .strex .cc 8 0 5),
    (0x81BB3F9F, .ldrexd .hi 11 3), (0xD1A5AF92, .strexd .le 5 10 2), (0x41D80F9F, .ldrexb .mi 8 0),
    (0x91CB3F98, .strexb .ls 11 3 8), (0x01F5AF9F, .ldrexh .eq 5 10), (0x51E80F95, .strexh .pl 8 0 5),
    (0xA10B3098, .swp .ge 11 3 8), (0x1145A092, .swpb .ne 5 10 2), (0x600A0297, .mul .vs false 10 2 7),
    (0xB0305A92, .mla .lt true 0 5 10 2), (0x2065A297, .mls .cs 5 10 2 7), (0x709A279C, .umull .vc true 10 2 7 12),
    (0xC0A05A92, .umlal .gt false 0 5 10 2), (0x30D7C499, .smull .cc true 7 12 4 9),
    (0x80EA279C, .smlal .hi false 10 2 7 12)] = true := by decide

theorem test_decode_ExtraAndMedia : decodesAll [
    (0xD16498BE, .strhImm .le true false true 4 9 8 14), (0x408B30B8, .strhReg .mi false true false 11 3 8),
    (0x91716AB1, .ldrhImm .ls true false true 1 6 10 1), (0x009490B1, .ldrhReg .eq false true false 4 9 1),
    (0x517B3CD2, .ldrsbImm .pl true false true 11 3 12 2), (0xA09160DB, .ldrsbReg .ge false true false 1 6 11),
    (0x11749EF4, .ldrshImm .ne true false true 4 9 14 4), (0x609B30F8, .ldrshReg .vs false true false 11 3 8),
    (0xB16161D6, .ldrdImm .lt true false true 1 6 1 6), (0x208490D1, .ldrdReg .cs false true false 4 9 1),
    (0x716B32F8, .strdImm .vc true false true 11 3 2 8), (0xC08160FB, .strdReg .gt false true false 1 6 11),
    (0x37F296FC, .udf .cc 0x296 12), (0x8715FA12, .sdiv .hi 5 10 2), (0xD738F015, .udiv .le 8 0 5),
    (0x47D9029F, .bfc .mi 25 0 5), (0x97DA7311, .bfi .ls 26 7 6 1), (0x07FBA3D4, .ubfx .eq 27 10 7 4),
    (0x57BC0457, .sbfx .pl 28 0 8 7), (0xA6BF5F3A, .rev .ge 5 10), (0x16BF8FB0, .rev16 .ne 8 0),
    (0x66FFBFB3, .revsh .vs 11 3), (0xB6FF5F3A, .rbit .lt 5 10), (0x26EF8C72, .uxtb .cs 8 3 2),
    (0x76FFB475, .uxth .vc 11 1 5), (0xC6AF547C, .sxtb .gt 5 1 12), (0x36BF8872, .sxth .cc 8 2 2)] = true := by decide

theorem test_decode_DataA : decodesAll [
    (0x83050BD1, .movw .hi 5 0 0xbd1), (0xD3467BD2, .movt .le 6 7 0xbd2), (0x420A29FF, .andImm .mi false 10 2 9 0xff),
    (0x90105541, .andReg .ls true 0 5 10 .asr 1), (0x0007C47B, .andRsr .eq false 7 12 4 .ror 11),
    (0x523A2C02, .eorImm .pl true 10 2 12 2), (0xA02056C1, .eorReg .ge false 0 5 13 .asr 1),
    (0x1037C47B, .eorRsr .ne true 7 12 4 .ror 11), (0x624A2F05, .subImm .vs false 10 2 15 5),
    (0xB0505841, .subReg .lt true 0 5 16 .asr 1), (0x2047C47B, .subRsr .cs false 7 12 4 .ror 11),
    (0x727A2208, .rsbImm .vc true 10 2 2 8), (0xC06059C1, .rsbReg .gt false 0 5 19 .asr 1),
    (0x3077C47B, .rsbRsr .cc true 7 12 4 .ror 11), (0x828A250B, .addImm .hi false 10 2 5 0xb),
    (0xD0905B41, .addReg .le true 0 5 22 .asr 1), (0x4087C47B, .addRsr .mi false 7 12 4 .ror 11),
    (0x92BA280E, .adcImm .ls true 10 2 8 0xe), (0x00A05CC1, .adcReg .eq false 0 5 25 .asr 1),
    (0x50B7C47B, .adcRsr .pl true 7 12 4 .ror 11), (0xA2CA2B11, .sbcImm .ge false 10 2 11 0x11),
    (0x10D05E41, .sbcReg .ne true 0 5 28 .asr 1), (0x60C7C47B, .sbcRsr .vs false 7 12 4 .ror 11),
    (0xB2FA2E14, .rscImm .lt true 10 2 14 0x14)] = true := by decide

theorem test_decode_DataB : decodesAll [
    (0x20E05FC1, .rscReg .cs false 0 5 31 .asr 1), (0x70F7C47B, .rscRsr .vc true 7 12 4 .ror 11),
    (0xC3180B81, .tstImm .gt 8 0 11 0x81), (0x311B0629, .tstReg .cc 11 0 12 .lsr 9),
    (0x81150C56, .tstRsr .hi 5 0 12 .asr 6), (0xD3380E84, .teqImm .le 8 0 14 0x84),
    (0x413B07A9, .teqReg .mi 11 0 15 .lsr 9), (0x91350C56, .teqRsr .ls 5 0 12 .asr 6), (0x03580187, .cmpImm .eq 8 0 1 0x87),
    (0x515B0929, .cmpReg .pl 11 0 18 .lsr 9), (0xA1550C56, .cmpRsr .ge 5 0 12 .asr 6), (0x1378048A, .cmnImm .ne 8 0 4 0x8a),
    (0x617B0AA9, .cmnReg .vs 11 0 21 .lsr 9), (0xB1750C56, .cmnRsr .lt 5 0 12 .asr 6),
    (0x238A2D23, .orrImm .cs false 10 2 13 0x23), (0x71905741, .orrReg .vc true 0 5 14 .asr 1),
    (0xC187C47B, .orrRsr .gt false 7 12 4 .ror 11), (0x33B0C126, .movImm .cc true 0 12 1 0x26),
    (0x81A00005, .movReg .hi false 0 5), (0xD1B0706C, .rrx .le true 7 12),
    (0x41A0AE84, .lslImm .mi false 10 29 4)] = true := by decide

theorem test_decode_DataC : decodesAll [
    (0x91B00F27, .lsrImm .ls true 0 30 7), (0x01A07FC1, .asrImm .eq false 7 31 1), (0x51B0A0E4, .rorImm .pl true 10 1 4),
    (0xA1A0051A, .lslReg .ge false 0 5 10), (0x11B07C34, .lsrReg .ne true 7 12 4), (0x61A0A257, .asrReg .vs false 10 2 7),
    (0xB1B0057A, .rorReg .lt true 0 5 10), (0x23C7CB31, .bicImm .cs false 7 12 11 0x31),
    (0x71DA2E2B, .bicReg .vc true 10 2 28 .lsr 11), (0xC1C05A54, .bicRsr .gt false 0 5 10 .asr 4),
    (0x33F09E34, .mvnImm .cc true 0 9 14 0x34), (0x81E0CFA8, .mvnReg .hi false 0 12 31 .lsr 8),
    (0xD1F02751, .mvnRsr .le true 0 2 7 .asr 1), (0x449B31CD, .ldrImm .mi false true false 11 3 0x1cd),
    (0x97316762, .ldrReg .ls true false true 1 6 14 .ror 2)] = true := by decide

theorem test_decode_MemoryAndBranch : decodesAll [
    (0x048491CF, .strImm .eq false true false 4 9 0x1cf), (0x572B384C, .strReg .pl true false true 11 3 16 .asr 12),
    (0xA4D161D1, .ldrbImm .ge false true false 1 6 0x1d1), (0x17749925, .ldrbReg .ne true false true 4 9 18 .lsr 5),
    (0x64CB31D3, .strbImm .vs false true false 11 3 0x1d3), (0xB7616A62, .strbReg .lt true false true 1 6 20 .ror 2),
    (0x28BDF2E7, .pop .cs 0xf2e7), (0x792DF2E8, .push .vc 0xf2e8), (0xC8B321D7, .ldm .gt false true false true 3 0x21d7),
    (0x394621D8, .stm .cc true false true false 6 0x21d8), (0x8A68F2EB, .b .hi 0x68f2eb), (0xDB68F2EC, .bl .le 0x68f2ec),
    (0x4F68F2ED, .svc .mi 0x68f2ed), (0x9EFE7A10, .vmrs .ls 14 7), (0x0EEFAA10, .vmsr .eq 15 10),
    (0x5EF62A51, .vmrsVmsrSbz .pl true 6 2 2 1), (0xAE379F79, .mrcP15 .ge 1 7 9 3 9),
    (0x1E48CF9A, .mcrP15 .ne 2 8 12 4 10)] = true := by decide

theorem test_decode_System : decodesAll [
    (0x6E792EBB, .mrcP14 .vs 3 9 2 5 11), (0xBE8A9EDC, .mcrP14 .lt 4 10 9 6 12),
    (0x2E0A2B20, .vmla .cs false 10 2 true false true 0), (0x7E405AC3, .vmls .vc true 0 5 false true false 3),
    (0xCE17CB2A, .vnmls .gt false 7 12 true false true 10), (0x3E5A2AC0, .vnmla .cc true 10 2 false true false 0),
    (0x8E205B23, .vmul .hi false 0 5 true false true 3),
    (0xDE67CACA, .vnmul .le true 7 12 false true false 10)] = true := by decide

theorem test_decode_VfpData : decodesAll [
    (0x4E3A2B20, .vadd .mi false 10 2 true false true 0), (0x9E705AC3, .vsub .ls true 0 5 false true false 3),
    (0x0E87CB2A, .vdiv .eq false 7 12 true false true 10), (0x5EF4CA02, .vmovImm .pl true 4 12 false false false 2),
    (0xAEB00A69, .vmovReg .ge false 0 false true 9), (0x1EF07BC3, .vabs .ne true 7 true false 3),
    (0x6EB1AA66, .vneg .vs false 10 false true 6), (0xBEF10BC9, .vsqrt .lt true 0 true false 9),
    (0x2EB39AC5, .vcvtbVcvtt .cs false true 9 true false 5), (0x7EF4AB68, .vcmpReg .vc true 10 true false true 8),
    (0xCEB50AC0, .vcmpZero .gt false 0 false true false 0), (0x3EF77BC3, .vcvtDoubleSingle .cc true 7 true false 3),
    (0x8EB8AAC8, .vcvtIntToFp .hi false 10 false true false 8),
    (0xDEFC2AC0, .vcvtFpToInt .le true false 2 false true false 0),
    (0x4EBEBAC3, .vcvtFixed .mi false true false 11 false true false 3),
    (0x9D9C4BF8, .vldr .ls true false 12 4 true 0xf8)] = true := by decide

theorem test_decode_VfpMemory : decodesAll [
    (0x0D427AF9, .vstr .eq false true 2 7 false 0xf9), (0x5CFD7BCE, .vpop .pl true 7 true 0xce),
    (0xAD2DAACF, .vpush .ge false 10 false 0xcf), (0x1CD27BFC, .vldmIa .ne true false 2 7 true 0xfc),
    (0x6D37CB67, .vldmDb .vs false 7 12 true 0x67), (0xBCCC4BFE, .vstmIa .lt true false 12 4 true 0xfe),
    (0x2D205B69, .vstmDb .cs false 0 5 true 0x69), (0x7E17CA10, .vmovCoreSingle .vc true 7 12 false 0 0),
    (0xCC4A2A39, .vmovCoreTwoSingles .gt false 10 2 true 9), (0x3C505B1C, .vmovCoreDouble .cc true 0 5 false 12),
    (0x8E07CB90, .vmovCoreToHalf .hi false 7 12 true 0), (0xDE3A2B10, .vmovHalfToCore .le true 10 2 false 0),
    (0x4E805AC7, .vfpUnallocated .mi 0x2805 0xc7), (0x9D23457A, .otherCoproc .ls 0x1234 5 0x7a)] = true := by decide


/-! ### States -/

/-- After reset, with a CPSR, some registers and the pc at 0x1000. -/
def st (cpsr : Word) (regs : List (Reg × Word)) : State :=
  regs.foldl (fun s p => s.setReg p.1 p.2) { State.reset with cpsr := cpsr, pc := 0x1000 }

/-- Supervisor mode after reset: CPSR 0x1D3. -/
def sv (regs : List (Reg × Word)) : State := st 0x1D3 regs

end Sys2Proof.Tests

namespace Sys2Proof.Machine

/-- A state with bytes in main memory. -/
def State.bytes (s : State) (a : Nat) (bs : List Byte) : State := { s with mem := storeBytes s.mem a bs }

/-- A state with another SCTLR. -/
def State.sctlr (s : State) (w : Word) : State := { s with cp15 := { s.cp15 with sctlr := w } }

/-- A state with the FPU enabled, an FPSCR, and single or double registers. -/
def State.vfp (s : State) (fpscr : Word) (singles : List (BitVec 5 × Word)) (doubles : List (BitVec 4 × BitVec 64)) : State :=
  let t := { s with cp15 := { s.cp15 with cpacr := 0x00F00000 },
                    fpu := { s.fpu with fpexc := 0x40000000, fpscr := fpscr } }
  doubles.foldl (fun s p => s.setDouble p.1 p.2) (singles.foldl (fun s p => s.setSingle p.1 p.2) t)

end Sys2Proof.Machine

namespace Sys2Proof.Tests

/-- What the instruction a word decodes to leaves, read by `f`; nothing where it stops. -/
def after {α : Type} (w : Word) (s : State) (f : State → α) : Option α := match decode w with
  | .ok i => match exec i s with
    | .next t => some (f t)
    | _ => none
  | .error _ => none

/-- Why the instruction a word decodes to is refused. -/
def refusal (w : Word) (s : State) : Option Refusal := match decode w with
  | .ok i => match exec i s with
    | .refused r => some r
    | _ => none
  | .error _ => none

/-- A register and the flags. -/
def rf (r : Reg) (t : State) : Word × BitVec 4 := (t.reg r, t.cpsr.extractLsb' 28 4)

/-! ### Vectors of 95_test_vectors.md -/

theorem test_adds_overflow : after 0xE0910002 (sv [(1, 0x7FFFFFFF), (2, 1)]) (rf 0) = some (0x80000000, 0b1001) := by decide
theorem test_subs_borrow : after 0xE0510002 (sv [(1, 0), (2, 1)]) (rf 0) = some (0xFFFFFFFF, 0b1000) := by decide
theorem test_lsl : after 0xE1B00081 (sv [(1, 0x80000001)]) (rf 0) = some (0x00000002, 0b0010) := by decide
theorem test_lsr32 : after 0xE1B00021 (sv [(1, 0x80000001)]) (rf 0) = some (0, 0b0110) := by decide
theorem test_asr32 : after 0xE1B00041 (sv [(1, 0x80000001)]) (rf 0) = some (0xFFFFFFFF, 0b1010) := by decide
theorem test_rrx : after 0xE1B00061 (st 0x200001D3 [(1, 3)]) (rf 0) = some (0x80000001, 0b1010) := by decide
theorem test_ror_carry : after 0xE1B00261 (sv [(1, 0x00000018)]) (rf 0) = some (0x80000001, 0b1010) := by decide
theorem test_clz : after 0xE16F0F11 (sv [(1, 0x00010000)]) (rf 0) = some (15, 0) := by decide
theorem test_rev : after 0xE6BF0F31 (sv [(1, 0x12345678)]) (rf 0) = some (0x78563412, 0) := by decide
theorem test_ubfx : after 0xE7E70251 (sv [(1, 0x12345F78)]) (rf 0) = some (0xF7, 0) := by decide
theorem test_sdiv : after 0xE710F211 (sv [(1, 0xFFFFFFF9), (2, 2)]) (rf 0) = some (0xFFFFFFFD, 0) := by decide
theorem test_mla : after 0xE0203291 (sv [(1, 3), (2, 4), (3, 5)]) (rf 0) = some (17, 0) := by decide
theorem test_umull : after 0xE0810392 (sv [(2, 0xFFFFFFFF), (3, 0xFFFFFFFF)]) (fun t => (t.reg 1, t.reg 0)) =
    some (0xFFFFFFFE, 1) := by decide
theorem test_cpsid : after 0xF10C00C0 (st 0x113 []) State.cpsr = some 0x1D3 := by decide
theorem test_b : after 0xEA00003E (sv []) State.pc = some 0x1100 := by decide
theorem test_blx : after 0xE12FFF33 (sv [(3, 0x2000)]) (fun t => (t.pc, t.reg 14)) = some (0x2000, 0x1004) := by decide
theorem test_svc : after 0xEF000001 (st 0x10 []) (fun t => (t.pc, t.cpsr, t.reg 14, t.spsr[2])) =
    some (0x08, 0x93, 0x1004, 0x10) := by decide
theorem test_bkpt : after 0xE1200070 (st 0x10 []) (fun t => (t.pc, t.cpsr, t.reg 14, t.cp15.ifsr)) =
    some (0x0C, 0x197, 0x1004, 0x002) := by decide
theorem test_srs_rfe : after 0xF96D0513 ((st 0x1D3 [(13, 0x2010), (14, 0x3000)]).setCpsr 0x1D3)
    (fun t => (t.reg 13, t.memValue 0x2008 4)) = some (0x2008, 0x3000) := by decide
theorem test_rfe : after 0xF8BD0A00 ((sv [(13, 0x2000)]).bytes 0x2000 [0x00, 0x30, 0, 0, 0x10, 0, 0, 0xF0])
    (fun t => (t.pc, t.cpsr)) = some (0x3000, 0xF0000010) := by decide
theorem test_ldr : after 0xE5901000 ((sv [(0, 0x2000)]).bytes 0x2000 [0x11, 0x22, 0x33, 0x44]) (State.reg · 1) =
    some 0x44332211 := by decide
theorem test_ldr_be : after 0xE5901000 ((st 0x3D3 [(0, 0x2000)]).bytes 0x2000 [0x11, 0x22, 0x33, 0x44]) (State.reg · 1) =
    some 0x11223344 := by decide
theorem test_ldmia : after 0xE8B00006 ((sv [(0, 0x2000)]).bytes 0x2000 [1, 0, 0, 0, 2, 0, 0, 0])
    (fun t => (t.reg 0, t.reg 1, t.reg 2)) = some (0x2008, 1, 2) := by decide
theorem test_push : after 0xE92D4010 (sv [(13, 0x2010), (4, 0x11), (14, 0x22)])
    (fun t => (t.reg 13, t.memValue 0x2008 4, t.memValue 0x200C 4)) = some (0x2008, 0x11, 0x22) := by decide
theorem test_pop_pc : after 0xE8BD8010 ((sv [(13, 0x2000)]).bytes 0x2000 [5, 0, 0, 0, 0x00, 0x30, 0, 0])
    (fun t => (t.reg 4, t.pc, t.reg 13)) = some (5, 0x3000, 0x2008) := by decide
theorem test_ldrex : after 0xE1901F9F ((sv [(0, 0x2000)]).bytes 0x2000 [7]) (fun t => (t.reg 1, t.monitor)) =
    some (7, true) := by decide
theorem test_strex_open : after 0xE1802F91 (sv [(0, 0x2000), (1, 9)]) (fun t => (t.reg 2, t.memValue 0x2000 4)) =
    some (1, 0) := by decide
theorem test_swp : after 0xE1001092 (((sv [(0, 0x2000), (2, 9)]).sctlr 0x00C50478).bytes 0x2000 [7])
    (fun t => (t.reg 1, t.memValue 0x2000 4)) = some (7, 9) := by decide
theorem test_mrc_midr : after 0xEE100F10 (sv []) (State.reg · 0) = some 0x410FC171 := by decide
theorem test_mcr_sctlr : after 0xEE010F10 { (sv [(0, 0xFFFFFFFF)]) with
    upkeep := { CacheUpkeep.kept with dsb := true } } (fun t => t.cp15.sctlr) = some 0x42EF3C7F := by decide
/-- A load between the DSB and the change of C (70_reset_and_hazards.md R862). -/
theorem test_mcr_sctlr_load :
    let s := { (sv [(0, 0xFFFFFFFF), (1, 0x2000)]) with upkeep := { CacheUpkeep.kept with dsb := true } }
    refusal 0xEE010F10 s = none ∧ after 0xE5912000 s (fun t => t.upkeep.dsb) = some false ∧
    refusal 0xEE010F10 s.accessed = some .cacheSequence := by decide
theorem test_mcr_sctlr_sequence : refusal 0xEE010F10 (sv [(0, 0xFFFFFFFF)]) = some .cacheSequence := by decide
theorem test_mcr_user : after 0xEE010F10 (st 0x10 []) State.pc = some 0x04 := by decide
theorem test_blx_imm : refusal 0xFA000000 (sv []) = some .toThumb := by decide

/-- The example of 21_mpu_tcm.md R370: a later region of two takes the User write to the address away. -/
theorem test_mpu_two_regions :
    let s := { (st 0x10 [(0, 0x3010)]) with cp15 := { State.reset.cp15 with
      sctlr := 0x00C50079, drbar := (Vector.replicate 16 0).set 2 0x3000, drsr := ((Vector.replicate 16 0).set 1 0x3F).set 2 0x17,
      dracr := ((Vector.replicate 16 0).set 1 0x300).set 2 0x200 } }
    after 0xE5801000 s (fun t => (t.pc, t.cp15.dfsr, t.cp15.dfar)) = some (0x10, 0x80D, 0x3010) ∧
    after 0xE5901000 s State.pc = some 0x1004 := by decide

/-- A User store over the end of a region without User permission: no region hits the word's second half, or Device memory that
allows it (21_mpu_tcm.md R352: alignment, then background, then permission). -/
theorem test_mpu_fault_order :
    let s := { (st 0x10 [(0, 0x3FFE)]) with cp15 := { State.reset.cp15 with
      sctlr := 0x00C50079, drbar := (Vector.replicate 16 0).set 2 0x3000, drsr := (Vector.replicate 16 0).set 2 0x17,
      dracr := (Vector.replicate 16 0).set 2 0x108 } }
    let d := { s with cp15 := { s.cp15 with
      drbar := s.cp15.drbar.set 1 0x4000, drsr := s.cp15.drsr.set 1 0x17, dracr := s.cp15.dracr.set 1 0x301 } }
    after 0xE5801000 s (fun t => (t.cp15.dfsr, t.cp15.dfar)) = some (0x800, 0x3FFE) ∧
    after 0xE5801000 d (fun t => (t.cp15.dfsr, t.cp15.dfar)) = some (0x801, 0x3FFE) := by decide

/-! ### Vectors of 96_test_vectors_vfp.md -/

/-- A number without a register, with the FPU enabled and not (40_system_register_access.md R450). -/
theorem test_vmrs_reserved : refusal 0xEEF20A10 ((sv []).vfp 0 [] []) = some .vfpRegister ∧
    refusal 0xEEF20A10 { ((sv []).vfp 0 [] []) with fpu := State.reset.fpu } = some .vfpRegister := by decide
theorem test_vmsr : after 0xEEE10A10 ((sv [(0, 0xFFFFFFFF)]).vfp 0 [] []) (fun t => t.fpu.fpscr) = some 0xF7F7009F := by decide
theorem test_vadd : after 0xEE300A81 ((sv []).vfp 0 [(1, 0x3F800000), (2, 0x40000000)] []) (fun t => (t.single 0, t.fpu.fpscr)) =
    some (0x40400000, 0) := by decide
theorem test_vadd_tie : after 0xEE300A81 ((sv []).vfp 0 [(1, 0x3F800000), (2, 0x33800000)] [])
    (fun t => (t.single 0, t.fpu.fpscr)) = some (0x3F800000, 0x10) := by decide
theorem test_vdiv_zero : after 0xEE800A81 ((sv []).vfp 0 [(1, 0x3F800000), (2, 0)] []) (fun t => (t.single 0, t.fpu.fpscr)) =
    some (0x7F800000, 2) := by decide
theorem test_vsqrt : after 0xEEB10AE0 ((sv []).vfp 0 [(1, 0x40000000)] []) (fun t => (t.single 0, t.fpu.fpscr)) =
    some (0x3FB504F3, 0x10) := by decide
theorem test_vcmp : after 0xEEB40A60 ((sv []).vfp 0 [(0, 0x3F800000), (1, 0x40000000)] []) (fun t => t.fpu.fpscr) =
    some 0x80000000 := by decide
theorem test_vcvt : after 0xEEBD0AE0 ((sv []).vfp 0 [(1, 0xC02CCCCD)] []) (fun t => (t.single 0, t.fpu.fpscr)) =
    some (0xFFFFFFFE, 0x10) := by decide

/-! ### A step -/

/-- `mov r1, #5` as the first instruction after reset. -/
theorem test_first_step : (match step (State.reset.withFetchWord 32 0xE3A01005) with
    | .next t => decide (t.reg 1 = 5 ∧ t.pc = 4)
    | _ => false) = true := by decide

/-- `wfi` as the first instruction after reset. -/
theorem test_wfi_waits : (match step (State.reset.withFetchWord 32 0xE320F003) with
    | .next t => decide (t.standby = .wfi)
    | _ => false) = true := by decide

/-! ### Concrete values that meet the hypotheses of the statements -/

/-- An outcome is a next state. -/
def isNext (o : Host.Outcome State Fault Refusal) : Bool := match o with
  | .next _ => true
  | _ => false

theorem exists_next {o : Host.Outcome State Fault Refusal} (h : isNext o = true) : ∃ t, o = .next t := by
  cases o <;> simp_all [isNext]

/-- An operation that succeeds with this value. -/
def gives {α : Type} [DecidableEq α] (r : EStateM.Result Stop State α) (v : α) : Bool := match r with
  | .ok x _ => decide (x = v)
  | .error _ _ => false

theorem exists_ok {α : Type} [DecidableEq α] {r : EStateM.Result Stop State α} {v : α} (h : gives r v = true) :
    ∃ t, r = .ok v t := by
  cases r <;> simp_all [gives]

/-- An operation that ends in this way. -/
def stops {α : Type} (r : EStateM.Result Stop State α) (e : Stop) : Bool := match r with
  | .ok _ _ => false
  | .error x _ => decide (x = e)

theorem exists_error {α : Type} {r : EStateM.Result Stop State α} {e : Stop} (h : stops r e = true) :
    ∃ t, r = .error e t := by
  cases r <;> simp_all [stops]

/-- Main memory serves the access. -/
def served (s : State) (k : AccessKind) (acc : Access) (a : Word) : Bool :=
  decide (a.toNat % acc.size = 0) && !tcmClash s && !inWindow s.cfg a && !inItcm s a && !inDtcm s a && !inPeripheral s.cfg a &&
    (busError s acc.form a acc.size).isNone && !scuFinds s a && match admission k acc a s with
    | .ok attr => !(dcacheOn s && cacheable s attr)
    | .error _ => false

theorem plain_of {s : State} {k : AccessKind} {acc : Access} {a : Word} (h : served s k acc a = true) : Plain s k acc a := by
  unfold served at h
  unfold Plain
  cases hadmit : admission k acc a s <;> cases hd : dcacheOn s <;> simp_all

theorem plainWords_of {s : State} {k : AccessKind} {a : Word} {n : Nat}
    (h : (wordAddresses a n).all (served s k (multiple s.privileged)) = true) : PlainWords s k a n :=
  fun _ hx => plain_of (List.all_eq_true.mp h _ hx)

/-- A state with saved status registers all equal to one word. -/
def saved (s : State) (w : Word) : State := { s with spsr := Vector.replicate 5 w }

theorem witness_DecodeOfEncode : WellFormed (.ldm .al true true true true 13 0xFFFF) ∧ WellFormed (.hintUnallocated .le 5) ∧
    WellFormed (.bfi .eq 31 14 31 14) := by unfold WellFormed; decide

/-- A first instruction; the same word stored over another and not synchronised; a word of no row. -/
theorem witness_StepRunsDecoded :
    let s := State.reset.withFetchWord 32 0xE3A01005
    let t := hardwareStage s
    let n := { s with unsynced := [⟨0, .uncached, [0xE1A00000], false, false, false, false, false⟩] }
    let z := State.reset.withFetchWord 32 0xE1000010
    (resetsOf s = .none ∧ GoesOn s t ∧ takeAbort t = none ∧ notArm t.cpsr = false ∧ t.pc &&& 3 = 0) ∧
    (∃ w u, fetchWord t.pc t = .ok (.ok w) u ∧ decode w = .ok (.movImm .al false 0 1 0 5)) ∧
    (∃ w u e, fetchWord (hardwareStage z).pc (hardwareStage z) = .ok (.ok w) u ∧ decode w = .error e ∧
      condPassed (condOf w) u.cpsr = true) ∧
    (∃ attr, checkAccess t .fetch t.privileged t.pc 4 = .ok attr ∧ (tcmClash t = false ∧
      t.unsynced = [] ∧ inItcm t t.pc = false ∧
      (icacheOn t && cacheable t attr && !inDtcm t t.pc) = false ∧ inPeripheral t.cfg t.pc = false ∧
      inWindow t.cfg t.pc = false ∧ busError t .single t.pc 4 = none ∧ scuFinds t t.pc = false) ∧
      ((hardwareStage n).unsynced.find? (fun x => x.memory != .itcm && x.word == t.pc.toNat / 4)).isSome = true) ∧
    memBytes t.mem t.pc.toNat 4 = bytesOfWord (encode (.movImm .al false 0 1 0 5)) :=
  ⟨⟨by decide, ⟨by decide, .inl ⟨by decide, rfl⟩⟩, by decide⟩, ⟨0xE3A01005, _, rfl, rfl⟩, ⟨0xE1000010, _, _, rfl, rfl, rfl⟩, ⟨_, rfl, by decide, by decide⟩, by decide⟩

theorem witness_StepRunsDecoded_abort :
    let s := (State.reset.sctlr 0x00C50079)
    let t := hardwareStage s
    (resetsOf s = .none ∧ GoesOn s t ∧ takeAbort t = none ∧ notArm t.cpsr = false ∧ t.pc &&& 3 = 0) ∧
    ∃ f u, fetchWord t.pc t = .ok (.error f) u ∧ ArmEntry u :=
  ⟨⟨by decide, ⟨by decide, .inl ⟨by decide, rfl⟩⟩, by decide⟩, _, _, rfl, by unfold ArmEntry; decide⟩

theorem witness_FailedConditionOnlyAdvances :
    WellFormed (.nop .eq) ∧ encode (.nop .eq) &&& 0xF0000000 ≠ 0xF0000000 ∧
      condPassed (condOf (encode (.nop .eq))) (sv []).cpsr = false ∧ (sv []).pc ≠ 0xFFFFFFFC := by
  unfold WellFormed; decide

theorem witness_StepKeepsInvariant :
    let s := State.reset.withFetchWord 32 0xE3A01005
    Inv s ∧ ∃ t, step s = .next t :=
  ⟨by constructor; (constructor <;> decide); all_goals decide, exists_next (by decide)⟩

/-- A User-mode step that takes an exception, and one that does not. -/
theorem witness_UserModeChangesNoControl :
    let s := (st 0x10 []).withFetchWord 32 0xE3A01005
    let u := (st 0x10 []).withFetchWord 32 0xEF000000
    (s.privileged = false ∧ resetsOf s = .none ∧ ∃ t, step s = .next t) ∧
    (u.privileged = false ∧ resetsOf u = .none ∧ ∃ t, step u = .next t) :=
  ⟨⟨by decide, by decide, exists_next (by decide)⟩, by decide, by decide, exists_next (by decide)⟩

/-- A processor reset, ones that would leave the coherency domain (an MPCore reset with ACTLR.SMP 1, the other processor's), a debug
reset, the other processor's, and the interrupt controller's alone, which no column of Table 2-1 has. -/
theorem witness_ResetSignals :
    let s := { (sv []) with pins := { Pins.idle with resets := (ResetCombo.individualSoftware false).signals } }
    let d := { (sv []) with pins := { Pins.idle with resets := ResetCombo.mpcoreDebug.signals } }
    let c := { s with cp15 := { s.cp15 with actlr := 0x40 } }
    let o := { (sv []) with pins := { Pins.idle with resets := { Resets.none with otherCpu := true } } }
    let p := { (sv []) with pins := { Pins.idle with resets := { Resets.none with periph := true } } }
    let m := { c with pins := { Pins.idle with resets := ResetCombo.mpcoreSoftware.signals } }
    let n := { o with otherSmp := true }
    (s.pins.resets = (ResetCombo.individualSoftware false).signals ∧ watchdogAnswer s = .none ∧ unsupportedReset s = false ∧
      unsupportedReset c = false ∧ unsupportedReset d = false ∧ unsupportedReset o = false) ∧
    (resetsOf p ≠ .none ∧ watchdogAnswer p = .none ∧ p.pins.resets.periph ≠ p.pins.resets.scu ∧ unsupportedReset p = true) ∧
    (resetsOf s ≠ .none ∧ leavesCoherency (resetsOf s) (hardwareStage s) = false ∧ (resetsOf s).cpu = true) ∧
    (resetsOf c ≠ .none ∧ leavesCoherency (resetsOf c) (hardwareStage c) = true) ∧
    (unsupportedReset m = false ∧ resetsOf m ≠ .none ∧ leavesCoherency (resetsOf m) (hardwareStage m) = true) ∧
    (unsupportedReset n = false ∧ resetsOf n ≠ .none ∧ leavesCoherency (resetsOf n) (hardwareStage n) = true) ∧
    (resetsOf d ≠ .none ∧ leavesCoherency (resetsOf d) (hardwareStage d) = false ∧ (resetsOf d).cpu = false) ∧
    (resetsOf o ≠ .none ∧ leavesCoherency (resetsOf o) (hardwareStage o) = false ∧ (resetsOf o).otherCpu = true) := by decide

/-- R7 and R12 are shared by FIQ and User or Supervisor and IRQ mode; R8 and R14 are not. -/
theorem witness_BankedRegisters : (7 : Reg) ≠ 15 ∧ (7 : Reg).toNat < 8 ∧
    ((12 : Reg).toNat < 13 ∧ ((Mode.svc = .fiq) ↔ (Mode.irq = .fiq))) ∧
    ¬ ((8 : Reg).toNat < 8 ∨ (8 : Reg).toNat < 13 ∧ (Mode.fiq = .fiq ↔ Mode.usr = .fiq) ∨
      Mode.fiq = .usr ∨ (Mode.fiq = .usr ∨ Mode.fiq = .sys) ∧ (Mode.usr = .usr ∨ Mode.usr = .sys)) := by decide

/-- For ComputationResults, ComparisonsSetFlags and MovesAndShifts: R14 everywhere, in a register-shifted form. -/
theorem witness_ComputationResults : Runs .al (sv []) ∧ (14 : Reg) ≠ 15 ∧ (Operand2.rsr 14 .ror 14).allowed 14 14 ∧
    (Operand2.rsr 14 .ror 14).allowed 0 14 ∧ (Operand2.rsr 14 .ror 14).allowed 14 0 ∧ (Operand2.imm 15 255).allowed 14 15 := by
  unfold Runs Operand2.allowed; decide

/-- CMP with a register shift and R15 as Rn, and ADD with R15 as Rn (42_a32_core_subset.md R953). -/
theorem test_register_shift_pc : refusal 0xE15F0112 (sv []) = some .unpredictable ∧
    refusal 0xE08F0112 (sv []) = some .unpredictable := by decide

theorem witness_ResultInPc :
    let x := Operand2.reg 0 .lsl 1
    condPassed .al (sv []).cpsr = true ∧ x.notShiftedByRegister ∧ Compute.mov.value (sv [(1, 0xFFFFFFFC)]) x &&& 3 = 0 ∧
    (Compute.mov.value (sv [(1, 0xFFFFFFFF)]) x).getLsbD 0 = true ∧
    ((Compute.mov.value (sv [(1, 0xFFFFFFFE)]) x).getLsbD 0 = false ∧
      (Compute.mov.value (sv [(1, 0xFFFFFFFE)]) x).getLsbD 1 = true) ∧
    (spsrIndex (saved (sv []) 0x10).mode = some 2 ∧ Returnable (saved (sv []) 0x10).spsr[(2 : Fin 5)]) ∧
    spsrIndex (st 0x1DF []).mode = none := by
  unfold Operand2.notShiftedByRegister Returnable; decide

theorem witness_ShiftsPlaceByPlace : (1 : BitVec 5) ≠ 0 ∧ (31 : BitVec 5) ≠ 0 := by decide

/-- For WideMovesAndExtensions, BitFields, ReversalsAndLeadingZeros, Multiplies, Divisions, StatusReadsAndWrites,
HintsAndBarriers, SupervisorCallAndBreakpoint: R14 as destination and source, just below the last address. -/
theorem witness_Runs : Runs .al { (sv []) with pc := 0xFFFFFFF8 } ∧ (14 : Reg) ≠ 15 ∧ (13 : Reg) ≠ 14 := by
  unfold Runs; decide

theorem witness_BitFields : (31 : BitVec 5).toNat + (0 : BitVec 5).toNat ≤ 31 ∧ 31 < (1 : BitVec 5).toNat + (31 : BitVec 5).toNat ∧
    (31 : BitVec 5).toNat ≤ (31 : BitVec 5).toNat ∧ (30 : BitVec 5).toNat < (31 : BitVec 5).toNat := by decide

theorem witness_Divisions : (sv [(2, 0xFFFFFFFF)]).reg 2 ≠ 0 ∧
    ((sv []).reg 2 = 0 ∧ (sv []).cp15.sctlr.getLsbD 19 = false) ∧
    (((sv []).sctlr 0x00CD0078).reg 2 = 0 ∧ ((sv []).sctlr 0x00CD0078).cp15.sctlr.getLsbD 19 = true ∧
      ArmEntry ((sv []).sctlr 0x00CD0078)) := by unfold ArmEntry; decide

theorem witness_UnpredictableRegisters : condPassed .al (sv []).cpsr = true ∧ ¬ (SingleLoad.ldrReg 0 .lsl 15).allowed ∧
    (SingleLoad.ldrReg 0 .lsl 14).allowed ∧ (SingleStore.strbImm 0).allowed 14 ∧ ordinary true true ∧ ordinary false false ∧
    ¬ baseAllowed false false 15 0 ∧ ¬ baseAllowed true true 3 3 ∧ (SingleLoad.ldrbImm 0).size ≠ 4 ∧
    ¬ (SingleStore.strbImm 0).allowed 15 := by
  unfold SingleLoad.allowed baseAllowed SingleStore.allowed ordinary; decide

theorem witness_StatusReadsAndWrites :
    Runs .al (sv []) ∧ spsrIndex (sv []).mode = some 2 ∧ spsrIndex (st 0x10 []).mode = none ∧
    (sv [(1, 0x000001F3)]).privileged = true ∧ (Mode.ofBits (BitVec.extractLsb' 0 5 (0x000001F4#32))).isNone = true ∧
    (Mode.ofBits (BitVec.extractLsb' 0 5 (0x000001F3#32))).isNone = false ∧ (1 : BitVec 4).getLsbD 0 = true := by
  unfold Runs; decide

theorem witness_StateChanges : (sv []).pc ≠ 0xFFFFFFFC ∧ (st 0x10 []).privileged = false ∧ (sv []).privileged = true ∧
    ¬ ((2 : BitVec 2) = 1 ∨ (2 : BitVec 2) = 0 ∧ true = false) ∧ (Mode.ofBits 0x1F).isSome = true ∧
    (Mode.ofBits 0x1E).isNone = true := by decide

theorem witness_Branches : condPassed .al (sv []).cpsr = true ∧ (sv [(14, 0xFFFFFFFC)]).reg 14 &&& 3 = 0 ∧
    ((sv [(14, 0xFFFFFFFF)]).reg 14).getLsbD 0 = true ∧
    (((sv [(14, 0xFFFFFFFE)]).reg 14).getLsbD 0 = false ∧ ((sv [(14, 0xFFFFFFFE)]).reg 14).getLsbD 1 = true) := by decide

/-- For HintsAndBarriers: the first word before its DSB, the last one before its ISB. -/
theorem witness_HintsAndBarriers :
    let x : Unsynced := ⟨0, .cached, [], true, false, true, true, false⟩
    let y : Unsynced := ⟨0x3FFFFFFF, .uncached, [], false, false, false, true, true⟩
    Runs .al { (sv []) with unsynced := [x, y] } ∧ ([x, y] : List Unsynced)[1]? = some y ∧ y.finished = true ∧
    y.forgotten = true := by unfold Runs; decide

/-- A word stored to Cacheable memory, after each operation of a list. -/
def unsyncedAfter (l : List (M Unit)) : List Unsynced :=
  (l.foldl (fun (s : State) (m : M Unit) => match m s with | .ok _ t => t | .error _ t => t)
    { State.reset with unsynced := [⟨0x800, .cached, [], false, false, false, false, false⟩] }).unsynced

/-- The sequence of 20_memory.md R281 synchronises code stored to Cacheable memory; without its first DSB, for another line, or
with the branch predictor invalidated first, it does not. -/
theorem test_code_synchronised :
    unsyncedAfter [noteCleanedAt 0x201C, modify completeAccesses, noteDroppedAt 0x2000, noteForgottenAt 0x2000, modify completeAccesses,
      modify synchronise] = [] ∧
    unsyncedAfter [noteCleanedAt 0x201C, noteDroppedAt 0x2000, noteForgottenAt 0x2000, modify completeAccesses,
      modify synchronise] ≠ [] ∧
    unsyncedAfter [noteForgotten, noteCleanedAt 0x201C, modify completeAccesses, noteDroppedAt 0x2000, modify completeAccesses,
      modify synchronise] ≠ [] ∧
    unsyncedAfter [noteCleanedAt 0x2020, modify completeAccesses, noteDroppedAt 0x2000, noteForgotten, modify completeAccesses,
      modify synchronise] ≠ [] := by decide

theorem witness_SpacesWithoutMeaning : condPassed .al (sv []).cpsr = true ∧ ArmEntry (sv []) ∧
    VfpReady ((sv []).vfp 0 [] []) ∧ ArmEntry ((sv []).vfp 0 [] []) := by
  unfold VfpReady VfpAdmitted ArmEntry; decide

theorem witness_ReturnStateLoadsAndStores :
    let s := (sv [(1, 0x2000)]).bytes 0x2000 [0x00, 0x30, 0, 0, 0x10, 0, 0, 0xF0]
    (s.privileged = true ∧ PlainWords s .read (pairAddress (s.reg 1) false true) 2 ∧
      Returnable (s.memValue (pairAddress (s.reg 1) false true + 4) 4)) ∧
    (st 0x10 []).privileged = false ∧
    (Mode.ofBits 0x11 = some .fiq ∧ spsrIndex s.mode = some 2 ∧ s.pc ≠ 0xFFFFFFFC ∧
      PlainWords s .write (pairAddress (s.regIn .fiq 13) false true) 2) ∧ spsrIndex (st 0x1DF []).mode = none :=
  ⟨⟨by decide, plainWords_of (by decide), by unfold Returnable; decide⟩, by decide,
    ⟨by decide, by decide, by decide, plainWords_of (by decide)⟩, by decide⟩

/-- A request of each kind with nothing masked. -/
theorem witness_PendingExceptionsTaken :
    let fiq := hardwareStage { (st 0x10 []) with pins := { Pins.idle with nFiq := false } }
    let irq := hardwareStage { (st 0x10 []) with pins := { Pins.idle with nIrq := false } }
    let gic := hardwareStage { (st 0x10 []) with gic := { State.reset.gic with
      ifEnable := true, distEnable := true, pmr := 0xF0, pending := (Vector.replicate 16 0).set 0 1,
      enabled := (Vector.replicate 16 0).set 0 1 } }
    let abt := hardwareStage { (st 0x10 []) with pendingAbort := some true }
    let dis := hardwareStage { (st 0x10 []) with pendingAbort := some true, pins := { Pins.idle with nFiq := false },
                                                 dbg := { Debug.reset with dscr := 0x800 } }
    (fiq.standby = .running ∧ ArmEntry fiq ∧ fiq.dbg.dscr.getLsbD 11 = false ∧ fiq.pins.nFiq = false ∧ fiq.maskF = false) ∧
    (irq.standby = .running ∧ irq.pins.nFiq = true ∧ irq.maskI = false ∧ irq.gic.ifEnable = false ∧ irq.pins.nIrq = false) ∧
    (gic.standby = .running ∧ gic.pins.nFiq = true ∧ gic.maskI = false ∧ gic.gic.ifEnable = true ∧
      (signalled gic).isSome = true) ∧
    (abt.standby = .running ∧ abt.pins.nFiq = true ∧ irqRequest abt = false ∧ abt.maskA = false ∧
      abt.pendingAbort = some true) ∧
    (dis.standby = .running ∧ ArmEntry dis ∧ dis.dbg.dscr.getLsbD 11 = true ∧ dis.pendingAbort = some true) ∧
    resetsOf (st 0x10 []) = .none := by
  unfold ArmEntry; decide

theorem witness_WaitsAndEvents :
    Runs .al (sv []) ∧ wfiWakeup { (sv []) with pins := { Pins.idle with nIrq := false } } = true ∧ wfiWakeup (sv []) = false ∧
    (sv []).eventReg = false ∧ wfeWakeup { (st 0x10 []) with pins := { Pins.idle with nIrq := false } } = true ∧
    wfeWakeup (sv []) = false ∧ resetsOf { (sv []) with standby := .wfi } = .none ∧ (hardwareStage { (sv []) with standby := .wfi }).standby = .wfi ∧
    (hardwareStage { (sv []) with standby := .wfe }).standby = .wfe ∧
    (hardwareStage { (sv []) with standby := .halted }).standby = .halted := by
  unfold Runs; decide

theorem witness_MainMemory :
    Plain (sv []) .read (single (sv []) 4 true) 0x7FFFFFFC ∧ Plain (sv []) .write (single (sv []) 1 true) 0 ∧
    Memory.wf ((sv []).bytes 0x2000 [1, 2]).mem = true ∧ (sv []).bigEndian = false ∧ (st 0x3D3 []).bigEndian = true :=
  ⟨plain_of (by decide), plain_of (by decide), by decide, by decide, by decide⟩

/-- The last word of each TCM's region, and with the data cache on a line that an address hits and its last halfword. -/
theorem witness_MainMemory_closer :
    let s := { (sv []) with cp15 := { State.reset.cp15 with itcmrr := 0x00100001, dtcmrr := 0x00200001 } }
    let l := { (sv []).sctlr 0x00C5007C with dcache := { CacheRam.reset with tag := [(1536, 0x00400001)] } }
    let acc := single s 4 true
    (tcmClash s = false ∧ inItcm s 0x0010FFFC = true ∧ eccItcmOn s = false ∧
      tcmOffset s.cfg.itcmBuild 0x0010FFFC = some 0xFFFC ∧ admission .read acc 0x0010FFFC s = .ok (normalNc false) ∧
      admission .write acc 0x0010FFFC s = .ok (normalNc false)) ∧
    (inItcm s 0x0020FFFC = false ∧ inDtcm s 0x0020FFFC = true ∧ eccOn s = false ∧
      tcmOffset s.cfg.dtcmBuild 0x0020FFFC = some 0xFFFC ∧ admission .write acc 0x0020FFFC s = .ok (normalNc false)) ∧
    (tcmClash l = false ∧ inItcm l 0x201E = false ∧ inDtcm l 0x201E = false ∧ inPeripheral l.cfg 0x201E = false ∧
      dcacheOn l = true ∧ cacheable l (normalWb false true 1) = true ∧ eccOn l = false ∧
      hitWay l.dcache l.cp15.deer (setBits l.cfg.dcache) 0x201E = some 3 ∧
      admission .read (single l 2 true) 0x201E l = .ok (normalWb false true 1) ∧
      admission .write (single l 2 true) 0x201E l = .ok (normalWb false true 1)) ∧ Canonical l :=
  ⟨by decide, by decide, by decide, by constructor <;> decide⟩

/-- STR to the DTCM region, and to a line of the data cache: its own byte of the RAM, none of main memory (20_memory.md R289). -/
theorem test_str_closer :
    let s := { (sv [(0, 0x0020FFFC), (1, 0x11223344)]) with cp15 := { State.reset.cp15 with dtcmrr := 0x00200001 } }
    let l := { (sv [(0, 0x201C), (1, 0x11223344)]).sctlr 0x00C5007C with
      dcache := { CacheRam.reset with tag := [(1536, 0x00400001)] } }
    after 0xE5801000 s (fun t => (memBytes t.dtcm.bytes 0xFFFC 4, t.mem)) = some ([0x44, 0x33, 0x22, 0x11], []) ∧
    after 0xE5801000 l (fun t => (lineBytes t.dcache 1536 28 4, sparseRead t.dcache.tag 1536, t.mem)) =
      some ([0x44, 0x33, 0x22, 0x11], 0x02400001, []) := by decide

/-- MOV, LDR and POP of the pc set DBGDSCR.PipeAdv, an exception entry does not (64_debug_pmu.md R747; log entry 87). -/
theorem test_pipe_adv :
    after 0xE1A0F000 (sv [(0, 0x2000)]) (fun t => (t.pc, t.dbg.dscr.getLsbD 25)) = some (0x2000, true) ∧
    after 0xE590F000 (sv [(0, 0x2000)]) (fun t => (t.pc, t.dbg.dscr.getLsbD 25)) = some (0, true) ∧
    after 0xE8BD8000 (sv [(13, 0x2000)]) (fun t => (t.pc, t.dbg.dscr.getLsbD 25)) = some (0, true) ∧
    after 0xEF000000 (sv []) (fun t => (t.pc, t.dbg.dscr.getLsbD 25)) = some (8, false) := by decide

/-- A post-indexed load and store of main memory, and one that aborts, with no permission anywhere. -/
theorem witness_SingleLoads :
    let s := (sv [(1, 0x2000)]).bytes 0x2000 [1, 2, 3, 4]
    let u := (st 0x10 [(1, 0x2000)]).sctlr 0x00C50079
    let ad := indexed (baseValue s 1) (SingleLoad.offset s (.ldrImm 4095)) false true false
    Runs .al s ∧ (0 : Reg) ≠ 15 ∧ (SingleLoad.ldrImm 4095).allowed ∧ ordinary false false ∧ baseAllowed false false 1 0 ∧
    (∃ v m, loadValue (single s 4 s.privileged) ad.address s = .ok v m) ∧
    (∃ f a m, loadValue (single u 4 u.privileged) ad.address u = .error (.dataAbort f false a) m ∧ ArmEntry m) ∧
    Plain s .read (single s 4 s.privileged) ad.address :=
  ⟨by unfold Runs; decide, by decide, by unfold SingleLoad.allowed; decide, .inr rfl, by unfold baseAllowed; decide,
    ⟨0x04030201, exists_ok (by decide)⟩, ⟨.background, 0x2000, _, rfl, by unfold ArmEntry; decide⟩, plain_of (by decide)⟩

/-- For the branch clauses of SingleLoads: an aligned value, one for Thumb, one of a halfword, and an unaligned address. -/
theorem witness_SingleLoads_pc :
    let s := (sv [(1, 0x2000)]).bytes 0x2000 [0, 0x30, 0, 0, 1, 0, 0, 0, 2]
    baseAllowed true false 1 15 ∧ Plain s .read (single s 4 s.privileged) (indexed (baseValue s 1) 0 true true false).address ∧
    s.memValue 0x2000 4 &&& 3 = 0 ∧ Plain s .read (single s 4 s.privileged) (indexed (baseValue s 1) 4 true true false).address ∧
    (s.memValue 0x2004 4).getLsbD 0 = true ∧
    Plain s .read (single s 4 s.privileged) (indexed (baseValue s 1) 8 true true false).address ∧
    ((s.memValue 0x2008 4).getLsbD 0 = false ∧ (s.memValue 0x2008 4).getLsbD 1 = true) ∧
    (∃ v m, loadValue (single s 4 s.privileged) (indexed (baseValue s 1) 3 true true false).address s = .ok v m) ∧
    (indexed (baseValue s 1) 3 true true false).address &&& 3 ≠ 0 :=
  ⟨by unfold baseAllowed; decide, plain_of (by decide), by decide, plain_of (by decide), by decide, plain_of (by decide),
    by decide, ⟨0x00000100, exists_ok (by decide)⟩, by decide⟩

theorem witness_SingleStores :
    let s := sv [(1, 0x2000)]
    let u := (st 0x10 [(1, 0x2000)]).sctlr 0x00C50079
    let ad := indexed (baseValue s 1) (SingleStore.offset s (.strImm 4095)) false true false
    Runs .al s ∧ (SingleStore.strImm 4095).allowed 15 ∧ ordinary false false ∧ baseAllowed false false 1 15 ∧
    (∃ m, storeValue (single s 4 s.privileged) ad.address (s.reg 15) s = .ok () m) ∧
    (∃ f a m, storeValue (single u 4 u.privileged) ad.address (u.reg 15) u =
      .error (.dataAbort f true a) m ∧ ArmEntry m) ∧
    Plain s .write (single s 4 s.privileged) ad.address :=
  ⟨by unfold Runs; decide, by unfold SingleStore.allowed; decide, .inr rfl, by unfold baseAllowed; decide,
    exists_ok (by decide), ⟨.background, 0x2000, _, rfl, by unfold ArmEntry; decide⟩, plain_of (by decide)⟩

/-- R12 and R13 from a doubleword, with write-back. -/
theorem witness_Doublewords :
    let s := sv [(1, 0x2000)]
    let ad := indexed (baseValue s 1) 255 false true false
    Runs .al s ∧ (13 : Reg).getLsbD 0 = true ∧ (12 : Reg).getLsbD 0 = false ∧ (12 : Reg) ≠ 14 ∧ ordinary false false ∧ baseAllowed false false 1 12 ∧
    baseAllowed false false 1 (12 + 1) ∧ PlainWords s .read ad.address 2 ∧ PlainWords s .write ad.address 2 :=
  ⟨by unfold Runs; decide, by decide, by decide, by decide, .inr rfl, by unfold baseAllowed; decide,
    by unfold baseAllowed; decide, plainWords_of (by decide), plainWords_of (by decide)⟩

/-- One register, all but the base, the user bank, and R15 as a branch, to Thumb, to a halfword and as a return. -/
theorem witness_LoadMultiples :
    let s := (saved (sv [(1, 0x2000), (2, 0x2004)]) 0x10).bytes 0x2000 [1, 0, 0, 0, 0, 0x30, 0, 0, 2]
    condPassed .al s.cpsr = true ∧ (0x7FFD : BitVec 16).getLsbD (1 : Reg).toNat = false ∧ spsrIndex s.mode = some 2 ∧
    PlainWords s .read (multipleStart (s.reg 1) false true (listCount 0x7FFD)) (listCount 0x7FFD) ∧
    (0x7FFD : BitVec 16).getLsbD 15 = false ∧ s.pc ≠ 0xFFFFFFFC ∧
    (listCount 0x8001 = 2 ∧ (0x8001 : BitVec 16).getLsbD 15 = true ∧
      PlainWords s .read (multipleStart (s.reg 1) false true 2) 2 ∧
      s.memValue (multipleStart (s.reg 1) false true 2 + BitVec.ofNat 32 (4 * (2 - 1))) 4 &&& 3 = 0) ∧
    (listCount 0x8000 = 1 ∧ PlainWords s .read (multipleStart (s.reg 1) false true 1) 1 ∧
      (s.memValue (multipleStart (s.reg 1) false true 1 + BitVec.ofNat 32 (4 * (1 - 1))) 4).getLsbD 0 = true) ∧
    (∀ v, v = s.memValue (multipleStart (s.reg 2) false true 2 + BitVec.ofNat 32 (4 * (2 - 1))) 4 →
      PlainWords s .read (multipleStart (s.reg 2) false true 2) 2 ∧ v.getLsbD 0 = false ∧ v.getLsbD 1 = true) ∧
    Returnable s.spsr[(2 : Fin 5)] :=
  ⟨by decide, by decide, by decide, plainWords_of (by decide), by decide, by decide,
    ⟨by decide, by decide, plainWords_of (by decide), by decide⟩, ⟨by decide, plainWords_of (by decide), by decide⟩,
    fun v h => ⟨plainWords_of (by decide), by rw [h]; decide⟩, by unfold Returnable; decide⟩

/-- All registers, the base the lowest or not. -/
theorem witness_StoreMultiples :
    let s := sv [(0, 0x2000), (1, 0x2000)]
    Runs .al s ∧ PlainWords s .write (multipleStart (s.reg 0) false true (listCount 0xFFFF)) (listCount 0xFFFF) ∧
    PlainWords (s.drew 1) .write (multipleStart (s.reg 0) false true (listCount 0xFFFF)) (listCount 0xFFFF) ∧
    (listRegs 0xFFFF).head? = some 0 ∧ (0xFFFF : BitVec 16).getLsbD (1 : Reg).toNat = true ∧ (listRegs 0xFFFF).head? ≠ some 1 :=
  ⟨by unfold Runs; decide, plainWords_of (by decide), plainWords_of (by decide), by decide, by decide, by decide⟩

/-- The loads and the stores of ExclusivesAndSwaps: the monitor open, exclusive, and no global monitor in Device memory. -/
theorem witness_ExclusivesAndSwaps :
    let s := sv [(1, 0x2000)]
    let e := { s.setMonitor true with cfg := { s.cfg with globalMonitor := true } }
    let n := { (sv [(1, 0x80000000)]) with cfg := { s.cfg with globalMonitor := false } }
    Runs .al s ∧ Plain s .read (exclusive 4 s .read (s.reg 1)) (s.reg 1) ∧ Plain s .read (exclusive 8 s .read (s.reg 1)) (s.reg 1) ∧
    (∃ attr, admission .write (exclusive 8 s .write (s.reg 1)) (s.reg 1) s = .ok attr ∧ s.monitor = false) ∧
    (∃ attr, admission .write (exclusive 8 e .write (e.reg 1)) (e.reg 1) e = .ok attr ∧ e.monitor = true ∧
      (cacheable e attr = true ∨ e.cfg.globalMonitor = true)) ∧ Plain e .write (exclusive 8 e .write (e.reg 1)) (e.reg 1) ∧
    (∃ attr, admission .write (exclusive 1 n .write (n.reg 1)) (n.reg 1) n = .ok attr ∧ cacheable n attr = false ∧
      n.cfg.globalMonitor = false) ∧ Plain n .write (exclusive 1 n .write (n.reg 1)) (n.reg 1) ∧
    (12 : Reg).getLsbD 0 = false ∧ (2 : Reg) ≠ 12 + 1 :=
  ⟨by unfold Runs; decide, plain_of (by decide), plain_of (by decide), ⟨_, rfl, by decide⟩, ⟨_, rfl, by decide, by decide⟩,
    plain_of (by decide), ⟨_, rfl, by decide, by decide⟩, plain_of (by decide), by decide, by decide⟩

/-- For the error clause of ExclusivesAndSwaps: an exclusive store to Device memory that the platform answers with SLVERR, which is
lost, and the same without the error, which is not. -/
theorem witness_ExclusivesAndSwaps_error :
    let s := (sv [(1, 0x80000000)]).setMonitor true
    let e := { s with cfg := { s.cfg with globalMonitor := true, errRanges := [⟨0x80000000, 0x800000FF, none, true⟩] } }
    let acc := exclusive 4 e .write (e.reg 1)
    (∃ attr, admission .write acc (e.reg 1) e = .ok attr ∧ cacheable e attr = false ∧
      storeLost acc (e.reg 1) attr [1, 2, 3, 4] e = true ∧ storeLost acc (e.reg 1) attr [1, 2, 3, 4] s = false) ∧
    e.monitor = true ∧ acc.form = .locked ∧ busError e .locked (e.reg 1) 4 = some true ∧ tcmClash e = false ∧
    inItcm e (e.reg 1) = false ∧ inDtcm e (e.reg 1) = false ∧ inPeripheral e.cfg (e.reg 1) = false ∧
    inWindow e.cfg (e.reg 1) = false ∧ scuFinds e (e.reg 1) = false :=
  ⟨⟨_, rfl, by decide, by decide, by decide⟩, by decide, by decide, by decide, by decide, by decide, by decide, by decide,
    by decide, by decide⟩

/-- The swaps of ExclusivesAndSwaps, off and on. -/
theorem witness_ExclusivesAndSwaps_swaps :
    let s := (sv [(1, 0x2000)]).sctlr 0x00C50478
    Runs .al s ∧ ((sv []).cp15.sctlr.getLsbD 10 = false ∧ ArmEntry (sv [])) ∧ s.cp15.sctlr.getLsbD 10 = true ∧
    Plain s .read (swapRead 4 s (s.reg 1)) (s.reg 1) ∧ Plain s .write (swapWrite 4 s) (s.reg 1) ∧
    Plain s .read (swapRead 1 s (s.reg 1)) (s.reg 1) ∧ Plain s .write (swapWrite 1 s) (s.reg 1) :=
  ⟨by unfold Runs; decide, by unfold ArmEntry; decide, by decide, plain_of (by decide), plain_of (by decide),
    plain_of (by decide), plain_of (by decide)⟩

theorem witness_MisalignedAccesses :
    let s := (sv [(1, 0x2003)]).sctlr 0x00C5007A
    (condPassed .al s.cpsr = true ∧ ArmEntry s ∧ s.cp15.sctlr.getLsbD 1 = true ∧ baseAllowed true false 1 0 ∧ ordinary true true) ∧
    (indexed (baseValue s 1) (SingleLoad.offset s (.ldrhImm 0 0)) true true false).address.toNat %
      (SingleLoad.ldrhImm 0 0).size ≠ 0 ∧
    (indexed (baseValue s 1) (SingleStore.offset s (.strImm 0)) true true false).address.toNat % (SingleStore.strImm 0).size ≠ 0 ∧
    (indexed (baseValue s 1) ((0#4 ++ 1#4).setWidth 32) true false false).address.toNat % 4 ≠ 0 ∧
    (s.reg 1).toNat % 4 ≠ 0 ∧ (s.reg 1).toNat % 2 ≠ 0 ∧ (multipleStart (s.reg 1) false true (listCount 1)).toNat % 4 ≠ 0 := by
  unfold baseAllowed ordinary ArmEntry; decide

/-- Word-aligned LDREXD, a swap, RFE and SRS, POP, and VFP accesses of MisalignedAccesses. -/
theorem witness_MisalignedAccesses_always :
    let s := ((sv [(1, 0x2004), (2, 0x2002), (13, 0x2002)]).sctlr 0x00C50478).vfp 0 [] []
    ((s.reg 1).toNat % 8 ≠ 0 ∧ (12 : Reg).getLsbD 0 = false) ∧ ((s.reg 2).toNat % 4 ≠ 0 ∧ s.cp15.sctlr.getLsbD 10 = true) ∧
    (s.privileged = true ∧ (pairAddress (s.reg 2) false true).toNat % 4 ≠ 0) ∧
    (Mode.ofBits 0x13 = some .svc ∧ spsrIndex s.mode = some 2 ∧ (pairAddress (s.regIn .svc 13) true false).toNat % 4 ≠ 0) ∧
    ((3 : BitVec 16).getLsbD 13 = false ∧ (s.reg 13).toNat % 4 ≠ 0) ∧
    VfpReady s ∧ (baseValue s 2 + BitVec.ofNat 32 (4 * 255)).toNat % 4 ≠ 0 ∧ listSize true 2 = 1 ∧ 15 + 1 ≤ 16 := by
  unfold VfpReady VfpAdmitted; decide

theorem witness_SystemRegisterReads :
    let s := { (sv []) with cp15 := { State.reset.cp15 with rgnr := 15 }, pmu := { State.reset.pmu with selr := 7 } }
    Runs .al s ∧ s.privileged = true ∧ s.cp15.rgnr.toNat = (15 : Fin 16).val ∧ (15 : Fin 16).val < regionCount s.cfg ∧
    s.pmu.selr.toNat % 32 = (7 : Fin 8).val := by unfold Runs; decide

/-- For SystemRegisterReads and SystemRegisterWrites: the registers of User mode, with PMUSERENR.EN 0 and 1. -/
theorem witness_SystemRegisters_user :
    let s := st 0x10 []
    let u := { s with pmu := { State.reset.pmu with userenr := 1, selr := 7 } }
    Runs .al s ∧ s.privileged = false ∧ ArmEntry s ∧
    ((cp15Values s).any fun e => userReads.contains e.1) = true ∧ ((cp15Stores s 0).any fun e => userWrites.contains e.1) = true ∧
    u.pmu.userenr.getLsbD 0 = true ∧ u.pmu.selr.toNat % 32 = (7 : Fin 8).val ∧
    ((cp15Values u).any fun e => userPmu.contains e.1) = true ∧ ((pmuStores u 0).any fun e => userPmu.contains e.1) = true := by
  unfold Runs ArmEntry; decide

/-- User mode reads TPIDRURO and writes CP15DSB, and does not read PMSWINC with PMUSERENR.EN 1 (40_system_register_access.md R434,
R437). -/
theorem test_user_system_registers :
    after 0xEE1D0F70 { (st 0x10 []) with cp15 := { State.reset.cp15 with tpidruro := 7 } } (State.reg · 0) = some 7 ∧
    after 0xEE070F9A (st 0x10 []) State.pc = some 0x1004 ∧
    after 0xEE190F9C { (st 0x10 []) with pmu := { State.reset.pmu with userenr := 1 } } State.pc = some 4 := by decide

theorem witness_SystemRegisterWrites :
    let s := sv [(0, 15), (1, 16)]
    Runs .al s ∧ s.privileged = true ∧ (s.reg 0).toNat < regionCount s.cfg ∧ regionCount s.cfg ≤ (s.reg 1).toNat ∧
    s.cp15.rgnr.toNat = (0 : Fin 16).val ∧ s.pmu.selr.toNat % 32 = (0 : Fin 8).val ∧
    cp15Sel 0 7 5 0 = some (.op .iciallu) ∧ ∃ t, performOp .iciallu (s.reg 0) s = .ok () t :=
  ⟨by unfold Runs; decide, by decide, by decide, by decide, by decide, by decide, by decide, exists_ok (by decide)⟩

/-- For SystemRegisterWrites: the caches turned on before and after they were invalidated and cleaned, before a DSB and before an
ISB, and the error checking changed with the caches off and on; `w` of the statement is the old value with the writable bits of
the new. -/
theorem witness_SystemRegisterWrites_caches :
    let s := sv []
    let v := { s with upkeep := { CacheUpkeep.kept with dsb := true } }
    let new := maskWrite s.cp15.sctlr 0x1004 (sctlrMask s.cfg)
    let e := { s with cfg := { s.cfg with ecc := true } }
    let on := e.sctlr 0x00C51078
    let act := maskWrite e.cp15.actlr 0x200 (actlrMask e.cfg)
    (new.getLsbD 2 ≠ s.cp15.sctlr.getLsbD 2 ∧ new.getLsbD 2 = true ∧ dataInvalidated s = false ∧ dataInvalidated v = true ∧
      dataCleaned v = true ∧ dataCleaned { s with upkeep := CacheUpkeep.reset.after 4 0 } = false) ∧
    (new.getLsbD 12 ≠ s.cp15.sctlr.getLsbD 12 ∧ s.upkeep.instruction = false ∧ v.upkeep.instruction = true ∧
      v.upkeep.isb = true ∧ (v.upkeep.after 0 0x1000).isb = false) ∧
    (s.upkeep.dsb = false ∧ v.upkeep.dsb = true ∧ (v.upkeep.after 0 4).dsb = false) ∧
    (act &&& 0x600 ≠ e.cp15.actlr &&& 0x600 ∧ e.cp15.sctlr &&& 0x1004 = 0 ∧ e.upkeep.isb = true ∧ dataCleaned e = true) ∧
    (act &&& 0x600 ≠ on.cp15.actlr &&& 0x600 ∧ on.cp15.sctlr &&& 0x1004 ≠ 0) ∧
    maskWrite s.cp15.actlr 0x40 (actlrMask s.cfg) &&& 0x600 = s.cp15.actlr &&& 0x600 := by decide

/-- A dirty line of the data cache and a line of the instruction cache at 0x2000, in way 3; a reserved and the last set. -/
def linesAt : State :=
  { (sv [(1, 0x2000), (2, 0xC0001FE0), (3, 0xC0002000), (4, 1)]) with
    dcache := { CacheRam.reset with tag := [(1536, 0x02400001)] }
    icache := { CacheRam.reset with tag := [(1536, 0x00400001)] } }

theorem witness_CacheOperations :
    let s := linesAt
    (Runs .al s ∧ s.privileged = true ∧ Canonical s ∧ eccOn s = false ∧ s.cfg.icache ≠ .none) ∧
    (hitWay s.icache s.cp15.ieer (setBits s.cfg.icache) (s.reg 1) = some 3 ∧
      hitWay s.icache s.cp15.ieer (setBits s.cfg.icache) (s.reg 3) = none) ∧
    (hitWay s.dcache s.cp15.deer (setBits s.cfg.dcache) (s.reg 1) = some 3 ∧
      setOf (setBits s.cfg.dcache) (s.reg 1) = 0 ∧ LinePlain s (s.lineAt 3 0)) ∧
    (s.cfg.dcache ≠ .none ∧ ((s.reg 4).extractLsb' 0 5 ≠ 0 ∨ 2 ^ setBits s.cfg.dcache ≤ ((s.reg 4).extractLsb' 5 25).toNat) ∧
      2 ^ setBits s.cfg.dcache ≤ ((s.reg 3).extractLsb' 5 25).toNat) ∧
    (s.reg 2).extractLsb' 0 5 = 0 ∧ ((s.reg 2).extractLsb' 5 25).toNat < 2 ^ setBits s.cfg.dcache ∧ LinePlain s (s.lineAt 3 255) :=
  ⟨⟨by unfold Runs; decide, by decide, by constructor <;> decide, by decide⟩, by decide, ⟨by decide, by decide, by
    unfold LinePlain; decide⟩, by decide, by decide, by decide, by unfold LinePlain; decide⟩

/-- A build without caches, its error checking on. -/
def cacheless : State :=
  { (sv []) with cfg := { State.reset.cfg with caches := none, ecc := true }
                 cp15 := { State.reset.cp15 with actlr := 0x200 } }

theorem witness_CacheOperations_unbuilt :
    Runs .al cacheless ∧ cacheless.privileged = true ∧ Canonical cacheless ∧ cacheless.cfg.icache = .none ∧
    cacheless.cfg.dcache = .none ∧
    ((0xC0003FE0 : Word).extractLsb' 0 5 = 0 ∧ ((0xC0003FE0 : Word).extractLsb' 5 25).toNat < 512) ∧
    512 ≤ ((0x00004000 : Word).extractLsb' 5 25).toNat :=
  ⟨by unfold Runs; decide, by decide, by constructor <;> decide, by decide, by decide, by decide, by decide⟩

/-- DCCSW without a data cache: a set of the largest, and a reserved bit (20_memory.md R257, R258; log entry 72). -/
theorem test_setway_unbuilt :
    after 0xEE072F5A (cacheless.setReg 2 0xC0003FE0) State.pc = some 0x1004 ∧
    refusal 0xEE072F5A (cacheless.setReg 2 0x00004000) = some .setWay := by decide

/-- DCCMVAC and ICIMVAU without caches find no error (20_memory.md R258). -/
theorem test_maintenance_unbuilt :
    after 0xEE070F3A cacheless (fun t => (t.pc, t.outs.ramErr)) = some (0x1004, false) ∧
    after 0xEE070F35 cacheless (fun t => (t.pc, t.outs.ramErr)) = some (0x1004, false) := by decide

/-- TCMs with half the RAM of their region. -/
def holesAt (s : State) : State :=
  { s with cfg := { s.cfg with itcmBuild := some ⟨.kb64, 32768, false⟩, dtcmBuild := some ⟨.kb64, 32768, false⟩ } }

/-- The last word of each RAM, and of a region with a hole. -/
theorem witness_CacheOperations_direct :
    linesAt.cfg.ecc = false ∧ (∃ r w, DirectAccess linesAt 0x0040FFFC r w) ∧ (∃ r w, DirectAccess linesAt 0x0050FFF8 r w) ∧
    (∃ r w, DirectAccess (holesAt linesAt) 0x0040FFFC r w) ∧ (∃ r w, DirectAccess (holesAt linesAt) 0x0050FFF8 r w) ∧
    (∃ r w, DirectAccess linesAt 0xC0201FFC r w) ∧ (∃ r w, DirectAccess linesAt 0xC0001FE0 r w) ∧
    ∃ r w, DirectAccess linesAt 0xC0301FF8 r w :=
  ⟨by decide, ⟨_, _, .dtcm _ (by decide) (by decide) rfl⟩, ⟨_, _, .itcm _ (by decide) (by decide) rfl⟩,
    ⟨_, _, .dtcmHole (by decide) (by decide) rfl⟩, ⟨_, _, .itcmHole (by decide) (by decide) rfl⟩,
    ⟨_, _, .data _ _ (by decide) (by decide) (by decide) (by decide) rfl rfl⟩,
    ⟨_, _, .tag _ (by decide) (by decide) (by decide) (by decide) rfl⟩,
    _, _, .instruction _ _ (by decide) (by decide) (by decide) (by decide) rfl rfl⟩

/-- For SystemRegistersDenied and IdentificationRegisters. -/
theorem witness_SystemRegistersDenied :
    cp15Sel 0 3 0 0 = none ∧ ((st 0x10 []).privileged = false ∧ ArmEntry (st 0x10 [])) ∧ selectorOf 0 1 0 0 ∉ userReads ∧
    selectorOf 0 9 12 0 ∉ userWrites ∧ (st 0x10 []).pmu.userenr.getLsbD 0 = false := by unfold ArmEntry; decide

theorem witness_DebugRegisters : cp14Sel 0 15 15 7 = none ∧ Runs .al (sv []) ∧ (sv []).privileged = true ∧ ArmEntry (sv []) := by
  unfold Runs ArmEntry; decide

/-- For DebugRegisters: the first and last word of the ROM table, DBGBVR5, a component ID byte, PMOVSR, the other processor's
DBGBVR0, DBGPRSR, TCMTR, DBGAUTHSTATUS and PMCCNTR, first and last words of the reserved places, both processors' CTI and ETM, a build
without the other processor's, and an own block at the self address. -/
theorem witness_DebugRegisters_window :
    (sv []).cfg.dbgSelfAddrV = true ∧ (sv []).pendingAbort = none ∧ (sv []).cfg.twoCpus = true ∧ (sv []).cfg.cpu = false ∧
    (∀ e ∈ [(0x9FFC0000#32, 0), (0x9FFC0FFC, 0xFFC), (0x9FFD0114, 0x10000 + 4 * (64 + 5)), (0x9FFD0FFC, 0x10000 + 4 * 1023),
      (0x9FFD1C80, 0x11000 + 0xC80), (0x9FFD2100, 0x12000 + 4 * 64), (0x9FFD2314, 0x12000 + 4 * 197),
      (0x9FFD2D08, 0x12000 + 4 * 834), (0x9FFD2FB8, 0x12000 + 4 * 1006), (0x9FFD307C, 0x13000 + 0x07C), (0x9FFD4000, 0x14000),
      (0x9FFD7FFC, 0x17FFC), (0x9FFD8000, 0x18000), (0x9FFD9FFC, 0x19FFC), (0x9FFDC000, 0x1C000), (0x9FFDDFFC, 0x1DFFC),
      (0x9FFC1000, 0x01000), (0x9FFDA000, 0x1A000), (0x9FFDFFFC, 0x1FFFC)],
      inPeripheral (sv []).cfg e.1 = false ∧ windowOffset (sv []).cfg e.1 = some e.2) ∧
    (let one := { (sv []).cfg with twoCpus := false }
     (one.twoCpus || one.cpu) = false ∧ inPeripheral one 0x9FFD2000 = false ∧ windowOffset one 0x9FFD2000 = some 0x12000 ∧
       windowOffset one 0x9FFDDFFC = some 0x1DFFC) ∧
    windowOffset { (sv []).cfg with dbgSelfAddr := 1 } 0x9FFC8114 = some (0x10000 + 4 * (64 + 5)) ∧
    windowOffset { (sv []).cfg with dbgSelfAddrV := false } 0x9FFD0114 = none := by decide

theorem witness_FpuSystemRegisters :
    let s := (sv []).vfp 0 [] []
    let u := { (st 0x10 []) with cp15 := s.cp15 }
    Runs .al s ∧ s.cfg.fpu ≠ .none ∧ s.cp15.cpacr.extractLsb' 20 4 = 0xF ∧ s.privileged = true ∧
    s.fpu.fpexc.getLsbD 30 = true ∧ u.cp15.cpacr.extractLsb' 20 4 = 0xF ∧ u.privileged = false ∧
    u.fpu.fpexc.getLsbD 30 = false ∧ ArmEntry u ∧ (2 : BitVec 4).toNat ∉ [0, 1, 6, 7, 8] := by unfold Runs ArmEntry; decide

/-- After reset CPACR denies everyone; with 0b01 it denies User mode; the FPU not enabled; a register D16 to D31, and a double in
a build for singles. -/
theorem witness_VfpDeniedIsUndefined :
    let i := Instr.vadd .al false 0 0 false true false 1
    let on := (sv []).vfp 0 [] []
    let off := { on with fpu := State.reset.fpu }
    WellFormed i ∧ InVfpSpace i ∧ condPassed (condOf (encode i)) (sv []).cpsr = true ∧ VfpDenied (sv []) ∧ ArmEntry (sv []) ∧
    VfpDenied { (st 0x10 []) with cp15 := { State.reset.cp15 with cpacr := 0x00500000 } } ∧
    (VfpAdmitted off ∧ off.fpu.fpexc.getLsbD 30 = false ∧ reachesDisabled off i = false ∧
      InVfpSpace (.vmrs .al 1 0) ∧ reachesDisabled off (.vmrs .al 1 0) = false ∧
      reachesDisabled { (st 0x10 []) with cp15 := on.cp15 } (.vmsr .al 8 0) = false) ∧
    (VfpReady on ∧ lacksRegister on.cfg (.vldr .al true true 1 0 true 0) = true) ∧
    lacksRegister { on.cfg with fpu := .single } (.vadd .al false 0 0 true false false 1) = true := by
  unfold WellFormed InVfpSpace VfpDenied VfpReady VfpAdmitted ArmEntry; decide

/-- For VfpThreeRegisters, VfpTwoRegisters, VfpComparisons and VfpConversions: both precisions, and short vectors. -/
theorem witness_VfpRuns :
    Runs .al ((sv []).vfp 0 [] []) ∧ VfpRuns ((sv []).vfp 0 [] []) true ∧ VfpRuns ((sv []).vfp 0 [] []) false ∧
    (VfpReady ((sv []).vfp 0x00070000 [] []) ∧ ((sv []).vfp 0x00070000 [] []).fpu.fpscr.extractLsb' 16 3 ≠ 0 ∧
      ((sv []).vfp 0x00070000 [] []).cfg.fpu = .double ∧ ArmEntry ((sv []).vfp 0x00070000 [] [])) := by
  unfold Runs VfpRuns VfpReady VfpAdmitted ArmEntry; decide

/-- The largest finite single number, the NaNs and an infinity. -/
theorem witness_FloatingPointLaws :
    (fpUnpack (formatOf false) 0x7F7FFFFF 0).1.cls.isNaN = false ∧ (fpUnpack single32 0x7F7FFFFF 0).2 = 0 ∧
    (fpUnpack single32 0x7F7FFFFF 0).1.cls = .nonzero ∧ (fpUnpack (half true) 1 0).1.cls = .nonzero ∧
    (fpUnpack single32 0x7F800001 0).1.cls = .signalling ∧ (fpUnpack single32 0x7FFFFFFF 0).1.cls = .quiet ∧
    (fpUnpack single32 0x7F800000 0).1.cls = .infinity ∧ (fpUnpack single32 0x7F7FFFFF 0).1.cls.finite = true := by decide

/-- For CorrectRounding and ConversionsRound: 3 and 1, 3 and -3, a zero and a negative number. -/
theorem witness_CorrectRounding :
    let three : FpValue := { cls := .nonzero, sign := false, sig := 12582912, exp := -22 }
    let less : FpValue := { three with sign := true }
    ((fpUnpack (formatOf false) 0x40400000 0).1 = three ∧ three.cls.finite = true) ∧
    (fpUnpack (formatOf false) 0xC0400000 0).1 = less ∧ (fpUnpack (formatOf false) 0x80000000 0).1.cls = .zero ∧
    (three.value + three.value ≠ 0 ∧ three.value - less.value ≠ 0 ∧ three.value * less.value ≠ 0 ∧ three.value / less.value ≠ 0) ∧
    three.value + less.value = 0 ∧ three.value - three.value = 0 := by
  refine ⟨by decide, by decide, by decide, ?_⟩
  norm_num [FpValue.value]

theorem witness_ConversionsRound : (fpUnpack double64 1 0).1.cls = .nonzero ∧ (fpUnpack (half true) 0x7FFF 0).1.cls = .nonzero ∧
    (fpUnpack (half false) 0x8000 0).1.cls = .zero ∧ (fpUnpack (formatOf true) 0x7FF8000000000000 0).1.cls.isNaN = true ∧
    (fpUnpack (formatOf true) 0xFFF0000000000000 0).1.cls = .infinity := by decide

theorem witness_VfpTransfers : singleNumber 15 false ≠ 31 ∧ (13 : Reg) ≠ 14 ∧ VfpReady ((sv []).vfp 0 [] []) := by
  unfold VfpReady VfpAdmitted; decide

/-- One register and all of them. -/
theorem witness_VfpLoadsAndStores :
    let s := (sv [(1, 0x2000)]).vfp 0 [] []
    (listSize true 32 = 16 ∧ 0 + 16 ≤ 16) ∧ (listSize false 1 = 1 ∧ 31 + 1 ≤ 32) ∧
    PlainWords s .read (s.reg 1) (2 * 16) ∧ PlainWords s .write (s.reg 1 - BitVec.ofNat 32 (4 * 1)) 1 ∧
    PlainWords s .read (s.reg 1 + BitVec.ofNat 32 (4 * 255)) 2 :=
  ⟨by decide, by decide, plainWords_of (by decide), plainWords_of (by decide), plainWords_of (by decide)⟩

/-- Two regions hit; the second decides. -/
theorem witness_HighestRegionDecides :
    let p := { State.reset.cp15 with sctlr := 0x00C50079, drsr := ((Vector.replicate 16 0).set 0 0x3F).set 11 0x3F,
                                     dracr := (Vector.replicate 16 0).set 11 0x30B }
    let s := { (sv []) with cp15 := p }
    topRegion p 0x3000 12 = some 11 ∧ topRegion State.reset.cp15 0x3000 16 = none ∧ s.cp15.sctlr.getLsbD 0 = true ∧
    smallRegion s.cp15 (regionCount s.cfg) = false ∧ topRegion s.cp15 0x3000 (regionCount s.cfg) = some 11 ∧
    (decodeAttr s.cp15.dracr[(11 : Fin 16)]).isSome = true ∧
    (s.cp15.dracr[(11 : Fin 16)].extractLsb' 8 3).toNat ≠ 4 := by decide

/-- A region User mode may not use over the lower 2GB and none above, under SCTLR.BR: a privileged and a User access to each, the
last word of the region, a fetch, and an access that straddles two blocks. -/
theorem witness_HighestRegionDecides_denied :
    let s := { (sv []) with cp15 := { State.reset.cp15 with
      sctlr := 0x00C70079, drsr := (Vector.replicate 16 0).set 0 0x3D, dracr := (Vector.replicate 16 0).set 0 0x10C } }
    let u := { s with cpsr := 0x10 }
    (lookupRegion s .read true 0x7FFFFFFC = .hit (normalNc true) true ∧ lookupRegion s .write false 0x7FFFFFFC = .hit (normalNc true) false) ∧
    (topRegion s.cp15 0x80000000 (regionCount s.cfg) = none ∧ smallRegion s.cp15 (regionCount s.cfg) = false ∧
      lookupRegion s .read true 0x80000000 = .hit (deviceAttr true) true ∧ lookupRegion s .read false 0x80000000 = .background) ∧
    (lookupRegion u .fetch u.privileged 0x7FFFFFFC = .hit (normalNc true) false ∧
      lookupRegion u .fetch u.privileged 0x80000000 = .background) ∧
    admission .read (single s 4 true) 0x201E s = .ok (normalNc true) ∧ (0x201E#32).toNat / 32 ≠ ((0x201E#32).toNat + 4 - 1) / 32 ∧
    admission .write (single s 4 false) 0x7FFFFFFC s = .error (.dataAbort .permission true 0x7FFFFFFC) := by decide

/-- An interrupt signalled, one forwarded beside it, and none. -/
theorem witness_BestInterruptSignalled :
    let s := { (sv []) with gic := { State.reset.gic with
      ifEnable := true, distEnable := true, pmr := 0xF0, pending := (Vector.replicate 16 0).set 0 0x8001,
      enabled := (Vector.replicate 16 0).set 0 0x8001, prio := [(0, 0x10)] } }
    (s.cfg.cpu = true → s.cfg.twoCpus = true) ∧ signalled s = some 15 ∧ Forwarded s 0 ∧ Forwarded s 15 ∧ Preempts s 15 ∧
    signalled (sv []) = none := by
  refine ⟨by decide, by decide, by unfold Forwarded; decide, by unfold Forwarded; decide, ⟨by decide, ?_⟩, by decide⟩
  intro e rest h
  cases h

/-- The global timer just before the comparator, at it, and a single shot. -/
theorem witness_TimerRegisters_global :
    let s := { (sv []) with
      gic := { State.reset.gic with distEnable := true }
      timers := { State.reset.timers with
        gControl := 0x0000000F, gCounter := 0x1FFFFFFFF, comparator := 0x200000000, autoInc := 0x10 } }
    let g := { s.timers with gCounter := 0x200000000 }
    s.gic.distEnable = true ∧ { s.timers with gCounter := BitVec.ofNat 64 (s.timers.gCounter.toNat + 1) } = g ∧
    ¬ (s.timers.gControl.getLsbD 1 = true ∧ s.timers.comparator.toNat ≤ s.timers.gCounter.toNat) ∧
    (g.gControl.getLsbD 1 = true ∧ g.comparator.toNat ≤ g.gCounter.toNat ∧ g.gControl.getLsbD 3 = true) ∧
    (globalTick s).timers = { g with gStatus := 1, comparator := 0x200000010 } := by decide

theorem witness_TimerRegisters :
    let t : Timers := { State.reset.timers with counter := 1, control := 6, wdCounter := 1, wdControl := 6 }
    t.counter = 1 ∧ t.control.getLsbD 2 = true ∧ (State.reset.timers.counter = 0 ∧ State.reset.timers.control.getLsbD 1 = false) ∧
    t.control.getLsbD 1 = true ∧ t.wdControl.getLsbD 3 = false ∧ t.wdControl.getLsbD 1 = true ∧
    t.wdControl.getLsbD 2 = true ∧ ({ t with wdControl := 8 } : Timers).wdControl.getLsbD 3 = true := by decide

/-- The watchdog in watchdog mode just before zero, and at zero (63_timers.md R701, R705, R708). -/
theorem test_watchdog_expiry :
    let s := { (sv []) with timers := { State.reset.timers with wdCounter := 1, wdControl := 0xB } }
    let t := watchdogTick s
    (t.timers.wdReset, t.signals.wdResetReq, t.timers.wdCounter, t.timers.wdStatus) = (1, true, 0, 0) ∧
    watchdogTick t = t := by decide

theorem witness_ScuRegisters :
    let s := { (sv []) with scu := { State.reset.scu with access := 2 } }
    s.scu.access.getLsbD (if s.cfg.cpu then 1 else 0) = false ∧ sparseWf 0 s.scu.tags = true ∧ s.cfg.twoCpus = true ∧
    dcacheOf s.cfg true = .kb32 ∧
    ((0xC1003FE1 : Word).getLsbD 0 = true ∧ (0xC1003FE0 : Word).getLsbD 0 = false ∧
      (0xC1003FE1 : Word) &&& 0xC1003FE0 = 0xC1003FE0 &&& 0xC1003FE0) ∧
    ((0x00000020 : Word).getLsbD 0 = false ∧ (0xC1003FE1 : Word) &&& 0xC1003FE0 ≠ 0x00000020 &&& 0xC1003FE0) := by decide

/-- For ScuRegisters: a tag written to one entry and to another, each with its own value. -/
theorem test_scu_entries :
    let t := scuWrite 0x70 0x00000021 (scuWrite 0x74 0x007C0000 (scuWrite 0x70 0xC1003FE1 (scuWrite 0x74 0x00440000 (sv []))))
    scuRead (scuWrite 0x70 0xC1003FE0 t) 0x74 = 0x00440000 ∧ scuRead (scuWrite 0x70 0x00000020 t) 0x74 = 0x007C0000 := by decide

/-- For ScuRegisters: an access on each port, one a filter range's last megabyte, and the first past it. -/
theorem witness_ScuRegisters_ports :
    let s := { (sv []) with
      cfg := { (sv []).cfg with axiMaster1 := true, pfilterStart := 0xAE0, pfilterEnd := 0xAEF, mfilterStart := 0x400, mfilterEnd := 0x4FF }
      scu := { State.reset.scu with ctrl := 2 } }
    portOf s .single 0xAEFFFFFF = .peripheral ∧ portOf s .single 0x4FFFFFFF = .master1 ∧ portOf s .single 0x50000000 = .master0 ∧
    portOf s .locked 0x50000000 = .master0 ∧
    (s.scu.ctrl.getLsbD 1 = true ∧ s.cfg.mfilterStart.toNat ≤ 0x4FF ∧ 0x4FF ≤ s.cfg.mfilterEnd.toNat) ∧
    portOf { s with scu := State.reset.scu } .locked 0x40000000 = .master0 ∧
    (tcmClash s = false ∧ inItcm s 0xAEFFFFF8 = false ∧ inDtcm s 0xAEFFFFF8 = false ∧ inPeripheral s.cfg 0xAEFFFFF8 = true ∧
      inPrivate s.cfg 0xAEFFFFF8 = false) := by decide

/-- For ScuRegisters: the first and the last word of each block of the private region that the model's filter covers. -/
theorem witness_ScuRegisters_private :
    let s := sv []
    (∀ off ∈ [0x000, 0x0FC, 0x100, 0x1FC, 0x200, 0x2FC, 0x600, 0x6FC, 0x1000, 0x1FFC], ∀ a,
      a = (s.cfg.periphBase ++ 0#13) + BitVec.ofNat 32 off →
      s.cfg.pfilterStart.toNat ≤ a.toNat / 2 ^ 20 ∧ a.toNat / 2 ^ 20 ≤ s.cfg.pfilterEnd.toNat ∧ inItcm s a = false ∧
      inDtcm s a = false ∧ scuFinds s a = false ∧ admission .read (single s 4 true) a s = .ok (deviceAttr false) ∧
      admission .write (single s 4 true) a s = .ok (deviceAttr false)) ∧
    (deviceAttr false).type ≠ .normal ∧ tcmClash s = false ∧ (∃ w t, iccRead 0x0C s.accessed = .ok w t) ∧
    ∃ t, iccWrite 0x10 0 s.accessed = .ok () t := by
  refine ⟨?_, by decide, by decide, ⟨0x3FF, exists_ok (by decide)⟩, exists_ok (by decide)⟩
  rintro off h a rfl
  revert off
  decide

/-- STR and LDR of the private timer's load register, big-endian (20_memory.md R301). -/
theorem test_private_big_endian :
    let s := st 0x3D3 [(0, privateBase State.reset.cfg + 0x600), (1, 0x11223344)]
    after 0xE5801000 s (fun t => (t.timers.load, t.timers.counter)) = some (0x44332211, 0x44332211) ∧
    after 0xE5901000 { s with timers := { s.timers with load := 0x44332211 } } (State.reg · 1) = some 0x11223344 := by decide

/-- LDM and STM of Write-Back memory in the peripheral-port range with the data cache on (U28). -/
theorem test_peripheral_multiple :
    let s := { (sv [(0, 0xAEF00000)]) with cp15 := { State.reset.cp15 with
      sctlr := 0x00C5007D, drsr := (Vector.replicate 16 0).set 0 0x3F, dracr := (Vector.replicate 16 0).set 0 0x303 } }
    refusal 0xE8B00006 s = some .peripheralMultiple ∧ refusal 0xE8A00006 s = some .peripheralMultiple := by decide

end Sys2Proof.Tests
end

/-!
# The machine invariant

That every step keeps it (`stepKeepsInvariant`) goes through `Keeps Inv`: the operations that instructions share keep the
invariant, hence the bodies made of them (`inv_exec`), and so do the hardware beside the processor (`inv_hardwareStage`),
the resets and the entries of exceptions. After it the values after reset, and the banked registers.
-/

namespace Sys2Proof.Machine

/-! ### Bodies that keep a property -/

/-- A body that looks at the state it starts in, which has the property. -/
theorem keeps_get_of {α : Type} {P : State → Prop} {f : State → M α} (hf : ∀ s, P s → Keeps P (f s)) :
    Keeps P (get >>= f) := fun s h => hf s h s h

/-- A body that keeps the invariant and then moves the pc past the instruction. -/
theorem keeps_inv_advance {x : M Unit} (hx : Keeps Inv x) : Keeps Inv (do x; fallThrough) :=
  keeps_bind hx fun _ => keeps_inv_fallThrough

/-- A body that does something or not, and then moves the pc past the instruction. -/
theorem keeps_inv_advanceIf {p : Prop} [Decidable p] {x : M Unit} (hx : Keeps Inv x) :
    Keeps Inv (if p then do { x; fallThrough } else fallThrough) :=
  keeps_ite (keeps_inv_advance hx) keeps_inv_fallThrough

/-- What is done before an abort is taken keeps what the body and the cleanup keep. -/
theorem keeps_onAbort {α : Type} {P : State → Prop} {body : M α} {cleanup : M Unit} (hb : Keeps P body)
    (hc : Keeps P cleanup) : Keeps P (onAbort body cleanup) := by
  intro s h
  have hs := hb s h
  unfold onAbort
  cases e : body s with
  | ok a t => rw [e] at hs; exact hs
  | error x t =>
    rw [e] at hs
    cases x with
    | dataAbort f w a =>
      have ht := hc t hs
      dsimp only
      cases e' : cleanup t with
      | ok b u => rw [e'] at ht; exact ht
      | error y u => rw [e'] at ht; exact ht
    | undefined => exact hs
    | fault f => exact hs
    | refuse r => exact hs

/-! ### Words under a mask -/

/-- Bits outside the mask that are set do not show. -/
theorem or_and_of_disjoint {x y m : Word} (h : y &&& m = 0) : (x ||| y) &&& m = x &&& m := by
  rw [BitVec.and_comm, BitVec.and_or_distrib_left, BitVec.and_comm m y, h, BitVec.and_comm m x]
  exact BitVec.or_zero

/-- Bits outside the mask that are cleared do not show. -/
theorem andNot_and_of_disjoint {x y m : Word} (h : y &&& m = 0) : (x &&& ~~~ y) &&& m = x &&& m := by
  apply BitVec.eq_of_getLsbD_eq
  intro i hi
  have hy := congrArg (BitVec.getLsbD · i) h
  simp only [BitVec.getLsbD_and, BitVec.getLsbD_not, hi, decide_true, Bool.true_and, BitVec.ofNat_eq_ofNat,
    BitVec.getLsbD_zero] at hy ⊢
  cases hm : m.getLsbD i
  · rw [Bool.and_false, Bool.and_false]
  · rw [hm, Bool.and_true] at hy
    rw [hy, Bool.not_false, Bool.and_true]

/-- What a masked write leaves of the bits its mask does not reach. -/
theorem maskWrite_and_of_disjoint {old v mask m : Word} (h : mask &&& m = 0) :
    maskWrite old v mask &&& m = old &&& m := by
  have hv : (v &&& mask) &&& m = 0 := by rw [BitVec.and_assoc, h]; exact BitVec.and_zero
  exact (or_and_of_disjoint hv).trans (andNot_and_of_disjoint h)

/-- What a masked write leaves of the bits its mask covers. -/
theorem maskWrite_and_of_covered {old v mask m : Word} (h : mask &&& m = m) : maskWrite old v mask &&& m = v &&& m := by
  apply BitVec.eq_of_getLsbD_eq
  intro i hi
  have hb := congrArg (BitVec.getLsbD · i) h
  simp only [maskWrite, BitVec.getLsbD_and, BitVec.getLsbD_or, BitVec.getLsbD_not, hi, decide_true, Bool.true_and] at hb ⊢
  cases hm : m.getLsbD i
  · rw [Bool.and_false, Bool.and_false]
  · rw [hm, Bool.and_true] at hb
    rw [hb, Bool.not_true, Bool.and_false, Bool.false_or, Bool.and_true]

/-- Words that agree under a mask agree under a part of it. -/
theorem and_eq_of_and_eq {a b m n : Word} (h : a &&& m = b &&& m) (hn : m &&& n = n) : a &&& n = b &&& n := by
  rw [← hn, ← BitVec.and_assoc, h, BitVec.and_assoc]

/-! ### The status register -/

/-- The mode of a status register is in its five low bits. -/
theorem modeField_congr {a b : Word} (h : a &&& 0x1F = b &&& 0x1F) : modeField a = modeField b := by
  apply BitVec.eq_of_getLsbD_eq
  intro i hi
  have hm : ∀ j : Fin 5, (0x1F#32).getLsbD j.val = true := by decide
  have hi' : (0x1F#32).getLsbD i = true := hm ⟨i, hi⟩
  have hb := congrArg (BitVec.getLsbD · i) h
  simp only [BitVec.getLsbD_and, BitVec.ofNat_eq_ofNat, hi', Bool.and_true] at hb
  simpa [modeField, hi] using hb

/-- What makes a status register legal is in its mode field and its reserved bits. -/
theorem PsrOk.congr {a b : Word} (h : PsrOk b) (e : a &&& 0x01F0001F = b &&& 0x01F0001F) : PsrOk a where
  legalMode := modeField_congr (and_eq_of_and_eq e (by decide)) ▸ h.legalMode
  reserved := (and_eq_of_and_eq e (by decide)).trans h.reserved

/-- A masked write of the mode field with a legal mode leaves the status register legal. -/
theorem PsrOk.maskWrite_mode {psr v mask : Word} (h : PsrOk psr) (hv : (Mode.ofBits (modeField v)).isSome = true)
    (hm : mask &&& 0x01F0001F = 0x1F) : PsrOk (maskWrite psr v mask) where
  legalMode := by
    have hmode : mask &&& 0x1F = 0x1F := and_eq_of_and_eq (b := 0x1F) (m := 0x01F0001F) hm (by decide)
    rwa [modeField_congr (maskWrite_and_of_covered hmode)]
  reserved := by
    have hres : mask &&& 0x01F00000 = 0 := and_eq_of_and_eq (b := 0x1F) (m := 0x01F0001F) hm (by decide)
    exact (maskWrite_and_of_disjoint hres).trans h.reserved

/-- MSR reaches the mode field just in a privileged mode with the control byte selected, and no reserved bit. -/
theorem cpsrWriteMask_and (privileged nmfi : Bool) (v : Word) (m : BitVec 4) :
    cpsrWriteMask privileged nmfi v m &&& 0x01F0001F = if m.getLsbD 0 && privileged then 0x1F else 0 := by
  unfold cpsrWriteMask
  generalize m.getLsbD 3 = f
  generalize m.getLsbD 2 = s
  generalize m.getLsbD 1 = x
  generalize m.getLsbD 0 = c
  generalize (nmfi && v.getLsbD 6) = keepF
  revert f s x c keepF privileged
  decide

/-- The mask bits of CPS are neither the mode nor reserved. -/
theorem cpsBits_and (a i f : Bool) : cpsBits a i f &&& 0x01F0001F = 0 := by
  revert a i f
  decide

theorem cpsMasks_and (imod : BitVec 2) (a i f nmfi : Bool) (cpsr : Word) :
    cpsMasks imod a i f nmfi cpsr &&& 0x01F0001F = cpsr &&& 0x01F0001F := by
  unfold cpsMasks
  split
  · exact andNot_and_of_disjoint (cpsBits_and _ _ _)
  split
  · exact or_and_of_disjoint (cpsBits_and _ _ _)
  · rfl

theorem keeps_inv_writeCpsr (v : Word) (m : BitVec 4) : Keeps Inv (writeCpsr v m) := by
  intro s h
  unfold writeCpsr
  split
  · exact h
  · rename_i hr
    refine inv_setCpsr h ?_
    have hmask := cpsrWriteMask_and s.privileged s.nmfi v m
    by_cases hc : (m.getLsbD 0 && s.privileged) = true
    · rw [if_pos hc] at hmask
      refine h.psr.maskWrite_mode ?_ hmask
      rw [hc, Bool.true_and] at hr
      simpa [Option.isSome_iff_ne_none] using hr
    · rw [if_neg hc] at hmask
      exact h.psr.congr (maskWrite_and_of_disjoint hmask)

theorem keeps_inv_changeState (imod : BitVec 2) (m a i f : Bool) (mode : BitVec 5) :
    Keeps Inv (changeState imod m a i f mode) := by
  intro s h
  have hp : PsrOk (cpsMasks imod a i f s.nmfi s.cpsr) := h.psr.congr (cpsMasks_and _ _ _ _ _ _)
  unfold changeState
  split
  · exact h
  · dsimp only
    split
    · split
      · exact h
      · rename_i hm
        refine inv_setCpsr h (hp.maskWrite_mode ?_ (by decide))
        rw [show modeField (mode.setWidth 32) = mode from
          (BitVec.extractLsb'_setWidth_of_le (by decide)).trans BitVec.extractLsb'_eq_self]
        simpa [Option.isSome_iff_ne_none] using hm
    · exact inv_setCpsr h hp

theorem keeps_inv_writeSpsr (v : Word) (m : BitVec 4) : Keeps Inv (writeSpsr v m) :=
  keeps_bind keeps_inv_readSpsr fun _ => keeps_modify fun _ h => inv_setSpsr h _ _

theorem keeps_inv_moveToStatus (r : Bool) (m : BitVec 4) (v : Word) : Keeps Inv (moveToStatus r m v) :=
  keeps_ite (keeps_inv_advance (keeps_inv_writeSpsr v m))
    (keeps_inv_advance (keeps_inv_writeCpsr v m))

/-! ### Groups of registers -/

/-- A new FPU keeps the invariant if its two status registers have only the bits they may have. -/
theorem inv_setFpu {s : State} (h : Inv s) {u : Fpu} (hr : u.fpscr &&& 0x0808FF60 = 0) (he : u.fpexc &&& 0x9FFFFFFF = 0) :
    Inv { s with fpu := u } :=
  { h with canonical := { h.canonical with }, fpscrReserved := hr, fpexcReserved := he }

theorem inv_setDouble {s : State} (h : Inv s) (n : BitVec 4) (v : BitVec 64) : Inv (s.setDouble n v) :=
  inv_setFpu h h.fpscrReserved h.fpexcReserved

theorem inv_setSingle {s : State} (h : Inv s) (n : BitVec 5) (v : Word) : Inv (s.setSingle n v) := inv_setDouble h _ _

/-- A change of CP15 that leaves SCTLR and RGNR alone keeps the invariant. -/
theorem inv_setCp15 {s : State} (h : Inv s) {c : Cp15} (hs : c.sctlr = s.cp15.sctlr) (hr : c.rgnr = s.cp15.rgnr) :
    Inv { s with cp15 := c } :=
  { h with canonical := { h.canonical with }, sctlrFixed := hs ▸ h.sctlrFixed, regionInRange := hr ▸ h.regionInRange }

theorem keeps_inv_setCp15 {f : Cp15 → Cp15} (hs : ∀ c, (f c).sctlr = c.sctlr) (hr : ∀ c, (f c).rgnr = c.rgnr) :
    Keeps Inv (setCp15 f) := fun _ h => inv_setCp15 h (hs _) (hr _)

theorem keeps_inv_setPmu (f : Pmu → Pmu) : Keeps Inv (setPmu f) :=
  fun _ h => { h with canonical := { h.canonical with } }

/-! ### CP15 -/

/-- The writable bits of SCTLR are not among the fixed ones (11_cp15_registers.md R120). -/
theorem sctlrMask_and (cfg : Config) : sctlrMask cfg &&& 0xB5D5C3F8 = 0 := by
  unfold sctlrMask
  generalize (cfg.icache == .none) = i
  generalize (cfg.dcache == .none) = d
  revert i d
  decide

theorem keeps_inv_writeSctlr (v : Word) : Keeps Inv (writeSctlr v) := by
  refine keeps_get_of fun s h => ?_
  have hnew : maskWrite s.cp15.sctlr v (sctlrMask s.cfg) &&& 0xB5D5C3F8 = 0x00C50078 :=
    (maskWrite_and_of_disjoint (sctlrMask_and s.cfg)).trans h.sctlrFixed
  exact keeps_bind (keeps_refuseIf _ _) fun _ => keeps_modify fun t ht =>
    { ht with canonical := { ht.canonical with }, sctlrFixed := hnew }

theorem keeps_inv_writeActlr (v : Word) : Keeps Inv (writeActlr v) := by
  refine keeps_get fun s => keeps_ite (keeps_inv_setCp15 (fun _ => rfl) fun _ => rfl) ?_
  exact keeps_bind (keeps_refuseIf _ _) fun _ => keeps_modify fun t ht =>
    { ht with canonical := { ht.canonical with } }

/-- A write of RGNR is refused past the last region, so RGNR goes on naming one (11_cp15_registers.md R148, U13). -/
theorem keeps_inv_writeRgnr (v : Word) : Keeps Inv (writeCp15 .rgnr v) := by
  intro s h
  show Inv (after ((refuseIf (decide (regionCount s.cfg ≤ v.toNat)) .regionNumber >>= fun _ =>
    setCp15 fun c => { c with rgnr := v }) s))
  rw [bind_apply, refuseIf_apply]
  by_cases hv : regionCount s.cfg ≤ v.toNat
  · rw [if_pos (decide_eq_true hv)]
    exact h
  · rw [if_neg (by simpa using hv)]
    exact { h with canonical := { h.canonical with }, regionInRange := Nat.lt_of_not_le hv }

theorem accesses_performOp (o : Cp15Op) (v : Word) : Accesses (performOp o v) := by
  cases o with
  | nop => exact accesses_pure _
  | dsb => exact accesses_modify accessStep_completeAccesses
  | dmb => exact accesses_pure _
  | isb => exact accesses_modify accessStep_synchronise
  | iciallu => exact accesses_bind accesses_invalidateICache fun _ => accesses_bind accesses_noteDropped fun _ =>
      accesses_noteForgotten
  | icimvau => exact accesses_bind (accesses_invalidateICacheAt v) fun _ => accesses_noteDroppedAt v
  | bpiall => exact accesses_noteForgotten
  | bpimva => exact accesses_noteForgottenAt v
  | dcimvac => exact accesses_bind accesses_maintained fun _ => accesses_atLine v accesses_invalidateLine
  | dcisw => exact accesses_bind accesses_maintained fun _ => accesses_bySetWay v fun way set =>
      accesses_bind (accesses_invalidateLine way set) fun _ => accesses_noteInvalidated way set
  | dccmva => exact accesses_bind accesses_maintained fun _ => accesses_bind (accesses_atLine v accesses_cleanLine) fun _ =>
      accesses_noteCleanedAt v
  | dccsw => exact accesses_bind accesses_maintained fun _ => accesses_bySetWay v fun way set =>
      accesses_bind (accesses_cleanLine way set) fun _ => accesses_noteCleaned way set
  | dccimvac => exact accesses_bind accesses_maintained fun _ =>
      accesses_bind (accesses_atLine v accesses_cleanInvalidateLine) fun _ => accesses_noteCleanedAt v
  | dccisw => exact accesses_bind accesses_maintained fun _ => accesses_bySetWay v fun way set =>
      accesses_bind (accesses_cleanInvalidateLine way set) fun _ => accesses_bind (accesses_noteInvalidated way set) fun _ =>
        accesses_noteCleaned way set

theorem sparseWf_writeChunk (s : State) {m : List (Nat × Byte)} (h : sparseWf 0 m = true) (key : Nat) :
    sparseWf 0 (writeChunk s m key) = true := sparseWf_writeIf h _ _ _

theorem inv_setRamData {s : State} (h : Inv s) (lo hi : Word) (chunk : Byte) : Inv (setRamData s lo hi chunk) :=
  inv_setCp15 h rfl rfl

theorem inv_clearRadrhi {s : State} (h : Inv s) : Inv (clearRadrhi s) := inv_setCp15 h rfl rfl

theorem inv_setDcache {s : State} (h : Inv s) {c : CacheRam} (hc : CacheWf s.dcache → CacheWf c) :
    Inv { s with dcache := c } := (accessStep_dcache hc).inv h

theorem inv_setIcache {s : State} (h : Inv s) {c : CacheRam} (hc : CacheWf s.icache → CacheWf c) :
    Inv { s with icache := c } := (accessStep_icache hc).inv h

theorem inv_directDCache {s : State} (h : Inv s) (v : Word) : Inv (directDCache v s) := by
  unfold directDCache
  dsimp only
  split
  · split
    · exact inv_clearRadrhi (inv_setDcache h fun c =>
        { c with data := sparseWf_write_zero c.data _ _, dataEcc := sparseWf_writeChunk s c.dataEcc _ })
    · exact inv_setRamData h _ _ _
  · split
    · exact inv_clearRadrhi (inv_setDcache h fun c =>
        { c with tag := sparseWf_write_zero c.tag _ _, tagEcc := sparseWf_writeChunk s c.tagEcc _ })
    · exact inv_setRamData h _ _ _

theorem inv_directICache {s : State} (h : Inv s) (v : Word) : Inv (directICache v s) := by
  unfold directICache
  dsimp only
  split
  · split
    · exact inv_setIcache h fun c =>
        { c with data := sparseWf_write_zero (sparseWf_write_zero c.data _ _) _ _
                 dataEcc := sparseWf_writeChunk s c.dataEcc _ }
    · exact inv_setRamData h _ _ _
  · split
    · exact inv_setIcache h fun c =>
        { c with tag := sparseWf_write_zero c.tag _ _, tagEcc := sparseWf_writeChunk s c.tagEcc _ }
    · exact inv_setRamData h _ _ _

theorem inv_directDtcm {s : State} (h : Inv s) (v : Word) : Inv (directDtcm v s) := by
  unfold directDtcm
  split
  · split
    · exact inv_clearRadrhi ((accessStep_dtcm fun t =>
        ⟨wf_storeBytes t.bytes _ _, sparseWf_writeChunk s t.ecc _⟩).inv h)
    · exact inv_setRamData h _ _ _
  · split
    · exact inv_clearRadrhi h
    · exact inv_setRamData h _ _ _

theorem inv_directItcm {s : State} (h : Inv s) (v : Word) : Inv (directItcm v s) := by
  unfold directItcm
  split
  · split
    · exact (accessStep_itcm fun t => ⟨wf_storeBytes t.bytes _ _, sparseWf_writeChunk s t.ecc _⟩).inv h
    · exact inv_setRamData h _ _ _
  · split
    · exact h
    · exact inv_setRamData h _ _ _

theorem inv_freeRamData {s : State} (h : Inv s) (instruction : Bool) : Inv (freeRamData instruction s) :=
  inv_setCp15 ((accessStep_draw s (s.free + 3)).inv h) rfl rfl

theorem inv_directAccess {s : State} (h : Inv s) (v : Word) : Inv (directAccess v s) := by
  unfold directAccess
  dsimp only
  generalize (if v.getLsbD 22 then _ else _ : RamSize) = size
  split
  · split
    · exact h
    · exact inv_freeRamData h _
  split
  · split
    · exact inv_directItcm h v
    · exact inv_directDtcm h v
  split
  · exact inv_directICache h v
  · exact inv_directDCache h v

theorem keeps_currentRegion {P : State → Prop} : Keeps P currentRegion := by
  intro s h
  unfold currentRegion
  split <;> exact h

theorem keeps_inv_readCp15 (r : Cp15Reg) : Keeps Inv (readCp15 r) := by
  refine keeps_get fun s => ?_
  cases r
  case drbar | drsr | dracr => exact keeps_bind keeps_currentRegion fun _ => keeps_pure _
  case op | pmswinc => exact keeps_undefined
  case ctdor => exact keeps_inv_drawWord
  case pmxevtyper | pmxevcntr =>
    dsimp only
    split
    · exact keeps_pure _
    · exact keeps_inv_drawWord
  all_goals exact keeps_pure _

theorem keeps_inv_writeCp15 (r : Cp15Reg) (v : Word) : Keeps Inv (writeCp15 r v) := by
  by_cases hr : r = .rgnr
  · exact hr ▸ keeps_inv_writeRgnr v
  refine keeps_get fun s => ?_
  cases r
  case rgnr => exact absurd rfl hr
  case midr | ctr | tcmtr | mpuir | mpidr | revidr | feature | ccsidr | clidr | aidr | cbar => exact keeps_undefined
  case sctlr => exact keeps_inv_writeSctlr v
  case actlr => exact keeps_inv_writeActlr v
  case drbar | drsr | dracr =>
    exact keeps_bind keeps_currentRegion fun _ => keeps_inv_setCp15 (fun _ => rfl) fun _ => rfl
  case op o => exact (accesses_performOp o v).keeps_inv
  case ctdor => exact keeps_modify fun _ h => inv_directAccess h v
  case pmcr | pmcntenset | pmcntenclr | pmovsr | pmswinc | pmselr | pmccntr | pmuserenr | pmintenset | pmintenclr =>
    exact keeps_inv_setPmu _
  case pmxevtyper | pmxevcntr =>
    dsimp only
    split
    · exact keeps_inv_setPmu _
    · exact keeps_pure ()
  all_goals exact keeps_inv_setCp15 (fun _ => rfl) fun _ => rfl

theorem keeps_inv_receive (rt : Reg) (v : Word) : Keeps Inv (receive rt v) :=
  keeps_ite (keeps_inv_advance (keeps_modify fun _ h => inv_setFlags h _ _ _ _))
    (keeps_inv_advance (keeps_inv_writeReg _ _))

/-! ### Operands and results -/

theorem keeps_operandImm {P : State → Prop} (rotate : BitVec 4) (imm8 : BitVec 8) : Keeps P (operandImm rotate imm8) :=
  fun _ h => h

theorem keeps_operandReg {P : State → Prop} (rm : Reg) (ty : ShiftType) (imm5 : BitVec 5) :
    Keeps P (operandReg rm ty imm5) := fun _ h => h

theorem keeps_operandRsr {P : State → Prop} (rm : Reg) (ty : ShiftType) (rs : Reg) : Keeps P (operandRsr rm ty rs) :=
  fun _ h => h

theorem keeps_zeroBits {P : State → Prop} (sbz : BitVec 4) : Keeps P (zeroBits sbz) := keeps_refuseIf _ _

theorem keeps_inv_logical (S : Bool) (rd : Reg) (r : Word) (c : Bool) : Keeps Inv (logical S rd r c) :=
  keeps_inv_writeResult S rd r (keeps_inv_setLogicalFlags r c)

theorem keeps_inv_arithmetic (S : Bool) (rd : Reg) (sum : Sum) : Keeps Inv (arithmetic S rd sum) :=
  keeps_inv_writeResult S rd _ (keeps_inv_setResultFlags _ _ _)

theorem keeps_inv_logicalTest (r : Word) (c : Bool) : Keeps Inv (logicalTest r c) :=
  keeps_inv_advance (keeps_inv_setLogicalFlags r c)

theorem keeps_inv_arithmeticTest (sum : Sum) : Keeps Inv (arithmeticTest sum) :=
  keeps_inv_advance (keeps_inv_setResultFlags _ _ _)

/-! ### Data processing -/

section
variable {P : State → Prop} {f : Word × Bool → M Unit} (hf : ∀ o, Keeps P (f o))
include hf

theorem keeps_immForm (rotate : BitVec 4) (imm8 : BitVec 8) : Keeps P (operandImm rotate imm8 >>= f) :=
  keeps_bind (keeps_operandImm rotate imm8) hf

theorem keeps_regForm (rm : Reg) (ty : ShiftType) (imm5 : BitVec 5) : Keeps P (operandReg rm ty imm5 >>= f) :=
  keeps_bind (keeps_operandReg rm ty imm5) hf

/-- The register-shifted form of an operation with a destination or a first source, no register of it R15. -/
theorem keeps_rsrForm (r rm rs : Reg) (ty : ShiftType) :
    Keeps P (do notPc r; notPc rm; notPc rs; operandRsr rm ty rs >>= f) :=
  keeps_bind (keeps_notPc r) fun _ => keeps_bind (keeps_notPc rm) fun _ => keeps_bind (keeps_notPc rs) fun _ =>
    keeps_bind (keeps_operandRsr rm ty rs) hf

/-- The register-shifted form of an operation with a destination and a first source. -/
theorem keeps_rsrFormThree (rd rn rm rs : Reg) (ty : ShiftType) :
    Keeps P (do notPc rd; notPc rn; notPc rm; notPc rs; operandRsr rm ty rs >>= f) :=
  keeps_bind (keeps_notPc rd) fun _ => keeps_rsrForm hf rn rm rs ty

end

theorem keeps_sbz {P : State → Prop} {x : M Unit} (sbz : BitVec 4) (hx : Keeps P x) :
    Keeps P (do zeroBits sbz; x) := keeps_bind (keeps_zeroBits sbz) fun _ => hx

/-! ### Wide moves, bit fields, multiplies -/

theorem keeps_inv_unary (rd rm : Reg) (f : Word → Word) : Keeps Inv (unary rd rm f) :=
  keeps_bind (keeps_notPc rd) fun _ => keeps_bind (keeps_notPc rm) fun _ => keeps_bind (keeps_readReg rm) fun _ =>
    keeps_inv_advance (keeps_inv_writeReg _ _)

theorem keeps_inv_divide (rd rm rn : Reg) (q : Word → Word → Word) : Keeps Inv (divide rd rm rn q) :=
  keeps_bind (keeps_notPc rd) fun _ => keeps_bind (keeps_notPc rm) fun _ => keeps_bind (keeps_notPc rn) fun _ =>
    keeps_bind (keeps_readReg rn) fun _ => keeps_bind (keeps_readReg rm) fun _ => keeps_get fun _ =>
      keeps_bind (keeps_undefinedIf _) fun _ => keeps_inv_advance (keeps_inv_writeReg _ _)

theorem keeps_inv_narrowResult (S : Bool) (rd : Reg) (r : Word) : Keeps Inv (narrowResult S rd r) :=
  keeps_bind (keeps_inv_writeReg _ _) fun _ =>
    keeps_inv_advanceIf (keeps_inv_setNZ _ _)

theorem keeps_inv_wideResult (S : Bool) (rdHi rdLo : Reg) (p : BitVec 64) : Keeps Inv (wideResult S rdHi rdLo p) :=
  keeps_bind (keeps_inv_writeReg _ _) fun _ => keeps_bind (keeps_inv_writeReg _ _) fun _ =>
    keeps_inv_advanceIf (keeps_inv_setNZ _ _)

theorem keeps_wideChecks {P : State → Prop} (rdHi rdLo rm rn : Reg) : Keeps P (wideChecks rdHi rdLo rm rn) :=
  keeps_bind (keeps_notPc _) fun _ => keeps_bind (keeps_notPc _) fun _ => keeps_bind (keeps_notPc _) fun _ =>
    keeps_bind (keeps_notPc _) fun _ => keeps_refuseIf _ _

/-! ### Single and doubleword accesses -/

theorem keeps_checkPrivilege {P : State → Prop} (p w : Bool) : Keeps P (checkPrivilege p w) := keeps_refuseIf _ _

theorem keeps_checkBase {P : State → Prop} (p w : Bool) (rn rt : Reg) : Keeps P (checkBase p w rn rt) :=
  keeps_refuseIf _ _

theorem keeps_registerOffset {P : State → Prop} (rm : Reg) (ty : ShiftType) (imm5 : BitVec 5) :
    Keeps P (registerOffset rm ty imm5) :=
  keeps_bind (keeps_notPc rm) fun _ => keeps_get fun _ => keeps_pure _

theorem keeps_plainOffset {P : State → Prop} (rm : Reg) : Keeps P (plainOffset rm) :=
  keeps_bind (keeps_notPc rm) fun _ => keeps_readReg rm

theorem keeps_inv_writeBack (rn : Reg) (ad : Address) : Keeps Inv (writeBack rn ad) :=
  keeps_ite (keeps_inv_writeReg _ _) (keeps_pure ())

theorem keeps_inv_loadInto (n : Nat) (ext : Word → Word) (p u w : Bool) (rn rt : Reg) (offset : Word) :
    Keeps Inv (loadInto n ext p u w rn rt offset) :=
  keeps_bind (keeps_checkPrivilege p w) fun _ => keeps_bind (keeps_notPc rt) fun _ =>
    keeps_bind (keeps_checkBase p w rn rt) fun _ => keeps_get fun _ => keeps_bind (keeps_inv_loadValue _ _) fun _ =>
      keeps_bind (keeps_inv_writeBack _ _) fun _ => keeps_inv_advance (keeps_inv_writeReg _ _)

theorem keeps_inv_loadWord (p u w : Bool) (rn rt : Reg) (offset : Word) : Keeps Inv (loadWord p u w rn rt offset) :=
  keeps_ite
    (keeps_bind (keeps_checkPrivilege p w) fun _ => keeps_bind (keeps_checkBase p w rn rt) fun _ => keeps_get fun _ =>
      keeps_bind (keeps_inv_loadValue _ _) fun _ => keeps_bind (keeps_refuseIf _ _) fun _ =>
        keeps_bind (keeps_inv_writeBack _ _) fun _ => keeps_inv_bxWritePc _)
    (keeps_inv_loadInto _ _ _ _ _ _ _ _)

theorem keeps_inv_storeFrom (n : Nat) (p u w : Bool) (rn rt : Reg) (offset : Word) :
    Keeps Inv (storeFrom n p u w rn rt offset) :=
  keeps_bind (keeps_checkPrivilege p w) fun _ => keeps_bind (keeps_checkBase p w rn rt) fun _ => keeps_get fun _ =>
    keeps_bind (keeps_inv_storeValue _ _ _) fun _ => keeps_inv_advance (keeps_inv_writeBack _ _)

theorem keeps_inv_scramble (m : Mode) (r : Reg) : Keeps Inv (scramble m r) :=
  keeps_bind keeps_inv_drawWord fun _ => keeps_modify fun _ h => inv_setRegIn h _ _ _

theorem keeps_checkDouble {P : State → Prop} (p w : Bool) (rn rt : Reg) : Keeps P (checkDouble p w rn rt) :=
  keeps_bind (keeps_refuseIf _ _) fun _ => keeps_bind (keeps_refuseIf _ _) fun _ =>
    keeps_bind (keeps_checkBase _ _ _ _) fun _ => keeps_checkBase _ _ _ _

theorem keeps_inv_storeTwo (acc : Access) (a v1 v2 : Word) : Keeps Inv (storeTwo acc a v1 v2) :=
  (accesses_storeTwo acc a v1 v2).keeps_inv

theorem keeps_inv_loadDouble (p u w : Bool) (rn rt : Reg) (offset : Word) :
    Keeps Inv (loadDouble p u w rn rt offset) :=
  keeps_bind (keeps_checkDouble p w rn rt) fun _ => keeps_get fun _ => keeps_bind (keeps_inv_loadValue _ _) fun _ =>
    keeps_bind (keeps_onAbort (keeps_inv_loadValue _ _) (keeps_ite (keeps_pure ()) (keeps_inv_scramble _ _))) fun _ =>
      keeps_bind (keeps_inv_writeBack _ _) fun _ => keeps_bind (keeps_inv_writeReg _ _) fun _ =>
        keeps_inv_advance (keeps_inv_writeReg _ _)

theorem keeps_inv_storeDouble (p u w : Bool) (rn rt : Reg) (offset : Word) :
    Keeps Inv (storeDouble p u w rn rt offset) :=
  keeps_bind (keeps_checkDouble p w rn rt) fun _ => keeps_get fun _ => keeps_bind (keeps_inv_storeTwo _ _ _ _) fun _ =>
    keeps_inv_advance (keeps_inv_writeBack _ _)

/-! ### Multiple accesses -/

theorem keeps_inv_loadList (privileged : Bool) (m : Mode) (keep : Fin 30) (rs : List Reg) (a : Word) :
    Keeps Inv (loadList privileged m keep rs a) := by
  induction rs generalizing a with
  | nil => exact keeps_pure _
  | cons r rs ih =>
    exact keeps_bind (keeps_inv_loadValue _ _) fun _ =>
      keeps_bind (keeps_onAbort (ih _) (keeps_ite (keeps_pure ()) (keeps_inv_scramble _ _))) fun _ => keeps_pure _

theorem inv_putList {s : State} (h : Inv s) (m : Mode) (vs : List (Reg × Word)) : Inv (putList m vs s) := by
  induction vs generalizing s with
  | nil => exact h
  | cons e vs ih => exact ih (inv_setRegIn h m e.1 e.2)

theorem keeps_inv_loadMultiple (p u S w : Bool) (rn : Reg) (regs : BitVec 16) :
    Keeps Inv (loadMultiple p u S w rn regs) := by
  have hend (vs : List (Reg × Word)) : Keeps Inv (match loadedPc vs with
      | none => fallThrough
      | some t => if S then exceptionReturn t else bxWritePc t) := by
    cases loadedPc vs with
    | none => exact keeps_inv_fallThrough
    | some t => exact keeps_ite (keeps_inv_exceptionReturn t) (keeps_inv_bxWritePc t)
  exact keeps_bind (keeps_notPc rn) fun _ => keeps_bind (keeps_refuseIf _ _) fun _ => keeps_get fun _ =>
    keeps_bind (keeps_refuseIf _ _) fun _ => keeps_bind (keeps_inv_loadList _ _ _ _ _) fun vs =>
      keeps_bind (keeps_modify fun _ h => inv_putList h _ vs) fun _ =>
        keeps_ite (keeps_bind (keeps_inv_writeReg _ _) fun _ => hend vs) (hend vs)

theorem keeps_inv_storedValue (m : Mode) (w : Bool) (rn : Reg) (regs : BitVec 16) (r : Reg) :
    Keeps Inv (storedValue m w rn regs r) := by
  intro s h
  unfold storedValue
  split
  · exact keeps_inv_drawWord s h
  · exact h

theorem keeps_inv_storeList (privileged : Bool) {value : Reg → M Word} (hv : ∀ r, Keeps Inv (value r)) (rs : List Reg)
    (a : Word) : Keeps Inv (storeList privileged value rs a) := by
  induction rs, a using storeList.induct with
  | case1 a => exact keeps_pure ()
  | case2 r a => exact keeps_bind (hv r) fun _ => keeps_inv_storeValue _ _ _
  | case3 r r' rs a ih1 ih2 =>
    exact keeps_get fun _ => keeps_ite
      (keeps_bind (hv r) fun _ => keeps_bind (hv r') fun _ => keeps_bind (keeps_inv_storeTwo _ _ _ _) fun _ => ih1)
      (keeps_bind (hv r) fun _ => keeps_bind (keeps_inv_storeValue _ _ _) fun _ => ih2)

theorem keeps_inv_storeMultiple (p u S w : Bool) (rn : Reg) (regs : BitVec 16) :
    Keeps Inv (storeMultiple p u S w rn regs) :=
  keeps_bind (keeps_notPc rn) fun _ => keeps_bind (keeps_refuseIf _ _) fun _ => keeps_get fun _ =>
    keeps_bind (keeps_inv_storeList _ (fun _ => keeps_inv_storedValue _ _ _ _ _) _ _) fun _ =>
      keeps_inv_advanceIf (keeps_inv_writeReg _ _)

/-! ### Exclusive accesses -/

theorem keeps_inv_setMonitor (b : Bool) : Keeps Inv (setMonitor b) :=
  keeps_modify fun _ h => { h with canonical := { h.canonical with } }

theorem keeps_inv_loadExclusive (n : Nat) (rn rt : Reg) : Keeps Inv (loadExclusive n rn rt) :=
  keeps_bind (keeps_notPc rn) fun _ => keeps_bind (keeps_notPc rt) fun _ => keeps_get fun _ =>
    keeps_bind (keeps_inv_loadValue _ _) fun _ => keeps_bind (keeps_inv_setMonitor _) fun _ =>
      keeps_inv_advance (keeps_inv_writeReg _ _)

theorem keeps_inv_exclusiveSucceeds (attr : Attr) (a : Word) : Keeps Inv (exclusiveSucceeds attr a) := by
  intro s h
  unfold exclusiveSucceeds
  split
  · exact h
  · exact keeps_inv_drawBool s h

theorem keeps_inv_writeAdmitted (acc : Access) (a : Word) (attr : Attr) (bs : List Byte) :
    Keeps Inv (writeAdmitted acc a attr bs) := (accesses_writeAdmitted acc a attr bs).keeps_inv

theorem keeps_inv_storeExclusive (bs : Bool → State → List Byte) (n : Nat) (rn rd : Reg) :
    Keeps Inv (storeExclusive bs n rn rd) := by
  intro s h
  unfold storeExclusive
  dsimp only
  split
  · exact h
  · have hend (v : Word) : Keeps Inv (do setMonitor false; writeReg rd v; fallThrough) :=
      keeps_bind (keeps_inv_setMonitor _) fun _ => keeps_inv_advance (keeps_inv_writeReg _ _)
    exact keeps_bind (keeps_inv_exclusiveSucceeds _ _) (fun _ => keeps_get fun _ =>
      keeps_ite (keeps_bind (keeps_inv_writeAdmitted _ _ _ _) fun _ => hend _) (hend _)) s h

theorem keeps_checkExclusive {P : State → Prop} (rn rd rt : Reg) : Keeps P (checkExclusive rn rd rt) :=
  keeps_bind (keeps_notPc _) fun _ => keeps_bind (keeps_notPc _) fun _ => keeps_bind (keeps_notPc _) fun _ =>
    keeps_refuseIf _ _

theorem keeps_inv_storeExclusiveFrom (n : Nat) (rn rd rt : Reg) : Keeps Inv (storeExclusiveFrom n rn rd rt) :=
  keeps_bind (keeps_checkExclusive rn rd rt) fun _ => keeps_inv_storeExclusive _ _ _ _

theorem keeps_checkPair {P : State → Prop} (rt : Reg) : Keeps P (checkPair rt) := keeps_refuseIf _ _

theorem keeps_inv_readBytes (acc : Access) (a : Word) : Keeps Inv (readBytes acc a) := (accesses_readBytes acc a).keeps_inv

theorem keeps_inv_swap (n : Nat) (rn rt rt2 : Reg) : Keeps Inv (swap n rn rt rt2) :=
  keeps_get fun _ => keeps_bind (keeps_undefinedIf _) fun _ => keeps_bind (keeps_notPc _) fun _ =>
    keeps_bind (keeps_notPc _) fun _ => keeps_bind (keeps_notPc _) fun _ => keeps_bind (keeps_refuseIf _ _) fun _ =>
      keeps_bind (keeps_inv_loadValue _ _) fun _ => keeps_bind (keeps_inv_storeValue _ _ _) fun _ =>
        keeps_inv_advance (keeps_inv_writeReg _ _)

/-! ### Floating-point computations -/

/-- A floating-point computation changes the cumulative flags of FPSCR only (43_vfp_instructions.md R1047). -/
def RaisesOnly {α : Type} (f : Fp α) : Prop := ∀ w : Word, (f w).2 &&& 0xFFFFFF60 = w &&& 0xFFFFFF60

theorem raisesOnly_pure {α : Type} (a : α) : RaisesOnly (pure a : Fp α) := fun _ => rfl

theorem raisesOnly_bind {α β : Type} {x : Fp α} {f : α → Fp β} (hx : RaisesOnly x) (hf : ∀ a, RaisesOnly (f a)) :
    RaisesOnly (x >>= f) := fun w => (hf (x w).1 (x w).2).trans (hx w)

theorem raisesOnly_ite {α : Type} {p : Prop} [Decidable p] {x y : Fp α} (hx : RaisesOnly x) (hy : RaisesOnly y) :
    RaisesOnly (if p then x else y) := by
  split <;> assumption

theorem raisesOnly_raiseFp {flags : Word} (h : flags &&& 0xFFFFFF60 = 0) : RaisesOnly (raiseFp flags) :=
  fun _ => or_and_of_disjoint h

theorem raisesOnly_raiseFpIf (b : Bool) {flags : Word} (h : flags &&& 0xFFFFFF60 = 0) : RaisesOnly (raiseFpIf b flags) := by
  cases b
  · exact fun _ => rfl
  · exact fun _ => or_and_of_disjoint h

theorem raisesOnly_flushToZero : RaisesOnly flushToZero := fun _ => rfl

theorem raisesOnly_defaultNaN : RaisesOnly defaultNaN := fun _ => rfl

theorem raisesOnly_roundingMode : RaisesOnly roundingMode := fun _ => rfl

/-- Raising a flag and then answering. -/
theorem raisesOnly_raise {α : Type} {flags : Word} (h : flags &&& 0xFFFFFF60 = 0) (a : α) :
    RaisesOnly (do raiseFp flags; pure a) := raisesOnly_bind (raisesOnly_raiseFp h) fun _ => raisesOnly_pure a

theorem raisesOnly_raiseIf {α : Type} (b : Bool) {flags : Word} (h : flags &&& 0xFFFFFF60 = 0) (a : α) :
    RaisesOnly (do raiseFpIf b flags; pure a) := raisesOnly_bind (raisesOnly_raiseFpIf b h) fun _ => raisesOnly_pure a

theorem raisesOnly_fpUnpack (f : Format) (x : Nat) : RaisesOnly (fpUnpack f x) := by
  have hp (v : FpValue) : RaisesOnly (pure v) := raisesOnly_pure v
  refine raisesOnly_ite (raisesOnly_ite (hp _) ?denormal) (raisesOnly_ite (raisesOnly_ite (hp _) (hp _)) (hp _))
  case denormal =>
    exact raisesOnly_bind raisesOnly_flushToZero fun _ => raisesOnly_ite (raisesOnly_raise (by decide) _) (hp _)

theorem raisesOnly_fpProcessNaN (f : Format) (c : FpClass) (x : Nat) : RaisesOnly (fpProcessNaN f c x) :=
  raisesOnly_bind (raisesOnly_raiseFpIf _ (by decide)) fun _ =>
    raisesOnly_bind raisesOnly_defaultNaN fun _ => raisesOnly_pure _

theorem raisesOnly_fpProcessNaNs (f : Format) (c1 c2 : FpClass) (x1 x2 : Nat) :
    RaisesOnly (fpProcessNaNs f c1 c2 x1 x2) := by
  have h (c : FpClass) (x : Nat) : RaisesOnly (do pure (some (← fpProcessNaN f c x))) :=
    raisesOnly_bind (raisesOnly_fpProcessNaN f c x) fun _ => raisesOnly_pure _
  exact raisesOnly_ite (h _ _) (raisesOnly_ite (h _ _) (raisesOnly_ite (h _ _) (raisesOnly_ite (h _ _) (raisesOnly_pure _))))

theorem raisesOnly_fpInvalid (f : Format) : RaisesOnly (fpInvalid f) := raisesOnly_raise (by decide) _

theorem raisesOnly_fpRoundWith (f : Format) (rm : Rounding) (sign : Bool) (sig : Nat) (exp : Int) (sticky : Bool) :
    RaisesOnly (fpRoundWith f rm sign sig exp sticky) := by
  refine raisesOnly_bind raisesOnly_flushToZero fun _ => raisesOnly_ite (raisesOnly_raise (by decide) _) ?_
  refine raisesOnly_bind (raisesOnly_raiseFpIf _ (by decide)) fun _ => ?_
  exact raisesOnly_ite
    (raisesOnly_ite (raisesOnly_raise (by decide) _) (raisesOnly_raiseIf _ (by decide) _))
    (raisesOnly_ite (raisesOnly_raise (by decide) _) (raisesOnly_raiseIf _ (by decide) _))

theorem raisesOnly_fpRound (f : Format) (sign : Bool) (sig : Nat) (exp : Int) (sticky : Bool) :
    RaisesOnly (fpRound f sign sig exp sticky) :=
  raisesOnly_bind raisesOnly_roundingMode fun _ => raisesOnly_fpRoundWith _ _ _ _ _ _

theorem raisesOnly_fpSum (f : Format) (a b : FpValue) : RaisesOnly (fpSum f a b) :=
  raisesOnly_ite (raisesOnly_fpInvalid f) <| raisesOnly_ite (raisesOnly_pure _) <| raisesOnly_ite (raisesOnly_pure _) <|
    raisesOnly_ite (raisesOnly_pure _) <|
      raisesOnly_ite (raisesOnly_bind raisesOnly_roundingMode fun _ => raisesOnly_pure _) (raisesOnly_fpRound _ _ _ _ _)

/-- An operation of two operands: unpacked, and where neither is a NaN the result of `g`. -/
theorem raisesOnly_twoOperands (f : Format) (x1 x2 : Nat) {g : FpValue → FpValue → Fp Nat} (hg : ∀ a b, RaisesOnly (g a b)) :
    RaisesOnly (do
      let a ← fpUnpack f x1
      let b ← fpUnpack f x2
      match ← fpProcessNaNs f a.cls b.cls x1 x2 with
      | some r => pure r
      | none => g a b) := by
  refine raisesOnly_bind (raisesOnly_fpUnpack f x1) fun a => raisesOnly_bind (raisesOnly_fpUnpack f x2) fun b =>
    raisesOnly_bind (raisesOnly_fpProcessNaNs f _ _ _ _) fun r => ?_
  cases r with
  | some r => exact raisesOnly_pure r
  | none => exact hg a b

theorem raisesOnly_fpAdd (f : Format) (x1 x2 : Nat) : RaisesOnly (fpAdd f x1 x2) :=
  raisesOnly_twoOperands f x1 x2 fun _ _ => raisesOnly_fpSum _ _ _

theorem raisesOnly_fpSub (f : Format) (x1 x2 : Nat) : RaisesOnly (fpSub f x1 x2) :=
  raisesOnly_twoOperands f x1 x2 fun _ _ => raisesOnly_fpSum _ _ _

theorem raisesOnly_fpMul (f : Format) (x1 x2 : Nat) : RaisesOnly (fpMul f x1 x2) :=
  raisesOnly_twoOperands f x1 x2 fun _ _ =>
    raisesOnly_ite (raisesOnly_fpInvalid f) <| raisesOnly_ite (raisesOnly_pure _) <| raisesOnly_ite (raisesOnly_pure _) <|
      raisesOnly_fpRound _ _ _ _ _

theorem raisesOnly_fpDiv (f : Format) (x1 x2 : Nat) : RaisesOnly (fpDiv f x1 x2) :=
  raisesOnly_twoOperands f x1 x2 fun _ _ =>
    raisesOnly_ite (raisesOnly_fpInvalid f) <| raisesOnly_ite (raisesOnly_raiseIf _ (by decide) _) <|
      raisesOnly_ite (raisesOnly_pure _) <| raisesOnly_fpRound _ _ _ _ _

theorem raisesOnly_fpSqrt (f : Format) (x : Nat) : RaisesOnly (fpSqrt f x) :=
  raisesOnly_bind (raisesOnly_fpUnpack f x) fun _ => raisesOnly_ite (raisesOnly_fpProcessNaN _ _ _) <|
    raisesOnly_ite (raisesOnly_pure _) <| raisesOnly_ite (raisesOnly_fpInvalid f) <| raisesOnly_ite (raisesOnly_pure _) <|
      raisesOnly_fpRound _ _ _ _ _

theorem raisesOnly_fpCompare (f : Format) (x1 x2 : Nat) (signalAll : Bool) : RaisesOnly (fpCompare f x1 x2 signalAll) :=
  raisesOnly_bind (raisesOnly_fpUnpack f x1) fun _ => raisesOnly_bind (raisesOnly_fpUnpack f x2) fun _ =>
    raisesOnly_ite (raisesOnly_raiseIf _ (by decide) _) (raisesOnly_pure _)

theorem raisesOnly_fpToFixed (f : Format) (x m fb : Nat) (uns towardsZero : Bool) :
    RaisesOnly (fpToFixed f x m fb uns towardsZero) :=
  raisesOnly_bind (raisesOnly_fpUnpack f x) fun _ => raisesOnly_bind raisesOnly_roundingMode fun _ =>
    raisesOnly_ite (raisesOnly_raise (by decide) _) <| raisesOnly_ite (raisesOnly_raise (by decide) _) <|
      raisesOnly_ite (raisesOnly_raise (by decide) _) <| raisesOnly_ite (raisesOnly_raise (by decide) _) <|
        raisesOnly_raiseIf _ (by decide) _

theorem raisesOnly_fpFromFixed (f : Format) (i : Int) (fb : Nat) (toNearest : Bool) :
    RaisesOnly (fpFromFixed f i fb toNearest) :=
  raisesOnly_bind raisesOnly_roundingMode fun _ => raisesOnly_ite (raisesOnly_pure _) (raisesOnly_fpRoundWith _ _ _ _ _ _)

theorem raisesOnly_fpConvertNaN (src dst : Format) (a : FpValue) (x : Nat) : RaisesOnly (fpConvertNaN src dst a x) :=
  raisesOnly_bind (raisesOnly_raiseFpIf _ (by decide)) fun _ =>
    raisesOnly_ite (raisesOnly_pure _) (raisesOnly_bind raisesOnly_defaultNaN fun _ => raisesOnly_pure _)

theorem raisesOnly_fpConvert (src dst : Format) (x : Nat) : RaisesOnly (fpConvert src dst x) :=
  raisesOnly_bind (raisesOnly_fpUnpack src x) fun _ => raisesOnly_ite (raisesOnly_fpConvertNaN _ _ _ _) <|
    raisesOnly_ite (raisesOnly_ite (raisesOnly_raise (by decide) _) (raisesOnly_pure _)) <|
      raisesOnly_ite (raisesOnly_pure _) (raisesOnly_fpRound _ _ _ _ _)

/-! ### VFP -/

theorem keeps_inv_runFp {α : Type} {f : Fp α} (hf : RaisesOnly f) : Keeps Inv (runFp f) := fun _ h =>
  inv_setFpu h ((and_eq_of_and_eq (hf _) (by decide)).trans h.fpscrReserved) h.fpexcReserved

theorem keeps_readFp {P : State → Prop} (sz : Bool) (v : BitVec 4) (b : Bool) : Keeps P (readFp sz v b) := fun _ h => h

theorem keeps_inv_writeFp (sz : Bool) (v : BitVec 4) (b : Bool) (x : Nat) : Keeps Inv (writeFp sz v b x) := by
  refine keeps_modify fun s h => ?_
  split
  · exact inv_setDouble h _ _
  · exact inv_setSingle h _ _

theorem keeps_vfpAccess {P : State → Prop} : Keeps P vfpAccess :=
  keeps_get fun _ => keeps_bind (keeps_undefinedIf _) fun _ => keeps_bind (keeps_refuseIf _ _) fun _ =>
    keeps_bind (keeps_undefinedIf _) fun _ => keeps_bind (keeps_undefinedIf _) fun _ => keeps_refuseIf _ _

theorem keeps_vfpOn {P : State → Prop} : Keeps P vfpOn :=
  keeps_bind keeps_vfpAccess fun _ => keeps_get fun _ => keeps_undefinedIf _

theorem keeps_checkTransfer {P : State → Prop} (bad : Bool) : Keeps P (checkTransfer bad) :=
  keeps_bind keeps_vfpOn fun _ => keeps_undefinedIf _

/-- A short vector sets FPEXC.DEX, one of the two bits FPEXC has. -/
theorem keeps_inv_vectorTrap : Keeps Inv vectorTrap :=
  keeps_get fun _ => keeps_ite
    (keeps_bind (keeps_modify fun _ h =>
      inv_setFpu h h.fpscrReserved ((or_and_of_disjoint (by decide)).trans h.fpexcReserved)) fun _ => keeps_undefined)
    (keeps_pure ())

theorem keeps_inv_checkData (bad dbl : Bool) : Keeps Inv (checkData bad dbl) :=
  keeps_bind keeps_vfpOn fun _ => keeps_get fun _ => keeps_bind (keeps_undefinedIf _) fun _ => keeps_inv_vectorTrap

/-- The result of a computation goes to a register. -/
theorem keeps_inv_result {f : Fp Nat} (hf : RaisesOnly f) (sz : Bool) (v : BitVec 4) (b : Bool) :
    Keeps Inv (do writeFp sz v b (← runFp f); fallThrough) :=
  keeps_bind (keeps_inv_runFp hf) fun _ => keeps_inv_advance (keeps_inv_writeFp _ _ _ _)

theorem keeps_inv_vfpThree (d : Bool) (vn vd : BitVec 4) (sz n m : Bool) (vm : BitVec 4)
    {f : Format → Nat → Nat → Nat → Fp Nat} (hf : ∀ fmt acc x y, RaisesOnly (f fmt acc x y)) :
    Keeps Inv (vfpThree d vn vd sz n m vm f) :=
  keeps_bind (keeps_inv_checkData _ _) fun _ => keeps_bind (keeps_readFp _ _ _) fun _ =>
    keeps_bind (keeps_readFp _ _ _) fun _ => keeps_bind (keeps_readFp _ _ _) fun _ => keeps_inv_result (hf _ _ _ _) _ _ _

theorem keeps_inv_vfpTwo (d : Bool) (vd : BitVec 4) (sz m : Bool) (vm : BitVec 4) {f : Format → Nat → Fp Nat}
    (hf : ∀ fmt x, RaisesOnly (f fmt x)) : Keeps Inv (vfpTwo d vd sz m vm f) :=
  keeps_bind (keeps_inv_checkData _ _) fun _ => keeps_bind (keeps_readFp _ _ _) fun _ => keeps_inv_result (hf _ _) _ _ _

theorem keeps_inv_setFpscrFlags (nzcv : BitVec 4) : Keeps Inv (setFpscrFlags nzcv) :=
  keeps_modify fun _ h => inv_setFpu h ((maskWrite_and_of_disjoint (by decide)).trans h.fpscrReserved) h.fpexcReserved

/-- VMSR reaches no reserved bit of FPSCR or FPEXC (40_system_register_access.md R451, R452). -/
theorem inv_writeFpuReg {s : State} (h : Inv s) (r : FpuReg) (v : Word) : Inv (writeFpuReg r v s) := by
  cases r with
  | fpscr => exact inv_setFpu h ((maskWrite_and_of_disjoint (by decide)).trans h.fpscrReserved) h.fpexcReserved
  | fpexc => exact inv_setFpu h h.fpscrReserved ((maskWrite_and_of_disjoint (by decide)).trans h.fpexcReserved)
  | fpsid => exact h
  | mvfr1 => exact h
  | mvfr0 => exact h

theorem keeps_fpuRegAccess {P : State → Prop} (reg : BitVec 4) : Keeps P (fpuRegAccess reg) := by
  refine keeps_bind keeps_vfpAccess fun _ => keeps_get fun _ => ?_
  cases fpuReg reg with
  | some r => exact keeps_bind (keeps_undefinedIf _) fun _ => keeps_pure r
  | none => exact keeps_refuse _

theorem keeps_inv_loadFp (privileged : Bool) (form : AccessForm) (sz : Bool) (a : Word) :
    Keeps Inv (loadFp privileged form sz a) :=
  keeps_ite
    (keeps_get fun _ => keeps_bind (keeps_inv_loadValue _ _) fun _ => keeps_bind (keeps_inv_loadValue _ _) fun _ => keeps_pure _)
    (keeps_bind (keeps_inv_loadValue _ _) fun _ => keeps_pure _)

theorem keeps_inv_storeFp (privileged : Bool) (form : AccessForm) (sz : Bool) (a : Word) (x : Nat) :
    Keeps Inv (storeFp privileged form sz a x) :=
  keeps_ite (keeps_get fun _ => keeps_inv_storeTwo _ _ _ _) (keeps_inv_storeValue _ _ _)

theorem keeps_inv_loadFpList (privileged sz : Bool) (r n : Nat) (a : Word) :
    Keeps Inv (loadFpList privileged sz r n a) := by
  induction n generalizing r a with
  | zero => exact keeps_pure ()
  | succ n ih =>
    exact keeps_bind (keeps_inv_loadFp _ _ _ _) fun _ => keeps_bind (keeps_inv_writeFp _ _ _ _) fun _ => ih _ _

theorem keeps_inv_storeFpList (privileged sz : Bool) (r n : Nat) (a : Word) :
    Keeps Inv (storeFpList privileged sz r n a) := by
  induction n generalizing r a with
  | zero => exact keeps_pure ()
  | succ n ih =>
    exact keeps_bind (keeps_readFp _ _ _) fun _ => keeps_bind (keeps_inv_storeFp _ _ _ _ _) fun _ => ih _ _

theorem keeps_inv_scrambleFp (sz : Bool) (r n : Nat) : Keeps Inv (scrambleFp sz r n) := by
  induction n generalizing r with
  | zero => exact keeps_pure ()
  | succ n ih =>
    exact keeps_bind keeps_inv_drawWord fun _ => keeps_bind keeps_inv_drawWord fun _ =>
      keeps_bind (keeps_inv_writeFp _ _ _ _) fun _ => ih _

theorem keeps_checkList {P : State → Prop} (w d : Bool) (rn : Reg) (vd : BitVec 4) (sz : Bool) (imm8 : BitVec 8) :
    Keeps P (checkList w d rn vd sz imm8) := keeps_refuseIf _ _

theorem keeps_inv_vfpLoadMultiple (u d w : Bool) (rn : Reg) (vd : BitVec 4) (sz : Bool) (imm8 : BitVec 8) :
    Keeps Inv (vfpLoadMultiple u d w rn vd sz imm8) :=
  keeps_bind (keeps_checkTransfer _) fun _ => keeps_bind (keeps_checkList _ _ _ _ _ _) fun _ => keeps_get fun _ =>
    keeps_bind (keeps_onAbort (keeps_inv_loadFpList _ _ _ _ _) (keeps_inv_scrambleFp _ _ _)) fun _ =>
      keeps_inv_advanceIf (keeps_inv_writeReg _ _)

theorem keeps_inv_vfpStoreMultiple (u d w : Bool) (rn : Reg) (vd : BitVec 4) (sz : Bool) (imm8 : BitVec 8) :
    Keeps Inv (vfpStoreMultiple u d w rn vd sz imm8) :=
  keeps_bind (keeps_checkTransfer _) fun _ => keeps_bind (keeps_checkList _ _ _ _ _ _) fun _ => keeps_get fun _ =>
    keeps_bind (keeps_inv_storeFpList _ _ _ _ _) fun _ => keeps_inv_advanceIf (keeps_inv_writeReg _ _)

theorem keeps_notPcVfp {P : State → Prop} (r : Reg) : Keeps P (notPcVfp r) := keeps_refuseIf _ _

/-! ### Standby -/

/-- The standby state and the event register are no part of the invariant. -/
theorem inv_setStandby {s : State} (h : Inv s) (b : Standby) (e : Bool) (o : Outputs) :
    Inv { s with standby := b, eventReg := e, outs := o } := { h with canonical := { h.canonical with } }

theorem inv_waitForInterrupt {s : State} (h : Inv s) : Inv (waitForInterrupt s) := by
  unfold waitForInterrupt
  split
  · exact h
  · exact inv_setStandby h _ _ _

theorem inv_waitForEvent {s : State} (h : Inv s) : Inv (waitForEvent s) := by
  unfold waitForEvent
  split
  · exact inv_setStandby h _ _ _
  split
  · exact h
  · exact inv_setStandby h _ _ _

theorem inv_sendEvent {s : State} (h : Inv s) : Inv (sendEvent s) := inv_setStandby h _ _ _

theorem inv_wait {s : State} (h : Inv s) : Inv (wait s) := by
  unfold wait
  cases s.standby with
  | running => exact h
  | wfi =>
    dsimp only
    split
    · exact inv_setStandby h _ _ _
    · exact h
  | wfe =>
    dsimp only
    split
    · exact inv_setStandby h _ _ _
    split
    · exact inv_setStandby h _ _ _
    · exact h
  | halted =>
    dsimp only
    split
    · exact inv_setStandby h _ _ _
    · exact h

/-! ### The hardware beside the processor -/

theorem accessStep_raisePpi (id : Nat) (s : State) : AccessStep s (raisePpi id s) := by
  unfold raisePpi
  split
  · exact ⟨rfl, fun h => { h with }⟩
  · exact AccessStep.refl s

theorem accessStep_timerTick (s : State) : AccessStep s (timerTick s) := by
  unfold timerTick
  dsimp only
  split
  · split
    · split
      · exact (accessStep_timers s _).trans (accessStep_raisePpi 29 _)
      · exact accessStep_timers s _
    · exact accessStep_timers s _
  split
  · exact accessStep_timers s _
  · exact AccessStep.refl s

theorem accessStep_watchdogTick (s : State) : AccessStep s (watchdogTick s) := by
  unfold watchdogTick
  dsimp only
  split
  · split
    · split
      · exact ⟨rfl, fun h => { h with }⟩
      split
      · exact (accessStep_timers s _).trans (accessStep_raisePpi 30 _)
      · exact accessStep_timers s _
    · exact accessStep_timers s _
  split
  · exact accessStep_timers s _
  · exact AccessStep.refl s

theorem accessStep_timerEdge (s : State) : AccessStep s (timerEdge s) := by
  unfold timerEdge
  split
  · exact AccessStep.refl s
  split
  · exact (accessStep_timers s _).trans (accessStep_timerTick _)
  · exact accessStep_timers s _

theorem accessStep_watchdogEdge (s : State) : AccessStep s (watchdogEdge s) := by
  unfold watchdogEdge
  split
  · exact AccessStep.refl s
  split
  · exact (accessStep_timers s _).trans (accessStep_watchdogTick _)
  · exact accessStep_timers s _

theorem accessStep_globalEdge (s : State) : AccessStep s (globalEdge s) := by
  unfold globalEdge
  split
  · exact AccessStep.refl s
  split
  · exact accessStep_timers s _
  · exact accessStep_timers s _

theorem accessStep_timerStage (s : State) : AccessStep s (timerStage s) := by
  unfold timerStage
  split
  · exact (accessStep_draw s _).trans (accessStep_times (fun t =>
      ((accessStep_timerEdge t).trans (accessStep_watchdogEdge _)).trans (accessStep_globalEdge _)) _ _)
  · exact AccessStep.refl s

theorem accessStep_sampleInputs (s : State) : AccessStep s (sampleInputs s) := by
  unfold sampleInputs
  split
  · exact ⟨rfl, fun h => { h with }⟩
  · exact AccessStep.refl s

theorem accessStep_advanceEvent (s : State) (n : Fin 8) : AccessStep s (advanceEvent s n) := by
  unfold advanceEvent
  split
  · exact ⟨rfl, fun h => { h with }⟩
  · exact AccessStep.refl s

theorem accessStep_pmuStage (s : State) : AccessStep s (pmuStage s) := by
  unfold pmuStage
  split
  · refine AccessStep.trans (t := if counterEnabled s.pmu 31 then
        { s with pmu := bumpCycles (Config.freeCount s.free) s.pmu, free := s.free + 1 } else s) ?_
      (accessStep_foldl accessStep_advanceEvent _ _)
    split
    · exact ⟨rfl, fun h => { h with }⟩
    · exact AccessStep.refl s
  · exact AccessStep.refl s

theorem accessStep_clearPulses (s : State) : AccessStep s (clearPulses s) := ⟨rfl, fun h => { h with }⟩

theorem inv_sampleEvent {s : State} (h : Inv s) : Inv (sampleEvent s) := by
  unfold sampleEvent
  split
  · exact inv_setStandby h _ _ _
  · exact h

theorem inv_sampleWakeup {s : State} (h : Inv s) : Inv (sampleWakeup s) := by
  unfold sampleWakeup
  split
  · exact inv_setStandby h _ _ _
  · exact h

theorem inv_hardwareStage {s : State} (h : Inv s) : Inv (hardwareStage s) := by
  have h1 : Inv (sampleEvent (clearPulses s)) := inv_sampleEvent ((accessStep_clearPulses s).inv h)
  have h2 : Inv (sampleInputs (timerStage (sampleEvent (clearPulses s)))) :=
    ((accessStep_timerStage _).trans (accessStep_sampleInputs _)).inv h1
  exact ((accessStep_pmuStage _).trans (accessStep_engineStage _)).inv (inv_sampleWakeup h2)

/-! ### Instructions with a body of their own -/

section
variable {s t : State} (h : Inv s)
include h

theorem inv_execSetend {b : Bool} (e : execSetend b s = .next t) : Inv t :=
  inv_always (keeps_inv_advance (keeps_modify fun _ i =>
    inv_setCpsr i (i.psr.congr ((setBit_and _ _ 9 _ (by decide)))))) h e

theorem inv_execCps {imod : BitVec 2} {m a i f : Bool} {mode : BitVec 5} (e : execCps imod m a i f mode s = .next t) :
    Inv t :=
  inv_always (keeps_get fun _ => keeps_inv_advanceIf (keeps_inv_changeState imod m a i f mode)) h e

theorem inv_execRfe {p u w : Bool} {rn : Reg} (e : execRfe p u w rn s = .next t) : Inv t := by
  have hend (newPc newCpsr : Word) : Keeps Inv (do restoreCpsr newCpsr; branchWritePc newPc) :=
    keeps_bind (keeps_inv_restoreCpsr _) fun _ => keeps_inv_branchWritePc _
  refine inv_always ?_ h e
  exact keeps_get fun _ => keeps_bind (keeps_refuseIf _ _) fun _ => keeps_bind (keeps_notPc rn) fun _ =>
    keeps_bind (keeps_readReg rn) fun _ => keeps_bind (keeps_inv_loadValue _ _) fun _ =>
      keeps_bind (keeps_inv_loadValue _ _) fun _ =>
        keeps_ite (keeps_bind (keeps_inv_writeReg _ _) fun _ => hend _ _) (hend _ _)

theorem inv_execSrs {p u w : Bool} {mode : BitVec 5} (e : execSrs p u w mode s = .next t) : Inv t := by
  refine inv_always (keeps_bind keeps_inv_readSpsr fun _ => ?_) h e
  cases Mode.ofBits mode with
  | none => exact keeps_refuse _
  | some m =>
    exact keeps_get fun _ => keeps_bind (keeps_inv_storeTwo _ _ _ _) fun _ =>
      keeps_inv_advanceIf (keeps_modify fun _ i => inv_setRegIn i m 13 _)

theorem inv_execSvc {c : Cond} {imm24 : BitVec 24} (e : execSvc c imm24 s = .next t) : Inv t := by
  unfold execSvc at e
  split at e
  · exact (entered_next e).1 ▸ inv_takeSupervisorCall h
  · exact inv_conditional keeps_inv_fallThrough h e

theorem inv_execBkpt {imm12 : BitVec 12} {imm4 : BitVec 4} (e : execBkpt imm12 imm4 s = .next t) : Inv t :=
  (entered_next e).1 ▸ inv_takePrefetchAbort ((accessStep_draw s _).inv h) _ _

theorem inv_execMrs {c : Cond} {r : Bool} {rd : Reg} (e : execMrs c r rd s = .next t) : Inv t := by
  have hend (v : Word) : Keeps Inv (do writeReg rd v; fallThrough) :=
    keeps_inv_advance (keeps_inv_writeReg _ _)
  refine inv_conditional (keeps_bind (keeps_notPc rd) fun _ => keeps_get fun s => ?_) h e
  exact keeps_ite (keeps_bind keeps_inv_readSpsr fun _ => hend _) (keeps_bind (keeps_pure _) fun _ => hend _)

theorem inv_execLdrexd {c : Cond} {rn rt : Reg} (e : execLdrexd c rn rt s = .next t) : Inv t := by
  refine inv_conditional ?_ h e
  exact keeps_bind (keeps_notPc rn) fun _ => keeps_bind (keeps_checkPair rt) fun _ => keeps_get fun _ =>
    keeps_bind (keeps_inv_readBytes _ _) fun _ => keeps_bind (keeps_inv_setMonitor _) fun _ =>
      keeps_bind (keeps_inv_writeReg _ _) fun _ => keeps_inv_advance (keeps_inv_writeReg _ _)

theorem inv_execStrexd {c : Cond} {rn rd rt : Reg} (e : execStrexd c rn rd rt s = .next t) : Inv t := by
  refine inv_conditional ?_ h e
  exact keeps_bind (keeps_checkPair rt) fun _ => keeps_bind (keeps_checkExclusive rn rd rt) fun _ =>
    keeps_bind (keeps_refuseIf _ _) fun _ => keeps_inv_storeExclusive _ _ _ _

theorem inv_execMla {c : Cond} {S : Bool} {rd ra rm rn : Reg} (e : execMla c S rd ra rm rn s = .next t) : Inv t := by
  refine inv_conditional ?_ h e
  exact keeps_bind (keeps_notPc rd) fun _ => keeps_bind (keeps_notPc ra) fun _ => keeps_bind (keeps_notPc rm) fun _ =>
    keeps_bind (keeps_notPc rn) fun _ => keeps_bind (keeps_readReg rn) fun _ => keeps_bind (keeps_readReg rm) fun _ =>
      keeps_bind (keeps_readReg ra) fun _ => keeps_inv_narrowResult _ _ _

theorem inv_execMls {c : Cond} {rd ra rm rn : Reg} (e : execMls c rd ra rm rn s = .next t) : Inv t := by
  refine inv_conditional ?_ h e
  exact keeps_bind (keeps_notPc rd) fun _ => keeps_bind (keeps_notPc ra) fun _ => keeps_bind (keeps_notPc rm) fun _ =>
    keeps_bind (keeps_notPc rn) fun _ => keeps_bind (keeps_readReg ra) fun _ => keeps_bind (keeps_readReg rn) fun _ =>
      keeps_bind (keeps_readReg rm) fun _ => keeps_inv_narrowResult _ _ _

theorem inv_execMul {c : Cond} {S : Bool} {rd rm rn : Reg} (e : execMul c S rd rm rn s = .next t) : Inv t := by
  refine inv_conditional ?_ h e
  exact keeps_bind (keeps_notPc rd) fun _ => keeps_bind (keeps_notPc rm) fun _ => keeps_bind (keeps_notPc rn) fun _ =>
    keeps_bind (keeps_readReg rn) fun _ => keeps_bind (keeps_readReg rm) fun _ => keeps_inv_narrowResult _ _ _

theorem inv_execBfi {c : Cond} {msb : BitVec 5} {rd : Reg} {lsb : BitVec 5} {rn : Reg}
    (e : execBfi c msb rd lsb rn s = .next t) : Inv t := by
  refine inv_conditional ?_ h e
  exact keeps_bind (keeps_notPc rd) fun _ => keeps_bind (keeps_notPc rn) fun _ => keeps_bind (keeps_refuseIf _ _) fun _ =>
    keeps_bind (keeps_readReg rd) fun _ => keeps_bind (keeps_readReg rn) fun _ =>
      keeps_inv_advance (keeps_inv_writeReg _ _)

theorem inv_execBfc {c : Cond} {msb : BitVec 5} {rd : Reg} {lsb : BitVec 5} (e : execBfc c msb rd lsb s = .next t) :
    Inv t := by
  refine inv_conditional ?_ h e
  exact keeps_bind (keeps_notPc rd) fun _ => keeps_bind (keeps_refuseIf _ _) fun _ => keeps_bind (keeps_readReg rd) fun _ =>
    keeps_inv_advance (keeps_inv_writeReg _ _)

theorem inv_execBlxReg {c : Cond} {rm : Reg} (e : execBlxReg c rm s = .next t) : Inv t := by
  refine inv_conditional ?_ h e
  exact keeps_bind (keeps_notPc rm) fun _ => keeps_get fun _ => keeps_bind (keeps_readReg rm) fun _ =>
    keeps_bind (keeps_inv_writeReg _ _) fun _ => keeps_inv_bxWritePc _

theorem inv_execMrcP15 {c : Cond} {opc1 : BitVec 3} {crn : BitVec 4} {rt : Reg} {opc2 : BitVec 3} {crm : BitVec 4}
    (e : execMrcP15 c opc1 crn rt opc2 crm s = .next t) : Inv t := by
  refine inv_conditional ?_ h e
  cases cp15Sel opc1 crn crm opc2 with
  | none => exact keeps_undefined
  | some r =>
    exact keeps_get fun _ => keeps_bind (keeps_undefinedIf _) fun _ => keeps_bind (keeps_undefinedIf _) fun _ =>
      keeps_bind (keeps_inv_readCp15 r) fun _ => keeps_inv_receive _ _

theorem inv_execMcrP15 {c : Cond} {opc1 : BitVec 3} {crn : BitVec 4} {rt : Reg} {opc2 : BitVec 3} {crm : BitVec 4}
    (e : execMcrP15 c opc1 crn rt opc2 crm s = .next t) : Inv t := by
  refine inv_conditional ?_ h e
  cases cp15Sel opc1 crn crm opc2 with
  | none => exact keeps_undefined
  | some r =>
    exact keeps_get fun _ => keeps_bind (keeps_undefinedIf _) fun _ => keeps_bind (keeps_undefinedIf _) fun _ =>
      keeps_bind (keeps_notPc rt) fun _ => keeps_inv_advance (keeps_inv_writeCp15 r _)

theorem inv_execMrcP14 {c : Cond} {opc1 : BitVec 3} {crn : BitVec 4} {rt : Reg} {opc2 : BitVec 3} {crm : BitVec 4}
    (e : execMrcP14 c opc1 crn rt opc2 crm s = .next t) : Inv t := by
  refine inv_conditional ?_ h e
  cases cp14Sel opc1 crn crm opc2 with
  | none => exact keeps_undefined
  | some r =>
    exact keeps_get fun _ => keeps_bind (keeps_undefinedIf _) fun _ =>
      keeps_bind (accesses_readDebug r).keeps_inv fun _ => keeps_inv_receive _ _

theorem inv_execMcrP14 {c : Cond} {opc1 : BitVec 3} {crn : BitVec 4} {rt : Reg} {opc2 : BitVec 3} {crm : BitVec 4}
    (e : execMcrP14 c opc1 crn rt opc2 crm s = .next t) : Inv t := by
  refine inv_conditional ?_ h e
  cases cp14Sel opc1 crn crm opc2 with
  | none => exact keeps_undefined
  | some r =>
    exact keeps_get fun _ => keeps_bind (keeps_undefinedIf _) fun _ => keeps_bind (keeps_undefinedIf _) fun _ =>
      keeps_bind (keeps_notPc rt) fun _ => keeps_bind (accesses_writeDebug r _).keeps_inv fun _ => keeps_inv_fallThrough

theorem inv_execVmrs {c : Cond} {reg : BitVec 4} {rt : Reg} (e : execVmrs c reg rt s = .next t) : Inv t := by
  refine inv_conditional ?_ h e
  exact keeps_bind (keeps_fpuRegAccess reg) fun _ => keeps_bind (keeps_refuseIf _ _) fun _ => keeps_get fun _ =>
    keeps_inv_receive _ _

theorem inv_execVmsr {c : Cond} {reg : BitVec 4} {rt : Reg} (e : execVmsr c reg rt s = .next t) : Inv t := by
  refine inv_conditional ?_ h e
  exact keeps_bind (keeps_fpuRegAccess reg) fun _ => keeps_bind (keeps_notPc rt) fun _ => keeps_get fun _ =>
    keeps_inv_advance (keeps_modify fun _ i => inv_writeFpuReg i _ _)

theorem inv_execVmovImm {c : Cond} {d : Bool} {imm4H vd : BitVec 4} {sz sbz sbz1 : Bool} {imm4L : BitVec 4}
    (e : execVmovImm c d imm4H vd sz sbz sbz1 imm4L s = .next t) : Inv t := by
  refine inv_conditional ?_ h e
  exact keeps_bind (keeps_inv_checkData _ _) fun _ => keeps_bind (keeps_refuseIf _ _) fun _ =>
    keeps_inv_advance (keeps_inv_writeFp _ _ _ _)

theorem inv_execVcmpReg {c : Cond} {d : Bool} {vd : BitVec 4} {sz signal m : Bool} {vm : BitVec 4}
    (e : execVcmpReg c d vd sz signal m vm s = .next t) : Inv t := by
  refine inv_conditional ?_ h e
  exact keeps_bind (keeps_inv_checkData _ _) fun _ => keeps_bind (keeps_readFp _ _ _) fun _ =>
    keeps_bind (keeps_readFp _ _ _) fun _ => keeps_bind (keeps_inv_runFp (raisesOnly_fpCompare _ _ _ _)) fun _ =>
      keeps_inv_advance (keeps_inv_setFpscrFlags _)

theorem inv_execVcmpZero {c : Cond} {d : Bool} {vd : BitVec 4} {sz signal sbz : Bool} {sbz1 : BitVec 4}
    (e : execVcmpZero c d vd sz signal sbz sbz1 s = .next t) : Inv t := by
  refine inv_conditional ?_ h e
  exact keeps_bind (keeps_inv_checkData _ _) fun _ => keeps_bind (keeps_refuseIf _ _) fun _ =>
    keeps_bind (keeps_readFp _ _ _) fun _ => keeps_bind (keeps_inv_runFp (raisesOnly_fpCompare _ _ _ _)) fun _ =>
      keeps_inv_advance (keeps_inv_setFpscrFlags _)

theorem inv_execVcvtDoubleSingle {c : Cond} {d : Bool} {vd : BitVec 4} {sz m : Bool} {vm : BitVec 4}
    (e : execVcvtDoubleSingle c d vd sz m vm s = .next t) : Inv t := by
  refine inv_conditional ?_ h e
  exact keeps_bind (keeps_inv_checkData _ _) fun _ => keeps_bind (keeps_readFp _ _ _) fun _ =>
    keeps_inv_result (raisesOnly_fpConvert _ _ _) _ _ _

theorem inv_execVcvtIntToFp {c : Cond} {d : Bool} {vd : BitVec 4} {sz op m : Bool} {vm : BitVec 4}
    (e : execVcvtIntToFp c d vd sz op m vm s = .next t) : Inv t := by
  refine inv_conditional ?_ h e
  exact keeps_bind (keeps_inv_checkData _ _) fun _ => keeps_bind (keeps_readFp _ _ _) fun _ =>
    keeps_inv_result (raisesOnly_fpFromFixed _ _ _ _) _ _ _

theorem inv_execVcvtFpToInt {c : Cond} {d sgn : Bool} {vd : BitVec 4} {sz op m : Bool} {vm : BitVec 4}
    (e : execVcvtFpToInt c d sgn vd sz op m vm s = .next t) : Inv t := by
  refine inv_conditional ?_ h e
  exact keeps_bind (keeps_inv_checkData _ _) fun _ => keeps_bind (keeps_readFp _ _ _) fun _ =>
    keeps_bind (keeps_inv_runFp (raisesOnly_fpToFixed _ _ _ _ _ _)) fun _ =>
      keeps_inv_advance (keeps_inv_writeFp _ _ _ _)

theorem inv_execVcvtFixed {c : Cond} {d op u : Bool} {vd : BitVec 4} {sf sx i : Bool} {imm4 : BitVec 4}
    (e : execVcvtFixed c d op u vd sf sx i imm4 s = .next t) : Inv t := by
  have hend (r : Nat) : Keeps Inv (do writeFp sf vd d r; fallThrough) :=
    keeps_inv_advance (keeps_inv_writeFp _ _ _ _)
  refine inv_conditional ?_ h e
  exact keeps_bind (keeps_inv_checkData _ _) fun _ => keeps_bind (keeps_refuseIf _ _) fun _ =>
    keeps_bind (keeps_readFp _ _ _) fun _ => keeps_ite
      (keeps_bind (keeps_inv_runFp (raisesOnly_fpToFixed _ _ _ _ _ _)) fun _ => hend _)
      (keeps_bind (keeps_inv_runFp (raisesOnly_fpFromFixed _ _ _ _)) fun _ => hend _)

theorem inv_execVcvtbVcvtt {c : Cond} {d op : Bool} {vd : BitVec 4} {top m : Bool} {vm : BitVec 4}
    (e : execVcvtbVcvtt c d op vd top m vm s = .next t) : Inv t := by
  refine inv_conditional ?_ h e
  exact keeps_bind (keeps_inv_checkData _ _) fun _ => keeps_get fun _ => keeps_ite
    (keeps_bind (keeps_inv_runFp (raisesOnly_fpConvert _ _ _)) fun _ =>
      keeps_inv_advance (keeps_modify fun _ i => inv_setSingle i _ _))
    (keeps_inv_result (raisesOnly_fpConvert _ _ _) _ _ _)

theorem inv_execVldr {c : Cond} {u d : Bool} {rn : Reg} {vd : BitVec 4} {sz : Bool} {imm8 : BitVec 8}
    (e : execVldr c u d rn vd sz imm8 s = .next t) : Inv t := by
  refine inv_conditional ?_ h e
  exact keeps_bind (keeps_checkTransfer _) fun _ => keeps_get fun _ => keeps_bind (keeps_inv_loadFp _ _ _ _) fun _ =>
    keeps_inv_advance (keeps_inv_writeFp _ _ _ _)

theorem inv_execVstr {c : Cond} {u d : Bool} {rn : Reg} {vd : BitVec 4} {sz : Bool} {imm8 : BitVec 8}
    (e : execVstr c u d rn vd sz imm8 s = .next t) : Inv t := by
  refine inv_conditional ?_ h e
  exact keeps_bind (keeps_checkTransfer _) fun _ => keeps_get fun _ => keeps_bind (keeps_readFp _ _ _) fun _ =>
    keeps_inv_advance (keeps_inv_storeFp _ _ _ _ _)

theorem inv_execVmovCoreSingle {c : Cond} {l : Bool} {vn : BitVec 4} {rt : Reg} {n : Bool} {sbz : BitVec 2}
    {sbz1 : BitVec 4} (e : execVmovCoreSingle c l vn rt n sbz sbz1 s = .next t) : Inv t := by
  refine inv_conditional ?_ h e
  exact keeps_bind (keeps_checkTransfer _) fun _ => keeps_bind (keeps_refuseIf _ _) fun _ =>
    keeps_bind (keeps_notPcVfp rt) fun _ => keeps_get fun _ => keeps_ite
      (keeps_inv_advance (keeps_inv_writeReg _ _))
      (keeps_inv_advance (keeps_modify fun _ i => inv_setSingle i _ _))

theorem inv_execVmovCoreTwoSingles {c : Cond} {l : Bool} {rt2 rt : Reg} {m : Bool} {vm : BitVec 4}
    (e : execVmovCoreTwoSingles c l rt2 rt m vm s = .next t) : Inv t := by
  refine inv_conditional ?_ h e
  exact keeps_bind (keeps_checkTransfer _) fun _ => keeps_bind (keeps_refuseIf _ _) fun _ =>
    keeps_bind (keeps_notPcVfp rt) fun _ => keeps_bind (keeps_notPcVfp rt2) fun _ => keeps_get fun _ => keeps_ite
      (keeps_bind (keeps_inv_writeReg _ _) fun _ => keeps_inv_advance (keeps_inv_writeReg _ _))
      (keeps_inv_advance (keeps_modify fun _ i => inv_setSingle (inv_setSingle i _ _) _ _))

theorem inv_execVmovCoreDouble {c : Cond} {l : Bool} {rt2 rt : Reg} {m : Bool} {vm : BitVec 4}
    (e : execVmovCoreDouble c l rt2 rt m vm s = .next t) : Inv t := by
  refine inv_conditional ?_ h e
  exact keeps_bind (keeps_checkTransfer _) fun _ => keeps_bind (keeps_refuseIf _ _) fun _ =>
    keeps_bind (keeps_notPcVfp rt) fun _ => keeps_bind (keeps_notPcVfp rt2) fun _ => keeps_get fun _ => keeps_ite
      (keeps_bind (keeps_inv_writeReg _ _) fun _ => keeps_inv_advance (keeps_inv_writeReg _ _))
      (keeps_inv_advance (keeps_modify fun _ i => inv_setDouble i _ _))

theorem inv_execVmovCoreToHalf {c : Cond} {x : Bool} {vd : BitVec 4} {rt : Reg} {d : Bool} {sbz : BitVec 4}
    (e : execVmovCoreToHalf c x vd rt d sbz s = .next t) : Inv t := by
  refine inv_conditional ?_ h e
  exact keeps_bind (keeps_checkTransfer _) fun _ => keeps_bind (keeps_refuseIf _ _) fun _ =>
    keeps_bind (keeps_notPcVfp rt) fun _ => keeps_inv_advance (keeps_modify fun _ i => inv_setDouble i _ _)

theorem inv_execVmovHalfToCore {c : Cond} {x : Bool} {vn : BitVec 4} {rt : Reg} {n : Bool} {sbz : BitVec 4}
    (e : execVmovHalfToCore c x vn rt n sbz s = .next t) : Inv t := by
  refine inv_conditional ?_ h e
  exact keeps_bind (keeps_checkTransfer _) fun _ => keeps_bind (keeps_refuseIf _ _) fun _ =>
    keeps_bind (keeps_notPcVfp rt) fun _ => keeps_get fun _ => keeps_inv_advance (keeps_inv_writeReg _ _)

end

/-! ### Every instruction -/

/-- Running any instruction keeps the invariant. -/
theorem inv_exec {s t : State} (h : Inv s) {i : Instr} (e : exec i s = .next t) : Inv t := by
  cases i
  -- hints, preloads, barriers, and what has no meaning or raises an exception
  case nop | yield | hintUnallocated => exact inv_conditional keeps_inv_fallThrough h e
  case dmb | pldImm | pldwImm | pliImm | pldReg | pldwReg | pliReg => exact inv_always keeps_inv_fallThrough h e
  case smc | udf | otherCoproc => exact inv_conditional keeps_undefined h e
  case advSimdDataProcessing | advSimdLoadStore | coprocTwoSpace => exact inv_always keeps_undefined h e
  case blxImm | restOfUnconditional => exact inv_always (keeps_refuse _) h e
  case svc c imm24 => exact inv_execSvc (imm24 := imm24) h e
  case bkpt imm12 imm4 => exact inv_execBkpt (imm12 := imm12) (imm4 := imm4) h e
  case clrex => exact inv_always (keeps_inv_advance (keeps_inv_setMonitor _)) h e
  case dsb => exact inv_always (keeps_bind
      (accesses_modify accessStep_completeAccesses).keeps_inv fun _ => keeps_inv_fallThrough) h e
  case isb => exact inv_always (keeps_bind
      (accesses_modify accessStep_synchronise).keeps_inv fun _ => keeps_inv_fallThrough) h e
  case wfe => exact inv_conditional (keeps_inv_advance (keeps_modify fun _ => inv_waitForEvent)) h e
  case wfi => exact inv_conditional (keeps_inv_advance (keeps_modify fun _ => inv_waitForInterrupt)) h e
  case sev => exact inv_conditional (keeps_inv_advance (keeps_modify fun _ => inv_sendEvent)) h e
  -- status registers and modes
  case setend => exact inv_execSetend h e
  case cps => exact inv_execCps h e
  case rfe => exact inv_execRfe h e
  case srs => exact inv_execSrs h e
  case mrs => exact inv_execMrs h e
  case msrImm => exact inv_conditional (keeps_inv_moveToStatus _ _ _) h e
  case msrReg => exact inv_conditional (keeps_bind (keeps_notPc _) fun _ => keeps_bind (keeps_readReg _) fun _ =>
      keeps_inv_moveToStatus _ _ _) h e
  -- branches
  case b => exact inv_conditional (keeps_get fun _ => keeps_inv_branchWritePc _) h e
  case bl => exact inv_conditional (keeps_get fun _ => keeps_bind (keeps_inv_writeReg _ _) fun _ =>
      keeps_inv_branchWritePc _) h e
  case bx => exact inv_conditional (keeps_bind (keeps_notPc _) fun _ => keeps_bind (keeps_readReg _) fun _ =>
      keeps_inv_bxWritePc _) h e
  case blxReg => exact inv_execBlxReg h e
  -- data processing
  case andImm | eorImm | orrImm | bicImm =>
    refine inv_conditional (keeps_immForm (fun _ => ?_) _ _) h e
    exact keeps_bind (keeps_readReg _) fun _ => keeps_inv_logical _ _ _ _
  case andReg | eorReg | orrReg | bicReg =>
    refine inv_conditional (keeps_regForm (fun _ => ?_) _ _ _) h e
    exact keeps_bind (keeps_readReg _) fun _ => keeps_inv_logical _ _ _ _
  case andRsr | eorRsr | orrRsr | bicRsr =>
    refine inv_conditional (keeps_rsrFormThree (fun _ => ?_) _ _ _ _ _) h e
    exact keeps_bind (keeps_readReg _) fun _ => keeps_inv_logical _ _ _ _
  case subImm | rsbImm | addImm =>
    refine inv_conditional (keeps_immForm (fun _ => ?_) _ _) h e
    exact keeps_bind (keeps_readReg _) fun _ => keeps_inv_arithmetic _ _ _
  case subReg | rsbReg | addReg =>
    refine inv_conditional (keeps_regForm (fun _ => ?_) _ _ _) h e
    exact keeps_bind (keeps_readReg _) fun _ => keeps_inv_arithmetic _ _ _
  case subRsr | rsbRsr | addRsr =>
    refine inv_conditional (keeps_rsrFormThree (fun _ => ?_) _ _ _ _ _) h e
    exact keeps_bind (keeps_readReg _) fun _ => keeps_inv_arithmetic _ _ _
  case adcImm | sbcImm | rscImm =>
    refine inv_conditional (keeps_immForm (fun _ => ?_) _ _) h e
    exact keeps_bind (keeps_readReg _) fun _ => keeps_get fun _ => keeps_inv_arithmetic _ _ _
  case adcReg | sbcReg | rscReg =>
    refine inv_conditional (keeps_regForm (fun _ => ?_) _ _ _) h e
    exact keeps_bind (keeps_readReg _) fun _ => keeps_get fun _ => keeps_inv_arithmetic _ _ _
  case adcRsr | sbcRsr | rscRsr =>
    refine inv_conditional (keeps_rsrFormThree (fun _ => ?_) _ _ _ _ _) h e
    exact keeps_bind (keeps_readReg _) fun _ => keeps_get fun _ => keeps_inv_arithmetic _ _ _
  case tstImm | teqImm =>
    refine inv_conditional (keeps_sbz _ (keeps_immForm (fun _ => ?_) _ _)) h e
    exact keeps_bind (keeps_readReg _) fun _ => keeps_inv_logicalTest _ _
  case tstReg | teqReg =>
    refine inv_conditional (keeps_sbz _ (keeps_regForm (fun _ => ?_) _ _ _)) h e
    exact keeps_bind (keeps_readReg _) fun _ => keeps_inv_logicalTest _ _
  case tstRsr | teqRsr =>
    refine inv_conditional (keeps_sbz _ (keeps_rsrForm (fun _ => ?_) _ _ _ _)) h e
    exact keeps_bind (keeps_readReg _) fun _ => keeps_inv_logicalTest _ _
  case cmpImm | cmnImm =>
    refine inv_conditional (keeps_sbz _ (keeps_immForm (fun _ => ?_) _ _)) h e
    exact keeps_bind (keeps_readReg _) fun _ => keeps_inv_arithmeticTest _
  case cmpReg | cmnReg =>
    refine inv_conditional (keeps_sbz _ (keeps_regForm (fun _ => ?_) _ _ _)) h e
    exact keeps_bind (keeps_readReg _) fun _ => keeps_inv_arithmeticTest _
  case cmpRsr | cmnRsr =>
    refine inv_conditional (keeps_sbz _ (keeps_rsrForm (fun _ => ?_) _ _ _ _)) h e
    exact keeps_bind (keeps_readReg _) fun _ => keeps_inv_arithmeticTest _
  case movImm | mvnImm =>
    exact inv_conditional (keeps_sbz _ (keeps_immForm (fun _ => keeps_inv_logical _ _ _ _) _ _)) h e
  case mvnReg => exact inv_conditional (keeps_sbz _ (keeps_regForm (fun _ => keeps_inv_logical _ _ _ _) _ _ _)) h e
  case mvnRsr => exact inv_conditional (keeps_sbz _ (keeps_rsrForm (fun _ => keeps_inv_logical _ _ _ _) _ _ _ _)) h e
  case movReg | rrx | lslImm | lsrImm | asrImm | rorImm =>
    exact inv_conditional (keeps_regForm (fun _ => keeps_inv_logical _ _ _ _) _ _ _) h e
  case lslReg | lsrReg | asrReg | rorReg =>
    exact inv_conditional (keeps_rsrForm (fun _ => keeps_inv_logical _ _ _ _) _ _ _ _) h e
  -- wide moves, bit fields, reversals, extensions
  case movw => exact inv_conditional (keeps_bind (keeps_notPc _) fun _ => keeps_inv_advance (keeps_inv_writeReg _ _)) h e
  case movt => exact inv_conditional (keeps_bind (keeps_notPc _) fun _ => keeps_bind (keeps_readReg _) fun _ =>
      keeps_inv_advance (keeps_inv_writeReg _ _)) h e
  case clz | rev | rev16 | revsh | rbit | uxtb | uxth | sxtb | sxth => exact inv_conditional (keeps_inv_unary _ _ _) h e
  case ubfx | sbfx =>
    exact inv_conditional (keeps_bind (keeps_refuseIf _ _) fun _ => keeps_inv_unary _ _ _) h e
  case bfi => exact inv_execBfi h e
  case bfc => exact inv_execBfc h e
  -- multiplies and divisions
  case mul => exact inv_execMul h e
  case mla => exact inv_execMla h e
  case mls => exact inv_execMls h e
  case umull | smull => exact inv_conditional (keeps_bind (keeps_wideChecks _ _ _ _) fun _ =>
      keeps_bind (keeps_readReg _) fun _ => keeps_bind (keeps_readReg _) fun _ => keeps_inv_wideResult _ _ _ _) h e
  case umlal | smlal => exact inv_conditional (keeps_bind (keeps_wideChecks _ _ _ _) fun _ =>
      keeps_bind (keeps_readReg _) fun _ => keeps_bind (keeps_readReg _) fun _ => keeps_bind (keeps_readReg _) fun _ =>
        keeps_bind (keeps_readReg _) fun _ => keeps_inv_wideResult _ _ _ _) h e
  case sdiv | udiv => exact inv_conditional (keeps_inv_divide _ _ _ _) h e
  -- loads and stores
  case ldrImm => exact inv_conditional (keeps_inv_loadWord _ _ _ _ _ _) h e
  case ldrReg => exact inv_conditional (keeps_bind (keeps_registerOffset _ _ _) fun _ => keeps_inv_loadWord _ _ _ _ _ _) h e
  case ldrbImm | ldrhImm | ldrsbImm | ldrshImm => exact inv_conditional (keeps_inv_loadInto _ _ _ _ _ _ _ _) h e
  case ldrbReg => exact inv_conditional (keeps_bind (keeps_registerOffset _ _ _) fun _ =>
      keeps_inv_loadInto _ _ _ _ _ _ _ _) h e
  case ldrhReg | ldrsbReg | ldrshReg => exact inv_conditional (keeps_bind (keeps_plainOffset _) fun _ =>
      keeps_inv_loadInto _ _ _ _ _ _ _ _) h e
  case strImm => exact inv_conditional (keeps_inv_storeFrom _ _ _ _ _ _ _) h e
  case strReg => exact inv_conditional (keeps_bind (keeps_registerOffset _ _ _) fun _ =>
      keeps_inv_storeFrom _ _ _ _ _ _ _) h e
  case strbImm | strhImm => exact inv_conditional (keeps_bind (keeps_notPc _) fun _ => keeps_inv_storeFrom _ _ _ _ _ _ _) h e
  case strbReg => exact inv_conditional (keeps_bind (keeps_notPc _) fun _ => keeps_bind (keeps_registerOffset _ _ _) fun _ =>
      keeps_inv_storeFrom _ _ _ _ _ _ _) h e
  case strhReg => exact inv_conditional (keeps_bind (keeps_notPc _) fun _ => keeps_bind (keeps_plainOffset _) fun _ =>
      keeps_inv_storeFrom _ _ _ _ _ _ _) h e
  case ldrdImm => exact inv_conditional (keeps_inv_loadDouble _ _ _ _ _ _) h e
  case ldrdReg => exact inv_conditional (keeps_bind (keeps_plainOffset _) fun _ => keeps_inv_loadDouble _ _ _ _ _ _) h e
  case strdImm => exact inv_conditional (keeps_inv_storeDouble _ _ _ _ _ _) h e
  case strdReg => exact inv_conditional (keeps_bind (keeps_plainOffset _) fun _ => keeps_inv_storeDouble _ _ _ _ _ _) h e
  case ldm | pop => exact inv_conditional (keeps_inv_loadMultiple _ _ _ _ _ _) h e
  case stm | push => exact inv_conditional (keeps_inv_storeMultiple _ _ _ _ _ _) h e
  case ldrex | ldrexb | ldrexh => exact inv_conditional (keeps_inv_loadExclusive _ _ _) h e
  case strex | strexb | strexh => exact inv_conditional (keeps_inv_storeExclusiveFrom _ _ _ _) h e
  case ldrexd => exact inv_execLdrexd h e
  case strexd => exact inv_execStrexd h e
  case swp | swpb => exact inv_conditional (keeps_inv_swap _ _ _ _) h e
  -- coprocessors 15 and 14
  case mrcP15 => exact inv_execMrcP15 h e
  case mcrP15 => exact inv_execMcrP15 h e
  case mrcP14 => exact inv_execMrcP14 h e
  case mcrP14 => exact inv_execMcrP14 h e
  -- VFP
  case vmrs => exact inv_execVmrs h e
  case vmsr => exact inv_execVmsr h e
  case vmrsVmsrSbz => exact inv_conditional (keeps_bind keeps_vfpOn fun _ => keeps_refuse _) h e
  case vfpUnallocated => exact inv_conditional (keeps_bind keeps_vfpOn fun _ => keeps_undefined) h e
  case vadd => exact inv_conditional (keeps_inv_vfpThree _ _ _ _ _ _ _ fun _ _ _ _ => raisesOnly_fpAdd _ _ _) h e
  case vsub => exact inv_conditional (keeps_inv_vfpThree _ _ _ _ _ _ _ fun _ _ _ _ => raisesOnly_fpSub _ _ _) h e
  case vmul => exact inv_conditional (keeps_inv_vfpThree _ _ _ _ _ _ _ fun _ _ _ _ => raisesOnly_fpMul _ _ _) h e
  case vdiv => exact inv_conditional (keeps_inv_vfpThree _ _ _ _ _ _ _ fun _ _ _ _ => raisesOnly_fpDiv _ _ _) h e
  case vnmul => exact inv_conditional (keeps_inv_vfpThree _ _ _ _ _ _ _ fun _ _ _ _ =>
      raisesOnly_bind (raisesOnly_fpMul _ _ _) fun _ => raisesOnly_pure _) h e
  case vmla | vmls | vnmla | vnmls => exact inv_conditional (keeps_inv_vfpThree _ _ _ _ _ _ _ fun _ _ _ _ =>
      raisesOnly_bind (raisesOnly_fpMul _ _ _) fun _ => raisesOnly_fpAdd _ _ _) h e
  case vmovReg | vabs | vneg => exact inv_conditional (keeps_inv_vfpTwo _ _ _ _ _ fun _ _ => raisesOnly_pure _) h e
  case vsqrt => exact inv_conditional (keeps_inv_vfpTwo _ _ _ _ _ raisesOnly_fpSqrt) h e
  case vmovImm => exact inv_execVmovImm h e
  case vcmpReg => exact inv_execVcmpReg h e
  case vcmpZero => exact inv_execVcmpZero h e
  case vcvtDoubleSingle => exact inv_execVcvtDoubleSingle h e
  case vcvtIntToFp => exact inv_execVcvtIntToFp h e
  case vcvtFpToInt => exact inv_execVcvtFpToInt h e
  case vcvtFixed => exact inv_execVcvtFixed h e
  case vcvtbVcvtt => exact inv_execVcvtbVcvtt h e
  case vldr => exact inv_execVldr h e
  case vstr => exact inv_execVstr h e
  case vldmIa | vldmDb | vpop => exact inv_conditional (keeps_inv_vfpLoadMultiple _ _ _ _ _ _ _) h e
  case vstmIa | vstmDb | vpush => exact inv_conditional (keeps_inv_vfpStoreMultiple _ _ _ _ _ _ _) h e
  case vmovCoreSingle => exact inv_execVmovCoreSingle h e
  case vmovCoreTwoSingles => exact inv_execVmovCoreTwoSingles h e
  case vmovCoreDouble => exact inv_execVmovCoreDouble h e
  case vmovCoreToHalf => exact inv_execVmovCoreToHalf h e
  case vmovHalfToCore => exact inv_execVmovHalfToCore h e

/-! ### A step -/

theorem inv_runWord {s t : State} (h : Inv s) {w : Word} (e : runWord w s = .next t) : Inv t := by
  unfold runWord at e
  split at e
  · exact inv_exec h e
  split at e
  · cases e
  · exact inv_finish keeps_inv_fallThrough h e

/-- An end that leaves a good state, as an instruction's end, goes on in one. -/
theorem inv_of_finish {r : EStateM.Result Stop State Unit} (hr : Inv (after r)) {t : State} (e : finish r = .next t) :
    Inv t := inv_finish (body := fun _ => r) (fun _ _ => hr) hr e

theorem inv_runNext {s t : State} (h : Inv s) (e : runNext s = .next t) : Inv t := by
  have hf := (accesses_fetchWord s.pc s).inv h
  unfold runNext at e
  split at e
  · cases e
  split at e
  · cases e
  cases he : fetchWord s.pc s with
  | error x u =>
    rw [he] at e hf
    exact inv_of_finish (r := .error x u) hf e
  | ok r u =>
    rw [he] at e hf
    cases r with
    | error f => exact (entered_next e).1 ▸ inv_takePrefetchAbort hf f s.pc
    | ok w => exact inv_runWord hf e

/-- An abort that is taken is the pending one. -/
theorem takeAbort_some {s u : State} (h : takeAbort s = some u) : ∃ x, u = takeAsyncAbort x s := by
  unfold takeAbort at h
  split at h
  · split at h
    · cases h
    · cases h
      exact ⟨_, rfl⟩
  · cases h

theorem inv_goOn {s t : State} (h : Inv s) (e : goOn s = .next t) : Inv t := by
  cases ha : takeAbort s with
  | none =>
    rw [goOn_runs ha] at e
    exact inv_runNext h e
  | some u =>
    rw [goOn_abort ha] at e
    obtain ⟨x, rfl⟩ := takeAbort_some ha
    exact (entered_next e).1 ▸ inv_takeAsyncAbort h x

theorem inv_proceed {s t : State} (h : Inv s) (e : proceed s = .next t) : Inv t := by
  have hdraw (n : Nat) : Inv { s with free := n } := (accessStep_draw s n).inv h
  rcases proceed_cases s with hw | ⟨x, hx⟩ | ⟨n, hn⟩
  · rw [hw] at e
    cases e
    exact inv_wait h
  · rw [hx] at e
    exact (entered_next e).1 ▸ inv_takeException (hdraw _) _ _
  · rw [hn] at e
    exact inv_goOn (hdraw n) e

/-- Settles O5: the hardware beside the processor, a reset of any kind, and the processor each keep the invariant. -/
theorem stepKeepsInvariant : Obligations.StepKeepsInvariant := by
  intro s t h e
  have hw : Inv (hardwareStage s) := inv_hardwareStage h
  rcases step_cases e with ⟨-, hp⟩ | ⟨-, -, ⟨-, rfl⟩ | ⟨-, hp⟩⟩
  · exact inv_proceed hw hp
  · exact inv_applyResets hw _
  · exact inv_proceed (inv_applyResets hw _) hp

/-! ### After reset -/

/-- After reset SCTLR holds its fixed value but for the four bits that the pins set (11_cp15_registers.md R120). -/
theorem resetSctlr_and (cfg : Config) : resetSctlr cfg &&& 0xB5FFDFFF = 0x00C50078 := by
  unfold resetSctlr
  generalize cfg.teinit = te
  generalize cfg.cfgnmfi = nmfi
  generalize cfg.cfgend = ee
  generalize cfg.vinithi = v
  revert te nmfi ee v
  decide

/-- The four bits of SCTLR that the pins set (11_cp15_registers.md R120). -/
theorem resetSctlr_pins (cfg : Config) :
    (resetSctlr cfg).getLsbD 30 = cfg.teinit ∧ (resetSctlr cfg).getLsbD 27 = cfg.cfgnmfi ∧
      (resetSctlr cfg).getLsbD 25 = cfg.cfgend ∧ (resetSctlr cfg).getLsbD 13 = cfg.vinithi := by
  unfold resetSctlr
  generalize cfg.teinit = te
  generalize cfg.cfgnmfi = nmfi
  generalize cfg.cfgend = ee
  generalize cfg.vinithi = v
  revert te nmfi ee v
  decide

/-- After reset the processor is in Supervisor mode with A, I and F set; T and E are the pins' (10_state.md R61). -/
theorem resetWith_status (cfg : Config) (pins : Pins) :
    (State.resetWith cfg pins).mode = .svc ∧ (State.resetWith cfg pins).maskA = true ∧
      (State.resetWith cfg pins).maskI = true ∧ (State.resetWith cfg pins).maskF = true ∧
      (State.resetWith cfg pins).cpsr.getLsbD 5 = cfg.teinit ∧ (State.resetWith cfg pins).bigEndian = cfg.cfgend := by
  unfold State.mode State.maskA State.maskI State.maskF State.bigEndian State.resetWith
  dsimp only
  generalize cfg.teinit = te
  generalize cfg.cfgend = ee
  revert te ee
  decide

/-- After reset ITCMRR has its enable, its base and its size from the pins and the build (11_cp15_registers.md R156). -/
theorem resetItcmrr_fields (cfg : Config) :
    (resetItcmrr cfg).getLsbD 0 = (cfg.initram && cfg.itcm != .none) ∧
      (resetItcmrr cfg).extractLsb' 12 20 = (if cfg.initram && cfg.vinithi then 0xFFFF0 else 0) ∧
      (resetItcmrr cfg).extractLsb' 2 4 = (tcmSizeCode cfg.itcm).extractLsb' 0 4 := by
  unfold resetItcmrr
  generalize cfg.initram = i
  generalize cfg.vinithi = v
  cases cfg.itcm <;> revert i v <;> decide

/-- DTCMRR is off after reset, whatever the size (11_cp15_registers.md R155). -/
theorem resetDtcmrr_disabled (size : RamSize) : (tcmSizeCode size <<< 2).getLsbD 0 = false := by
  cases size <;> decide

/-- Settles O6: every memory is empty, the status register legal, SCTLR at its fixed value, the other registers 0. -/
theorem resetMeetsInvariant : Obligations.ResetMeetsInvariant := by
  intro cfg pins
  have hpsr := psrOk_reset cfg.teinit cfg.cfgend
  exact {
    canonical := by constructor <;> rfl
    legalMode := hpsr.legalMode
    pcAligned := by
      show (if cfg.vinithi then 0xFFFF0000#32 else 0) &&& 3 = 0
      split <;> decide
    cpsrReserved := hpsr.reserved
    sctlrFixed := and_eq_of_and_eq (b := 0x00C50078) (m := 0xB5FFDFFF) ((resetSctlr_and cfg).trans (by decide)) (by decide)
    regionInRange := by
      show 0 < regionCount cfg
      unfold regionCount
      split <;> decide
    fpscrReserved := BitVec.zero_and
    fpexcReserved := BitVec.zero_and }

/-- Settles O8: field by field, from the reset values of the status register, of SCTLR and of the TCM regions. -/
theorem resetValues : Obligations.ResetValues := by
  intro cfg pins
  obtain ⟨hmode, hA, hI, hF, hT, hE⟩ := resetWith_status cfg pins
  obtain ⟨hte, hnmfi, hee, hv⟩ := resetSctlr_pins cfg
  obtain ⟨hen, hbase, hsize⟩ := resetItcmrr_fields cfg
  exact ⟨rfl, hmode, hA, hI, hF, hT, hE, hte, hnmfi, hee, hv, resetSctlr_and cfg, rfl, resetDtcmrr_disabled cfg.dtcm, hen,
    hbase, hsize, rfl, rfl, rfl, rfl, rfl, rfl, rfl, rfl, rfl, BitVec.getLsbD_zero, rfl, rfl⟩

/-! ### Banked registers -/

/-- Two modes share register `n`: below R8 all, below R13 all but FIQ with another, else a mode with itself and User with
System (10_state.md R31). -/
def SharesRegister (m m' : Mode) (n : Nat) : Prop :=
  n < 8 ∨ n < 13 ∧ (m = .fiq ↔ m' = .fiq) ∨ m = m' ∨ (m = .usr ∨ m = .sys) ∧ (m' = .usr ∨ m' = .sys)

/-- How far above its number the copy of R13 and of R14 that belongs to a mode stands. -/
def bankOffset : Mode → Nat
  | .usr => 0 | .sys => 0 | .fiq => 7 | .irq => 9 | .svc => 11 | .abt => 13 | .und => 15

/-- How far above its number the copy of a register that belongs to a mode stands. -/
def bankShift (m : Mode) (n : Nat) : Nat :=
  if n < 8 then 0 else if n < 13 then (if m = .fiq then 7 else 0) else bankOffset m

theorem bankIndex_val (m : Mode) (r : Reg) (h : r ≠ 15) : (bankIndex m r).val = r.toNat + bankShift m r.toNat := by
  cases m <;> revert r <;> decide

/-- The copies of R13 and R14 stand above R12_fiq, or are User mode's; an odd distance keeps the pairs apart. -/
theorem bankOffset_spread (m : Mode) : bankOffset m = 0 ∨ 7 ≤ bankOffset m ∧ bankOffset m % 2 = 1 := by
  cases m <;> decide

/-- Copies of different registers stand in different places, whatever their modes. -/
theorem bankPlace_injective {m m' : Mode} {n n' : Nat} (h : n < 15) (h' : n' < 15)
    (e : n + bankShift m n = n' + bankShift m' n') : n = n' := by
  have hm := bankOffset_spread m
  have hm' := bankOffset_spread m'
  unfold bankShift at e
  split_ifs at e <;> omega

/-- The copies of a register that belong to two modes are one just if the modes share it. -/
theorem bankShift_eq_iff (m m' : Mode) (n : Nat) : bankShift m n = bankShift m' n ↔ SharesRegister m m' n := by
  unfold bankShift SharesRegister
  by_cases h8 : n < 8
  · simp only [h8, if_true, true_or]
  by_cases h13 : n < 13
  · cases m <;> cases m' <;> simp [h8, h13]
  · cases m <;> cases m' <;> simp [h8, h13, bankOffset]

/-- Two names of a register stand for one place just if they are one register that the modes share. -/
theorem bankIndex_eq_iff (m m' : Mode) {r r' : Reg} (h : r ≠ 15) (h' : r' ≠ 15) :
    bankIndex m r = bankIndex m' r' ↔ r = r' ∧ SharesRegister m m' r.toNat := by
  rw [Fin.ext_iff, bankIndex_val m r h, bankIndex_val m' r' h']
  constructor
  · intro e
    have hn : r.toNat = r'.toNat := bankPlace_injective (by bv_omega) (by bv_omega) e
    refine ⟨BitVec.eq_of_toNat_eq hn, (bankShift_eq_iff m m' _).mp ?_⟩
    rw [← hn] at e
    exact Nat.add_left_cancel e
  · rintro ⟨rfl, hs⟩
    rw [(bankShift_eq_iff m m' _).mpr hs]

/-- Settles O10: a write is read back just where the two names stand for one place. -/
theorem bankedRegisters : Obligations.BankedRegisters := by
  intro s m m' r r' v h h'
  have hread := State.regIn_setRegIn s m m' r r' v h h'
  have hpc (n : Mode) : s.regIn n 15 = s.pc + 8 := if_pos rfl
  refine ⟨fun hs => ?_, fun hs => ?_, hpc m, (State.regIn_pc_setRegIn s m m' r v).trans (hpc m')⟩
  · exact hread.trans (if_pos ((bankIndex_eq_iff m m' h h').mpr hs))
  · exact hread.trans (if_neg fun he => hs ((bankIndex_eq_iff m m' h h').mp he))
end Sys2Proof.Machine

/-!
# The CP15 identification registers

How MRC and MCR of a selector end: with the register's value, or in an Undefined Instruction exception where the access
rights deny it. A register that is read-only belongs to privileged modes too, so its value and its selector say all about it.
-/

namespace Sys2Proof.Machine

/-! ### Access rights -/

/-- A body that ends in an Undefined Instruction exception, in a state where that exception goes on in ARM state. -/
theorem conditional_undefined {c : Cond} {s : State} (hc : condPassed c s.cpsr = true) (harm : ArmEntry s) {body : M Unit}
    (hb : body s = .error .undefined s) : conditional c body s = .next (takeException .undefined (s.pc + 4) s) := by
  rw [conditional_passed hc, hb]
  exact finish_undefined_next harm

/-- Two checks, of which one denies the access. -/
theorem undefinedIf_denies {α : Type} {a b : Bool} (h : (a || b) = true) (rest : M α) (s : State) :
    (do undefinedIf a; undefinedIf b; rest) s = .error .undefined s := by
  cases a with
  | true => rfl
  | false =>
    obtain rfl : b = true := h
    rfl

/-- Two checks that both admit the access. -/
theorem undefinedIf_admits {α : Type} {a b : Bool} (ha : a = false) (hb : b = false) (rest : M α) (s : State) :
    (do undefinedIf a; undefinedIf b; rest) s = rest s := by
  subst ha hb; rfl

theorem receive_of_ne {rt : Reg} (h : rt ≠ 15) (v : Word) {s : State} (hp : s.pc ≠ 0xFFFFFFFC) :
    receive rt v s = .ok () (s.wrote rt v) := by
  unfold receive
  rw [if_neg h, bind_ok (writeReg_apply rt v s)]
  refine (fallThrough_of_ne (s := s.setReg rt v) (by rwa [State.setReg_pc])).trans ?_
  rw [State.setReg_pc]
  rfl

section

variable {c : Cond} {op1 : BitVec 3} {crn : BitVec 4} {rt : Reg} {op2 : BitVec 3} {crm : BitVec 4} {s : State} {r : Cp15Reg}
  (hsel : cp15Sel op1 crn crm op2 = some r)

include hsel

/-- MRC of a register that the mode may read and that can be read (40_system_register_access.md R432). -/
theorem exec_mrcP15_of_admitted (hrun : Runs c s) (hu : (!s.privileged && !userReadable s r) = false)
    (hw : r.writeOnly = false) {v : Word} (hread : readCp15 r s = .ok v s) (hrt : rt ≠ 15) :
    exec (.mrcP15 c op1 crn rt op2 crm) s = .next (s.wrote rt v) := by
  obtain ⟨hc, hp⟩ := hrun
  show execMrcP15 c op1 crn rt op2 crm s = _
  unfold execMrcP15
  rw [conditional_passed hc, hsel]
  refine congrArg finish (a₂ := .ok () (s.wrote rt v)) ?_
  calc
    _ = (readCp15 r >>= receive rt) s := undefinedIf_admits hu hw (readCp15 r >>= receive rt) s
    _ = receive rt v s := bind_ok hread
    _ = .ok () (s.wrote rt v) := receive_of_ne hrt v hp

/-- MRC of a register that the mode may not read, or that cannot be read (40_system_register_access.md R434, R437). -/
theorem exec_mrcP15_of_denied (hc : condPassed c s.cpsr = true) (harm : ArmEntry s)
    (h : ((!s.privileged && !userReadable s r) || r.writeOnly) = true) :
    exec (.mrcP15 c op1 crn rt op2 crm) s = .next (takeException .undefined (s.pc + 4) s) := by
  refine conditional_undefined hc harm ?_
  rw [hsel]
  exact undefinedIf_denies h _ s

/-- MCR to a register that the mode may not write, or that cannot be written (40_system_register_access.md R434, R436). -/
theorem exec_mcrP15_of_denied (hc : condPassed c s.cpsr = true) (harm : ArmEntry s)
    (h : ((!s.privileged && !userWritable s r) || r.readOnly) = true) :
    exec (.mcrP15 c op1 crn rt op2 crm) s = .next (takeException .undefined (s.pc + 4) s) := by
  refine conditional_undefined hc harm ?_
  rw [hsel]
  exact undefinedIf_denies h _ s

end

/-! ### Read-only registers -/

/-- A read-only register can be read. -/
theorem Cp15Reg.writeOnly_of_readOnly {r : Cp15Reg} (h : r.readOnly = true) : r.writeOnly = false := by
  cases r with
  | op | pmswinc => cases h
  | _ => rfl

/-- User mode may not read a read-only register, whatever PMUSERENR says. -/
theorem userReadable_of_readOnly {r : Cp15Reg} (h : r.readOnly = true) (s : State) : userReadable s r = false := by
  cases r with
  | tpidrurw | tpidruro | pmuserenr => cases h
  | pmcr | pmcntenset | pmcntenclr | pmovsr | pmswinc | pmselr | pmccntr | pmxevtyper | pmxevcntr => cases h
  | _ => rfl

/-- What MRC and MCR of a read-only register do: privileged modes read its value, User mode may not, and none may write it
(40_system_register_access.md R432, R434, R436). -/
theorem exec_readOnly_register {c : Cond} {rt : Reg} {s : State} {x : Nat × Nat × Nat × Nat} {r : Cp15Reg} {v : Word}
    (hrun : Runs c s) (harm : ArmEntry s)
    (hsel : cp15Sel (BitVec.ofNat 3 x.1) (BitVec.ofNat 4 x.2.1) (BitVec.ofNat 4 x.2.2.1) (BitVec.ofNat 3 x.2.2.2) = some r)
    (hro : r.readOnly = true) (hread : readCp15 r s = .ok v s) :
    (s.privileged = true → rt ≠ 15 → exec (mrcOf c rt x) s = .next (s.wrote rt v)) ∧
    (s.privileged = false → exec (mrcOf c rt x) s = .next (takeException .undefined (s.pc + 4) s)) ∧
    exec (mcrOf c rt x) s = .next (takeException .undefined (s.pc + 4) s) := by
  refine ⟨fun hp hrt => ?_, fun hp => ?_, ?_⟩
  · exact exec_mrcP15_of_admitted hsel hrun (by rw [hp]; rfl) (Cp15Reg.writeOnly_of_readOnly hro) hread hrt
  · exact exec_mrcP15_of_denied hsel hrun.1 harm (by rw [hp, userReadable_of_readOnly hro]; rfl)
  · exact exec_mcrP15_of_denied hsel hrun.1 harm (by rw [hro, Bool.or_true])

/-! ### Selectors and values -/

theorem cp15Sel_mpuir : cp15Sel 0 0 0 4 = some .mpuir := by decide
theorem cp15Sel_aidr : cp15Sel 1 0 0 7 = some .aidr := by decide
theorem cp15Sel_cbar : cp15Sel 4 15 0 0 = some .cbar := by decide

/-- MPUIR has the number of regions in [15:8] (11_cp15_registers.md R107). -/
theorem mpuirValue_eq (cfg : Config) : mpuirValue cfg = if cfg.mpu16 then 0x00001000 else 0x00000C00 := by
  unfold mpuirValue regionCount
  cases cfg.mpu16 <;> rfl

/-- The SCU's filter start has its pins in [31:20] (61_scu.md R593). -/
theorem scuRead_filterStart (s : State) : scuRead s 0x48 = s.cfg.pfilterStart ++ 0#20 := by
  show s.cfg.pfilterStart.setWidth 32 <<< 20 = _
  generalize s.cfg.pfilterStart = p
  apply BitVec.eq_of_getLsbD_eq
  intro i hi
  rw [BitVec.getLsbD_append]
  by_cases h : i < 20 <;> simp [h, hi]

/-- ICDICTR has the number of processors, less one, in [7:5], and the blocks of 32 SPIs in [4:0] (62_gic.md R641). -/
theorem distRead_controllerType (s : State) :
    distRead s 0x004 = BitVec.ofNat 32 ((if s.cfg.twoCpus then 1 else 0) * 32 + s.cfg.spiBlocks.toNat) := by
  show bitAt s.cfg.twoCpus 5 ||| s.cfg.spiBlocks.setWidth 32 = _
  generalize s.cfg.twoCpus = two
  generalize s.cfg.spiBlocks = blocks
  revert two blocks
  decide

/-- Settles O44: the three registers of CP15 are read-only ones; the others are rows of the SCU's and the distributor's reads
that no row of the writes stands beside. -/
theorem identificationRegisters : Obligations.IdentificationRegisters := by
  refine ⟨fun c rt s hrun harm e he => ?_, fun s v => ?_⟩
  · simp only [List.mem_cons, List.not_mem_nil, or_false] at he
    obtain rfl | rfl | rfl := he
    · exact exec_readOnly_register hrun harm cp15Sel_mpuir rfl
        (congrArg (EStateM.Result.ok · s) (mpuirValue_eq s.cfg))
    · exact exec_readOnly_register hrun harm cp15Sel_aidr rfl rfl
    · exact exec_readOnly_register hrun harm cp15Sel_cbar rfl rfl
  · exact ⟨scuRead_filterStart s, rfl, distRead_controllerType s, rfl, rfl, rfl⟩

end Sys2Proof.Machine

/-!
# Access to the FPU

The checks that every VFP instruction makes first, each said once: whom CPACR admits, whether the FPU is enabled, whether the
build has the registers and the precision the instruction names. VMRS and VMSR follow from the check of the register they
name; that an instruction without access is Undefined follows from the shape that all bodies of the VFP space have, checks
first.
-/

namespace Sys2Proof.Machine

/-! ### Access rights -/

/-- CPACR denies the mode, or there is no FPU (12_fpu_registers.md R231). -/
theorem vfpAccess_of_denied {s : State} (h : VfpDenied s) : vfpAccess s = .error .undefined s := by
  unfold vfpAccess
  rw [bind_ok (get_apply s)]
  obtain hnone | ⟨hsame, hzero | ⟨hone, huser⟩⟩ := h
  · simp [hnone, bind_apply, undefinedIf_apply]
  · cases hfpu : s.cfg.fpu == .none <;> simp [← hsame, hzero, bind_apply, undefinedIf_apply, refuseIf_apply]
  · cases hfpu : s.cfg.fpu == .none <;> simp [← hsame, hone, huser, bind_apply, undefinedIf_apply, refuseIf_apply]

/-- The FPU is built and CPACR admits the mode (12_fpu_registers.md R231). -/
theorem vfpAccess_of_admitted {s : State} (h : VfpAdmitted s) : vfpAccess s = .ok () s := by
  obtain ⟨hfpu, hsame, hall | ⟨hone, hpriv⟩⟩ := h
  · simp [vfpAccess, get_apply, bind_apply, undefinedIf_apply, refuseIf_apply, hfpu, ← hsame, hall]
  · simp [vfpAccess, get_apply, bind_apply, undefinedIf_apply, refuseIf_apply, hfpu, ← hsame, hone, hpriv]

/-- Full access for cp10 and cp11 is four bits set in CPACR, two for each (11_cp15_registers.md R132). -/
theorem fields_of_fullAccess {w : Word} (h : w.extractLsb' 20 4 = 0xF) :
    w.extractLsb' 20 2 = 3 ∧ w.extractLsb' 22 2 = 3 := by
  have halves : ∀ hi lo : BitVec 2, hi ++ lo = 0xF#4 → lo = 3 ∧ hi = 3 := by decide
  exact halves _ _ ((BitVec.extractLsb'_append_extractLsb'_eq_extractLsb' rfl).trans h)

/-- Full access admits every mode. -/
theorem vfpAdmitted_of_fullAccess {s : State} (hfpu : s.cfg.fpu ≠ .none) (hcp : s.cp15.cpacr.extractLsb' 20 4 = 0xF) :
    VfpAdmitted s := by
  obtain ⟨h10, h11⟩ := fields_of_fullAccess hcp
  exact ⟨hfpu, h10.trans h11.symm, .inl h10⟩

/-! ### The FPU system registers -/

/-- The number names a register that Table 5-3 permits (12_fpu_registers.md R230). -/
theorem fpuRegAccess_of_permitted {s : State} {reg : BitVec 4} {r : FpuReg} (hadm : VfpAdmitted s)
    (hreg : fpuReg reg = some r) (hperm : fpuRegPermitted s r = true) : fpuRegAccess reg s = .ok r s := by
  unfold fpuRegAccess
  rw [bind_ok (vfpAccess_of_admitted hadm), bind_ok (get_apply s), hreg]
  refine bind_ok (t := s) (a := ()) ?_
  rw [hperm]
  rfl

/-- The number names a register that Table 5-3 does not permit (12_fpu_registers.md R230). -/
theorem fpuRegAccess_of_forbidden {s : State} {reg : BitVec 4} {r : FpuReg} (hadm : VfpAdmitted s)
    (hreg : fpuReg reg = some r) (hperm : fpuRegPermitted s r = false) : fpuRegAccess reg s = .error .undefined s := by
  unfold fpuRegAccess
  rw [bind_ok (vfpAccess_of_admitted hadm), bind_ok (get_apply s), hreg]
  refine bind_error ?_
  rw [hperm]
  rfl

/-- The number names no register, whatever the mode and FPEXC.EN (93_implementation_defined.md U61). -/
theorem fpuRegAccess_of_none {s : State} {reg : BitVec 4} (hadm : VfpAdmitted s) (hreg : fpuReg reg = none) :
    fpuRegAccess reg s = .error (.refuse .vfpRegister) s := by
  unfold fpuRegAccess
  rw [bind_ok (vfpAccess_of_admitted hadm), bind_ok (get_apply s), hreg]
  rfl

theorem fpuReg_eq_none {reg : BitVec 4} : reg.toNat ∉ [0, 1, 6, 7, 8] → fpuReg reg = none := by
  revert reg; decide

/-- VMSR leaves the pc to the end of the instruction. -/
theorem writeFpuReg_pc (r : FpuReg) (v : Word) (s : State) : (writeFpuReg r v s).pc = s.pc := by
  cases r <;> rfl

/-- Rt = 15 takes a value's top four bits as the flags (40_system_register_access.md R450). -/
theorem receive_flags (v : Word) {s : State} (hp : s.pc ≠ 0xFFFFFFFC) :
    receive 15 v s = .ok () (s.setFlags (v.getLsbD 31) (v.getLsbD 30) (v.getLsbD 29) (v.getLsbD 28)).past :=
  fallThrough_of_ne (s := s.setFlags (v.getLsbD 31) (v.getLsbD 30) (v.getLsbD 29) (v.getLsbD 28)) hp

section

variable {c : Cond} {reg : BitVec 4} {rt : Reg} {s : State} {r : FpuReg}

/-- VMRS of a register that Table 5-3 permits, to a register or, of FPSCR, to the flags (40_system_register_access.md R450). -/
theorem exec_vmrs_of_permitted (hrun : Runs c s) (hadm : VfpAdmitted s) (hreg : fpuReg reg = some r)
    (hperm : fpuRegPermitted s r = true) (hrt : (rt == 15 && r != .fpscr) = false) {t : State}
    (hrec : receive rt (readFpuReg s r) s = .ok () t) : exec (.vmrs c reg rt) s = .next t := by
  show execVmrs c reg rt s = _
  unfold execVmrs
  rw [conditional_passed hrun.1, bind_ok (fpuRegAccess_of_permitted hadm hreg hperm), hrt]
  exact congrArg finish hrec

/-- VMSR to a register that Table 5-3 permits (40_system_register_access.md R451). -/
theorem exec_vmsr_of_permitted (hrun : Runs c s) (hadm : VfpAdmitted s) (hreg : fpuReg reg = some r)
    (hperm : fpuRegPermitted s r = true) (hrt : rt ≠ 15) :
    exec (.vmsr c reg rt) s = .next (writeFpuReg r (s.reg rt) s).past := by
  obtain ⟨hc, hp⟩ := hrun
  show execVmsr c reg rt s = _
  unfold execVmsr
  rw [conditional_passed hc, bind_ok (fpuRegAccess_of_permitted hadm hreg hperm), bind_ok (notPc_of_ne hrt s)]
  exact congrArg finish (fallThrough_of_ne (s := writeFpuReg r (s.reg rt) s) (by rwa [writeFpuReg_pc]))

/-- VMRS and VMSR end where the check of their register ends. -/
theorem exec_vmrs_of_undefined (hc : condPassed c s.cpsr = true) (harm : ArmEntry s)
    (h : fpuRegAccess reg s = .error .undefined s) :
    exec (.vmrs c reg rt) s = .next (takeException .undefined (s.pc + 4) s) ∧
      exec (.vmsr c reg rt) s = .next (takeException .undefined (s.pc + 4) s) :=
  ⟨conditional_undefined hc harm (bind_error h), conditional_undefined hc harm (bind_error h)⟩

/-- VMRS and VMSR of a number that names no register stop by name (93_implementation_defined.md U61). -/
theorem exec_vmrs_of_none (hc : condPassed c s.cpsr = true) (hadm : VfpAdmitted s) (hreg : fpuReg reg = none) :
    exec (.vmrs c reg rt) s = .refused .vfpRegister ∧ exec (.vmsr c reg rt) s = .refused .vfpRegister :=
  have h := fpuRegAccess_of_none hadm hreg
  ⟨(conditional_passed hc _).trans (congrArg finish (bind_error h)),
    (conditional_passed hc _).trans (congrArg finish (bind_error h))⟩

/-- The registers but FPSCR: for privileged modes, whatever FPEXC.EN is (12_fpu_registers.md R230). -/
theorem exec_privileged_fpuReg (hrun : Runs c s) (hadm : VfpAdmitted s) (hrt : rt ≠ 15) (hreg : fpuReg reg = some r)
    (hr : r ≠ .fpscr) :
    (s.privileged = true →
      exec (.vmrs c reg rt) s = .next (s.wrote rt (readFpuReg s r)) ∧
      exec (.vmsr c reg rt) s = .next (writeFpuReg r (s.reg rt) s).past) ∧
    (s.privileged = false → ArmEntry s →
      exec (.vmrs c reg rt) s = .next (takeException .undefined (s.pc + 4) s) ∧
      exec (.vmsr c reg rt) s = .next (takeException .undefined (s.pc + 4) s)) := by
  have hpriv : fpuRegPermitted s r = s.privileged := by
    cases r with
    | fpscr => exact absurd rfl hr
    | _ => rfl
  refine ⟨fun hp => ⟨?_, ?_⟩, fun hp harm => ?_⟩
  · exact exec_vmrs_of_permitted hrun hadm hreg (hpriv.trans hp) (by rw [beq_false_of_ne hrt]; rfl) (receive_of_ne hrt _ hrun.2)
  · exact exec_vmsr_of_permitted hrun hadm hreg (hpriv.trans hp) hrt
  · exact exec_vmrs_of_undefined hrun.1 harm (fpuRegAccess_of_forbidden hadm hreg (hpriv.trans hp))

end

/-- FPUFLAGS shows FPSCR[7] and FPSCR[4:0] (12_fpu_registers.md R212). -/
theorem fpuFlags_getLsbD (s : State) :
    (fpuFlags s).getLsbD 5 = s.fpu.fpscr.getLsbD 7 ∧ ∀ k, k < 5 → (fpuFlags s).getLsbD k = s.fpu.fpscr.getLsbD k := by
  unfold fpuFlags
  refine ⟨?_, fun k hk => ?_⟩
  · rw [BitVec.getLsbD_append, if_neg (by decide)]
    exact (BitVec.getLsbD_ofBool _ _).trans (Bool.true_and _)
  · rw [BitVec.getLsbD_append, if_pos hk]
    simp [hk]

/-- Settles O46: with CPACR admitting everyone, Table 5-3 alone decides, register by register. -/
theorem fpuSystemRegisters : Obligations.FpuSystemRegisters := by
  intro c rt s hrun hfpu hcp hrt
  have hadm := vfpAdmitted_of_fullAccess hfpu hcp
  refine ⟨fun e he => ?privileged, fun hen => ⟨?toRegister, ?toFlags, ?fromRegister⟩, fun hen harm => ?disabled,
    fun reg hreg => exec_vmrs_of_none hrun.1 hadm (fpuReg_eq_none hreg), fpuFlags_getLsbD s⟩
  case privileged =>
    simp only [List.mem_cons, List.not_mem_nil, or_false] at he
    obtain rfl | rfl | rfl | rfl := he
    · exact exec_privileged_fpuReg hrun hadm hrt (r := .fpsid) rfl (by decide)
    · exact exec_privileged_fpuReg hrun hadm hrt (r := .mvfr1) rfl (by decide)
    · exact exec_privileged_fpuReg hrun hadm hrt (r := .mvfr0) rfl (by decide)
    · exact exec_privileged_fpuReg hrun hadm hrt (r := .fpexc) rfl (by decide)
  case toRegister =>
    exact exec_vmrs_of_permitted hrun hadm (r := .fpscr) rfl hen (Bool.and_false _) (receive_of_ne hrt _ hrun.2)
  case toFlags => exact exec_vmrs_of_permitted hrun hadm (r := .fpscr) rfl hen rfl (receive_flags _ hrun.2)
  case fromRegister => exact exec_vmsr_of_permitted hrun hadm (r := .fpscr) rfl hen hrt
  case disabled => exact exec_vmrs_of_undefined hrun.1 harm (fpuRegAccess_of_forbidden hadm (r := .fpscr) rfl hen)


/-! ### Instructions without access -/

/-- The cases in which an instruction of the VFP space is an Undefined Instruction for want of access, of an enabled FPU, or of
a register or a precision (12_fpu_registers.md R221, R231; 43_vfp_instructions.md R1041, R1042). -/
def LacksAccess (s : State) (i : Instr) : Prop :=
  VfpDenied s ∨ (VfpAdmitted s ∧ s.fpu.fpexc.getLsbD 30 = false ∧ reachesDisabled s i = false) ∨
    (VfpReady s ∧ lacksRegister s.cfg i = true)

/-- Without access the instruction is an Undefined Instruction exception. -/
def TrapsWithoutAccess (i : Instr) : Prop :=
  ∀ s, condPassed (condOf (encode i)) s.cpsr = true → ArmEntry s → LacksAccess s i →
    exec i s = .next (takeException .undefined (s.pc + 4) s)

theorem vfpOn_of_denied {s : State} (h : VfpDenied s) : vfpOn s = .error .undefined s :=
  bind_error (vfpAccess_of_denied h)

theorem vfpOn_of_disabled {s : State} (hadm : VfpAdmitted s) (hen : s.fpu.fpexc.getLsbD 30 = false) :
    vfpOn s = .error .undefined s := by
  unfold vfpOn
  rw [bind_ok (vfpAccess_of_admitted hadm), bind_ok (get_apply s), undefinedIf_apply, vfpEnabled, hen]
  rfl

theorem vfpOn_of_ready {s : State} (h : VfpReady s) : vfpOn s = .ok () s := by
  unfold vfpOn
  rw [bind_ok (vfpAccess_of_admitted h.1), bind_ok (get_apply s), undefinedIf_apply, vfpEnabled, h.2]
  rfl

/-- What follows the first checks has to find the missing register or precision only. -/
theorem vfpOn_bind_of_lacksAccess {s : State} {i : Instr} {rest : Unit → M Unit} (h : LacksAccess s i)
    (hrest : lacksRegister s.cfg i = true → rest () s = .error .undefined s) :
    (vfpOn >>= rest) s = .error .undefined s := by
  obtain hden | ⟨hadm, hen, -⟩ | ⟨hready, hlacks⟩ := h
  · exact bind_error (vfpOn_of_denied hden)
  · exact bind_error (vfpOn_of_disabled hadm hen)
  · exact (bind_ok (vfpOn_of_ready hready)).trans (hrest hlacks)

theorem checkTransfer_of_lacksAccess {s : State} {i : Instr} {bad : Bool} (h : LacksAccess s i)
    (hbad : lacksRegister s.cfg i = bad) : checkTransfer bad s = .error .undefined s :=
  vfpOn_bind_of_lacksAccess h fun hlacks => by rw [← hbad, hlacks]; rfl

theorem checkData_of_lacksAccess {s : State} {i : Instr} {bad dbl : Bool} (h : LacksAccess s i)
    (hbad : lacksRegister s.cfg i = (bad || (dbl && s.cfg.fpu == .single))) :
    checkData bad dbl s = .error .undefined s :=
  vfpOn_bind_of_lacksAccess h fun hlacks => by
    rw [bind_ok (get_apply s), ← hbad, hlacks]
    rfl

/-- A register of VMRS and VMSR that stays out of reach with FPEXC.EN 0: FPSCR, and the others in User mode
(12_fpu_registers.md R221, R230). -/
theorem fpuReg_forbidden_of_disabled {s : State} {c : Cond} {reg : BitVec 4} {rt : Reg}
    (hen : s.fpu.fpexc.getLsbD 30 = false) (h : reachesDisabled s (.vmrs c reg rt) = false) :
    ∃ r, fpuReg reg = some r ∧ fpuRegPermitted s r = false := by
  by_cases hone : reg = 1
  · exact ⟨.fpscr, by rw [hone]; rfl, hen⟩
  · rw [reachesDisabled, bne_iff_ne.mpr hone, Bool.true_and, Bool.or_eq_false_iff, Bool.not_eq_false'] at h
    obtain ⟨huser, hnamed⟩ := h
    have named : ∀ n : BitVec 4, [0, 6, 7, 8].contains n.toNat = true → ∃ r, fpuReg n = some r ∧ r ≠ .fpscr := by decide
    obtain ⟨r, hr, hne⟩ := named reg hnamed
    refine ⟨r, hr, ?_⟩
    cases r with
    | fpscr => exact absurd rfl hne
    | _ => exact huser

theorem fpuRegAccess_of_lacksAccess {s : State} {i : Instr} {c : Cond} {reg : BitVec 4} {rt : Reg} (h : LacksAccess s i)
    (hreach : reachesDisabled s i = reachesDisabled s (.vmrs c reg rt))
    (hbad : lacksRegister s.cfg i = false) : fpuRegAccess reg s = .error .undefined s := by
  obtain hden | ⟨hadm, hen, hout⟩ | ⟨-, hlacks⟩ := h
  · exact bind_error (vfpAccess_of_denied hden)
  · obtain ⟨r, hreg, hperm⟩ := fpuReg_forbidden_of_disabled hen (hreach.symm.trans hout)
    exact fpuRegAccess_of_forbidden hadm hreg hperm
  · rw [hbad] at hlacks
    cases hlacks

/-! ### The bodies of the VFP space -/

/-- A word, or its upper part, begins with the bits of a condition. -/
inductive LedBy (c : Cond) : {n : Nat} → BitVec n → Prop where
  | bits : LedBy c c.bits
  | append {n m : Nat} {x : BitVec n} {y : BitVec m} : LedBy c x → LedBy c (x ++ y)

theorem LedBy.topField {c : Cond} {n : Nat} {x : BitVec n} (h : LedBy c x) : 4 ≤ n ∧ x.extractLsb' (n - 4) 4 = c.bits := by
  induction h with
  | bits => exact ⟨le_rfl, Laws.ext_only _⟩
  | @append n m x y _ ih =>
    obtain ⟨hn, hx⟩ := ih
    have hstart : n + m - 4 - m = n - 4 := by omega
    exact ⟨by omega, (Laws.ext_left x y _ _ (by omega)).trans (by rw [hstart, hx])⟩

theorem condOf_of_ledBy {c : Cond} {w : Word} (h : LedBy c w) : condOf w = c :=
  (congrArg Cond.ofBits h.topField.2).trans (Laws.cond_ofBits c)

section

variable {i : Instr} {c : Cond} (hled : LedBy c (encode i))
include hled

/-- An instruction whose body ends in the exception for want of access. -/
theorem trapsWithoutAccess_of_body {body : M Unit} (hexec : ∀ s, exec i s = conditional c body s)
    (hbody : ∀ s, LacksAccess s i → body s = .error .undefined s) : TrapsWithoutAccess i := by
  intro s hc harm h
  rw [condOf_of_ledBy hled] at hc
  exact (hexec s).trans (conditional_undefined hc harm (hbody s h))

/-- A data-processing instruction: the checks of its registers and its precision, then the rest. -/
theorem trapsWithoutAccess_of_checkData {bad dbl : Bool} {rest : Unit → M Unit}
    (hexec : ∀ s, exec i s = conditional c (checkData bad dbl >>= rest) s)
    (hbad : ∀ cfg, lacksRegister cfg i = (bad || (dbl && cfg.fpu == .single))) : TrapsWithoutAccess i :=
  trapsWithoutAccess_of_body hled hexec fun s h => bind_error (checkData_of_lacksAccess h (hbad s.cfg))

/-- A load, a store or a transfer: the check of its registers, then the rest. -/
theorem trapsWithoutAccess_of_checkTransfer {bad : Bool} {rest : Unit → M Unit}
    (hexec : ∀ s, exec i s = conditional c (checkTransfer bad >>= rest) s)
    (hbad : ∀ cfg, lacksRegister cfg i = bad) : TrapsWithoutAccess i :=
  trapsWithoutAccess_of_body hled hexec fun s h => bind_error (checkTransfer_of_lacksAccess h (hbad s.cfg))

/-- A form that names no register of the FPU: the checks of access, then the rest. -/
theorem trapsWithoutAccess_of_vfpOn {rest : Unit → M Unit} (hexec : ∀ s, exec i s = conditional c (vfpOn >>= rest) s)
    (hbad : ∀ cfg, lacksRegister cfg i = false) : TrapsWithoutAccess i :=
  trapsWithoutAccess_of_body hled hexec fun s h =>
    vfpOn_bind_of_lacksAccess h fun hlacks => by rw [hbad] at hlacks; cases hlacks

/-- VMRS and VMSR: the check of the register they name, then the rest. -/
theorem trapsWithoutAccess_of_fpuRegAccess {reg : BitVec 4} {rt : Reg} {rest : FpuReg → M Unit}
    (hexec : ∀ s, exec i s = conditional c (fpuRegAccess reg >>= rest) s)
    (hreach : ∀ s, reachesDisabled s i = reachesDisabled s (.vmrs c reg rt))
    (hbad : ∀ cfg, lacksRegister cfg i = false) : TrapsWithoutAccess i :=
  trapsWithoutAccess_of_body hled hexec fun s h =>
    bind_error (fpuRegAccess_of_lacksAccess h (hreach s) (hbad s.cfg))

end

/-! ### The VFP space by its words -/

/-- A word under a mask has the masked word's fields where the mask is ones. -/
theorem extractLsb'_eq_of_and_eq {w v m : Word} (h : w &&& m = v) {start len : Nat}
    (hm : m.extractLsb' start len = BitVec.allOnes len) : w.extractLsb' start len = v.extractLsb' start len := by
  rw [← h, BitVec.extractLsb'_and, hm, BitVec.and_allOnes]

/-- A field of ones is ones under the field's mask. -/
theorem and_eq_of_field_allOnes {w : Word} {start len : Nat} (h : w.extractLsb' start len = BitVec.allOnes len) :
    w &&& ((BitVec.allOnes len).setWidth 32 <<< start) = (BitVec.allOnes len).setWidth 32 <<< start := by
  apply BitVec.eq_of_getLsbD_eq
  intro k hk
  have hbit := congrArg (BitVec.getLsbD · (k - start)) h
  simp only [BitVec.getLsbD_extractLsb', BitVec.getLsbD_allOnes, BitVec.getLsbD_and, BitVec.getLsbD_shiftLeft,
    BitVec.getLsbD_setWidth] at hbit ⊢
  by_cases hin : start ≤ k ∧ k - start < len
  · obtain ⟨hle, hlt⟩ := hin
    rw [Nat.add_sub_cancel' hle] at hbit
    simp_all
  · grind

/-- The fields of a word of the VFP space: the class of the coprocessor instructions, coprocessor 10 or 11, neither SVC nor
the unconditional space (30_encoding.md R426). -/
theorem inVfpSpace_fields {i : Instr} (h : InVfpSpace i) :
    (encode i).extractLsb' 26 2 = 3 ∧ (encode i).extractLsb' 9 3 = 5 ∧ (encode i).extractLsb' 24 4 ≠ 15 ∧
      (encode i).extractLsb' 28 4 ≠ 15 := by
  obtain ⟨hspace, hsvc, huncond⟩ := h
  exact ⟨(extractLsb'_eq_of_and_eq hspace (by decide)).trans (by decide),
    (extractLsb'_eq_of_and_eq hspace (by decide)).trans (by decide),
    fun hf => hsvc (and_eq_of_field_allOnes hf), fun hf => huncond (and_eq_of_field_allOnes hf)⟩

/-- Every instruction of the VFP space makes its checks first; all others have another class, another coprocessor, or a word of
SVC or of the unconditional space. -/
theorem trapsWithoutAccess_of_inVfpSpace {i : Instr} (h : InVfpSpace i) : TrapsWithoutAccess i := by
  obtain ⟨hclass, hcoproc, hsvc, huncond⟩ := inVfpSpace_fields h
  cases i
  -- data processing
  case vadd | vsub | vmul | vnmul | vmla | vmls | vnmla | vnmls | vdiv | vmovReg | vabs | vneg | vsqrt | vcmpReg | vmovImm
      | vcmpZero | vcvtIntToFp | vcvtFpToInt | vcvtFixed =>
    exact trapsWithoutAccess_of_checkData (by repeat constructor) (fun _ => rfl) fun _ => Bool.and_or_distrib_left _ _ _
  case vcvtDoubleSingle | vcvtbVcvtt =>
    exact trapsWithoutAccess_of_checkData (by repeat constructor) (fun _ => rfl) fun _ => rfl
  -- loads, stores, transfers
  case vldr | vstr | vldmIa | vldmDb | vpop | vstmIa | vstmDb | vpush | vmovCoreSingle | vmovCoreTwoSingles | vmovCoreDouble
      | vmovCoreToHalf | vmovHalfToCore =>
    exact trapsWithoutAccess_of_checkTransfer (by repeat constructor) (fun _ => rfl) fun _ => rfl
  -- system registers, and the forms that go no further than the checks of access
  case vmrs | vmsr =>
    exact trapsWithoutAccess_of_fpuRegAccess (rt := 0) (by repeat constructor) (fun _ => rfl) (fun _ => rfl) fun _ => rfl
  case vmrsVmsrSbz | vfpUnallocated =>
    exact trapsWithoutAccess_of_vfpOn (by repeat constructor) (fun _ => rfl) fun _ => rfl
  -- an Undefined Instruction whatever its coprocessor
  case otherCoproc => exact trapsWithoutAccess_of_body (by repeat constructor) (fun _ => rfl) fun _ _ => rfl
  -- the unconditional space, SVC, coprocessors 15 and 14
  case clrex | dsb | dmb | isb | setend | cps | rfe | srs | pldImm | pldwImm | pliImm | pldReg | pldwReg | pliReg | blxImm
      | advSimdDataProcessing | advSimdLoadStore | coprocTwoSpace | restOfUnconditional =>
    refine absurd ?_ huncond
    unfold encode
    repeat rw [BitVec.extractLsb'_append_eq_of_le (by decide)]
    decide
  case svc =>
    refine absurd ?_ hsvc
    unfold encode
    rw [BitVec.extractLsb'_append_eq_of_le (by decide), BitVec.extractLsb'_append_eq_of_add_le (by decide)]
    decide
  case mrcP15 | mcrP15 | mrcP14 | mcrP14 =>
    unfold encode at hcoproc
    repeat rw [BitVec.extractLsb'_append_eq_of_le (by decide)] at hcoproc
    rw [BitVec.extractLsb'_append_eq_of_add_le (by decide)] at hcoproc
    exact absurd hcoproc (by decide)
  -- the other classes
  all_goals
    unfold encode at hclass
    repeat rw [BitVec.extractLsb'_append_eq_of_le (by decide)] at hclass
    repeat rw [BitVec.extractLsb'_append_eq_of_add_le (by decide)] at hclass
    exact absurd hclass (by decide)

/-- Settles O47: the statement says of each instruction of the VFP space that it traps without access. -/
theorem vfpDeniedIsUndefined : Obligations.VfpDeniedIsUndefined :=
  fun _ s _ hspace hc harm h => trapsWithoutAccess_of_inVfpSpace hspace s hc harm h

end Sys2Proof.Machine

/-!
# Memory accesses

What an aligned access does, by what serves it: main memory (`InMainMemory`), a TCM's RAM, a line of the data cache
(`HitsLine`). Each has a lemma for the read and one for the write of its bytes; the loads, the stores and the statement about
main memory follow.
-/

namespace Sys2Proof.Machine

/-! ### Bytes and words -/

/-- A write changes no other key, in canonical form or not. -/
theorem sparseRead_write_ne {w : Nat} (m : List (Nat × BitVec w)) {k j : Nat} (h : k ≠ j) (v : BitVec w) :
    sparseRead (sparseWrite m k v) j = sparseRead m j := by
  induction m with
  | nil =>
    rw [sparseWrite]
    split <;> simp [sparseRead, h]
  | cons e m ih =>
    obtain ⟨k', v'⟩ := e
    simp only [sparseWrite]
    split
    · next hk =>
      subst hk
      split <;> simp [sparseRead, h]
    · split
      · split <;> simp [sparseRead, h]
      · simp only [sparseRead, ih]

/-- Stored bytes leave the bytes outside alone, in canonical form or not. -/
theorem sparseRead_storeBytes_outside (m : List Host.Cell) (a : Nat) (bs : List Byte) {j : Nat}
    (h : j < a ∨ a + bs.length ≤ j) : sparseRead (storeBytes m a bs) j = sparseRead m j := by
  induction bs generalizing m a with
  | nil => rfl
  | cons b bs ih =>
    rw [List.length_cons] at h
    rw [storeBytes, ih _ _ (by omega), sparseRead_write_ne m (by omega)]

@[simp] theorem length_memBytes (m : List Host.Cell) (a n : Nat) : (memBytes m a n).length = n := by
  induction n generalizing a with
  | zero => rfl
  | succ n ih => rw [memBytes, List.length_cons, ih]

theorem getD_memBytes (m : List Host.Cell) (a : Nat) {n k : Nat} (h : k < n) :
    (memBytes m a n).getD k 0 = sparseRead m (a + k) := by
  induction n generalizing a k with
  | zero => omega
  | succ n ih =>
    cases k with
    | zero => rfl
    | succ k =>
      rw [memBytes, List.getD_cons_succ, ih _ (by omega)]
      congr 1
      omega

theorem length_bytesOf (be : Bool) (n : Nat) (v : Word) : (bytesOf be n v).length = min n 4 := by
  cases be <;> simp [bytesOf, bytesOfWord]

/-- Bit `i` of a word is bit `i % 8` of its byte `i / 8`. -/
theorem getLsbD_leWord (bs : List Byte) {i : Nat} (h : i < 32) :
    (leWord bs).getLsbD i = (bs.getD (i / 8) 0).getLsbD (i % 8) := by
  induction bs generalizing i with
  | nil => simp [leWord]
  | cons b bs ih =>
    rw [leWord, BitVec.getLsbD_or, BitVec.getLsbD_shiftLeft, BitVec.getLsbD_setWidth]
    by_cases hi : i < 8
    · simp [hi, h, show i / 8 = 0 by omega, show i % 8 = i by omega]
    · rw [ih (by omega), BitVec.getLsbD_of_ge b i (by omega), show i / 8 = (i - 8) / 8 + 1 by omega, List.getD_cons_succ,
        show i % 8 = (i - 8) % 8 by omega]
      simp [hi, h]

/-- Byte `k` of a word. -/
theorem extractLsb'_leWord (bs : List Byte) {k : Nat} (h : k < 4) : (leWord bs).extractLsb' (8 * k) 8 = bs.getD k 0 := by
  apply BitVec.eq_of_getLsbD_eq
  intro i hi
  rw [BitVec.getLsbD_extractLsb', getLsbD_leWord bs (by omega), show (8 * k + i) / 8 = k by omega,
    show (8 * k + i) % 8 = i by omega]
  simp [hi]

theorem getD_bytesOfWord (w : Word) {k : Nat} (h : k < 4) : (bytesOfWord w).getD k 0 = w.extractLsb' (8 * k) 8 := by
  match k, h with
  | 0, _ | 1, _ | 2, _ | 3, _ => rfl

/-- The bytes of a value, read again in the same order, are its low bytes (20_memory.md R241, R243). -/
theorem valueOf_bytesOf (be : Bool) (n : Nat) (v : Word) :
    valueOf be (bytesOf be n v) = BitVec.ofNat 32 (v.toNat % 2 ^ (8 * n)) := by
  have hle : valueOf be (bytesOf be n v) = leWord ((bytesOfWord v).take n) := by
    cases be <;> simp [valueOf, bytesOf]
  rw [hle]
  apply BitVec.eq_of_getLsbD_eq
  intro i hi
  rw [getLsbD_leWord _ hi, BitVec.getLsbD_ofNat, Nat.testBit_mod_two_pow, List.getD_eq_getElem?_getD, List.getElem?_take]
  by_cases hin : i < 8 * n
  · rw [if_pos (by omega), ← List.getD_eq_getElem?_getD, getD_bytesOfWord v (by omega), BitVec.getLsbD_extractLsb',
      show 8 * (i / 8) + i % 8 = i by omega]
    simp [hi, hin, show i % 8 < 8 by omega, BitVec.getLsbD]
  · rw [if_neg (by omega)]
    simp [hin]

/-! ### What main memory holds -/

/-- Byte `k` of a little-endian word is the one at its address plus `k` (20_memory.md R241). -/
theorem extractLsb'_memValue_little {s : State} (he : s.bigEndian = false) (a : Word) {k : Nat} (hk : k < 4) :
    (s.memValue a 4).extractLsb' (8 * k) 8 = sparseRead s.mem (a.toNat + k) := by
  rw [State.memValue, valueOf, he, if_neg (by decide), extractLsb'_leWord _ hk, getD_memBytes _ _ hk]

/-- Byte `k` of a big-endian word is the one at its last address less `k` (20_memory.md R241). -/
theorem extractLsb'_memValue_big {s : State} (he : s.bigEndian = true) (a : Word) {k : Nat} (hk : k < 4) :
    (s.memValue a 4).extractLsb' (8 * k) 8 = sparseRead s.mem (a.toNat + 3 - k) := by
  rw [State.memValue, valueOf, he, if_pos rfl, extractLsb'_leWord _ hk, List.getD_eq_getElem?_getD,
    List.getElem?_reverse (by simpa using hk), ← List.getD_eq_getElem?_getD, getD_memBytes _ _ (by simp; omega),
    length_memBytes]
  congr 1
  omega

/-- A value stored is the value then read, every byte outside is unchanged, the canonical form is kept (20_memory.md R240,
R243). -/
theorem stored_memValue (s : State) (a v : Word) {n : Nat} (hn : n ≤ 4) (hwf : Memory.wf s.mem = true) :
    (s.stored a n v).memValue a n = BitVec.ofNat 32 (v.toNat % 2 ^ (8 * n)) ∧
    (∀ x, x < a.toNat ∨ a.toNat + n ≤ x → sparseRead (s.stored a n v).mem x = sparseRead s.mem x) ∧
    Memory.wf (s.stored a n v).mem = true := by
  have hlen : (bytesOf s.bigEndian n v).length = n := by rw [length_bytesOf, Nat.min_eq_left hn]
  refine ⟨?_, fun x hx => sparseRead_storeBytes_outside _ _ _ (by rwa [hlen]), wf_storeBytes hwf _ _⟩
  have hback := memBytes_storeBytes hwf a.toNat (bytesOf s.bigEndian n v)
  rw [hlen] at hback
  exact (congrArg (valueOf s.bigEndian) hback).trans (valueOf_bytesOf _ _ _)

/-! ### Regions of a TCM: whole pages -/

/-- A TCM region does not end inside a word: the bytes of one word, and of one doubleword, are in it together. -/
theorem inTcm_congr {rr : Word} {size : RamSize} {a b : Word} (h : a.toNat / 8 = b.toNat / 8) :
    inTcm rr size a = inTcm rr size b := by
  have hpage : ∀ x : Nat, x / ramBytes size = x / 8 / (ramBytes size / 8) := fun x => by
    cases size <;> simp only [ramBytes] <;> omega
  unfold inTcm
  rw [hpage a.toNat, hpage b.toNat, h]

/-- The address of a word by its number. -/
theorem toNat_wordAddress {k : Nat} (h : 4 * k < 2 ^ 32) : (BitVec.ofNat 32 (4 * k)).toNat = 4 * k := by
  rw [BitVec.toNat_ofNat, Nat.mod_eq_of_lt h]

/-! ### Accesses that main memory serves -/

/-- Main memory serves an access of `n` bytes with these attributes: no TCM, not the data cache, not the peripheral port nor the
debug window; the platform answers no error, nor does the lookup in the duplicate tag RAM find one (20_memory.md R289). -/
structure InMainMemory (s : State) (attr : Attr) (form : AccessForm) (a : Word) (n : Nat) : Prop where
  clash : tcmClash s = false
  itcm : inItcm s a = false
  dtcm : inDtcm s a = false
  peripheral : inPeripheral s.cfg a = false
  window : inWindow s.cfg a = false
  noError : busError s form a n = none
  lookup : scuFinds s a = false
  uncached : (dcacheOn s && cacheable s attr) = false

/-- A plain access is one that is aligned, admitted, and served by main memory. -/
theorem plain_iff {s : State} {k : AccessKind} {acc : Access} {a : Word} :
    Plain s k acc a ↔ a.toNat % acc.size = 0 ∧
      ∃ attr, admission k acc a s = .ok attr ∧ InMainMemory s attr acc.form a acc.size := by
  constructor
  · rintro ⟨hal, hclash, hi, hd, hp, hw, he, hf, attr, hadm, hc⟩
    exact ⟨hal, attr, hadm, hclash, hi, hd, hp, hw, he, hf, hc⟩
  · rintro ⟨hal, attr, hadm, hclash, hi, hd, hp, hw, he, hf, hc⟩
    exact ⟨hal, hclash, hi, hd, hp, hw, he, hf, attr, hadm, hc⟩

section

variable {s : State} {attr : Attr} {form : AccessForm} {a : Word} {n : Nat}

theorem inPrivate_of_inPeripheral {cfg : Config} (h : inPeripheral cfg a = false) : inPrivate cfg a = false := by
  unfold inPeripheral at h
  rw [inPrivate, h, Bool.and_false]

theorem InMainMemory.accessed (h : InMainMemory s attr form a n) : InMainMemory s.accessed attr form a n :=
  ⟨h.clash, h.itcm, h.dtcm, h.peripheral, h.window, h.noError, h.lookup, h.uncached⟩

theorem InMainMemory.busRead_eq (h : InMainMemory s attr form a n) :
    busRead a n attr form s = .ok (memBytes s.mem a.toNat n) s := by
  unfold busRead
  simp only [inPrivate_of_inPeripheral h.peripheral, h.peripheral, h.window, h.noError, Bool.false_and, Bool.false_eq_true,
    if_false]

theorem InMainMemory.busWrite_eq {bs : List Byte} (h : InMainMemory s attr form a bs.length) :
    busWrite a bs attr form s = .ok () { s with mem := storeBytes s.mem a.toNat bs } := by
  unfold busWrite
  simp only [inPrivate_of_inPeripheral h.peripheral, h.peripheral, h.window, h.noError, Bool.false_and, Bool.false_eq_true,
    if_false]

theorem InMainMemory.readRouted_eq (h : InMainMemory s attr form a n) :
    readRouted a n attr form s = .ok (memBytes s.mem a.toNat n) s := by
  unfold readRouted
  simp only [h.clash, h.itcm, h.dtcm, throughCache_of_uncached a form h.uncached, Bool.false_eq_true, if_false]
  rw [transferRead_quiet h.lookup, h.busRead_eq]

theorem InMainMemory.writeRouted_eq {bs : List Byte} (h : InMainMemory s attr form a bs.length) :
    writeRouted a bs attr form s = .ok () { s with mem := storeBytes s.mem a.toNat bs } := by
  unfold writeRouted
  simp only [h.clash, h.itcm, h.dtcm, throughCache_of_uncached a form h.uncached, Bool.false_eq_true, if_false]
  rw [transferWrite_quiet h.lookup, h.busWrite_eq]

theorem InMainMemory.readPart_eq (h : InMainMemory s attr form a n) :
    readPart a n attr form s = .ok (memBytes s.mem a.toNat n) s.accessed :=
  h.accessed.readRouted_eq

end

/-! ### Stored words -/

/-- The state with bytes stored in main memory, in `s` what the word was, and the word `k` followed. -/
def State.followed (s : State) (m : List Host.Cell) (k : Nat) : State :=
  { s with unsynced := noteStored (codeMemory s (BitVec.ofNat 32 (4 * k))) k (leWord (memBytes m (4 * k) 4))
             (leWord (memBytes s.mem (4 * k) 4)) s.unsynced }

/-- A stored value is its bytes in memory, and its word followed from what it was. -/
theorem stored_eq_followed (s : State) (a : Word) (n : Nat) (v : Word) :
    s.stored a n v = State.followed { s.accessed with mem := storeBytes s.mem a.toNat (bytesOf s.bigEndian n v) } s.mem
      (a.toNat / 4) := rfl

/-- What data accesses see of a word that neither the ITCM nor the data cache holds. -/
theorem dataWord_of_uncached {s : State} {attr : Attr} {k : Nat} (hi : inItcm s (BitVec.ofNat 32 (4 * k)) = false)
    (hc : (dcacheOn s && cacheable s attr) = false) : dataWord s attr k = leWord (memBytes s.mem (4 * k) 4) := by
  unfold dataWord
  simp only [hi, hc, Bool.false_eq_true, if_false]

/-- A word stored in main memory is followed from what it was in `s`. -/
theorem markWord_of_uncached {s t : State} {attr : Attr} {k : Nat} (hk : 4 * k < 2 ^ 32)
    (hi : inItcm s (BitVec.ofNat 32 (4 * k)) = false) (hc : (dcacheOn s && cacheable s attr) = false)
    (hcfg : t.cfg = s.cfg) (hcp : t.cp15 = s.cp15) :
    markWord s attr k t = .ok () (t.followed s.mem k) := by
  have hi' : inItcm t (BitVec.ofNat 32 (4 * k)) = false := by rw [← hi, inItcm, inItcm, hcfg, hcp]
  have hc' : (dcacheOn t && cacheable t attr) = false := by
    rw [← hc]; unfold dcacheOn cacheable; rw [hcfg, hcp]
  unfold markWord
  rw [modify_apply]
  simp only [codePlace, hi', Bool.false_eq_true, if_false, toNat_wordAddress hk]
  rw [show 4 * k / 4 = k by omega, dataWord_of_uncached hi hc, dataWord_of_uncached hi' hc']
  rfl

section

variable {s : State} {attr : Attr} {form : AccessForm} {a : Word}

/-- The word of an address outside the ITCM is outside it too. -/
theorem inItcm_word {k : Nat} (h : inItcm s a = false) (hk : 4 * k / 8 = a.toNat / 8) :
    4 * k < 2 ^ 32 ∧ inItcm s (BitVec.ofNat 32 (4 * k)) = false := by
  have hlt : 4 * k < 2 ^ 32 := by have := a.isLt; omega
  exact ⟨hlt, (inTcm_congr (by rw [toNat_wordAddress hlt, hk])).trans h⟩

/-- A write is the write of its bytes, then the marks of the words it stored. -/
theorem writePart_of_writeRouted {bs : List Byte} {t : State} (h : writeRouted a bs attr form s.accessed = .ok () t) :
    writePart a bs attr form s =
      if inPeripheral s.cfg a || inDtcm s a then .ok () t
      else (do
        markWord s attr (a.toNat / 4)
        if bs.length = 8 then markWord s attr (a.toNat / 4 + 1) : M Unit) t := by
  unfold writePart
  rw [bind_ok (get_apply s), bind_ok (modify_apply _ s), bind_ok h, ite_apply]
  rfl

/-- Bytes within a word are stored in main memory, and their word followed. -/
theorem InMainMemory.writePart_eq {bs : List Byte} (h : InMainMemory s attr form a bs.length) (hlen : bs.length ≠ 8) :
    writePart a bs attr form s =
      .ok () (State.followed { s.accessed with mem := storeBytes s.mem a.toNat bs } s.mem (a.toNat / 4)) := by
  obtain ⟨hk, hi⟩ := inItcm_word (k := a.toNat / 4) h.itcm (by omega)
  rw [writePart_of_writeRouted h.accessed.writeRouted_eq, h.peripheral, h.dtcm, if_neg (by decide), if_neg hlen]
  exact bind_ok (markWord_of_uncached (t := { s.accessed with mem := storeBytes s.mem a.toNat bs }) hk hi h.uncached rfl rfl)

/-- A mark changes nothing but the list of stored words. -/
theorem exists_markWord (k : Nat) (t : State) : ∃ l, markWord s attr k t = .ok () { t with unsynced := l } := by
  unfold markWord
  rw [modify_apply]
  cases h : codePlace t (BitVec.ofNat 32 (4 * k)) <;> simp only [h]
  · exact ⟨t.unsynced, rfl⟩
  · exact ⟨_, rfl⟩

/-- After its bytes are written a write changes nothing but the list of stored words. -/
theorem exists_writePart {bs : List Byte} {t : State} (h : writeRouted a bs attr form s.accessed = .ok () t) :
    ∃ l, writePart a bs attr form s = .ok () { t with unsynced := l } := by
  rw [writePart_of_writeRouted h]
  split
  · exact ⟨t.unsynced, rfl⟩
  · obtain ⟨l, hl⟩ := exists_markWord (s := s) (attr := attr) (a.toNat / 4) t
    rw [bind_ok hl]
    split
    · exact exists_markWord _ _
    · exact ⟨l, rfl⟩

end

/-! ### Loads and stores of main memory -/

section

variable {s : State} {acc : Access} {a : Word} {attr : Attr}

/-- What an admitted load that is aligned to its size reads. -/
theorem loadValue_of_readPart {t : State} {bs : List Byte} (hadm : admission .read acc a s = .ok attr)
    (hal : a.toNat % acc.size = 0) (h : readPart a acc.size attr acc.form s = .ok bs t) :
    loadValue acc a s = .ok (valueOf s.bigEndian bs) t := by
  have hr : readBytes acc a s = .ok bs t := by
    unfold readBytes
    rw [hadm]
    exact (congrFun (if_pos hal) s).trans h
  unfold loadValue
  rw [bind_ok (get_apply s), bind_ok hr]
  rfl

/-- An admitted access that is aligned to its size writes its bytes at once. -/
theorem writeAdmitted_of_aligned (hal : a.toNat % acc.size = 0) (bs : List Byte) :
    writeAdmitted acc a attr bs = writePart a bs attr acc.form := if_pos hal

/-- An admitted store that is aligned to its size writes the bytes of its value. -/
theorem storeValue_eq_writePart (hadm : admission .write acc a s = .ok attr) (hal : a.toNat % acc.size = 0) (v : Word) :
    storeValue acc a v s = writePart a (bytesOf s.bigEndian acc.size v) attr acc.form s := by
  show writeBytes acc a (bytesOf s.bigEndian acc.size v) s = _
  unfold writeBytes
  rw [hadm]
  exact congrFun (writeAdmitted_of_aligned hal _) s

/-- A load that main memory serves (20_memory.md R240, R241). -/
theorem loadValue_of_plain (h : Plain s .read acc a) : loadValue acc a s = .ok (s.memValue a acc.size) s.accessed := by
  obtain ⟨hal, attr, hadm, hmem⟩ := plain_iff.mp h
  exact loadValue_of_readPart hadm hal hmem.readPart_eq

/-- A store that main memory serves (20_memory.md R240, R241). -/
theorem storeValue_of_plain (h : Plain s .write acc a) (v : Word) (hn : acc.size ≤ 4) :
    storeValue acc a v s = .ok () (s.stored a acc.size v) := by
  obtain ⟨hal, attr, hadm, hmem⟩ := plain_iff.mp h
  have hlen : (bytesOf s.bigEndian acc.size v).length = acc.size := by rw [length_bytesOf, Nat.min_eq_left hn]
  rw [storeValue_eq_writePart hadm hal, stored_eq_followed]
  exact InMainMemory.writePart_eq (by rwa [hlen]) (by omega)

end

/-! ### Tightly-coupled memories -/

section

variable {s : State} {attr : Attr} {form : AccessForm} {a : Word} {off : Nat}

theorem itcmCheck_off (h : eccItcmOn s = false) (chunk : Nat) : itcmCheck chunk s = .ok () s := by
  unfold itcmCheck
  rw [h, if_neg (by decide)]

theorem dtcmCheck_off (h : eccOn s = false) (word : Nat) : dtcmCheck word s = .ok () s := by
  unfold dtcmCheck
  rw [h, if_neg (by decide)]

/-- A read of the ITCM's RAM, with its error checking off. -/
theorem readRouted_itcm (hclash : tcmClash s = false) (hi : inItcm s a = true) (hecc : eccItcmOn s = false)
    (hoff : tcmOffset s.cfg.itcmBuild a = some off) (n : Nat) :
    readRouted a n attr form s = .ok (memBytes s.itcm.bytes off n) s := by
  unfold readRouted itcmReadAt
  rw [hclash, if_neg (by decide), hi, if_pos rfl, hoff]
  exact bind_ok (itcmCheck_off hecc _)

/-- A read of the DTCM's RAM, with its error checking off. -/
theorem readRouted_dtcm (hclash : tcmClash s = false) (hi : inItcm s a = false) (hd : inDtcm s a = true)
    (hecc : eccOn s = false) (hoff : tcmOffset s.cfg.dtcmBuild a = some off) {n : Nat} (hn : n ≠ 8) :
    readRouted a n attr form s = .ok (memBytes s.dtcm.bytes off n) s := by
  unfold readRouted dtcmReadAt
  rw [hclash, if_neg (by decide), hi, if_neg (by decide), hd, if_pos rfl, hoff]
  refine (bind_ok (dtcmCheck_off hecc _)).trans ?_
  rw [if_neg hn]
  rfl

/-- A write of the ITCM's RAM, with its error checking off. -/
theorem writeRouted_itcm (hclash : tcmClash s = false) (hi : inItcm s a = true) (hecc : eccItcmOn s = false)
    (hoff : tcmOffset s.cfg.itcmBuild a = some off) (bs : List Byte) :
    ∃ r : Tcm, writeRouted a bs attr form s = .ok () { s with itcm := r } ∧ r.bytes = storeBytes s.itcm.bytes off bs := by
  refine ⟨if s.cfg.ecc then encodeItcm { s.itcm with bytes := storeBytes s.itcm.bytes off bs } (off / 8)
    else { s.itcm with bytes := storeBytes s.itcm.bytes off bs }, ?_, by split <;> rfl⟩
  unfold writeRouted itcmWriteAt itcmWrite
  rw [hclash, if_neg (by decide), hi, if_pos rfl, hoff]
  by_cases hn : bs.length < 8
  · exact (congrFun (if_pos hn) s).trans (bind_ok (itcmCheck_off hecc _))
  · exact (congrFun (if_neg hn) s).trans rfl

/-- A write of the DTCM's RAM, with its error checking off. -/
theorem writeRouted_dtcm (hclash : tcmClash s = false) (hi : inItcm s a = false) (hd : inDtcm s a = true)
    (hecc : eccOn s = false) (hoff : tcmOffset s.cfg.dtcmBuild a = some off) (bs : List Byte) :
    ∃ r : Tcm, writeRouted a bs attr form s = .ok () { s with dtcm := r } ∧ r.bytes = storeBytes s.dtcm.bytes off bs := by
  let r : Tcm := { s.dtcm with bytes := storeBytes s.dtcm.bytes off bs }
  refine ⟨if s.cfg.ecc then (if bs.length = 8 then encodeDtcm (encodeDtcm r (off / 4)) (off / 4 + 1)
    else encodeDtcm r (off / 4)) else r, ?_, by split <;> [(split <;> rfl); rfl]⟩
  unfold writeRouted dtcmWriteAt dtcmWrite
  rw [hclash, if_neg (by decide), hi, if_neg (by decide), hd, if_pos rfl, hoff]
  by_cases hn : bs.length < 4
  · exact (congrFun (if_pos hn) s).trans (bind_ok (dtcmCheck_off hecc _))
  · exact (congrFun (if_neg hn) s).trans rfl

end

/-! ### Lines of the data cache -/

/-- A byte of a word in which the byte `k` was replaced. -/
theorem extractLsb'_setByteOf (w : Word) (b : Byte) {k j : Nat} (hk : k < 4) (hj : j < 4) :
    (setByteOf w k b).extractLsb' (8 * j) 8 = if k = j then b else w.extractLsb' (8 * j) 8 := by
  have hmask (i : Nat) : (0xFF#32).getLsbD i = decide (i < 8) := by
    show (BitVec.ofNat 32 (2 ^ 8 - 1)).getLsbD i = _
    rw [BitVec.getLsbD_ofNat, Nat.testBit_two_pow_sub_one]
    by_cases hi : i < 8 <;> simp [hi]
    omega
  apply BitVec.eq_of_getLsbD_eq
  intro i hi
  unfold setByteOf
  rw [BitVec.getLsbD_extractLsb', BitVec.getLsbD_or, BitVec.getLsbD_and, BitVec.getLsbD_not, BitVec.getLsbD_shiftLeft,
    BitVec.getLsbD_shiftLeft, BitVec.getLsbD_setWidth, hmask]
  by_cases hkj : k = j
  · subst hkj
    simp [hi, show 8 * k + i < 32 by omega, show 8 * k + i - 8 * k = i by omega, show i < 32 by omega]
  · rw [if_neg hkj, BitVec.getLsbD_extractLsb']
    by_cases hlt : 8 * j + i < 8 * k
    · simp [hi, hlt, show 8 * j + i < 32 by omega]
    · simp [hi, hlt, show 8 * j + i < 32 by omega, show ¬ 8 * j + i - 8 * k < 8 by omega,
        BitVec.getLsbD_of_ge b (8 * j + i - 8 * k) (by omega)]

/-- With the error checking off a store in a line changes the data RAM alone. -/
theorem setLineBytes_off (c : CacheRam) (line off : Nat) (bs : List Byte) :
    setLineBytes false c line off bs = { c with data := (setLineBytes false c line off bs).data } := by
  induction bs generalizing c off with
  | nil => rfl
  | cons b bs ih =>
    rw [setLineBytes, ih]
    rfl

/-- What the data RAM holds after a byte of a line is replaced. -/
theorem extractLsb'_writeByte {m : List (Nat × Word)} (hwf : sparseWf 0 m = true) (line l : Nat) (b : Byte) {off j : Nat}
    (hoff : off < 32) (hj : j < 32) :
    (sparseRead (sparseWrite m (line * 8 + off / 4) (setByteOf (sparseRead m (line * 8 + off / 4)) (off % 4) b))
        (l * 8 + j / 4)).extractLsb' (8 * (j % 4)) 8 =
      if l = line ∧ j = off then b else (sparseRead m (l * 8 + j / 4)).extractLsb' (8 * (j % 4)) 8 := by
  rw [sparseRead_write hwf]
  by_cases hkey : line * 8 + off / 4 = l * 8 + j / 4
  · obtain rfl : l = line := by omega
    rw [if_pos hkey, extractLsb'_setByteOf _ _ (by omega) (by omega), hkey]
    by_cases hjo : j = off
    · rw [if_pos (by omega), if_pos ⟨rfl, hjo⟩]
    · rw [if_neg (by omega), if_neg (by omega)]
  · rw [if_neg hkey, if_neg (by rintro ⟨rfl, rfl⟩; exact hkey rfl)]

/-- What a line holds after bytes are stored in a line: those bytes at their places, the old ones elsewhere. -/
theorem lineByte_setLineBytes {c : CacheRam} (hwf : sparseWf 0 c.data = true) (ecc : Bool) (line l : Nat) {off j : Nat}
    (bs : List Byte) (hoff : off + bs.length ≤ 32) (hj : j < 32) :
    lineByte (setLineBytes ecc c line off bs) l j =
      if l = line ∧ off ≤ j ∧ j < off + bs.length then bs.getD (j - off) 0 else lineByte c l j := by
  induction bs generalizing c off with
  | nil => rw [setLineBytes, List.length_nil, if_neg (by omega)]
  | cons b bs ih =>
    rw [List.length_cons] at hoff ⊢
    rw [setLineBytes, ih (sparseWf_write_zero hwf _ _) (by omega)]
    by_cases hin : l = line ∧ off + 1 ≤ j ∧ j < off + 1 + bs.length
    · obtain ⟨hl, h1, h2⟩ := hin
      rw [if_pos ⟨hl, h1, h2⟩, if_pos ⟨hl, by omega, by omega⟩, show j - off = j - (off + 1) + 1 by omega, List.getD_cons_succ]
    · have hbyte := extractLsb'_writeByte hwf line l b (off := off) (j := j) (by omega) hj
      rw [if_neg hin]
      refine hbyte.trans ?_
      by_cases hjo : l = line ∧ j = off
      · rw [if_pos hjo, if_pos (by omega), show j - off = 0 by omega]
        rfl
      · rw [if_neg hjo, if_neg (by omega)]
        rfl

/-- The bytes of a line are a list if each one is. -/
theorem lineBytes_eq_of_lineByte {c : CacheRam} {line off n : Nat} {bs : List Byte} (hn : bs.length = n)
    (h : ∀ k, k < n → lineByte c line (off + k) = bs.getD k 0) : lineBytes c line off n = bs := by
  subst hn
  induction bs generalizing off with
  | nil => rfl
  | cons b bs ih =>
    rw [List.length_cons, lineBytes, ih fun k hk => ?_]
    · exact congrArg (· :: bs) (h 0 (Nat.succ_pos _))
    · rw [← List.getD_cons_succ (x := b), ← h (k + 1) (Nat.succ_lt_succ hk)]
      congr 1
      omega

theorem dcacheCheck_off {s : State} (h : eccOn s = false) (a : Word) : dcacheCheck a s = .ok () s := by
  unfold dcacheCheck
  rw [h, if_neg (by decide)]

theorem dcacheDataCheck_off {s : State} (h : eccOn s = false) (a : Word) (n : Nat) : dcacheDataCheck a n s = .ok () s := by
  unfold dcacheDataCheck
  rw [h, if_neg (by decide)]

section

variable {s : State} {attr : Attr} {form : AccessForm} {a : Word} {way line : Nat}

/-- An access that goes through the data cache, whose line is in a way, with the error checking off. -/
structure HitsLine (s : State) (attr : Attr) (a : Word) (way line : Nat) : Prop where
  clash : tcmClash s = false
  itcm : inItcm s a = false
  dtcm : inDtcm s a = false
  peripheral : inPeripheral s.cfg a = false
  cached : (dcacheOn s && cacheable s attr) = true
  ecc : eccOn s = false
  hit : hitWay s.dcache s.cp15.deer (setBits s.cfg.dcache) a = some way
  place : line = lineIndex way (setOf (setBits s.cfg.dcache) a)

theorem HitsLine.accessed (h : HitsLine s attr a way line) : HitsLine s.accessed attr a way line :=
  ⟨h.clash, h.itcm, h.dtcm, h.peripheral, h.cached, h.ecc, h.hit, h.place⟩

theorem HitsLine.throughCache (h : HitsLine s attr a way line) : throughCache s a attr form = true := by
  unfold Machine.throughCache
  rw [h.cached, h.peripheral, Bool.and_false]
  rfl

theorem HitsLine.dcacheFill_eq (h : HitsLine s attr a way line) (n : Nat) : dcacheFill a n attr s = .ok (.inWay way) s := by
  unfold dcacheFill
  rw [bind_ok (dcacheCheck_off h.ecc a), bind_ok (dcacheDataCheck_off h.ecc a n), bind_ok (get_apply s)]
  simp only [h.hit]
  rfl

/-- A read that hits the data cache reads the line. -/
theorem HitsLine.readRouted_eq (h : HitsLine s attr a way line) (n : Nat) :
    readRouted a n attr form s = .ok (lineBytes s.dcache line (a.toNat % 32) n) s := by
  unfold readRouted dcacheRead
  rw [h.clash, if_neg (by decide), h.itcm, if_neg (by decide), h.dtcm, if_neg (by decide), h.throughCache, if_pos rfl,
    bind_ok (h.dcacheFill_eq n), h.place]
  rfl

/-- A write that hits the data cache writes the line, which becomes dirty. -/
theorem HitsLine.writeRouted_eq (h : HitsLine s attr a way line) (bs : List Byte) :
    writeRouted a bs attr form s = .ok () { s with dcache := { s.dcache with
      tag := sparseWrite s.dcache.tag line (sparseRead s.dcache.tag line ||| 0x02000000)
      data := (setLineBytes false s.dcache line (a.toNat % 32) bs).data } } := by
  unfold writeRouted dcacheWrite
  rw [h.clash, if_neg (by decide), h.itcm, if_neg (by decide), h.dtcm, if_neg (by decide), h.throughCache, if_pos rfl,
    bind_ok (h.dcacheFill_eq _), h.place]
  simp only [modify_apply, h.ecc]
  rw [setLineBytes_off]
  rfl

end

/-- Settles O32: main memory, then the TCMs, then a line of the data cache serve the access. -/
theorem mainMemory : Obligations.MainMemory := by
  refine ⟨fun s acc a h => loadValue_of_plain h, fun s acc a v h hn => storeValue_of_plain h v hn,
    fun s a v n hn hwf => stored_memValue s a v (by omega) hwf,
    fun s a he k hk => extractLsb'_memValue_little he a hk, fun s a he k hk => extractLsb'_memValue_big he a hk,
    fun s acc a v off attr hn hal hclash => ⟨fun hi hecc hoff => ⟨fun hadm => ?itcmLoad, fun hadm => ?itcmStore⟩,
      fun hi hd hecc hoff => ⟨fun hadm => ?dtcmLoad, fun hadm => ?dtcmStore⟩⟩,
    fun s acc a v attr k way line hn hal hclash hi hd hp hon hc hecc hk hhit hline => ?_⟩
  case itcmLoad =>
    exact loadValue_of_readPart hadm hal (readRouted_itcm (s := s.accessed) hclash hi hecc hoff acc.size)
  case itcmStore =>
    obtain ⟨r, hr, hbytes⟩ := writeRouted_itcm (s := s.accessed) (attr := attr) (form := acc.form) hclash hi hecc hoff
      (bytesOf s.bigEndian acc.size v)
    obtain ⟨l, hl⟩ := exists_writePart hr
    exact ⟨_, (storeValue_eq_writePart hadm hal v).trans hl, rfl, hbytes⟩
  case dtcmLoad =>
    exact loadValue_of_readPart hadm hal (readRouted_dtcm (s := s.accessed) hclash hi hd hecc hoff (by omega))
  case dtcmStore =>
    obtain ⟨r, hr, hbytes⟩ := writeRouted_dtcm (s := s.accessed) (attr := attr) (form := acc.form) hclash hi hd hecc hoff
      (bytesOf s.bigEndian acc.size v)
    have hd' : inDtcm s a = true := hd
    refine ⟨{ s.accessed with dtcm := r },
      (storeValue_eq_writePart hadm hal v).trans ((writePart_of_writeRouted hr).trans ?_), rfl, hbytes⟩
    rw [hd', Bool.or_true, if_pos rfl]
  · subst hk
    have h : HitsLine s attr a way line := ⟨hclash, hi, hd, hp, by rw [hon, hc]; rfl, hecc, hhit, hline⟩
    refine ⟨fun hadm => loadValue_of_readPart hadm hal (h.accessed.readRouted_eq acc.size), fun hadm hcan => ?_⟩
    obtain ⟨l, hl⟩ := exists_writePart (h.accessed.writeRouted_eq (form := acc.form) (bytesOf s.bigEndian acc.size v))
    have hlen : (bytesOf s.bigEndian acc.size v).length = acc.size := by rw [length_bytesOf]; omega
    have hfit : a.toNat % 32 + (bytesOf s.bigEndian acc.size v).length ≤ 32 := by
      rw [hlen]; rcases hn with hn | hn | hn <;> rw [hn] at hal ⊢ <;> omega
    have hbyte := fun (l : Nat) {j : Nat} => lineByte_setLineBytes (j := j) hcan.dData false line l
      (bytesOf s.bigEndian acc.size v) hfit
    refine ⟨_, (storeValue_eq_writePart hadm hal v).trans hl, rfl, ?_, fun j hj hout => ?_, fun l j hl hj => ?_,
      (sparseRead_write hcan.dTag line line _).trans (if_pos rfl),
      fun l hl => (sparseRead_write hcan.dTag line l _).trans (if_neg hl.symm)⟩
    · exact lineBytes_eq_of_lineByte hlen fun k hk =>
        (hbyte line (j := a.toNat % 32 + k) (by omega)).trans
          ((if_pos ⟨rfl, by omega, by omega⟩).trans (by rw [Nat.add_sub_cancel_left]))
    · exact (hbyte line hj).trans (if_neg (by omega))
    · exact (hbyte l hj).trans (if_neg fun h => hl h.1)

end Sys2Proof.Machine

/-!
# Misaligned accesses

An access that is not aligned is stopped before it does anything (`misaligned`, `admission_misaligned`); a body that passes its
checks is stopped at its first access, and the instruction takes the Data Abort. An aborted VLDM leaves free values in the
registers of its list (`SinglesFreed`).
-/

namespace Sys2Proof.Machine

/-! ### Accesses that are not aligned -/

/-- A body that ends in a Data Abort, in a state where that exception goes on in ARM state. -/
theorem conditional_dataAbort {c : Cond} {s t : State} (hc : condPassed c s.cpsr = true) (harm : ArmEntry t)
    {f : FaultStatus} {wr : Bool} {a : Word} {body : M Unit} (hb : body s = .error (.dataAbort f wr a) t) :
    conditional c body s = .next (takeDataAbort f wr a t) := by
  rw [conditional_passed hc, hb]
  exact finish_dataAbort_next harm f wr a

theorem always_dataAbort {s : State} (harm : ArmEntry s) {f : FaultStatus} {wr : Bool} {a : Word} {body : M Unit}
    (hb : body s = .error (.dataAbort f wr a) s) : always body s = .next (takeDataAbort f wr a s) := by
  rw [always, hb]
  exact finish_dataAbort_next harm f wr a

/-- The result of an access that is stopped by an alignment fault: nothing has changed (20_memory.md R242). -/
def misaligned {α : Type} (wr : Bool) (a : Word) (s : State) : EStateM.Result Stop State α :=
  .error (.dataAbort .alignment wr a) s

section

variable {s : State} {acc : Access} {a : Word} (h : a.toNat % acc.align ≠ 0)
include h

/-- Alignment is the first check of an access (20_memory.md R242). -/
theorem admission_misaligned (k : AccessKind) : admission k acc a s = .error (.dataAbort .alignment (k == .write) a) := if_pos h

theorem readBytes_misaligned : readBytes acc a s = misaligned false a s := by
  unfold readBytes
  rw [admission_misaligned h]
  rfl

theorem loadValue_misaligned : loadValue acc a s = misaligned false a s :=
  (bind_ok (get_apply s)).trans (bind_error (readBytes_misaligned h))

theorem storeValue_misaligned (v : Word) : storeValue acc a v s = misaligned true a s := by
  refine (bind_ok (get_apply s)).trans ?_
  unfold writeBytes
  rw [admission_misaligned h]
  rfl

theorem storeTwo_misaligned (v v' : Word) : storeTwo acc a v v' s = misaligned true a s := by
  unfold storeTwo
  rw [admission_misaligned h]
  rfl

end

/-- What follows an access that is stopped does not happen. -/
theorem bind_misaligned {α β : Type} {x : M α} {f : α → M β} {wr : Bool} {a : Word} {s : State}
    (h : x s = misaligned wr a s) : (x >>= f) s = misaligned wr a s := bind_error h

/-! ### The checks of loads and stores -/

section

variable {s : State} {p w : Bool} {rn rt : Reg}

theorem refuseIf_of_false {b : Bool} (h : b = false) (r : Refusal) : refuseIf b r s = .ok () s := by subst h; rfl

theorem not_and_of_ordinary (h : ordinary p w) : (!p && w) = false := by
  rcases h with rfl | rfl
  · rfl
  · exact Bool.and_false _

theorem checkPrivilege_of_ordinary (h : ordinary p w) : checkPrivilege p w s = .ok () s :=
  refuseIf_of_false (not_and_of_ordinary h) _

theorem checkBase_of_allowed (h : baseAllowed p w rn rt) : checkBase p w rn rt s = .ok () s := by
  refine refuseIf_of_false ?_ _
  cases hw : !p || w with
  | false => rfl
  | true => rw [beq_false_of_ne (h hw).1, beq_false_of_ne (h hw).2]; rfl

theorem registerOffset_of_ne {rm : Reg} (h : rm ≠ 15) (ty : ShiftType) (imm5 : BitVec 5) :
    registerOffset rm ty imm5 s = .ok (immShiftC (s.reg rm) ty imm5 s.flagC).1 s := bind_ok (notPc_of_ne h s)

theorem plainOffset_of_ne {rm : Reg} (h : rm ≠ 15) : plainOffset rm s = .ok (s.reg rm) s := bind_ok (notPc_of_ne h s)

/-- A single load, but of R15, is the load of its bytes with its offset (42_a32_core_subset.md R1014 to R1021). -/
theorem exec_singleLoad {c : Cond} (hc : condPassed c s.cpsr = true) (u : Bool) (hrt : rt ≠ 15) {l : SingleLoad}
    (hl : l.allowed) :
    ∃ ext, exec (l.instr c p u w rn rt) s = conditional c (loadInto l.size ext p u w rn rt (l.offset s)) s := by
  have hword (off : Word) : loadWord p u w rn rt off = loadInto 4 id p u w rn rt off := if_neg hrt
  simp only [conditional_passed hc]
  cases l with
  | ldrImm i => exact ⟨id, (conditional_passed hc _).trans (by rw [hword]; rfl)⟩
  | ldrReg i t m =>
    exact ⟨id, (conditional_passed hc _).trans (congrArg finish
      ((bind_ok (registerOffset_of_ne hl t i)).trans (by rw [hword]; rfl)))⟩
  | ldrbImm | ldrhImm | ldrsbImm | ldrshImm => exact ⟨_, conditional_passed hc _⟩
  | ldrbReg i t m => exact ⟨_, (conditional_passed hc _).trans (congrArg finish (bind_ok (registerOffset_of_ne hl t i)))⟩
  | ldrhReg m | ldrsbReg m | ldrshReg m =>
    exact ⟨_, (conditional_passed hc _).trans (congrArg finish (bind_ok (plainOffset_of_ne hl)))⟩

/-- A single store is the store of its bytes with its offset (42_a32_core_subset.md R1015, R1017, R1019). -/
theorem exec_singleStore {c : Cond} (hc : condPassed c s.cpsr = true) (u : Bool) {l : SingleStore} (hl : l.allowed rt) :
    exec (l.instr c p u w rn rt) s = conditional c (storeFrom l.size p u w rn rt (l.offset s)) s := by
  rw [conditional_passed hc]
  cases l with
  | strImm i => exact conditional_passed hc _
  | strReg i t m => exact (conditional_passed hc _).trans (congrArg finish (bind_ok (registerOffset_of_ne hl t i)))
  | strbImm | strhImm => exact (conditional_passed hc _).trans (congrArg finish (bind_ok (notPc_of_ne hl s)))
  | strbReg i t m =>
    exact (conditional_passed hc _).trans (congrArg finish
      ((bind_ok (notPc_of_ne hl.1 s)).trans (bind_ok (registerOffset_of_ne hl.2 t i))))
  | strhReg m =>
    exact (conditional_passed hc _).trans (congrArg finish
      ((bind_ok (notPc_of_ne hl.1 s)).trans (bind_ok (plainOffset_of_ne hl.2))))

/-- The checks of a doubleword that pass (42_a32_core_subset.md R957, R1022). -/
theorem checkDouble_of_allowed (heven : rt.getLsbD 0 = false) (hlow : rt ≠ 14) (hpw : ordinary p w)
    (hb : baseAllowed p w rn rt) (hb' : baseAllowed p w rn (rt + 1)) : checkDouble p w rn rt s = .ok () s := by
  unfold checkDouble
  rw [bind_ok (refuseIf_of_false (by rw [heven, beq_false_of_ne hlow]; rfl) _),
    bind_ok (refuseIf_of_false (not_and_of_ordinary hpw) _), bind_ok (checkBase_of_allowed hb)]
  exact checkBase_of_allowed hb'

/-! ### Bodies that a misaligned access stops -/

variable {u : Bool} {off : Word}

theorem loadInto_misaligned {n : Nat} (hA : s.cp15.sctlr.getLsbD 1 = true) (hrt : rt ≠ 15) (hpw : ordinary p w)
    (hb : baseAllowed p w rn rt) {a : Word} (ha : a = (indexed (baseValue s rn) off p u w).address) (hal : a.toNat % n ≠ 0)
    (ext : Word → Word) : loadInto n ext p u w rn rt off s = misaligned false a s := by
  subst ha
  have halign : (indexed (baseValue s rn) off p u w).address.toNat % (single s n s.privileged).align ≠ 0 := by
    rwa [single, hA, if_pos rfl]
  unfold loadInto
  rw [bind_ok (checkPrivilege_of_ordinary hpw), bind_ok (notPc_of_ne hrt s), bind_ok (checkBase_of_allowed hb),
    bind_ok (get_apply s)]
  exact bind_misaligned (loadValue_misaligned halign)

theorem storeFrom_misaligned {n : Nat} (hA : s.cp15.sctlr.getLsbD 1 = true) (hpw : ordinary p w)
    (hb : baseAllowed p w rn rt) {a : Word} (ha : a = (indexed (baseValue s rn) off p u w).address)
    (hal : a.toNat % n ≠ 0) : storeFrom n p u w rn rt off s = misaligned true a s := by
  subst ha
  have halign : (indexed (baseValue s rn) off p u w).address.toNat % (single s n s.privileged).align ≠ 0 := by
    rwa [single, hA, if_pos rfl]
  unfold storeFrom
  rw [bind_ok (checkPrivilege_of_ordinary hpw), bind_ok (checkBase_of_allowed hb), bind_ok (get_apply s)]
  exact bind_misaligned (storeValue_misaligned halign _)

/-- A doubleword is word-aligned whatever SCTLR.A is: neither the load nor the store does anything (20_memory.md R242). -/
theorem double_misaligned (hchk : checkDouble p w rn rt s = .ok () s) {a : Word}
    (ha : a = (indexed (baseValue s rn) off p u w).address) (hal : a.toNat % 4 ≠ 0) :
    loadDouble p u w rn rt off s = misaligned false a s ∧ storeDouble p u w rn rt off s = misaligned true a s := by
  subst ha
  constructor
  · unfold loadDouble
    rw [bind_ok hchk, bind_ok (get_apply s)]
    exact bind_misaligned (loadValue_misaligned hal)
  · unfold storeDouble
    rw [bind_ok hchk, bind_ok (get_apply s)]
    exact bind_misaligned (storeTwo_misaligned hal _ _)

end

section

variable {s : State} {rn rd rt : Reg}

theorem checkExclusive_of_ne (hn : rn ≠ 15) (hd : rd ≠ 15) (ht : rt ≠ 15) (hdn : rd ≠ rn) (hdt : rd ≠ rt) :
    checkExclusive rn rd rt s = .ok () s := by
  unfold checkExclusive
  rw [bind_ok (notPc_of_ne hn s), bind_ok (notPc_of_ne hd s), bind_ok (notPc_of_ne ht s)]
  exact refuseIf_of_false (by rw [beq_false_of_ne hdn, beq_false_of_ne hdt]; rfl) _

theorem checkPair_of_even (heven : rt.getLsbD 0 = false) (hlow : rt ≠ 14) : checkPair rt s = .ok () s :=
  refuseIf_of_false (by rw [heven, beq_false_of_ne hlow]; rfl) _

theorem loadExclusive_misaligned {n : Nat} (hn : rn ≠ 15) (ht : rt ≠ 15) (hal : (s.reg rn).toNat % n ≠ 0) :
    loadExclusive n rn rt s = misaligned false (s.reg rn) s := by
  unfold loadExclusive
  rw [bind_ok (notPc_of_ne hn s), bind_ok (notPc_of_ne ht s), bind_ok (get_apply s)]
  exact bind_misaligned (loadValue_misaligned (acc := exclusive n s .read (s.reg rn)) hal)

theorem storeExclusive_misaligned {n : Nat} (hal : (s.reg rn).toNat % n ≠ 0) (bs : Bool → State → List Byte) :
    storeExclusive bs n rn rd s = misaligned true (s.reg rn) s := by
  unfold storeExclusive
  simp only [admission_misaligned (acc := exclusive n s .write (s.reg rn)) hal]
  rfl

/-- The checks of a swap that pass (20_memory.md R287), then the load. -/
theorem swap_eq (hsw : s.cp15.sctlr.getLsbD 10 = true) (hn : rn ≠ 15) (ht : rt ≠ 15) (hd : rd ≠ 15) (hnt : rn ≠ rt)
    (hnd : rn ≠ rd) (n : Nat) :
    swap n rn rt rd s = (loadValue (swapRead n s (s.reg rn)) (s.reg rn) >>= fun v => do
      storeValue (swapWrite n s) (s.reg rn) (s.reg rd)
      writeReg rt v
      fallThrough) s := by
  unfold swap
  rw [bind_ok (get_apply s), hsw, bind_ok (undefinedIf_apply (!true) s), bind_ok (notPc_of_ne hn s),
    bind_ok (notPc_of_ne ht s), bind_ok (notPc_of_ne hd s)]
  refine bind_ok (refuseIf_of_false ?_ _)
  rw [beq_false_of_ne hnt, beq_false_of_ne hnd]
  rfl

end

/-! ### Multiple accesses -/

theorem exists_listRegs {regs : BitVec 16} (h : regs ≠ 0) : ∃ r rs, listRegs regs = r :: rs := by
  obtain ⟨i, hi, hbit⟩ : ∃ i, i < 16 ∧ regs.getLsbD i = true := by
    by_contra hno
    push Not at hno
    exact h (BitVec.eq_of_getLsbD_eq fun i hi => by simpa using hno i hi)
  refine List.exists_cons_of_ne_nil fun hnil => ?_
  have hmem : BitVec.ofNat 4 i ∈ listRegs regs :=
    List.mem_map_of_mem (List.mem_filter.mpr ⟨List.mem_range.mpr hi, hbit⟩)
  rw [hnil] at hmem
  cases hmem

section

variable {s : State} {p u w : Bool} {rn : Reg} {regs : BitVec 16} {a : Word}

theorem loadMultiple_misaligned (hn : rn ≠ 15) (hregs : regs ≠ 0) (hbase : regs.getLsbD rn.toNat = false)
    (ha : a = multipleStart (s.reg rn) p u (listCount regs)) (hal : a.toNat % 4 ≠ 0) :
    loadMultiple p u false w rn regs s = misaligned false a s := by
  subst ha
  obtain ⟨r, rs, hrs⟩ := exists_listRegs hregs
  unfold loadMultiple
  rw [bind_ok (notPc_of_ne hn s), bind_ok (refuseIf_of_false (by rw [hbase, beq_false_of_ne hregs, Bool.and_false]; rfl) _),
    bind_ok (get_apply s), bind_ok (refuseIf_of_false (by rfl) _), hrs]
  exact bind_misaligned (bind_misaligned (loadValue_misaligned (acc := multiple s.privileged) hal))

/-- The lowest register of a list is stored as it is (42_a32_core_subset.md R1025). -/
theorem storedValue_of_head {m : Mode} {r : Reg} (h : (listRegs regs).head? = some r) :
    storedValue m w rn regs r s = .ok (s.regIn m r) s := by
  refine if_neg fun hb => ?_
  simp only [Bool.and_eq_true, beq_iff_eq, decide_eq_true_eq] at hb
  obtain ⟨⟨-, rfl⟩, hne⟩ := hb
  exact hne h

theorem storeList_misaligned {privileged : Bool} {value : Reg → M Word} {r : Reg} {x : Word} (hx : value r s = .ok x s)
    (rs : List Reg) (hal : a.toNat % 4 ≠ 0) : storeList privileged value (r :: rs) a s = misaligned true a s := by
  have hstore := storeValue_misaligned (s := s) (acc := multiple privileged) hal x
  cases rs with
  | nil => exact (bind_ok hx).trans hstore
  | cons r' rs =>
    have h8 : decide (a.toNat % 8 = 0) = false := decide_eq_false (by omega)
    unfold storeList
    rw [bind_ok (get_apply s), h8, Bool.and_false, if_neg (by decide), bind_ok hx]
    exact bind_misaligned hstore

theorem storeMultiple_misaligned (hn : rn ≠ 15) (hregs : regs ≠ 0)
    (ha : a = multipleStart (s.reg rn) p u (listCount regs)) (hal : a.toNat % 4 ≠ 0) :
    storeMultiple p u false w rn regs s = misaligned true a s := by
  subst ha
  obtain ⟨r, rs, hrs⟩ := exists_listRegs hregs
  unfold storeMultiple
  rw [bind_ok (notPc_of_ne hn s), bind_ok (refuseIf_of_false (beq_false_of_ne hregs) _), bind_ok (get_apply s)]
  refine bind_misaligned ?_
  have hhead : (listRegs regs).head? = some r := by rw [hrs]; rfl
  have hvalue := storedValue_of_head (s := s) (m := listMode s false) (w := w) (rn := rn) hhead
  exact hrs ▸ storeList_misaligned hvalue rs hal

end

/-! ### VFP registers left with free values -/

section

variable {s : State} {q : BitVec 5}

/-- The doubleword of a single-precision register is the half of its number. -/
theorem toNat_half (q : BitVec 5) : (q.extractLsb' 1 4).toNat = q.toNat / 2 := by
  revert q; decide

theorem single_setDouble_ne {n : BitVec 4} (h : q.toNat / 2 ≠ n.toNat) (v : BitVec 64) :
    (s.setDouble n v).single q = s.single q := by
  have hne : n ≠ q.extractLsb' 1 4 := by rintro rfl; exact h (toNat_half q).symm
  unfold State.single
  rw [State.double_setDouble, if_neg hne]

theorem extract_setHalf_low (x : BitVec 64) (v : Word) : (setHalf x false v).extractLsb' 32 32 = x.extractLsb' 32 32 := by
  rw [setHalf, if_neg (by decide), BitVec.extractLsb'_append_eq_of_le (by omega)]
  exact BitVec.extractLsb'_eq_self

theorem extract_setHalf_high (x : BitVec 64) (v : Word) : (setHalf x true v).extractLsb' 0 32 = x.extractLsb' 0 32 := by
  rw [setHalf, if_pos rfl, BitVec.extractLsb'_append_eq_of_add_le (by omega)]
  exact BitVec.extractLsb'_eq_self

theorem single_setSingle_ne {n : BitVec 5} (h : q ≠ n) (v : Word) : (s.setSingle n v).single q = s.single q := by
  by_cases hhalf : q.toNat / 2 = n.toNat / 2
  · have hd : q.extractLsb' 1 4 = n.extractLsb' 1 4 := BitVec.eq_of_toNat_eq (by rw [toNat_half, toNat_half, hhalf])
    have hbit : n.getLsbD 0 = !q.getLsbD 0 := by
      have hodd (x : BitVec 5) : x.getLsbD 0 = decide (x.toNat % 2 = 1) := by revert x; decide
      have hne : q.toNat ≠ n.toNat := fun he => h (BitVec.eq_of_toNat_eq he)
      rw [hodd, hodd, ← decide_not, decide_eq_decide]
      omega
    unfold State.setSingle State.single
    rw [hd, State.double_setDouble, if_pos rfl, hbit]
    cases q.getLsbD 0 with
    | true => exact extract_setHalf_low _ v
    | false => exact extract_setHalf_high _ v
  · exact single_setDouble_ne (by rwa [toNat_half]) _

/-- `t` is `s` but for free values in the single-precision registers from `lo` up to `hi`. -/
structure SinglesFreed (lo hi : Nat) (s t : State) : Prop where
  rest : t = { s with fpu := { s.fpu with d := t.fpu.d }, free := t.free }
  outside : ∀ q : BitVec 5, q.toNat < lo ∨ hi ≤ q.toNat → t.single q = s.single q

/-- The number of the first single-precision register that register `r` of a list covers. -/
def firstSingle (sz : Bool) (r : Nat) : Nat := if sz then 2 * r else r

/-- A register of a list written leaves the others alone. -/
theorem writeFp_frees (sz : Bool) {r : Nat} (hr : r < if sz then 16 else 32) (x : Nat) (s : State) :
    ∃ t, writeFp sz (listField sz r).1 (listField sz r).2 x s = .ok () t ∧
      SinglesFreed (firstSingle sz r) (firstSingle sz (r + 1)) s t := by
  cases sz with
  | true =>
    have hr' : r < 2 ^ 4 := hr
    have hnum : (BitVec.ofNat 4 r).toNat = r := by rw [BitVec.toNat_ofNat, Nat.mod_eq_of_lt hr']
    refine ⟨_, rfl, rfl, fun q hq => single_setDouble_ne ?_ _⟩
    simp only [firstSingle, if_true] at hq
    show q.toNat / 2 ≠ (BitVec.ofNat 4 r).toNat
    omega
  | false =>
    have hnum : (singleNumber (BitVec.ofNat 4 (r / 2)) (r % 2 == 1)).toNat = r := by
      have hall : ∀ r : Fin 32, (singleNumber (BitVec.ofNat 4 (r.val / 2)) (r.val % 2 == 1)).toNat = r.val := by decide
      exact hall ⟨r, hr⟩
    refine ⟨_, rfl, rfl, fun q hq => single_setSingle_ne (fun he => ?_) _⟩
    simp only [firstSingle, Bool.false_eq_true, if_false] at hq
    rw [he] at hq
    have := hnum
    simp only [listField, Bool.false_eq_true, if_false] at hq
    omega

/-- An aborted VLDM leaves free values in the registers of its list, and no others (43_vfp_instructions.md R1087). -/
theorem scrambleFp_frees (sz : Bool) {r n : Nat} (h : r + n ≤ if sz then 16 else 32) (s : State) :
    ∃ t, scrambleFp sz r n s = .ok () t ∧ SinglesFreed (firstSingle sz r) (firstSingle sz (r + n)) s t := by
  induction n generalizing r s with
  | zero => exact ⟨s, rfl, rfl, fun _ _ => rfl⟩
  | succ n ih =>
    obtain ⟨t, ht, hfirst⟩ := writeFp_frees sz (r := r) (by omega)
      (if sz then (Config.freeWord (s.free + 1) ++ Config.freeWord s.free : BitVec 64).toNat else (Config.freeWord s.free).toNat)
      { s with free := s.free + 1 + 1 }
    obtain ⟨u, hu, hrest⟩ := ih (r := r + 1) (by omega) t
    have hsum : r + 1 + n = r + (n + 1) := by omega
    rw [hsum] at hrest
    refine ⟨u, ?_, ?_, fun q hq => ?_⟩
    · unfold scrambleFp
      rw [bind_ok (drawWord_apply s), bind_ok (drawWord_apply _)]
      exact (bind_ok ht).trans hu
    · rw [hrest.rest, hfirst.rest]
    · have hle : firstSingle sz r ≤ firstSingle sz (r + 1) ∧ firstSingle sz (r + 1) ≤ firstSingle sz (r + (n + 1)) := by
        cases sz <;> simp [firstSingle]
      exact (hrest.outside q (by omega)).trans (hfirst.outside q (by omega))

end

/-! ### Misaligned VFP accesses -/

section

variable {s : State} {sz : Bool} {a : Word}

theorem wordOffset_eq (k : BitVec 8) : wordOffset k = BitVec.ofNat 32 (4 * k.toNat) := by
  apply BitVec.eq_of_toNat_eq
  unfold wordOffset
  rw [BitVec.toNat_shiftLeft, BitVec.toNat_setWidth, BitVec.toNat_ofNat, Nat.shiftLeft_eq]
  omega

theorem listFirst_eq (sz d : Bool) (vd : BitVec 4) : listFirst sz vd d = if sz then vd.toNat else 2 * vd.toNat + d.toNat := by
  revert sz d vd; decide

theorem loadFp_misaligned (hal : a.toNat % 4 ≠ 0) (privileged : Bool) (form : AccessForm) :
    loadFp privileged form sz a s = misaligned false a s := by
  have hload := loadValue_misaligned (s := s) (acc := ⟨4, 4, privileged, form⟩) hal
  cases sz with
  | true => exact (bind_ok (get_apply s)).trans (bind_misaligned hload)
  | false => exact bind_misaligned hload

theorem storeFp_misaligned (hal : a.toNat % 4 ≠ 0) (privileged : Bool) (form : AccessForm) (x : Nat) :
    storeFp privileged form sz a x s = misaligned true a s := by
  cases sz with
  | true => exact (bind_ok (get_apply s)).trans (storeTwo_misaligned (acc := ⟨4, 4, privileged, form⟩) hal _ _)
  | false => exact storeValue_misaligned (acc := ⟨4, 4, privileged, form⟩) hal _

theorem checkTransfer_of_ready (h : VfpReady s) {bad : Bool} (hbad : bad = false) : checkTransfer bad s = .ok () s := by
  subst hbad
  exact (bind_ok (vfpOn_of_ready h)).trans rfl

theorem checkList_of_allowed {w d : Bool} {rn : Reg} {vd : BitVec 4} {k : BitVec 8} (hn : rn ≠ 15) (hne : listSize sz k ≠ 0)
    (hfit : listFirst sz vd d + listSize sz k ≤ if sz then 16 else 32) : checkList w d rn vd sz k s = .ok () s := by
  refine refuseIf_of_false ?_ _
  rw [beq_false_of_ne hn, beq_false_of_ne hne, decide_eq_false (by omega)]
  rfl

variable {u d w : Bool} {rn : Reg} {vd : BitVec 4} {k : BitVec 8}
  (hready : VfpReady s) (hd : (sz && d) = false) (hn : rn ≠ 15) (hne : listSize sz k ≠ 0)
  (hfit : listFirst sz vd d + listSize sz k ≤ if sz then 16 else 32)
  (ha : a = if u then s.reg rn else s.reg rn - wordOffset k) (hal : a.toNat % 4 ≠ 0)
include hready hd hn hne hfit ha hal

theorem vfpStoreMultiple_misaligned : vfpStoreMultiple u d w rn vd sz k s = misaligned true a s := by
  subst ha
  unfold vfpStoreMultiple
  rw [bind_ok (checkTransfer_of_ready hready hd), bind_ok (checkList_of_allowed hn hne hfit), bind_ok (get_apply s)]
  obtain ⟨n, hsucc⟩ := Nat.exists_eq_succ_of_ne_zero hne
  rw [hsucc]
  exact bind_misaligned ((bind_ok rfl).trans (bind_misaligned (storeFp_misaligned hal _ _ _)))

theorem vfpLoadMultiple_misaligned : ∃ t, vfpLoadMultiple u d w rn vd sz k s = .error (.dataAbort .alignment false a) t ∧
    SinglesFreed (firstSingle sz (listFirst sz vd d)) (firstSingle sz (listFirst sz vd d + listSize sz k)) s t := by
  subst ha
  obtain ⟨t, ht, hfreed⟩ := scrambleFp_frees sz hfit s
  refine ⟨t, ?_, hfreed⟩
  have hbase : baseValue s rn = s.reg rn := if_neg hn
  unfold vfpLoadMultiple
  rw [bind_ok (checkTransfer_of_ready hready hd), bind_ok (checkList_of_allowed hn hne hfit), bind_ok (get_apply s)]
  refine bind_error ?_
  obtain ⟨n, hsucc⟩ := Nat.exists_eq_succ_of_ne_zero hne
  have hlist : loadFpList s.privileged sz (listFirst sz vd d) (listSize sz k)
      (if u then s.reg rn else s.reg rn - wordOffset k) s =
        misaligned false (if u then s.reg rn else s.reg rn - wordOffset k) s := by
    rw [hsucc]
    exact bind_misaligned (loadFp_misaligned hal _ _)
  unfold onAbort
  rw [hbase, hlist]
  simp only [misaligned, ht]

end

section

variable {c : Cond} {s : State} {rn rt rd : Reg}

/-! ### The instructions whose access is not aligned -/

/-- A doubleword with its offset: the immediate in two halves, or a register (42_a32_core_subset.md R1022, R1023). -/
theorem exec_double {p u w : Bool} {rm : Reg} {h l : BitVec 4} {off : Word} {ld st : Instr}
    (hform : (ld = .ldrdImm c p u w rn rt h l ∧ st = .strdImm c p u w rn rt h l ∧ off = (h ++ l).setWidth 32) ∨
      (ld = .ldrdReg c p u w rn rt rm ∧ st = .strdReg c p u w rn rt rm ∧ rm ≠ 15 ∧ off = s.reg rm))
    (hc : condPassed c s.cpsr = true) :
    exec ld s = conditional c (loadDouble p u w rn rt off) s ∧ exec st s = conditional c (storeDouble p u w rn rt off) s := by
  simp only [conditional_passed hc]
  obtain ⟨rfl, rfl, rfl⟩ | ⟨rfl, rfl, hm, rfl⟩ := hform
  · exact ⟨conditional_passed hc _, conditional_passed hc _⟩
  · exact ⟨(conditional_passed hc _).trans (congrArg finish (bind_ok (plainOffset_of_ne hm))),
      (conditional_passed hc _).trans (congrArg finish (bind_ok (plainOffset_of_ne hm)))⟩

theorem storeExclusiveFrom_misaligned {n : Nat} (hn : rn ≠ 15) (hd : rd ≠ 15) (ht : rt ≠ 15) (hdn : rd ≠ rn)
    (hdt : rd ≠ rt) (hal : (s.reg rn).toNat % n ≠ 0) : storeExclusiveFrom n rn rd rt s = misaligned true (s.reg rn) s :=
  (bind_ok (checkExclusive_of_ne hn hd ht hdn hdt)).trans (storeExclusive_misaligned hal _)

theorem execRfe_misaligned {p u w : Bool} {a : Word} (harm : ArmEntry s) (hpriv : s.privileged = true) (hn : rn ≠ 15)
    (ha : a = pairAddress (s.reg rn) p u) (hal : a.toNat % 4 ≠ 0) :
    exec (.rfe p u w rn) s = .next (takeDataAbort .alignment false a s) := by
  subst ha
  refine always_dataAbort harm ((bind_ok (get_apply s)).trans ?_)
  rw [hpriv]
  exact (bind_ok (refuseIf_of_false rfl _)).trans ((bind_ok (notPc_of_ne hn s)).trans
    ((bind_ok (readReg_apply rn s)).trans (bind_misaligned (loadValue_misaligned (acc := multiple true) hal))))

theorem execSrs_misaligned {p u w : Bool} {a : Word} {mode : BitVec 5} {m : Mode} {j : Fin 5} (harm : ArmEntry s)
    (hm : Mode.ofBits mode = some m) (hj : spsrIndex s.mode = some j) (ha : a = pairAddress (s.regIn m 13) p u)
    (hal : a.toNat % 4 ≠ 0) : exec (.srs p u w mode) s = .next (takeDataAbort .alignment true a s) := by
  subst ha
  have hspsr : readSpsr s = .ok s.spsr[j] s := by simp only [readSpsr, hj]
  refine always_dataAbort harm ((bind_ok hspsr).trans ?_)
  simp only [hm]
  exact (bind_ok (get_apply s)).trans (bind_misaligned (storeTwo_misaligned (acc := multiple true) hal _ _))

/-- A multiple VFP access is upward from the base or downward to it (43_vfp_instructions.md R1087, R1088). -/
theorem exec_vfpMultiple {d w sz : Bool} {vd : BitVec 4} {k : BitVec 8} {ld st : Instr} {a : Word}
    (hform : (ld = .vldmIa c d w rn vd sz k ∧ st = .vstmIa c d w rn vd sz k ∧ a = s.reg rn) ∨
      (ld = .vldmDb c d rn vd sz k ∧ st = .vstmDb c d rn vd sz k ∧ a = s.reg rn - BitVec.ofNat 32 (4 * k.toNat)) ∨
      (ld = .vpop c d vd sz k ∧ st = .vstmIa c d w rn vd sz k ∧ rn = 13 ∧ a = s.reg rn) ∨
      (ld = .vldmDb c d rn vd sz k ∧ st = .vpush c d vd sz k ∧ rn = 13 ∧ a = s.reg rn - BitVec.ofNat 32 (4 * k.toNat))) :
    ∃ u w₁ w₂, exec ld s = conditional c (vfpLoadMultiple u d w₁ rn vd sz k) s ∧
      exec st s = conditional c (vfpStoreMultiple u d w₂ rn vd sz k) s ∧
      a = if u then s.reg rn else s.reg rn - wordOffset k := by
  rw [wordOffset_eq]
  obtain ⟨rfl, rfl, ha⟩ | ⟨rfl, rfl, ha⟩ | ⟨rfl, rfl, rfl, ha⟩ | ⟨rfl, rfl, rfl, ha⟩ := hform
  · exact ⟨true, w, w, rfl, rfl, ha⟩
  · exact ⟨false, true, true, rfl, rfl, ha⟩
  · exact ⟨true, true, w, rfl, rfl, ha⟩
  · exact ⟨false, true, true, rfl, rfl, ha⟩

/-- A list starts whole words away from its base. -/
theorem toNat_listStart_mod (b : Word) (u : Bool) (k : BitVec 8) :
    (if u then b else b - wordOffset k).toNat % 4 = b.toNat % 4 := by
  cases u with
  | true => rfl
  | false =>
    rw [if_neg (by decide), wordOffset_eq, BitVec.toNat_sub, BitVec.toNat_ofNat]
    have := k.isLt
    omega

theorem cp15_takeException (e : Exc) (ret : Word) (s : State) : (takeException e ret s).cp15 = s.cp15 :=
  (State.setRegIn_cp15 ..).trans (State.setSpsr_cp15 ..)

end

/-- Settles O39: each instruction is its body (`exec_singleLoad` and the like), each body passes its checks and is stopped at its
first access (`loadInto_misaligned` and the like), and the Data Abort is taken in the state that the body leaves. -/
theorem misalignedAccesses : Obligations.MisalignedAccesses := by
  intro c p u w rn rt rd rm s hc harm
  have loads {a : Word} {body : M Unit} (h : body s = misaligned false a s) :
      conditional c body s = .next (takeDataAbort .alignment false a s) := conditional_dataAbort hc harm h
  have stores {a : Word} {body : M Unit} (h : body s = misaligned true a s) :
      conditional c body s = .next (takeDataAbort .alignment true a s) := conditional_dataAbort hc harm h
  refine ⟨?_, ?_, ?_, ?_, ?_, ?_, ?_, ?_, ?_⟩
  · intro l a hA hrt hl hpw hb ha hal
    obtain ⟨ext, hexec⟩ := exec_singleLoad hc u hrt hl
    exact hexec.trans (loads (loadInto_misaligned hA hrt hpw hb ha hal ext))
  · intro l a hA hl hpw hb ha hal
    exact (exec_singleStore hc u hl).trans (stores (storeFrom_misaligned hA hpw hb ha hal))
  · intro h l off a ld st hform heven hlow hpw hb hb' ha hal
    obtain ⟨hld, hst⟩ := exec_double hform hc
    obtain ⟨hload, hstore⟩ := double_misaligned (checkDouble_of_allowed heven hlow hpw hb hb') ha hal
    exact ⟨hld.trans (loads hload), hst.trans (stores hstore)⟩
  · intro hn ht hd hdn hdt
    refine ⟨fun hal => ?_, fun hal => ?_, fun hal heven hlow hd1 => ?_, fun hal hnt hsw => ?_⟩
    · exact ⟨loads (loadExclusive_misaligned hn ht hal), stores (storeExclusiveFrom_misaligned hn hd ht hdn hdt hal)⟩
    · exact ⟨loads (loadExclusive_misaligned hn ht hal), stores (storeExclusiveFrom_misaligned hn hd ht hdn hdt hal)⟩
    · refine ⟨loads ?_, stores ?_⟩
      · refine (bind_ok (notPc_of_ne hn s)).trans ((bind_ok (checkPair_of_even heven hlow)).trans
          ((bind_ok (get_apply s)).trans ?_))
        exact bind_misaligned (readBytes_misaligned (acc := exclusive 8 s .read (s.reg rn)) hal)
      · refine (bind_ok (checkPair_of_even heven hlow)).trans ((bind_ok (checkExclusive_of_ne hn hd ht hdn hdt)).trans ?_)
        exact (bind_ok (refuseIf_of_false (beq_false_of_ne hd1) _)).trans (storeExclusive_misaligned hal _)
    · refine loads ((swap_eq hsw hn ht hd hnt hdn.symm 4).trans ?_)
      exact bind_misaligned (loadValue_misaligned (acc := swapRead 4 s (s.reg rn)) hal)
  · rintro regs a ld st hregs (⟨rfl, rfl, hn, hbase, ha⟩ | ⟨rfl, rfl, hbase, ha⟩ | ⟨rfl, rfl, hbase, ha⟩) hal
    · exact ⟨loads (loadMultiple_misaligned hn hregs hbase ha hal), stores (storeMultiple_misaligned hn hregs ha hal)⟩
    · exact ⟨loads (loadMultiple_misaligned (by decide) hregs hbase ha hal),
        stores (storeMultiple_misaligned (by decide) hregs ha hal)⟩
    · exact ⟨loads (loadMultiple_misaligned (by decide) hregs hbase ha hal),
        stores (storeMultiple_misaligned (by decide) hregs ha hal)⟩
  · intro a hpriv hn ha hal
    exact execRfe_misaligned harm hpriv hn ha hal
  · intro a mode m j _ hm hj ha hal
    exact execSrs_misaligned harm hm hj ha hal
  · intro hready d sz vd k hd
    refine ⟨fun off hoff => ⟨fun a ha hal => loads ?_, fun a ha hal => stores ?_⟩, ?_⟩
    · rw [hoff, ← wordOffset_eq] at ha
      subst ha
      exact (bind_ok (checkTransfer_of_ready hready hd)).trans ((bind_ok (get_apply s)).trans
        (bind_misaligned (loadFp_misaligned hal _ _)))
    · rw [hoff, ← wordOffset_eq] at ha
      subst ha
      exact (bind_ok (checkTransfer_of_ready hready hd)).trans ((bind_ok (get_apply s)).trans
        ((bind_ok rfl).trans (bind_misaligned (storeFp_misaligned hal _ _ _))))
    · rintro n first rfl hne rfl hfit hn hal ld st a hform
      obtain ⟨up, w₁, w₂, hld, hst, ha⟩ := exec_vfpMultiple hform
      have hal' : a.toNat % 4 ≠ 0 := by rwa [ha, toNat_listStart_mod]
      obtain ⟨t, ht, hfreed⟩ := vfpLoadMultiple_misaligned (w := w₁) hready hd hn hne (by rwa [listFirst_eq]) ha hal'
      rw [listFirst_eq] at hfreed
      have harmt : ArmEntry t := by rw [hfreed.rest]; exact harm
      exact ⟨hst.trans (stores (vfpStoreMultiple_misaligned hready hd hn hne (by rwa [listFirst_eq]) ha hal')), t,
        hld.trans (conditional_dataAbort hc harmt ht), hfreed.rest, hfreed.outside⟩
  · intro f wr a
    rw [← cp15_takeException .dataAbort (s.pc + 8) s]
    rfl

end Sys2Proof.Machine

/-!
# The cache operations of c7 and direct access

A privileged MCR performs the operation that its selector names (`exec_op`). The action of an operation on a line of the data cache
is said once (`DoesLine`); an operation by address is that action on the line found (`RunsAt`), one by set and way on the line named
(`RunsBySetWay`), which it notes (`State.noted`).
-/

namespace Sys2Proof.Machine

/-! ### MCR of an operation -/

/-- The fields of an MCR's selector, as `mcrOf` has them. -/
abbrev Selector : Type := Nat × Nat × Nat × Nat

/-- What a selector names (40_system_register_access.md R431). -/
abbrev Names (x : Selector) (r : Cp15Reg) : Prop :=
  cp15Sel (BitVec.ofNat 3 x.1) (BitVec.ofNat 4 x.2.1) (BitVec.ofNat 4 x.2.2.1) (BitVec.ofNat 3 x.2.2.2) = some r

section

variable {c : Cond} {rt : Reg} {s t : State} {x : Selector} {r : Cp15Reg}
  (hruns : Runs c s) (hpriv : s.privileged = true) (hrt : rt ≠ 15)
  (hsel : Names x r)
  (hw : r.readOnly = false)
include hruns hpriv hrt hsel hw

/-- A privileged MCR of a register that can be written is the write of it. -/
theorem exec_mcrOf : exec (mcrOf c rt x) s = finish ((do writeCp15 r (s.reg rt); fallThrough : M Unit) s) := by
  refine (conditional_passed hruns.1 _).trans (congrArg finish ?_)
  simp only [hsel]
  rw [bind_ok (get_apply s), hpriv, hw]
  exact bind_ok (notPc_of_ne hrt s)

theorem exec_mcrOf_next (hwrite : writeCp15 r (s.reg rt) s = .ok () t) (hpc : t.pc = s.pc) :
    exec (mcrOf c rt x) s = .next t.past := by
  rw [exec_mcrOf hruns hpriv hrt hsel hw, bind_ok hwrite, fallThrough_of_ne (by rw [hpc]; exact hruns.2)]
  rfl

theorem exec_mcrOf_refused {f : Refusal} (hwrite : writeCp15 r (s.reg rt) s = .error (.refuse f) t) :
    exec (mcrOf c rt x) s = .refused f := by
  rw [exec_mcrOf hruns hpriv hrt hsel hw, bind_error hwrite]
  rfl

end

/-! ### Stored words that are not synchronised -/

theorem Unsynced.inLine_eq (u : Unsynced) (a : Word) :
    u.inLine a = decide (u.memory ≠ .itcm ∧ u.word / 8 = a.toNat / 32) := by
  rw [Unsynced.inLine, Bool.decide_and, decide_not, bne, beq_eq_decide, beq_eq_decide]

theorem Unsynced.standsAt_eq (u : Unsynced) (n : Nat) : u.standsAt (false, n) = decide (u.memory ≠ .itcm ∧ u.word = n) := by
  show ((u.memory == .itcm) == false && u.word == n) = _
  rw [Bool.decide_and, decide_not, beq_false, beq_eq_decide, beq_eq_decide]

theorem Unsynced.forgets_eq (u : Unsynced) : u.forgets = decide (u.memory ≠ .cached ∨ u.dropped = true) := by
  rw [Unsynced.forgets, Bool.decide_or, decide_not, bne, beq_eq_decide, Bool.decide_eq_true]

/-- The stored words after an invalidation of the instruction cache by address (20_memory.md R281; log entry 80). -/
def droppedAt (a : Word) (us : List Unsynced) : List Unsynced :=
  us.map fun x => { x with dropped := x.dropped || (x.pushed && decide (x.memory ≠ .itcm ∧ x.word / 8 = a.toNat / 32)) }

/-- The stored words after an operation on the data cache by address, which is a clean or not (20_memory.md R281; log entry 80). -/
def cleanedAt (clean : Bool) (a : Word) (us : List Unsynced) : List Unsynced :=
  us.map fun x => { x with cleaned := x.cleaned || (clean && decide (x.memory ≠ .itcm ∧ x.word / 8 = a.toNat / 32)) }

theorem noteDroppedAt_apply (a : Word) (s : State) :
    noteDroppedAt a s = .ok () { s with unsynced := droppedAt a s.unsynced } := by
  simp only [noteDroppedAt, modify_apply, State.mapUnsynced, Unsynced.inLine_eq, droppedAt]

theorem noteCleanedAt_apply (a : Word) (s : State) :
    noteCleanedAt a s = .ok () { s with unsynced := cleanedAt true a s.unsynced } := by
  simp only [noteCleanedAt, modify_apply, State.mapUnsynced, Unsynced.inLine_eq, cleanedAt, Bool.true_and]

theorem cleanedAt_false (a : Word) (us : List Unsynced) : cleanedAt false a us = us := by
  simp only [cleanedAt, Bool.false_and, Bool.or_false, List.map_id_fun', id]

/-- The branch predictor forgets one word, or all (20_memory.md R281). -/
theorem performOp_bpimva (v : Word) (s : State) : performOp .bpimva v s = .ok () { s with unsynced := s.unsynced.map fun x =>
    { x with forgotten := x.forgotten || (decide (x.memory ≠ .cached ∨ x.dropped = true) &&
      decide (x.memory ≠ .itcm ∧ x.word = v.toNat / 4)) } } := by
  simp only [performOp, noteForgottenAt, modify_apply, State.mapUnsynced, Unsynced.forgets_eq, Unsynced.standsAt_eq]

theorem performOp_bpiall (v : Word) (s : State) : performOp .bpiall v s = .ok () { s with unsynced := s.unsynced.map fun x =>
    { x with forgotten := x.forgotten || decide (x.memory ≠ .cached ∨ x.dropped = true) } } := by
  simp only [performOp, noteForgotten, modify_apply, State.mapUnsynced, Unsynced.forgets_eq]

/-! ### The instruction cache -/

theorem sparseRead_map_filter {w : Nat} {m : List (Nat × BitVec w)} {lo : Nat} (h : sparseWf lo m = true)
    (f : BitVec w → BitVec w) (hf : f 0 = 0) (k : Nat) :
    sparseRead ((m.map fun e => (e.1, f e.2)).filter fun e => e.2 != 0) k = f (sparseRead m k) := by
  induction m generalizing lo with
  | nil => exact hf.symm
  | cons e m ih =>
    obtain ⟨k', v⟩ := e
    simp only [sparseWf, Bool.and_eq_true, decide_eq_true_eq] at h
    obtain ⟨-, hm⟩ := h
    simp only [List.map_cons, List.filter_cons]
    by_cases hv : f v = 0
    · rw [hv, if_neg (by simp), ih hm, sparseRead]
      split
      · next hk => rw [sparseRead_below hm (by omega), hf, hv]
      · rfl
    · rw [if_pos (bne_iff_ne.mpr hv), sparseRead, sparseRead, ih hm]
      split <;> rfl

section

variable {s : State} (hecc : eccOn s = false)
include hecc

/-- Invalidate all (20_memory.md R255, R258): no line of the instruction cache is valid. -/
theorem performOp_iciallu (hwf : sparseWf 0 s.icache.tag = true) (v : Word) :
    ∃ m, (∀ k, sparseRead m k = sparseRead s.icache.tag k &&& 0xFDBFFFFF) ∧
      performOp .iciallu v s = .ok () { s with
        icache := { s.icache with tag := m }, upkeep := { s.upkeep with instruction := true }
        unsynced := s.unsynced.map fun x => { x with
          dropped := x.dropped || x.pushed
          forgotten := x.forgotten || decide (x.memory ≠ .cached ∨ x.dropped = true ∨ x.pushed = true) } } := by
  refine ⟨_, sparseRead_map_filter hwf droppedTag rfl, ?_⟩
  simp only [performOp, invalidateICache, noteDropped, noteForgotten, bind_apply, modify_apply, State.mapUnsynced, hecc, dropAll,
    Bool.false_eq_true, if_false, List.map_map, Unsynced.forgets_eq, Function.comp_def, Bool.or_eq_true]

theorem icacheCheck_off (a : Word) : icacheCheck a s = .ok () s := by
  unfold icacheCheck
  rw [hecc, if_neg (by decide)]

/-- An address no line of the instruction cache holds (20_memory.md R258). -/
theorem invalidateICacheAt_miss {a : Word} (h : hitWay s.icache s.cp15.ieer (setBits s.cfg.icache) a = none) :
    invalidateICacheAt a s = .ok () s := by
  refine (bind_ok (get_apply s)).trans ?_
  rw [ite_apply]
  split
  · rfl
  · refine (bind_ok (icacheCheck_off hecc a)).trans ?_
    rw [modify_apply, h]

/-- The line of the instruction cache that holds an address is dropped (20_memory.md R255, R258). -/
theorem invalidateICacheAt_hit {a : Word} {way line : Nat} (hbuilt : s.cfg.icache ≠ .none)
    (h : hitWay s.icache s.cp15.ieer (setBits s.cfg.icache) a = some way)
    (hline : line = lineIndex way (setOf (setBits s.cfg.icache) a)) :
    invalidateICacheAt a s = .ok () { s with icache := { s.icache with
      tag := sparseWrite s.icache.tag line (sparseRead s.icache.tag line &&& 0xFDBFFFFF) } } := by
  subst hline
  refine (bind_ok (get_apply s)).trans ?_
  rw [if_neg hbuilt]
  refine (bind_ok (icacheCheck_off hecc a)).trans ?_
  rw [modify_apply, h]
  simp only [hecc]
  rfl

end

/-! ### A line on its way out -/

theorem lineBytes_word (c : CacheRam) (line j n : Nat) :
    lineBytes c line (4 * j) (n + 4) = bytesOfWord (sparseRead c.data (line * 8 + j)) ++ lineBytes c line (4 * (j + 1)) n := by
  have hbyte (k : Nat) (hk : k < 4) :
      lineByte c line (4 * j + k) = (sparseRead c.data (line * 8 + j)).extractLsb' (8 * k) 8 := by
    unfold lineByte
    rw [show (4 * j + k) / 4 = j by omega, show (4 * j + k) % 4 = k by omega]
  simp only [lineBytes, Nat.add_assoc, Nat.reduceAdd]
  rw [show lineByte c line (4 * j) = _ from hbyte 0 (by decide), hbyte 1 (by decide), hbyte 2 (by decide), hbyte 3 (by decide)]
  rfl

theorem storeStrobed_some (m : List Host.Cell) (a : Nat) (bs : List Byte) :
    storeStrobed m a (bs.map some) = storeBytes m a bs := by
  induction bs generalizing m a with
  | nil => rfl
  | cons b bs ih => exact ih _ _

/-- The write of a line that goes to main memory. -/
theorem lineWrite_of_plain {s : State} {a : Word} (h : LinePlain s a) (bs : List Byte) :
    lineWrite a (bs.map some) s = .ok () { s with mem := storeBytes s.mem a.toNat bs } := by
  obtain ⟨hper, hwin, herr, -⟩ := h
  simp only [lineWrite, inPrivate_of_inPeripheral hper, hper, hwin, herr, Bool.or_false, Bool.false_eq_true, if_false,
    storeStrobed_some]

theorem dirtyLine_eq (s : State) (way set : Nat) :
    dirtyLine s way set = if s.lineDirty way set then some (s.lineAt way set) else none := rfl

/-- A dirty line of the data cache written to memory, and no longer dirty (20_memory.md R255). -/
def State.lineWritten (s : State) (way set : Nat) : State :=
  { s with
    mem := storeBytes s.mem (s.lineAt way set).toNat (lineBytes s.dcache (lineIndex way set) 0 32)
    dcache := { s.dcache with
      tag := sparseWrite s.dcache.tag (lineIndex way set) (sparseRead s.dcache.tag (lineIndex way set) &&& 0xFDFFFFFF) } }

theorem State.lineWritten_mem (s : State) (way set : Nat) : (s.lineWritten way set).mem =
    storeBytes s.mem (s.lineAt way set).toNat (lineBytes s.dcache (lineIndex way set) 0 32) := by
  rw [State.lineWritten]

theorem State.lineWritten_tag (s : State) (way set : Nat) : (s.lineWritten way set).dcache.tag =
    sparseWrite s.dcache.tag (lineIndex way set) (sparseRead s.dcache.tag (lineIndex way set) &&& 0xFDFFFFFF) := by
  rw [State.lineWritten]

theorem State.lineWritten_scu (s : State) (way set : Nat) : (s.lineWritten way set).scu = s.scu := by
  rw [State.lineWritten]

/-- A clean, then an invalidation (20_memory.md R255). -/
theorem LineDone.dropped {s t u : State} {way set : Nat} (hclean : LineDone s t way set true false)
    (hdrop : LineDone t u way set false true) :
    LineDone s u way set true true := by
  have hrest := hclean.rest
  have hcfg : t.cfg = s.cfg := by rw [hrest]
  constructor
  · exact hdrop.mem.trans hclean.mem
  · rw [hdrop.tag, hclean.tag, BitVec.and_assoc]
    cases s.lineDirty way set with
    | false => simp
    | true => simp
  · exact fun k hk => (hdrop.otherTags k hk).trans (hclean.otherTags k hk)
  · exact fun _ => hcfg ▸ hdrop.entry rfl
  · exact fun k hk => (hdrop.otherEntries k (hcfg ▸ hk)).trans (hclean.otherEntries k nofun)
  · rw [hdrop.rest, hrest]

section

variable {s : State} {way set : Nat} (hecc : eccOn s = false)
include hecc

theorem wordOut_off (j : Nat) :
    wordOut way set j s = .ok ((bytesOfWord (sparseRead s.dcache.data (lineIndex way set * 8 + j))).map some) s := by
  simp only [wordOut, hecc, Bool.false_eq_true, if_false]

theorem wordsOut_off {n : Nat} (hn : n ≤ 8) : wordsOut way set n s =
    .ok ((lineBytes s.dcache (lineIndex way set) (4 * (8 - n)) (4 * n)).map some) s := by
  induction n with
  | zero => rfl
  | succ n ih =>
    refine (bind_ok (wordOut_off hecc (7 - n))).trans ((bind_ok (ih (by omega))).trans ?_)
    rw [pure_apply, ← List.map_append, show 8 - n = 7 - n + 1 by omega, ← lineBytes_word,
      show 8 - (n + 1) = 7 - n by omega, Nat.mul_add]

/-! ### Lines invalidated and cleaned -/

/-- An invalidated line (20_memory.md R255): no longer valid, and out of the duplicate tag RAM (61_scu.md R582). -/
theorem invalidateLine_done (hcan : Canonical s) :
    ∃ t, invalidateLine way set s = .ok () t ∧ LineDone s t way set false true := by
  refine ⟨_, rfl, ?_⟩
  have htag (k : Nat) (v : Word) := sparseRead_write hcan.dTag (lineIndex way set) k v
  have hentry (k : Nat) (v : Word) := sparseRead_write hcan.scuTags (scuTagKey (if s.cfg.cpu then 1 else 0) way set) k v
  constructor
  · rfl
  · exact (htag _ _).trans (if_pos rfl)
  · exact fun k hk => (htag k _).trans (if_neg hk.symm)
  · exact fun _ => (hentry _ _).trans (if_pos rfl)
  · exact fun k hk => (hentry k _).trans (if_neg (hk rfl).symm)
  · simp only [scuNote, hecc, dropDLine, setDTag, setScuTag, Bool.false_eq_true, if_false]

theorem writeOutLine_dirty (hplain : LinePlain s (s.lineAt way set)) (hdirty : s.lineDirty way set = true) :
    writeOutLine way set s = .ok () (s.lineWritten way set) := by
  unfold writeOutLine
  rw [dirtyLine_eq, hdirty, if_pos rfl]
  refine (bind_ok (wordsOut_off hecc (Nat.le_refl 8))).trans ((bind_ok (lineWrite_of_plain hplain _)).trans ?_)
  have hecc' (m : List Host.Cell) : eccOn { s with mem := m } = false := hecc
  simp only [putDTag, hecc', setDTag, Bool.false_eq_true, if_false]
  rfl

theorem cleanLine_eq (hplain : LinePlain s (s.lineAt way set)) :
    cleanLine way set s = .ok () (if s.lineDirty way set then s.lineWritten way set else s) := by
  have hback : cleanLine way set s = writeBackLine scuCheck way set s := by
    unfold cleanLine cleanWith
    rw [hecc]
    rfl
  rw [hback]
  unfold writeBackLine
  rw [bind_ok (get_apply s), dirtyLine_eq]
  cases hdirty : s.lineDirty way set with
  | false => rfl
  | true => exact (bind_ok (scuCheck_quiet hplain.2.2.2)).trans (writeOutLine_dirty hecc hplain hdirty)

/-- A cleaned line (20_memory.md R255): written to memory if it is dirty, and no longer dirty. -/
theorem cleanLine_done (hcan : Canonical s) (hplain : LinePlain s (s.lineAt way set)) :
    ∃ t, cleanLine way set s = .ok () t ∧ LineDone s t way set true false := by
  refine ⟨_, cleanLine_eq hecc hplain, ?_⟩
  cases hdirty : s.lineDirty way set with
  | false =>
    refine ⟨?_, ?_, fun _ _ => rfl, nofun, fun _ _ => rfl, rfl⟩
    · rw [hdirty]
      rfl
    · rw [hdirty]
      exact BitVec.and_allOnes.symm
  | true =>
    have htag (k : Nat) := sparseRead_write hcan.dTag (lineIndex way set) k
      (sparseRead s.dcache.tag (lineIndex way set) &&& 0xFDFFFFFF)
    rw [if_pos rfl]
    refine ⟨?_, ?_, fun k hk => ?_, nofun, fun k _ => ?_, ?_⟩
    · rw [State.lineWritten_mem, hdirty, Bool.and_self, if_pos rfl]
    · rw [State.lineWritten_tag, htag, if_pos rfl, hdirty, Bool.and_self, if_neg (by decide), if_pos rfl]
    · rw [State.lineWritten_tag, htag, if_neg hk.symm]
    · rw [State.lineWritten_scu]
    · rw [State.lineWritten]

theorem cleanInvalidateLine_done (hcan : Canonical s) (hplain : LinePlain s (s.lineAt way set)) :
    ∃ t, cleanInvalidateLine way set s = .ok () t ∧ LineDone s t way set true true := by
  obtain ⟨t, ht, hclean⟩ := cleanLine_done hecc hcan hplain
  have hstep := accesses_cleanLine way set s
  rw [ht] at hstep
  have hecct : eccOn t = false := by rw [hclean.rest]; exact hecc
  obtain ⟨u, hu, hdrop⟩ := invalidateLine_done (way := way) (set := set) hecct (hstep.canonical hcan)
  exact ⟨u, (bind_ok ht).trans hu, hclean.dropped hdrop⟩

end

/-! ### What an operation on a line leaves alone -/

section

variable {s t : State} {way set : Nat} {clean drop : Bool} (h : LineDone s t way set clean drop)
include h

theorem LineDone.pc : t.pc = s.pc := by rw [h.rest]

theorem LineDone.upkeep : t.upkeep = s.upkeep := by rw [h.rest]

theorem LineDone.unsynced : t.unsynced = s.unsynced := by rw [h.rest]

end

/-- `f` does to a line what a clean, an invalidation, or both do, with error checking off. -/
def DoesLine (f : Nat → Nat → M Unit) (clean drop : Bool) : Prop :=
  ∀ (s : State) (way set : Nat), eccOn s = false → Canonical s → (clean = true → LinePlain s (s.lineAt way set)) →
    ∃ t, f way set s = .ok () t ∧ LineDone s t way set clean drop

theorem doesLine_invalidate : DoesLine invalidateLine false true := fun _ _ _ hecc hcan _ => invalidateLine_done hecc hcan

theorem doesLine_clean : DoesLine cleanLine true false := fun _ _ _ hecc hcan hplain => cleanLine_done hecc hcan (hplain rfl)

theorem doesLine_cleanInvalidate : DoesLine cleanInvalidateLine true true := fun _ _ _ hecc hcan hplain =>
  cleanInvalidateLine_done hecc hcan (hplain rfl)

theorem State.maintained_canonical {s : State} (h : Canonical s) : Canonical s.maintained := { h with }

/-! ### By address -/

section

variable {s : State} {a : Word}

theorem atLine_unbuilt (h : s.cfg.dcache = .none) (f : Nat → Nat → M Unit) : atLine a f s = .ok () s := by
  refine (bind_ok (get_apply s)).trans ?_
  rw [if_pos h]
  rfl

theorem atHeldLine_off (hecc : eccOn s = false) (f : Nat → Nat → M Unit) : atHeldLine a f s =
    (match hitWay s.dcache s.cp15.deer (setBits s.cfg.dcache) a with
      | some way => f way (setOf (setBits s.cfg.dcache) a)
      | none => pure ()) s := by
  refine (bind_ok (dcacheCheck_off hecc a)).trans ((bind_ok (get_apply s)).trans ?_)
  rfl

theorem atLine_miss (hecc : eccOn s = false) (h : hitWay s.dcache s.cp15.deer (setBits s.cfg.dcache) a = none)
    (f : Nat → Nat → M Unit) : atLine a f s = .ok () s := by
  refine (bind_ok (get_apply s)).trans ?_
  rw [ite_apply, atHeldLine_off hecc, h]
  split <;> rfl

theorem atLine_hit (hecc : eccOn s = false) (hbuilt : s.cfg.dcache ≠ .none) {way : Nat}
    (h : hitWay s.dcache s.cp15.deer (setBits s.cfg.dcache) a = some way) (f : Nat → Nat → M Unit) :
    atLine a f s = f way (setOf (setBits s.cfg.dcache) a) s := by
  refine (bind_ok (get_apply s)).trans ?_
  rw [if_neg hbuilt, atHeldLine_off hecc, h]

end

/-- The operation `o` is `f` on the line that holds an address, and a clean of the stored words there if it cleans
(20_memory.md R258; log entry 80). -/
def RunsAt (o : Cp15Op) (f : Nat → Nat → M Unit) (clean : Bool) : Prop :=
  ∀ (v : Word) (s t : State), atLine v f s.maintained = .ok () t →
    performOp o v s = .ok () { t with unsynced := cleanedAt clean v t.unsynced }

theorem runsAt_dcimvac : RunsAt .dcimvac invalidateLine false := by
  intro v s t h
  rw [cleanedAt_false]
  exact (bind_ok (modify_apply _ s)).trans h

theorem runsAt_dccmva : RunsAt .dccmva cleanLine true := fun v s t h =>
  (bind_ok (modify_apply _ s)).trans ((bind_ok h).trans (noteCleanedAt_apply v t))

theorem runsAt_dccimvac : RunsAt .dccimvac cleanInvalidateLine true := fun v s t h =>
  (bind_ok (modify_apply _ s)).trans ((bind_ok h).trans (noteCleanedAt_apply v t))

/-- The operations on the data cache by address: the selector, whether it cleans, whether it invalidates (20_memory.md R258). -/
def dataOpsAt : List (Selector × Bool × Bool) := [((0, 7, 6, 1), false, true), ((0, 7, 10, 1), true, false),
  ((0, 7, 11, 1), true, false), ((0, 7, 14, 1), true, true)]

theorem exists_runsAt {e : Selector × Bool × Bool} (he : e ∈ dataOpsAt) :
    ∃ o f, Names e.1 (.op o) ∧ RunsAt o f e.2.1 ∧ DoesLine f e.2.1 e.2.2 := by
  simp only [dataOpsAt, List.mem_cons, List.not_mem_nil, or_false] at he
  obtain rfl | rfl | rfl | rfl := he
  · exact ⟨.dcimvac, _, by decide, runsAt_dcimvac, doesLine_invalidate⟩
  · exact ⟨.dccmva, _, by decide, runsAt_dccmva, doesLine_clean⟩
  · exact ⟨.dccmva, _, by decide, runsAt_dccmva, doesLine_clean⟩
  · exact ⟨.dccimvac, _, by decide, runsAt_dccimvac, doesLine_cleanInvalidate⟩

/-! ### By set and way -/

/-- The lines noted as invalidated and cleaned since the data cache was turned off (log entry 79). -/
def State.noted (t : State) (clean drop : Bool) (line : Nat) : State :=
  { t with upkeep := { t.upkeep with
      data := if drop then withLine t.upkeep.data line else t.upkeep.data
      cleaned := if clean then withLine t.upkeep.cleaned line else t.upkeep.cleaned } }

/-- The operation `o` is `f` on the line that a set/way argument names, which it notes. -/
def RunsBySetWay (o : Cp15Op) (f : Nat → Nat → M Unit) (clean drop : Bool) : Prop :=
  ∃ g, (∀ v s, performOp o v s = bySetWay v g s.maintained) ∧
    ∀ way set s t, f way set s = .ok () t → g way set s = .ok () (t.noted clean drop (lineIndex way set))

theorem runsBySetWay_dcisw : RunsBySetWay .dcisw invalidateLine false true :=
  ⟨_, fun _ s => bind_ok (modify_apply _ s), fun _ _ _ _ h => bind_ok h⟩

theorem runsBySetWay_dccsw : RunsBySetWay .dccsw cleanLine true false :=
  ⟨_, fun _ s => bind_ok (modify_apply _ s), fun _ _ _ _ h => bind_ok h⟩

theorem runsBySetWay_dccisw : RunsBySetWay .dccisw cleanInvalidateLine true true :=
  ⟨_, fun _ s => bind_ok (modify_apply _ s), fun _ _ _ _ h => bind_ok h⟩

/-- The operations on the data cache by set and way, as `dataOpsAt` has those by address. -/
def setWayOps : List (Selector × Bool × Bool) :=
  [((0, 7, 6, 2), false, true), ((0, 7, 10, 2), true, false), ((0, 7, 14, 2), true, true)]

theorem exists_runsBySetWay {e : Selector × Bool × Bool} (he : e ∈ setWayOps) :
    ∃ o f, Names e.1 (.op o) ∧ RunsBySetWay o f e.2.1 e.2.2 ∧ DoesLine f e.2.1 e.2.2 := by
  simp only [setWayOps, List.mem_cons, List.not_mem_nil, or_false] at he
  obtain rfl | rfl | rfl := he
  · exact ⟨.dcisw, _, by decide, runsBySetWay_dcisw, doesLine_invalidate⟩
  · exact ⟨.dccsw, _, by decide, runsBySetWay_dccsw, doesLine_clean⟩
  · exact ⟨.dccisw, _, by decide, runsBySetWay_dccisw, doesLine_cleanInvalidate⟩

section

variable {s : State} {v : Word} {g : Nat → Nat → M Unit}

/-- A set/way argument with a reserved bit set, or a set that is not built (20_memory.md R257; U23). -/
theorem bySetWay_refused (h : v.extractLsb' 0 5 ≠ 0 ∨ setWaySets s.cfg.dcache ≤ (v.extractLsb' 5 25).toNat) :
    bySetWay v g s = .error (.refuse .setWay) s := by
  refine (bind_ok (get_apply s)).trans (bind_error ?_)
  rw [refuseIf_apply, if_pos]
  rw [Bool.or_eq_true, bne_iff_ne, decide_eq_true_iff]
  exact h

theorem bySetWay_allowed (hzero : v.extractLsb' 0 5 = 0) (hset : (v.extractLsb' 5 25).toNat < setWaySets s.cfg.dcache) :
    bySetWay v g s =
      if s.cfg.dcache = .none then .ok () s else g (v.extractLsb' 30 2).toNat (v.extractLsb' 5 25).toNat s := by
  refine (bind_ok (get_apply s)).trans ((bind_ok (refuseIf_of_false ?_ _)).trans (ite_apply _ _ _ s))
  rw [hzero, decide_eq_false (by omega)]
  rfl

end

/-! ### One bit a line -/

theorem getLsbD_setBit_true (w : Word) {k i : Nat} (hk : k < 32) :
    (setBit w k true).getLsbD i = (w.getLsbD i || decide (i = k)) := by
  by_cases h : i = k
  · subst h
    simp [setBit, bitAt, hk]
  · rw [setBit_bit w k true i h, decide_eq_false h, Bool.or_false]

theorem lineBit_withLine (v : Vector Word 64) {line l : Nat} (hline : line < 2048) (hl : l < 2048) :
    lineBit (withLine v l) line = (lineBit v line || decide (line = l)) := by
  have hidx {k : Nat} (hk : k < 2048) : (Fin.ofNat 64 (k / 32)).val = k / 32 := Nat.mod_eq_of_lt (by omega)
  unfold lineBit withLine
  simp only [Fin.getElem_fin, hidx hline, hidx hl, Vector.getElem_set]
  split
  · next hword =>
    have hbit : line % 32 = l % 32 ↔ line = l := by omega
    rw [getLsbD_setBit_true _ (by omega)]
    simp only [hword, hbit]
  · next hword => rw [decide_eq_false (by rintro rfl; exact hword rfl), Bool.or_false]

/-- Whole words of lines are built (20_memory.md R250). -/
theorem two_pow_setBits (size : RamSize) : ∃ n, 2 ^ setBits size = 32 * n ∧ n ≤ 16 := by
  cases size with
  | none | kb4 => exact ⟨1, by decide⟩
  | kb8 => exact ⟨2, by decide⟩
  | kb16 => exact ⟨4, by decide⟩
  | kb32 => exact ⟨8, by decide⟩
  | kb64 | kb128 => exact ⟨16, by decide⟩

theorem lineBit_lineIndex (v : Vector Word 64) (way set : Nat) :
    lineBit v (lineIndex way set) = v[Fin.ofNat 64 (way * 16 + set / 32)].getLsbD (set % 32) := by
  unfold lineBit lineIndex
  simp only [show (way * 512 + set) / 32 = way * 16 + set / 32 by omega, show (way * 512 + set) % 32 = set % 32 by omega]

theorem eq_ones_iff (w : Word) : w = 0xFFFFFFFF ↔ ∀ i, i < 32 → w.getLsbD i = true := by
  constructor
  · rintro rfl i hi
    exact BitVec.getLsbD_allOnes.trans (decide_eq_true hi)
  · exact fun h => BitVec.eq_of_getLsbD_eq fun i hi => (h i hi).trans (BitVec.getLsbD_allOnes.trans (decide_eq_true hi)).symm

/-- Every line that is built has its bit. -/
theorem everyLine_iff (cfg : Config) (v : Vector Word 64) : everyLine cfg v = true ↔
    ∀ way set, way < 4 → set < 2 ^ setBits cfg.dcache → lineBit v (lineIndex way set) = true := by
  obtain ⟨words, hwords, -⟩ := two_pow_setBits cfg.dcache
  have hways (way : Nat) : way ∈ [0, 1, 2, 3] ↔ way < 4 := by
    simp only [List.mem_cons, List.not_mem_nil, or_false]
    omega
  simp only [everyLine, List.all_eq_true, hways, List.mem_range, beq_iff_eq, hwords, eq_ones_iff, lineBit_lineIndex]
  constructor
  · exact fun h way set hway hset => h way hway (set / 32) (by omega) (set % 32) (by omega)
  · intro h way hway n hn i hi
    have hline := h way (32 * n + i) hway (by omega)
    simpa only [show (32 * n + i) / 32 = n by omega, show (32 * n + i) % 32 = i by omega] using hline

/-! ### Direct access to the RAMs -/

section

variable {s : State} (hecc : s.cfg.ecc = false)
include hecc

theorem chunkOf_off (chunk : Byte) : chunkOf s chunk = 0 := by
  rw [chunkOf, hecc, if_neg (by decide)]

theorem writeChunk_off (m : List (Nat × Byte)) (key : Nat) : writeChunk s m key = m := by
  rw [writeChunk, hecc, if_neg (by decide)]

/-- A direct access reads or writes the RAM word that its argument names (11_cp15_registers.md R176, R177). -/
theorem directAccess_eq {v : Word} {r w : State} (h : DirectAccess s v r w) :
    directAccess v s = if v.getLsbD 0 then w else r := by
  cases h with
  | dtcm off unit built place | dtcmHole unit built place =>
    obtain ⟨htcm, hdata⟩ := unit
    simp only [directAccess, directDtcm, setRamData, clearRadrhi, State.setCp15, htcm, hdata, built, place, chunkOf_off hecc,
      writeChunk_off hecc, Bool.false_eq_true, if_true, if_false]
  | itcm off unit built place | itcmHole unit built place =>
    obtain ⟨htcm, hinstr⟩ := unit
    simp only [directAccess, directItcm, setRamData, State.setCp15, htcm, hinstr, built, place, chunkOf_off hecc,
      writeChunk_off hecc, if_true, if_false]
  | data line key unit array built inside place word =>
    obtain ⟨hcache, hdata⟩ := unit
    simp only [directAccess, directDCache, setRamData, clearRadrhi, State.setCp15, hcache, hdata, array, built, word, place,
      Nat.mod_eq_of_lt inside, chunkOf_off hecc, writeChunk_off hecc, Bool.false_eq_true, if_true, if_false]
  | tag line unit array built inside place =>
    obtain ⟨hcache, hdata⟩ := unit
    simp only [directAccess, directDCache, setRamData, clearRadrhi, State.setCp15, hcache, hdata, array, built, place,
      Nat.mod_eq_of_lt inside, chunkOf_off hecc, writeChunk_off hecc, Bool.false_eq_true, if_false]
  | instruction line key unit array built inside place word =>
    obtain ⟨hcache, hinstr⟩ := unit
    simp only [directAccess, directICache, setRamData, State.setCp15, hcache, hinstr, array, built, word, place,
      Nat.mod_eq_of_lt inside, chunkOf_off hecc, writeChunk_off hecc, Bool.false_eq_true, if_true, if_false]

theorem directAccess_pc {v : Word} {r w : State} (h : DirectAccess s v r w) : (directAccess v s).pc = s.pc := by
  rw [directAccess_eq hecc h]
  cases h <;> split <;> rfl

end

/-! ### The instructions -/

section

variable {c : Cond} {rt : Reg} {s : State} {v : Word} (hruns : Runs c s) (hpriv : s.privileged = true) (hrt : rt ≠ 15)
  (hv : v = s.reg rt)
include hruns hpriv hrt hv

/-- A privileged MCR performs the operation of c7 that its selector names (40_system_register_access.md R438). -/
theorem exec_op {x : Selector} {o : Cp15Op} {t : State}
    (hsel : Names x (.op o)) (h : performOp o v s = .ok () t) (hpc : t.pc = s.pc) :
    exec (mcrOf c rt x) s = .next t.past := by
  subst hv
  exact exec_mcrOf_next hruns hpriv hrt hsel rfl ((bind_ok (get_apply s)).trans h) hpc

/-- An invalidation of the instruction cache by address after which the cache is `i`. -/
theorem exec_icimvau {i : CacheRam} (h : invalidateICacheAt v s = .ok () { s with icache := i }) :
    exec (mcrOf c rt (0, 7, 5, 1)) s = .next (State.past { s with unsynced := droppedAt v s.unsynced, icache := i }) :=
  exec_op hruns hpriv hrt hv (o := .icimvau) (by decide) ((bind_ok h).trans (noteDroppedAt_apply v _)) rfl

theorem exec_icimvau_idle (h : invalidateICacheAt v s = .ok () s) :
    exec (mcrOf c rt (0, 7, 5, 1)) s = .next (State.past { s with unsynced := droppedAt v s.unsynced }) :=
  exec_icimvau hruns hpriv hrt hv (i := s.icache) h

/-- An operation on the data cache by address that finds no line, or no cache. -/
theorem exec_at_idle {x : Selector} {o : Cp15Op} {f : Nat → Nat → M Unit} {clean : Bool}
    (hsel : Names x (.op o)) (hop : RunsAt o f clean) (h : atLine v f s.maintained = .ok () s.maintained) :
    exec (mcrOf c rt x) s = .next (State.past { s.maintained with unsynced := cleanedAt clean v s.unsynced }) :=
  exec_op hruns hpriv hrt hv hsel (hop v s _ h) rfl

/-- An operation on the data cache by address, on the line that it finds. -/
theorem exec_at_line {e : Selector × Bool × Bool} (he : e ∈ dataOpsAt) (hcan : Canonical s)
    (hecc : eccOn s = false) (hbuilt : s.cfg.dcache ≠ .none) {way : Nat}
    (hit : hitWay s.dcache s.cp15.deer (setBits s.cfg.dcache) v = some way)
    (hplain : e.2.1 = true → LinePlain s (s.lineAt way (setOf (setBits s.cfg.dcache) v))) :
    ∃ t, exec (mcrOf c rt e.1) s = .next (State.past { t with unsynced := cleanedAt e.2.1 v s.unsynced }) ∧
      LineDone s.maintained t way (setOf (setBits s.cfg.dcache) v) e.2.1 e.2.2 := by
  obtain ⟨o, f, hsel, hop, hf⟩ := exists_runsAt he
  obtain ⟨t, ht, hdone⟩ := hf s.maintained way (setOf (setBits s.cfg.dcache) v) hecc (State.maintained_canonical hcan) hplain
  have hline : atLine v f s.maintained = .ok () t := (atLine_hit (s := s.maintained) hecc hbuilt hit f).trans ht
  refine ⟨t, ?_, hdone⟩
  have hexec := exec_op hruns hpriv hrt hv hsel (hop v s t hline) hdone.pc
  rwa [hdone.unsynced] at hexec

/-- An operation by set and way whose argument is reserved (20_memory.md R257; U23). -/
theorem exec_setWay_refused {x : Selector} {o : Cp15Op} {f : Nat → Nat → M Unit} {clean drop : Bool}
    (hsel : Names x (.op o)) (hop : RunsBySetWay o f clean drop)
    (h : v.extractLsb' 0 5 ≠ 0 ∨ setWaySets s.cfg.dcache ≤ (v.extractLsb' 5 25).toNat) :
    exec (mcrOf c rt x) s = .refused .setWay := by
  subst hv
  obtain ⟨g, hperform, -⟩ := hop
  exact exec_mcrOf_refused hruns hpriv hrt hsel rfl
    ((bind_ok (get_apply s)).trans ((hperform _ s).trans (bySetWay_refused (s := s.maintained) h)))

/-- An operation by set and way without a data cache does nothing (20_memory.md R258; log entry 72). -/
theorem exec_setWay_unbuilt {x : Selector} {o : Cp15Op} {f : Nat → Nat → M Unit} {clean drop : Bool}
    (hsel : Names x (.op o)) (hop : RunsBySetWay o f clean drop) (hnone : s.cfg.dcache = .none) (hzero : v.extractLsb' 0 5 = 0)
    (hset : (v.extractLsb' 5 25).toNat < setWaySets s.cfg.dcache) :
    exec (mcrOf c rt x) s = .next s.maintained.past := by
  obtain ⟨g, hperform, -⟩ := hop
  have hidle : bySetWay v g s.maintained = .ok () s.maintained :=
    (bySetWay_allowed (s := s.maintained) hzero hset).trans (if_pos hnone)
  exact exec_op hruns hpriv hrt hv hsel ((hperform v s).trans hidle) rfl

/-- An operation by set and way on the line that its argument names (20_memory.md R257, R258). -/
theorem exec_setWay_line {e : Selector × Bool × Bool} (he : e ∈ setWayOps)
    (hcan : Canonical s) (hecc : eccOn s = false) (hbuilt : s.cfg.dcache ≠ .none) (hzero : v.extractLsb' 0 5 = 0)
    {way set : Nat} (hway : way = (v.extractLsb' 30 2).toNat) (hset : set = (v.extractLsb' 5 25).toNat)
    (hsets : set < 2 ^ setBits s.cfg.dcache) (hplain : e.2.1 = true → LinePlain s (s.lineAt way set)) :
    ∃ t, LineDone s.maintained t way set e.2.1 e.2.2 ∧
      exec (mcrOf c rt e.1) s = .next (t.noted e.2.1 e.2.2 (lineIndex way set)).past := by
  obtain ⟨o, f, hsel, ⟨g, hperform, hg⟩, hf⟩ := exists_runsBySetWay he
  obtain ⟨t, ht, hdone⟩ := hf s.maintained way set hecc (State.maintained_canonical hcan) hplain
  refine ⟨t, hdone, exec_op hruns hpriv hrt hv hsel ?_ hdone.pc⟩
  subst hway hset
  have hsets' : (v.extractLsb' 5 25).toNat < setWaySets s.cfg.dcache := by rwa [setWaySets, if_neg hbuilt]
  exact (hperform v s).trans ((bySetWay_allowed (s := s.maintained) hzero hsets').trans
    ((if_neg hbuilt).trans (hg _ _ _ _ ht)))

/-- A write of CTDOR (11_cp15_registers.md R176). -/
theorem exec_ctdor (hecc : s.cfg.ecc = false) {r w : State} (h : DirectAccess s v r w) :
    exec (mcrOf c rt (0, 15, 1, 0)) s = .next (if v.getLsbD 0 then w else r).past := by
  rw [← directAccess_eq hecc h]
  subst hv
  exact exec_mcrOf_next hruns hpriv hrt (r := .ctdor) (by decide) rfl (bind_ok (get_apply s)) (directAccess_pc hecc h)

end

theorem mem_dataOpsAt {e : Selector × Bool}
    (he : e ∈ [((0, 7, 6, 1), false), ((0, 7, 10, 1), true), ((0, 7, 11, 1), true), ((0, 7, 14, 1), true)]) :
    ∃ drop, (e.1, e.2, drop) ∈ dataOpsAt := by
  revert e
  decide

theorem mem_setWayOps {x : Selector} (hx : x ∈ [(0, 7, 6, 2), (0, 7, 10, 2), (0, 7, 14, 2)]) :
    ∃ clean drop, (x, clean, drop) ∈ setWayOps := by
  revert x
  decide

/-- Noting a line changes its bits and no others. -/
theorem lineBit_noted (t : State) (clean drop : Bool) {line l : Nat} (hline : line < 2048) (hl : l < 2048) :
    lineBit (t.noted clean drop l).upkeep.data line = (lineBit t.upkeep.data line || (drop && decide (line = l))) ∧
    lineBit (t.noted clean drop l).upkeep.cleaned line = (lineBit t.upkeep.cleaned line || (clean && decide (line = l))) := by
  constructor
  · cases drop with
    | true => exact lineBit_withLine _ hline hl
    | false => exact (Bool.or_false _).symm
  · cases clean with
    | true => exact lineBit_withLine _ hline hl
    | false => exact (Bool.or_false _).symm

theorem lineIndex_lt (size : RamSize) {way set : Nat} (hway : way < 4) (hset : set < 2 ^ setBits size) :
    lineIndex way set < 2048 := by
  obtain ⟨n, hn, hle⟩ := two_pow_setBits size
  unfold lineIndex
  omega

/-- Settles O42: each selector names its operation (`exists_runsAt`, `exists_runsBySetWay`), each operation is its action on a line
(`DoesLine`) with what it notes, and a direct access is the RAM word that it names (`directAccess_eq`). -/
theorem cacheOperations : Obligations.CacheOperations := by
  intro c rt s v hruns hpriv hrt hv hcan
  have hop {x o t} := exec_op (t := t) (x := x) (o := o) hruns hpriv hrt hv
  refine ⟨fun hnone => ?_, fun hnone => ⟨fun e he => ?_, fun x hx => ?_⟩,
    fun hecc => ⟨fun x hx => ?_, ?_, fun e he => ?_, ?_, fun e he hbuilt way set hway hset => ?_,
      everyLine_iff .., everyLine_iff ..,
      fun hoff r w hacc => exec_ctdor hruns hpriv hrt hv hoff hacc⟩⟩
  · refine exec_icimvau_idle hruns hpriv hrt hv ((bind_ok (get_apply s)).trans ?_)
    rw [if_pos hnone]
    rfl
  · obtain ⟨drop, hmem⟩ := mem_dataOpsAt he
    obtain ⟨o, f, hsel, hruns', -⟩ := exists_runsAt hmem
    exact exec_at_idle hruns hpriv hrt hv hsel hruns' (atLine_unbuilt (s := s.maintained) hnone f)
  · obtain ⟨clean, drop, hmem⟩ := mem_setWayOps hx
    obtain ⟨o, f, hsel, hruns', -⟩ := exists_runsBySetWay hmem
    have hsets : setWaySets s.cfg.dcache = 512 := if_pos hnone
    refine ⟨fun ⟨hzero, hset⟩ => ?_, fun hbad => ?_⟩
    · exact exec_setWay_unbuilt hruns hpriv hrt hv hsel hruns' hnone hzero (by rwa [hsets])
    · exact exec_setWay_refused hruns hpriv hrt hv hsel hruns' (by rwa [hsets])
  · obtain ⟨m, hm, hperform⟩ := performOp_iciallu hecc hcan.iTag v
    refine ⟨m, hm, ?_⟩
    simp only [List.mem_cons, List.not_mem_nil, or_false] at hx
    obtain rfl | rfl := hx <;> exact hop (by decide) hperform rfl
  · rintro k set l rfl rfl rfl
    refine ⟨fun hmiss => ?_, fun way line hbuilt hit hline => ?_⟩
    · exact exec_icimvau_idle hruns hpriv hrt hv (invalidateICacheAt_miss hecc hmiss)
    · exact exec_icimvau hruns hpriv hrt hv (invalidateICacheAt_hit hecc hbuilt hit hline)
  · simp only [List.mem_cons, List.not_mem_nil, or_false] at he
    obtain rfl | rfl | rfl := he
    · simp only [Bool.true_or, Bool.and_true]
      exact hop (by decide) (performOp_bpiall v s) rfl
    · simp only [Bool.true_or, Bool.and_true]
      exact hop (by decide) (performOp_bpiall v s) rfl
    · simp only [Bool.false_or]
      exact hop (by decide) (performOp_bpimva v s) rfl
  · rintro e he k set l rfl rfl rfl
    refine ⟨fun hmiss => ?_, fun way hbuilt hit hplain => ?_⟩
    · obtain ⟨o, f, hsel, hruns', -⟩ := exists_runsAt he
      exact exec_at_idle hruns hpriv hrt hv hsel hruns' (atLine_miss (s := s.maintained) hecc hmiss f)
    · exact exec_at_line hruns hpriv hrt hv he hcan hecc hbuilt hit hplain
  · have hsets : setWaySets s.cfg.dcache = 2 ^ setBits s.cfg.dcache := if_neg hbuilt
    refine ⟨fun hbad => ?_, fun hzero hlt hplain => ?_⟩
    · obtain ⟨o, f, hsel, hruns', -⟩ := exists_runsBySetWay he
      exact exec_setWay_refused hruns hpriv hrt hv hsel hruns' (by rwa [hsets, ← hset])
    · obtain ⟨t, hdone, hexec⟩ := exec_setWay_line hruns hpriv hrt hv he hcan hecc hbuilt hzero hway hset hlt hplain
      have hindex : lineIndex way set < 2048 := lineIndex_lt _ (hway ▸ (v.extractLsb' 30 2).isLt) hlt
      refine ⟨t, _, hdone, hexec, ?_, fun line hline => ?_⟩
      · rw [← hdone.upkeep]
      · have hbits := lineBit_noted t e.2.1 e.2.2 hline hindex
        rwa [hdone.upkeep] at hbits

end Sys2Proof.Machine

/-!
# The MPU

A region decides an access when the address hits it and no higher-numbered one (`topRegion_eq_some_iff`); the lookup of an address
is said once for each of its three sources (`lookupRegion_off`, `lookupRegion_none`, `lookupRegion_some`). An access inside one
block is admitted or aborted as that block's lookup says; one that is admitted has passed in the blocks of its first and of its
last byte (`admission_ok_straddling`). An abort comes before any effect.
-/

namespace Sys2Proof.Machine

/-! ### The region that decides -/

section

variable {p : Cp15} {a : Word} {n : Nat}

/-- The regions up to one are those below it and itself. -/
theorem val_lt_succ_iff (q r : Fin 16) : q.val < r.val + 1 ↔ q < r ∨ q = r := by
  rw [Nat.lt_succ_iff, ← Fin.le_def, le_iff_lt_or_eq]

theorem topRegion_succ (r : Fin 16) :
    topRegion p a (r.val + 1) = if regionHits p a r = true then some r else topRegion p a r.val := by
  have hr : Fin.ofNat 16 r.val = r := Fin.ext (Nat.mod_eq_of_lt r.isLt)
  rw [topRegion, hr]

/-- No region decides just if none is hit. -/
theorem topRegion_eq_none_iff (hn : n ≤ 16) :
    topRegion p a n = none ↔ ∀ q : Fin 16, q.val < n → regionHits p a q = false := by
  induction n with
  | zero => simp [topRegion]
  | succ n ih =>
    obtain ⟨top, rfl⟩ : ∃ top : Fin 16, top.val = n := ⟨⟨n, hn⟩, rfl⟩
    simp only [val_lt_succ_iff, or_imp, forall_and, forall_eq, topRegion_succ]
    cases h : regionHits p a top with
    | true => simp
    | false => simpa using ih (by omega)

/-- The region that decides is hit, and none above it is (21_mpu_tcm.md R342). -/
theorem topRegion_eq_some_iff (hn : n ≤ 16) (r : Fin 16) :
    topRegion p a n = some r ↔
      r.val < n ∧ regionHits p a r = true ∧ ∀ q : Fin 16, r < q → q.val < n → regionHits p a q = false := by
  induction n with
  | zero => simp [topRegion]
  | succ n ih =>
    obtain ⟨top, rfl⟩ : ∃ top : Fin 16, top.val = n := ⟨⟨n, hn⟩, rfl⟩
    rw [topRegion_succ]
    simp only [val_lt_succ_iff]
    cases h : regionHits p a top with
    | true =>
      rw [if_pos rfl, Option.some_inj]
      constructor
      · rintro rfl
        exact ⟨.inr rfl, h, fun q hlt hq => absurd hlt (by omega)⟩
      · rintro ⟨hlt | rfl, -, habove⟩
        · exact absurd ((habove top hlt (.inr rfl)).symm.trans h) Bool.false_ne_true
        · rfl
    | false =>
      rw [if_neg Bool.false_ne_true, ih (by omega)]
      constructor
      · rintro ⟨hr, hit, habove⟩
        refine ⟨.inl hr, hit, fun q hlt hq => ?_⟩
        obtain hq | rfl := hq
        · exact habove q hlt hq
        · exact h
      · rintro ⟨hr | rfl, hit, habove⟩
        · exact ⟨hr, hit, fun q hlt hq => habove q hlt (.inl hq)⟩
        · exact absurd (h.symm.trans hit) Bool.false_ne_true

end

/-! ### The lookup of one address -/

/-- The permissions that let an access read (11_cp15_registers.md R147). -/
theorem apReads_eq (ap : Nat) (privileged : Bool) :
    apReads ap privileged = (ap == 2 || ap == 3 || ap == 6 || ((ap == 1 || ap == 5) && privileged)) := by
  unfold apReads
  split <;> simp_all

/-- The permissions that let an access write (11_cp15_registers.md R147). -/
theorem apWrites_eq (ap : Nat) (privileged : Bool) :
    apWrites ap privileged = (ap == 3 || ((ap == 1 || ap == 2) && privileged)) := by
  unfold apWrites
  split <;> simp_all

/-- What the default memory map answers (21_mpu_tcm.md R361). -/
def defaultLookup (s : State) (k : AccessKind) (a : Word) : Lookup :=
  .hit (defaultMap s k a).1 (!(k == .fetch && (defaultMap s k a).2))

/-- What the permission of a region lets an access of a kind do (11_cp15_registers.md R147). -/
def regionPermits (dracr : Word) (k : AccessKind) (privileged : Bool) : Bool :=
  let ap := (dracr.extractLsb' 8 3).toNat
  match k with
  | .read => apReads ap privileged
  | .write => apWrites ap privileged
  | .fetch => apReads ap privileged && !dracr.getLsbD 12

section

variable {s : State} {k : AccessKind} {privileged : Bool} {a : Word}

theorem lookupRegion_off (hoff : s.cp15.sctlr.getLsbD 0 = false) :
    lookupRegion s k privileged a = defaultLookup s k a := by
  unfold lookupRegion
  rw [hoff]
  rfl

/-- Where no region is hit, SCTLR.BR gives privileged accesses the default map (21_mpu_tcm.md R356). -/
theorem lookupRegion_none (hon : s.cp15.sctlr.getLsbD 0 = true) (hsize : smallRegion s.cp15 (regionCount s.cfg) = false)
    (htop : topRegion s.cp15 a (regionCount s.cfg) = none) :
    lookupRegion s k privileged a =
      if s.cp15.sctlr.getLsbD 17 = true ∧ privileged = true then defaultLookup s k a else .background := by
  unfold lookupRegion
  simp only [hon, hsize, htop, if_true, Bool.false_eq_true, if_false, Bool.and_eq_true]
  rfl

/-- The region that decides gives the attributes and the permission (21_mpu_tcm.md R342, R350). -/
theorem lookupRegion_some {r : Fin 16} {attr : Attr} (hon : s.cp15.sctlr.getLsbD 0 = true)
    (hsize : smallRegion s.cp15 (regionCount s.cfg) = false) (htop : topRegion s.cp15 a (regionCount s.cfg) = some r)
    (hattr : decodeAttr s.cp15.dracr[r] = some attr) (h4 : (s.cp15.dracr[r].extractLsb' 8 3).toNat ≠ 4)
    (h7 : (s.cp15.dracr[r].extractLsb' 8 3).toNat ≠ 7) :
    lookupRegion s k privileged a = .hit attr (regionPermits s.cp15.dracr[r] k privileged) := by
  unfold lookupRegion
  simp only [hon, hsize, htop, hattr, h4, h7, if_true, Bool.false_eq_true, if_false, or_self]
  rfl

/-- A TCM gives its own attributes; the permission stays (21_mpu_tcm.md R350, R380). -/
theorem lookup_of_hit {attr : Attr} {permitted : Bool} (h : lookupRegion s k privileged a = .hit attr permitted) :
    lookup s k privileged a = .hit (if tcmServes s k a then normalNc false else attr) permitted := by
  rw [lookup, h]

theorem lookup_of_background (h : lookupRegion s k privileged a = .background) :
    lookup s k privileged a = .background := by
  rw [lookup, h]

/-- A lookup that hits has hit before the TCM override. -/
theorem lookup_hit_cases {attr : Attr} {permitted : Bool} (h : lookup s k privileged a = .hit attr permitted) :
    ∃ x, lookupRegion s k privileged a = .hit x permitted := by
  cases hr : lookupRegion s k privileged a with
  | hit x b =>
    rw [lookup_of_hit hr, Lookup.hit.injEq] at h
    exact ⟨x, by rw [h.2]⟩
  | background => rw [lookup_of_background hr] at h; cases h
  | refused r => rw [lookup, hr] at h; cases h

end

/-! ### The check of one block and of two -/

/-- A check that passes has passed in both blocks (21_mpu_tcm.md R350). -/
theorem checkBlocks_ok_cases {aligned : Bool} {first last : Lookup} {attr : Attr}
    (h : checkBlocks aligned first last = .ok attr) : first = .hit attr true ∧ ∃ y, last = .hit y true := by
  unfold checkBlocks at h
  split at h
  case h_1 | h_2 => cases h
  split at h
  · cases h
  split at h
  case h_2 => cases h
  case h_1 =>
    split at h
    next hbc =>
      obtain ⟨rfl, rfl⟩ := Bool.and_eq_true_iff.mp hbc
      cases h
      exact ⟨rfl, _, rfl⟩
    next => cases h

section

variable {s : State} {k : AccessKind} {privileged : Bool} {a : Word} {size : Nat}

/-- The last byte of an access that does not pass the end of the address space. -/
theorem toNat_lastByte (hend : a.toNat + size ≤ 2 ^ 32) :
    (a + BitVec.ofNat 32 (size - 1)).toNat = a.toNat + (size - 1) := by
  have := a.isLt
  rw [BitVec.toNat_add, BitVec.toNat_ofNat]
  omega

/-- An aligned access does not pass the end of the address space. -/
theorem end_le_of_aligned (hsize : size ∈ [1, 2, 4, 8]) (hal : a.toNat % size = 0) : a.toNat + size ≤ 2 ^ 32 := by
  have := a.isLt
  simp only [List.mem_cons, List.not_mem_nil, or_false] at hsize
  obtain rfl | rfl | rfl | rfl := hsize <;> omega

/-- An aligned access lies in one block, whose lookup decides alone. -/
theorem checkAccess_of_aligned (hsize : size ∈ [1, 2, 4, 8]) (hal : a.toNat % size = 0) :
    checkAccess s k privileged a size = checkBlocks true (lookup s k privileged a) (lookup s k privileged a) := by
  have hblock : a.toNat / 32 = (a + BitVec.ofNat 32 (size - 1)).toNat / 32 := by
    rw [toNat_lastByte (end_le_of_aligned hsize hal)]
    simp only [List.mem_cons, List.not_mem_nil, or_false] at hsize
    obtain rfl | rfl | rfl | rfl := hsize <;> omega
  simp only [checkAccess, if_pos hblock, hal]
  rfl

theorem checkAccess_denied (hsize : size ∈ [1, 2, 4, 8]) (hal : a.toNat % size = 0) {attr : Attr}
    (h : lookupRegion s k privileged a = .hit attr false) :
    checkAccess s k privileged a size = .error (.fault .permission) := by
  rw [checkAccess_of_aligned hsize hal, lookup_of_hit h]
  rfl

theorem checkAccess_background (hsize : size ∈ [1, 2, 4, 8]) (hal : a.toNat % size = 0)
    (h : lookupRegion s k privileged a = .background) :
    checkAccess s k privileged a size = .error (.fault .background) := by
  rw [checkAccess_of_aligned hsize hal, lookup_of_background h]
  rfl

theorem checkAccess_permitted (hsize : size ∈ [1, 2, 4, 8]) (hal : a.toNat % size = 0) {attr : Attr}
    (h : lookupRegion s k privileged a = .hit attr true) :
    checkAccess s k privileged a size = .ok (if tcmServes s k a then normalNc false else attr) := by
  rw [checkAccess_of_aligned hsize hal, lookup_of_hit h]
  rfl

/-- An access that passes has passed in the block of its first byte, and in that of its last byte where that is another. -/
theorem checkAccess_ok_cases {attr : Attr} (h : checkAccess s k privileged a size = .ok attr) :
    (∃ x, lookupRegion s k privileged a = .hit x true) ∧
      (a.toNat / 32 ≠ (a + BitVec.ofNat 32 (size - 1)).toNat / 32 →
        ∃ y, lookupRegion s k privileged (a + BitVec.ofNat 32 (size - 1)) = .hit y true) := by
  obtain ⟨hfirst, y, hlast⟩ := checkBlocks_ok_cases h
  refine ⟨lookup_hit_cases hfirst, fun hblocks => ?_⟩
  rw [if_neg hblocks] at hlast
  exact lookup_hit_cases hlast

end

/-! ### Admission and its aborts -/

section

variable {s : State} {k : AccessKind} {acc : Access} {a : Word}

/-- An access that fails its check is a Data Abort with the status of the failure (60_exceptions.md R524). -/
theorem admission_fault (hal : a.toNat % acc.align = 0) (hend : a.toNat + acc.size ≤ 2 ^ 32) {f : FaultStatus}
    (h : checkAccess s k acc.privileged a acc.size = .error (.fault f)) :
    admission k acc a s = .error (.dataAbort f (k == .write) a) := by
  simp only [admission, if_neg (not_not_intro hal), if_neg (Nat.not_lt.mpr hend), h]

theorem admission_ok (hal : a.toNat % acc.align = 0) (hend : a.toNat + acc.size ≤ 2 ^ 32) {attr : Attr}
    (h : checkAccess s k acc.privileged a acc.size = .ok attr) : admission k acc a s = .ok attr := by
  simp only [admission, if_neg (not_not_intro hal), if_neg (Nat.not_lt.mpr hend), h]

/-- An admitted access does not pass the end of the address space, and has passed its check. -/
theorem admission_ok_cases {attr : Attr} (h : admission k acc a s = .ok attr) :
    a.toNat + acc.size ≤ 2 ^ 32 ∧ checkAccess s k acc.privileged a acc.size = .ok attr := by
  unfold admission at h
  split at h
  · cases h
  split at h
  · cases h
  next hend =>
    refine ⟨Nat.not_lt.mp hend, ?_⟩
    split at h
    · cases h
    · cases h
    · cases h
      assumption

/-- An admitted access that straddles two blocks has passed in both (21_mpu_tcm.md R350). -/
theorem admission_ok_straddling {attr : Attr} (h : admission k acc a s = .ok attr)
    (hblocks : a.toNat / 32 ≠ (a.toNat + acc.size - 1) / 32) :
    ∃ x y, lookupRegion s k acc.privileged a = .hit x true ∧
      lookupRegion s k acc.privileged (a + BitVec.ofNat 32 (acc.size - 1)) = .hit y true := by
  obtain ⟨hend, hcheck⟩ := admission_ok_cases h
  obtain ⟨⟨x, hx⟩, hlast⟩ := checkAccess_ok_cases hcheck
  by_cases hzero : acc.size = 0
  · exact ⟨x, x, hx, by simpa [hzero] using hx⟩
  · obtain ⟨y, hy⟩ := hlast (by rwa [toNat_lastByte hend, ← Nat.add_sub_assoc (by omega)])
    exact ⟨x, y, hx, hy⟩

/-- A load that is not admitted has no effect (21_mpu_tcm.md R352). -/
theorem loadValue_of_admission_error {e : Stop} (h : admission .read acc a s = .error e) : loadValue acc a s = .error e s := by
  have hr : readBytes acc a s = .error e s := by rw [readBytes, h]
  exact (bind_ok (get_apply s)).trans (bind_error hr)

/-- A store that is not admitted has no effect (21_mpu_tcm.md R352). -/
theorem storeValue_of_admission_error {e : Stop} (h : admission .write acc a s = .error e) (v : Word) :
    storeValue acc a v s = .error e s := by
  refine (bind_ok (get_apply s)).trans ?_
  rw [writeBytes, h]

/-- A fetch that fails its check reports the failure, for the Prefetch Abort of the instruction, and has no effect
(60_exceptions.md R524). -/
theorem fetchWord_fault {f : FaultStatus} (h : checkAccess s .fetch s.privileged a 4 = .error (.fault f)) :
    fetchWord a s = .ok (.error f) s := by
  have hs : fetchServed a s = .ok (.error f) s := by rw [fetchServed, h]
  exact (bind_ok hs).trans (bind_ok (get_apply s))

end

/-- Settles O57: the region that decides by its place (`topRegion_eq_some_iff`), each source of a lookup by its lemma, an access
inside one block by the check of that block, one that straddles two by `admission_ok_straddling`. -/
theorem highestRegionDecides : Obligations.HighestRegionDecides := by
  refine ⟨fun p a n hn => ⟨topRegion_eq_some_iff hn, topRegion_eq_none_iff hn⟩,
    fun s k privileged a r attr hon hsize htop hattr => ?_, ?_, fun s k acc a hk halign => ⟨fun hsize hal => ⟨?_, ?_, ?_⟩, ?_⟩,
    fun s acc a v e => ⟨loadValue_of_admission_error, fun h => storeValue_of_admission_error h v⟩,
    fun s a hal => ⟨fun attr h => ?_, fun h => ?_⟩, rfl, rfl⟩
  · intro ap h4 h7
    rw [lookupRegion_some hon hsize htop hattr h4 h7]
    cases k <;> simp only [regionPermits, apReads_eq, apWrites_eq, ap]
  · rintro s k privileged a m rfl
    exact ⟨lookupRegion_off, lookupRegion_none⟩
  · exact fun attr h => admission_fault halign (end_le_of_aligned hsize hal) (checkAccess_denied hsize hal h)
  · exact fun h => admission_fault halign (end_le_of_aligned hsize hal) (checkAccess_background hsize hal h)
  · intro attr h
    have hserves : tcmServes s k a = (inItcm s a || inDtcm s a) := by
      rw [tcmServes, bne_iff_ne.mpr hk, Bool.true_and]
    rw [admission_ok halign (end_le_of_aligned hsize hal) (checkAccess_permitted hsize hal h), hserves]
  · exact fun attr => admission_ok_straddling
  · exact fetchWord_fault (checkAccess_denied (by decide) hal h)
  · exact fetchWord_fault (checkAccess_background (by decide) hal h)

end Sys2Proof.Machine

/-!
# Decoding and encoding

An instruction's word matches its own row (`encodesToItself`). That no earlier row takes the word is said once for the table, pair
by pair of its rows (`rows_pairwise`), and once for the words that two rows share (`not_claimed_shared`), which are what
`WellFormed` leaves out. The conditional instructions, by their rows, follow.
-/

namespace Sys2Proof.Laws

open Sys2Proof Sys2Proof.Machine

/-! ### Rows that share words -/

/-- No word matches both rows: at some bit both masks keep, the values differ. -/
def apart (r s : Row) : Bool := (r.value ^^^ s.value) &&& (r.mask &&& s.mask) != 0

/-- Every word that matches the row is claimed by one of these (mask, match) pairs. -/
def coveredBy (claims : List (Word × Word)) (r : Row) : Bool :=
  claims.any fun e => r.mask &&& e.1 == e.1 && r.value &&& e.1 == e.2

theorem not_match_of_apart {r s : Row} (h : apart r s = true) {w : Word} (hs : w &&& s.mask = s.value) :
    w &&& r.mask ≠ r.value := by
  intro hr
  refine bne_iff_ne.mp h (BitVec.eq_of_getLsbD_eq fun k _ => ?_)
  rw [← hr, ← hs]
  simp only [BitVec.getLsbD_and, BitVec.getLsbD_xor]
  grind

theorem claimed_of_coveredBy {claims : List (Word × Word)} {r : Row} (h : coveredBy claims r = true) {w : Word}
    (hr : w &&& r.mask = r.value) : claimed claims w = true := by
  obtain ⟨e, he, hcov⟩ := List.any_eq_true.mp h
  obtain ⟨hmask, hvalue⟩ := Bool.and_eq_true_iff.mp hcov
  refine List.any_eq_true.mpr ⟨e, he, beq_iff_eq.mpr ?_⟩
  calc w &&& e.1 = w &&& r.mask &&& e.1 := by rw [BitVec.and_assoc, beq_iff_eq.mp hmask]
    _ = e.2 := by rw [hr, beq_iff_eq.mp hvalue]

/-- The (mask, match) pairs that claim, of the words of a row, those of an earlier row; `WellFormed` leaves them out. A row has
the number that `rowOf` gives its instruction. -/
def sharedClaims : Nat → List (Word × Word)
  | 18 => unconditionalRows  -- the rest of the unconditional space
  | 24 => [(0x0FFFFFFF#32, 0x0320F000#32), (0x0FFFFFFF#32, 0x0320F001#32), (0x0FFFFFFF#32, 0x0320F002#32),
      (0x0FFFFFFF#32, 0x0320F003#32), (0x0FFFFFFF#32, 0x0320F004#32)]  -- the unallocated hints and the others
  | 25 => [(0x0FFFFF00#32, 0x0320F000#32)]  -- MSR (immediate) and the hints
  | 66 => [(0x0FE0007F#32, 0x07C0001F#32)]  -- BFI and BFC
  | 121 => [(0x0FEF0FF0#32, 0x01A00000#32)]  -- LSL by 0 and MOV
  | 124 => [(0x0FEF0FF0#32, 0x01A00060#32)]  -- ROR by 0 and RRX
  | 145 => [(0x0FFF0000#32, 0x08BD0000#32)]  -- LDM and POP
  | 146 => [(0x0FFF0000#32, 0x092D0000#32)]  -- STM and PUSH
  | 152 => [(0x0FE00FFF#32, 0x0EE00A10#32)]  -- VMRS and VMSR
  | 182 => [(0x0FBF0E00#32, 0x0CBD0A00#32)]  -- VLDM and VPOP
  | 185 => [(0x0FBF0E00#32, 0x0D2D0A00#32)]  -- VSTM and VPUSH
  | 191 => vfpRows  -- the rest of the VFP space
  | 192 => otherCoprocRows  -- the other coprocessors
  | _ => []

/-- With the unconditional space, whose rows come first: a later row has none of its words. -/
def earlierClaims (n : Nat) : List (Word × Word) :=
  if n < 19 then sharedClaims n else (0xF0000000#32, 0xF0000000#32) :: sharedClaims n

set_option maxRecDepth 20000 in
/-- Of two rows of the table either no word matches both, or the words of the earlier one are left out of the later one. -/
theorem rows_pairwise : rows.zipIdx.Pairwise fun r s => apart r.1 s.1 || coveredBy (earlierClaims s.2) r.1 := by
  decide

/-! ### The first row that matches -/

/-- The search stops at a row that matches when no row before it does. -/
theorem findRow_of_first {w : Word} {l : List Row} {n : Nat} {r : Row} (hr : l[n]? = some r) (hm : w &&& r.mask = r.value)
    (hfirst : ∀ k < n, ∀ q, l[k]? = some q → w &&& q.mask ≠ q.value) : findRow w l = some (r.build w) := by
  induction l generalizing n with
  | nil => cases hr
  | cons q l ih =>
    cases n with
    | zero =>
      cases hr
      exact if_pos hm
    | succ n =>
      rw [findRow, if_neg (hfirst 0 n.succ_pos q rfl)]
      exact ih hr fun k hk => hfirst (k + 1) (Nat.succ_lt_succ hk)

/-- A word that matches a row, and is claimed by none of the pairs that earlier rows share with it, decodes by that row. -/
theorem decode_of_not_claimed {w : Word} {n : Nat} {r : Row} (hr : rows[n]? = some r) (hm : w &&& r.mask = r.value)
    (hc : claimed (earlierClaims n) w = false) : decode w = .ok (r.build w) := by
  have hfirst : ∀ k < n, ∀ q, rows[k]? = some q → w &&& q.mask ≠ q.value := by
    intro k hk q hq hmatch
    obtain ⟨hn, rfl⟩ := List.getElem?_eq_some_iff.mp hr
    obtain ⟨hk', rfl⟩ := List.getElem?_eq_some_iff.mp hq
    have hpair := List.pairwise_iff_getElem.mp rows_pairwise k n (by simpa using hk') (by simpa using hn) hk
    simp only [List.getElem_zipIdx, Nat.zero_add, Bool.or_eq_true] at hpair
    rcases hpair with hapart | hcovered
    · exact not_match_of_apart hapart hm hmatch
    · rw [claimed_of_coveredBy hcovered hmatch] at hc
      cases hc
  rw [decode, findRow_of_first hr hm hfirst]

/-! ### Conditional instructions -/

/-- An instruction past the unconditional space has its condition in the top four bits of its word, and does no more than advance
the pc when the condition fails (30_encoding.md R403). BKPT has the condition AL (R421). -/
theorem conditional_of_row {i : Instr} (h : 19 ≤ rowOf i) :
    ∃ c, LedBy c (encode i) ∧ ∀ s, condPassed c s.cpsr = false → exec i s = finish (fallThrough s) := by
  cases i
  case clrex | dsb | dmb | isb | setend | cps | rfe | srs | pldImm | pldwImm | pliImm | pldReg | pldwReg | pliReg | blxImm
      | advSimdDataProcessing | advSimdLoadStore | coprocTwoSpace | restOfUnconditional => simp [rowOf] at h
  case bkpt imm12 imm4 =>
    refine ⟨.al, ?_, fun s hs => nomatch hs⟩
    show LedBy .al (Cond.al.bits ++ 0x12#8 ++ imm12 ++ 0x7#4 ++ imm4)
    repeat constructor
  case svc c imm24 => exact ⟨c, by repeat constructor, fun s hs => (if_neg (by simp [hs])).trans (conditional_failed hs _)⟩
  all_goals exact ⟨_, by repeat constructor, fun _ hs => conditional_failed hs _⟩

/-- Every instruction's word matches its own row, which builds it from the word. -/
theorem encodesToItself (i : Instr) : EncodesToItself.Statement i := by
  cases i with
  | clrex => apply EncodesToItself.clrex
  | dsb => apply EncodesToItself.dsb
  | dmb => apply EncodesToItself.dmb
  | isb => apply EncodesToItself.isb
  | setend => apply EncodesToItself.setend
  | cps => apply EncodesToItself.cps
  | rfe => apply EncodesToItself.rfe
  | srs => apply EncodesToItself.srs
  | pldImm => apply EncodesToItself.pldImm
  | pldwImm => apply EncodesToItself.pldwImm
  | pliImm => apply EncodesToItself.pliImm
  | pldReg => apply EncodesToItself.pldReg
  | pldwReg => apply EncodesToItself.pldwReg
  | pliReg => apply EncodesToItself.pliReg
  | blxImm => apply EncodesToItself.blxImm
  | advSimdDataProcessing => apply EncodesToItself.advSimdDataProcessing
  | advSimdLoadStore => apply EncodesToItself.advSimdLoadStore
  | coprocTwoSpace => apply EncodesToItself.coprocTwoSpace
  | restOfUnconditional => apply EncodesToItself.restOfUnconditional
  | nop => apply EncodesToItself.nop
  | yield => apply EncodesToItself.yield
  | wfe => apply EncodesToItself.wfe
  | wfi => apply EncodesToItself.wfi
  | sev => apply EncodesToItself.sev
  | hintUnallocated => apply EncodesToItself.hintUnallocated
  | msrImm => apply EncodesToItself.msrImm
  | bkpt => apply EncodesToItself.bkpt
  | smc => apply EncodesToItself.smc
  | bx => apply EncodesToItself.bx
  | blxReg => apply EncodesToItself.blxReg
  | clz => apply EncodesToItself.clz
  | mrs => apply EncodesToItself.mrs
  | msrReg => apply EncodesToItself.msrReg
  | ldrex => apply EncodesToItself.ldrex
  | strex => apply EncodesToItself.strex
  | ldrexd => apply EncodesToItself.ldrexd
  | strexd => apply EncodesToItself.strexd
  | ldrexb => apply EncodesToItself.ldrexb
  | strexb => apply EncodesToItself.strexb
  | ldrexh => apply EncodesToItself.ldrexh
  | strexh => apply EncodesToItself.strexh
  | swp => apply EncodesToItself.swp
  | swpb => apply EncodesToItself.swpb
  | mul => apply EncodesToItself.mul
  | mla => apply EncodesToItself.mla
  | mls => apply EncodesToItself.mls
  | umull => apply EncodesToItself.umull
  | umlal => apply EncodesToItself.umlal
  | smull => apply EncodesToItself.smull
  | smlal => apply EncodesToItself.smlal
  | strhImm => apply EncodesToItself.strhImm
  | strhReg => apply EncodesToItself.strhReg
  | ldrhImm => apply EncodesToItself.ldrhImm
  | ldrhReg => apply EncodesToItself.ldrhReg
  | ldrsbImm => apply EncodesToItself.ldrsbImm
  | ldrsbReg => apply EncodesToItself.ldrsbReg
  | ldrshImm => apply EncodesToItself.ldrshImm
  | ldrshReg => apply EncodesToItself.ldrshReg
  | ldrdImm => apply EncodesToItself.ldrdImm
  | ldrdReg => apply EncodesToItself.ldrdReg
  | strdImm => apply EncodesToItself.strdImm
  | strdReg => apply EncodesToItself.strdReg
  | udf => apply EncodesToItself.udf
  | sdiv => apply EncodesToItself.sdiv
  | udiv => apply EncodesToItself.udiv
  | bfc => apply EncodesToItself.bfc
  | bfi => apply EncodesToItself.bfi
  | ubfx => apply EncodesToItself.ubfx
  | sbfx => apply EncodesToItself.sbfx
  | rev => apply EncodesToItself.rev
  | rev16 => apply EncodesToItself.rev16
  | revsh => apply EncodesToItself.revsh
  | rbit => apply EncodesToItself.rbit
  | uxtb => apply EncodesToItself.uxtb
  | uxth => apply EncodesToItself.uxth
  | sxtb => apply EncodesToItself.sxtb
  | sxth => apply EncodesToItself.sxth
  | movw => apply EncodesToItself.movw
  | movt => apply EncodesToItself.movt
  | andImm => apply EncodesToItself.andImm
  | andReg => apply EncodesToItself.andReg
  | andRsr => apply EncodesToItself.andRsr
  | eorImm => apply EncodesToItself.eorImm
  | eorReg => apply EncodesToItself.eorReg
  | eorRsr => apply EncodesToItself.eorRsr
  | subImm => apply EncodesToItself.subImm
  | subReg => apply EncodesToItself.subReg
  | subRsr => apply EncodesToItself.subRsr
  | rsbImm => apply EncodesToItself.rsbImm
  | rsbReg => apply EncodesToItself.rsbReg
  | rsbRsr => apply EncodesToItself.rsbRsr
  | addImm => apply EncodesToItself.addImm
  | addReg => apply EncodesToItself.addReg
  | addRsr => apply EncodesToItself.addRsr
  | adcImm => apply EncodesToItself.adcImm
  | adcReg => apply EncodesToItself.adcReg
  | adcRsr => apply EncodesToItself.adcRsr
  | sbcImm => apply EncodesToItself.sbcImm
  | sbcReg => apply EncodesToItself.sbcReg
  | sbcRsr => apply EncodesToItself.sbcRsr
  | rscImm => apply EncodesToItself.rscImm
  | rscReg => apply EncodesToItself.rscReg
  | rscRsr => apply EncodesToItself.rscRsr
  | tstImm => apply EncodesToItself.tstImm
  | tstReg => apply EncodesToItself.tstReg
  | tstRsr => apply EncodesToItself.tstRsr
  | teqImm => apply EncodesToItself.teqImm
  | teqReg => apply EncodesToItself.teqReg
  | teqRsr => apply EncodesToItself.teqRsr
  | cmpImm => apply EncodesToItself.cmpImm
  | cmpReg => apply EncodesToItself.cmpReg
  | cmpRsr => apply EncodesToItself.cmpRsr
  | cmnImm => apply EncodesToItself.cmnImm
  | cmnReg => apply EncodesToItself.cmnReg
  | cmnRsr => apply EncodesToItself.cmnRsr
  | orrImm => apply EncodesToItself.orrImm
  | orrReg => apply EncodesToItself.orrReg
  | orrRsr => apply EncodesToItself.orrRsr
  | movImm => apply EncodesToItself.movImm
  | movReg => apply EncodesToItself.movReg
  | rrx => apply EncodesToItself.rrx
  | lslImm => apply EncodesToItself.lslImm
  | lsrImm => apply EncodesToItself.lsrImm
  | asrImm => apply EncodesToItself.asrImm
  | rorImm => apply EncodesToItself.rorImm
  | lslReg => apply EncodesToItself.lslReg
  | lsrReg => apply EncodesToItself.lsrReg
  | asrReg => apply EncodesToItself.asrReg
  | rorReg => apply EncodesToItself.rorReg
  | bicImm => apply EncodesToItself.bicImm
  | bicReg => apply EncodesToItself.bicReg
  | bicRsr => apply EncodesToItself.bicRsr
  | mvnImm => apply EncodesToItself.mvnImm
  | mvnReg => apply EncodesToItself.mvnReg
  | mvnRsr => apply EncodesToItself.mvnRsr
  | ldrImm => apply EncodesToItself.ldrImm
  | ldrReg => apply EncodesToItself.ldrReg
  | strImm => apply EncodesToItself.strImm
  | strReg => apply EncodesToItself.strReg
  | ldrbImm => apply EncodesToItself.ldrbImm
  | ldrbReg => apply EncodesToItself.ldrbReg
  | strbImm => apply EncodesToItself.strbImm
  | strbReg => apply EncodesToItself.strbReg
  | pop => apply EncodesToItself.pop
  | push => apply EncodesToItself.push
  | ldm => apply EncodesToItself.ldm
  | stm => apply EncodesToItself.stm
  | b => apply EncodesToItself.b
  | bl => apply EncodesToItself.bl
  | svc => apply EncodesToItself.svc
  | vmrs => apply EncodesToItself.vmrs
  | vmsr => apply EncodesToItself.vmsr
  | vmrsVmsrSbz => apply EncodesToItself.vmrsVmsrSbz
  | mrcP15 => apply EncodesToItself.mrcP15
  | mcrP15 => apply EncodesToItself.mcrP15
  | mrcP14 => apply EncodesToItself.mrcP14
  | mcrP14 => apply EncodesToItself.mcrP14
  | vmla => apply EncodesToItself.vmla
  | vmls => apply EncodesToItself.vmls
  | vnmls => apply EncodesToItself.vnmls
  | vnmla => apply EncodesToItself.vnmla
  | vmul => apply EncodesToItself.vmul
  | vnmul => apply EncodesToItself.vnmul
  | vadd => apply EncodesToItself.vadd
  | vsub => apply EncodesToItself.vsub
  | vdiv => apply EncodesToItself.vdiv
  | vmovImm => apply EncodesToItself.vmovImm
  | vmovReg => apply EncodesToItself.vmovReg
  | vabs => apply EncodesToItself.vabs
  | vneg => apply EncodesToItself.vneg
  | vsqrt => apply EncodesToItself.vsqrt
  | vcvtbVcvtt => apply EncodesToItself.vcvtbVcvtt
  | vcmpReg => apply EncodesToItself.vcmpReg
  | vcmpZero => apply EncodesToItself.vcmpZero
  | vcvtDoubleSingle => apply EncodesToItself.vcvtDoubleSingle
  | vcvtIntToFp => apply EncodesToItself.vcvtIntToFp
  | vcvtFpToInt => apply EncodesToItself.vcvtFpToInt
  | vcvtFixed => apply EncodesToItself.vcvtFixed
  | vldr => apply EncodesToItself.vldr
  | vstr => apply EncodesToItself.vstr
  | vpop => apply EncodesToItself.vpop
  | vpush => apply EncodesToItself.vpush
  | vldmIa => apply EncodesToItself.vldmIa
  | vldmDb => apply EncodesToItself.vldmDb
  | vstmIa => apply EncodesToItself.vstmIa
  | vstmDb => apply EncodesToItself.vstmDb
  | vmovCoreSingle => apply EncodesToItself.vmovCoreSingle
  | vmovCoreTwoSingles => apply EncodesToItself.vmovCoreTwoSingles
  | vmovCoreDouble => apply EncodesToItself.vmovCoreDouble
  | vmovCoreToHalf => apply EncodesToItself.vmovCoreToHalf
  | vmovHalfToCore => apply EncodesToItself.vmovHalfToCore
  | vfpUnallocated => apply EncodesToItself.vfpUnallocated
  | otherCoproc => apply EncodesToItself.otherCoproc

/-- The row of an instruction builds it from its word. -/
theorem build_encode {i : Instr} {r : Row} (hr : rows[rowOf i]? = some r) : r.build (encode i) = i := by
  obtain ⟨r', hr', -, hbuild⟩ := encodesToItself i
  obtain rfl := Option.some.inj (hr.symm.trans hr')
  exact hbuild

/-! ### Words that an earlier row claims -/

/-- A field of a word that the mask keeps is the one of the masked word. -/
theorem field_eq_of_and_eq {w v m : Word} {start len : Nat} {x : BitVec len} (hx : w.extractLsb' start len = x)
    (h : w &&& m = v) (hm : m.extractLsb' start len = BitVec.allOnes len) : x = v.extractLsb' start len :=
  hx.symm.trans (extractLsb'_eq_of_and_eq h hm)

/-- A bit of a word that the mask keeps is the one of the masked word. -/
theorem bit_eq_of_and_eq {w v m : Word} {k : Nat} {b : Bool} (hb : w.getLsbD k = b) (h : w &&& m = v)
    (hm : m.getLsbD k = true) : b = v.getLsbD k := by
  rw [← hb, ← h, BitVec.getLsbD_and, hm, Bool.and_true]

theorem not_claimed_singleton {e : Word × Word} {w : Word} (h : w &&& e.1 ≠ e.2) : claimed [e] w = false :=
  List.any_eq_false.mpr (List.forall_mem_singleton.mpr fun heq => h (beq_iff_eq.mp heq))

/-- Pairs that ignore the condition claim a word whatever its condition. -/
theorem not_claimed_of_and_eq {claims : List (Word × Word)} (hclaims : ∀ e ∈ claims, 0x0FFFFFFF#32 &&& e.1 = e.1)
    {w w' : Word} (h : w &&& 0x0FFFFFFF#32 = w' &&& 0x0FFFFFFF#32) (hw' : claimed claims w' = false) :
    claimed claims w = false := by
  refine List.any_eq_false.mpr fun e he heq => List.any_eq_false.mp hw' e he (beq_iff_eq.mpr ?_)
  rw [← beq_iff_eq.mp heq, ← hclaims e he, ← BitVec.and_assoc, ← BitVec.and_assoc, h]

/-- No hint with a row of its own is an unallocated hint (30_encoding.md R413). -/
theorem not_claimed_hint {w : Word} (h : 5 ≤ (w.extractLsb' 0 8).toNat) : claimed (sharedClaims 24) w = false := by
  have hclaims : ∀ e ∈ sharedClaims 24, e.1.extractLsb' 0 8 = BitVec.allOnes 8 ∧ (e.2.extractLsb' 0 8).toNat < 5 := by
    simp [sharedClaims]
  refine List.any_eq_false.mpr fun e he heq => ?_
  obtain ⟨hmask, hlt⟩ := hclaims e he
  rw [extractLsb'_eq_of_and_eq (beq_iff_eq.mp heq) hmask] at h
  omega

/-- The earlier rows that share words with the row of a well-formed instruction leave it its word: with the fields of a shared
word the instruction would not be well formed. -/
theorem not_claimed_shared {i : Instr} (h : WellFormed i) : claimed (sharedClaims (rowOf i)) (encode i) = false := by
  obtain ⟨r, hr, -, hi⟩ := encodesToItself i
  cases i
  case restOfUnconditional => exact of_decide_eq_true h
  case hintUnallocated c hint8 =>
    refine not_claimed_hint (le_of_le_of_eq (of_decide_eq_true h) ?_)
    exact congrArg BitVec.toNat (ext_right (join c.bits 0x320f0#20) hint8).symm
  case msrImm c r mask4 imm12 =>
    obtain rfl := Option.some.inj hr
    injection hi with _ hspsr hmask
    have himm : (encode (.msrImm c r mask4 imm12)).extractLsb' 8 4 = imm12.extractLsb' 8 4 :=
      BitVec.extractLsb'_append_eq_of_add_le (by decide)
    refine not_claimed_singleton fun heq => of_decide_eq_true h ?_
    exact ⟨bit_eq_of_and_eq hspsr heq (by decide), field_eq_of_and_eq hmask heq (by decide),
      field_eq_of_and_eq himm heq (by decide)⟩
  case bfi =>
    obtain rfl := Option.some.inj hr
    injection hi with _ _ _ _ hn
    exact not_claimed_singleton fun heq => of_decide_eq_true h (field_eq_of_and_eq hn heq (by decide))
  case lslImm | rorImm =>
    obtain rfl := Option.some.inj hr
    injection hi with _ _ _ himm
    exact not_claimed_singleton fun heq => of_decide_eq_true h (field_eq_of_and_eq himm heq (by decide))
  case ldm | stm =>
    obtain rfl := Option.some.inj hr
    injection hi with _ hp hu hs hw hn
    refine not_claimed_singleton fun heq => of_decide_eq_true h ?_
    exact ⟨bit_eq_of_and_eq hp heq (by decide), bit_eq_of_and_eq hu heq (by decide), bit_eq_of_and_eq hs heq (by decide),
      bit_eq_of_and_eq hw heq (by decide), field_eq_of_and_eq hn heq (by decide)⟩
  case vmrsVmsrSbz =>
    obtain rfl := Option.some.inj hr
    injection hi with _ _ _ _ hhigh hlow
    refine not_claimed_singleton fun heq => of_decide_eq_true h ?_
    exact ⟨field_eq_of_and_eq hhigh heq (by decide), field_eq_of_and_eq hlow heq (by decide)⟩
  case vldmIa =>
    obtain rfl := Option.some.inj hr
    injection hi with _ _ hw hn
    refine not_claimed_singleton fun heq => of_decide_eq_true h ?_
    exact ⟨bit_eq_of_and_eq hw heq (by decide), field_eq_of_and_eq hn heq (by decide)⟩
  case vstmDb =>
    obtain rfl := Option.some.inj hr
    injection hi with _ _ hn
    exact not_claimed_singleton fun heq => of_decide_eq_true h (field_eq_of_and_eq hn heq (by decide))
  case vfpUnallocated c rest rest1 =>
    refine not_claimed_of_and_eq (claims := vfpRows) (by simp [vfpRows]) ?_ (of_decide_eq_true h)
    have hlow (cond : BitVec 4) :
        join (join (join (join cond 0x3#2) rest) 0x5#3) rest1 &&&
          join (join (join (join 0x0#4 (BitVec.allOnes 2)) (BitVec.allOnes 14)) (BitVec.allOnes 3)) (BitVec.allOnes 9) =
        join (join (join (join 0x0#4 0x3#2) rest) 0x5#3) rest1 := by
      simp only [and_parts, BitVec.and_zero, BitVec.and_allOnes]
    exact (hlow c.bits).trans (hlow 0xE#4).symm
  case otherCoproc c rest coproc rest1 =>
    refine not_claimed_of_and_eq (claims := otherCoprocRows) (by simp [otherCoprocRows]) ?_ (of_decide_eq_true h)
    have hlow (cond : BitVec 4) :
        join (join (join (join cond 0x3#2) rest) coproc) rest1 &&&
          join (join (join (join 0x0#4 (BitVec.allOnes 2)) (BitVec.allOnes 14)) (BitVec.allOnes 4)) (BitVec.allOnes 8) =
        join (join (join (join 0x0#4 0x3#2) rest) coproc) rest1 := by
      simp only [and_parts, BitVec.and_zero, BitVec.and_allOnes]
    exact (hlow c.bits).trans (hlow 0xE#4).symm
  all_goals rfl

/-- A word that begins with a condition lies outside the unconditional space (30_encoding.md R403). -/
theorem not_unconditional_of_ledBy {c : Cond} {w : Word} (h : LedBy c w) :
    claimed [(0xF0000000#32, 0xF0000000#32)] w = false := by
  have hbits : c.bits ≠ 15 := by cases c <;> decide
  exact not_claimed_singleton fun heq => hbits (field_eq_of_and_eq h.topField.2 heq (by decide))

/-- No earlier row claims the word of a well-formed instruction. -/
theorem not_claimed_earlier {i : Instr} (h : WellFormed i) : claimed (earlierClaims (rowOf i)) (encode i) = false := by
  unfold earlierClaims
  split
  · exact not_claimed_shared h
  next hrow =>
    obtain ⟨c, hled, -⟩ := conditional_of_row (Nat.not_lt.mp hrow)
    have hspace := not_unconditional_of_ledBy hled
    have hshared := not_claimed_shared h
    unfold claimed at hspace hshared ⊢
    rw [List.any_cons, hshared]
    exact hspace

/-- Settles O1: the word of an instruction matches its own row, which reads the instruction back, and no earlier row claims it. -/
theorem decodeOfEncode : Obligations.DecodeOfEncode := by
  intro i h
  obtain ⟨r, hr, hmatch, hbuild⟩ := encodesToItself i
  rw [decode_of_not_claimed hr hmatch (not_claimed_earlier h), hbuild]

/-- Settles O2: each word is the encoding of a well-formed instruction. -/
theorem specWordsDecode : Obligations.SpecWordsDecode :=
  ⟨decodeOfEncode (.movImm .al false 0 1 0 5) rfl, decodeOfEncode (.addReg .al false 2 1 0 .lsl 3) rfl,
    decodeOfEncode (.ldrImm .al true true false 1 2 8) rfl, decodeOfEncode (.pop .al 0x8010) rfl,
    decodeOfEncode (.b .al 0xFFFFFE) rfl, decodeOfEncode (.wfi .al) rfl, decodeOfEncode (.mrcP15 .al 0 1 0 0 0) rfl,
    decodeOfEncode (.vmrs .al 1 15) rfl, decodeOfEncode .clrex rfl⟩

/-! ### Failed conditions -/

/-- The first 19 rows are those of the unconditional space (30_encoding.md R428). -/
theorem unconditional_of_row {i : Instr} (h : rowOf i < 19) : encode i &&& 0xF0000000#32 = 0xF0000000#32 := by
  have hrows : ∀ r ∈ rows.take 19, coveredBy [(0xF0000000#32, 0xF0000000#32)] r = true := by decide
  obtain ⟨r, hr, hmatch, -⟩ := encodesToItself i
  have hmem : r ∈ rows.take 19 := List.mem_of_getElem? ((List.getElem?_take_of_lt h).trans hr)
  have hclaim := claimed_of_coveredBy (hrows r hmem) hmatch
  by_contra hne
  rw [not_claimed_singleton hne] at hclaim
  cases hclaim

/-- Settles O4: past the unconditional space the condition leads the word, and decides first. -/
theorem failedConditionOnlyAdvances : Obligations.FailedConditionOnlyAdvances := by
  intro i s _ hcond hfailed hpc
  have hrow : 19 ≤ rowOf i := Nat.not_lt.mp fun h => hcond (unconditional_of_row h)
  obtain ⟨c, hled, hexec⟩ := conditional_of_row hrow
  rw [condOf_of_ledBy hled] at hfailed
  rw [hexec s hfailed, fallThrough_of_ne hpc]
  rfl

end Sys2Proof.Laws

/-!
# The fetched word

A step that takes no exception first is `runNext` of the state it goes on in (`step_runsNext`). What is fetched from main memory,
and what is run then, is said by `fetchWord_synced`, `fetchWord_unsynced` and `runNext_word`.
-/

namespace Sys2Proof.Machine

/-! ### Up to the fetch -/

/-- A processor that goes past the interrupts, for none is ready or the ready one waits, goes on. -/
theorem proceed_of_goesOn {s t : State} (h : GoesOn s t) : proceed (hardwareStage s) = goOn t := by
  obtain ⟨hrun, ⟨hnone, rfl⟩ | ⟨hready, hwaits, rfl⟩⟩ := h
  · exact proceed_goesOn hrun hnone
  · obtain ⟨e, he⟩ := Option.ne_none_iff_exists'.mp hready
    unfold proceed
    rw [if_neg (not_not_intro hrun), he]
    exact if_neg (Bool.eq_false_iff.mp hwaits)

/-- A step that takes no exception first runs the next instruction. -/
theorem step_runsNext {s t : State} (hr : resetsOf s = .none) (hgo : GoesOn s t) (hab : takeAbort t = none) :
    step s = runNext t := by
  rw [step_proceeds hr, proceed_of_goesOn hgo, goOn_runs hab]

theorem lowZero_two_of_and {a : Word} (h : a &&& 3 = 0) : lowZero a 2 = true := by
  have hmod : a.toNat &&& (2 ^ 2 - 1) = 0 := congrArg BitVec.toNat h
  rw [Nat.and_two_pow_sub_one_eq_mod] at hmod
  exact beq_iff_eq.mpr hmod

section
variable {t : State} (harm : notArm t.cpsr = false) (hpc : t.pc &&& 3 = 0)
include harm hpc

/-- In ARM state a word that is fetched runs. -/
theorem runNext_word {w : Word} {u : State} (h : fetchWord t.pc t = .ok (.ok w) u) : runNext t = runWord w u := by
  unfold runNext
  rw [harm, lowZero_two_of_and hpc, h]
  rfl

/-- In ARM state a fetch that faults is a Prefetch Abort (60_exceptions.md R525, R528). -/
theorem runNext_fault {f : FaultStatus} {u : State} (h : fetchWord t.pc t = .ok (.error f) u) (he : ArmEntry u) :
    runNext t = .next (takePrefetchAbort f t.pc u) := by
  have hentered : entered (takePrefetchAbort f t.pc u) = .next (takePrefetchAbort f t.pc u) :=
    entered_of_arm ((notArm_entryCpsr _ _ _).trans he)
  unfold runNext
  rw [harm, lowZero_two_of_and hpc, h]
  exact hentered

end

theorem runWord_decoded {w : Word} {i : Instr} (h : decode w = .ok i) (u : State) : runWord w u = exec i u := by
  rw [runWord, h]

theorem runWord_noRow {w : Word} {e : DecodeError} (h : decode w = .error e) {u : State}
    (hc : condPassed (condOf w) u.cpsr = true) : runWord w u = .refused .noRow := by
  rw [runWord, h]
  exact if_pos hc

/-! ### A fetch from main memory -/

/-- A choice gives one of the words it is made of. -/
theorem chooseWord_mem (w : Word) (ws : List Word) (s : State) :
    ∃ x ∈ w :: ws, chooseWord w ws s = .ok x (s.drew 1) := by
  have hlt : (Config.freeWord s.free).toNat % (ws.length + 1) < (w :: ws).length := Nat.mod_lt _ ws.length.succ_pos
  refine ⟨(w :: ws).getD _ w, ?_, rfl⟩
  rw [List.getD_eq_getElem _ _ hlt]
  exact List.getElem_mem hlt

/-- The fetch at an address is admitted, and goes past the TCMs, the instruction cache, the peripheral port and the windows to
main memory, which answers without an error (20_memory.md R289). -/
structure FetchesMainMemory (t : State) (a : Word) (attr : Attr) : Prop where
  admitted : checkAccess t .fetch t.privileged a 4 = .ok attr
  clash : tcmClash t = false
  itcm : inItcm t a = false
  icache : (icacheOn t && cacheable t attr && !inDtcm t a) = false
  peripheral : inPeripheral t.cfg a = false
  window : inWindow t.cfg a = false
  bus : busError t .single a 4 = none
  lookup : scuFinds t a = false

section
variable {t : State} {a : Word} {attr : Attr} (h : FetchesMainMemory t a attr)
include h

/-- The word that main memory holds is found, and nothing changes. -/
theorem fetchServed_mainMemory : fetchServed a t = .ok (.ok (leWord (memBytes t.mem a.toNat 4))) t := by
  have hbus : fetchBus a 4 t = .ok (memBytes t.mem a.toNat 4) := by
    rw [fetchBus, h.peripheral, h.window, h.bus]
    rfl
  unfold fetchServed
  simp only [h.admitted, h.clash, h.itcm, h.icache, Bool.false_eq_true, if_false]
  rw [bind_ok (fetchTransfer_quiet h.lookup 4), hbus]
  rfl

/-- A word of main memory has its place in the address space. -/
theorem find?_codePlace : ((codePlace t a).bind fun place => t.unsynced.find? (·.standsAt place)) =
    t.unsynced.find? fun x => x.memory != .itcm && x.word == a.toNat / 4 := by
  rw [codePlace, h.itcm]
  simp [Unsynced.standsAt, bne]

/-- A word that was not stored since it was synchronised is fetched as it stands. -/
theorem fetchWord_synced (hsynced : ∀ x ∈ t.unsynced, x.memory ≠ .itcm → x.word ≠ a.toNat / 4) :
    fetchWord a t = .ok (.ok (leWord (memBytes t.mem a.toNat 4))) t := by
  have hnone : t.unsynced.find? (fun x => x.memory != .itcm && x.word == a.toNat / 4) = none :=
    List.find?_eq_none.mpr fun x hx => by simpa using hsynced x hx
  unfold fetchWord
  rw [bind_ok (fetchServed_mainMemory h), bind_ok (get_apply t), find?_codePlace h, hnone]
  rfl

/-- Of a word that was stored and not synchronised since, the one that stands there or one it had is fetched, a free choice
(20_memory.md R281; 93_implementation_defined.md U26). -/
theorem fetchWord_unsynced {x : Unsynced}
    (hx : t.unsynced.find? (fun x => x.memory != .itcm && x.word == a.toNat / 4) = some x) :
    ∃ w, (w = leWord (memBytes t.mem a.toNat 4) ∨ w ∈ x.values) ∧ fetchWord a t = .ok (.ok w) (t.drew 1) := by
  obtain ⟨w, hw, hchoice⟩ := chooseWord_mem (leWord (memBytes t.mem a.toNat 4)) x.values t
  refine ⟨w, List.mem_cons.mp hw, ?_⟩
  unfold fetchWord
  rw [bind_ok (fetchServed_mainMemory h), bind_ok (get_apply t), find?_codePlace h, hx]
  exact bind_ok hchoice

end

/-- A word reads back from its bytes. -/
theorem leWord_bytesOfWord (w : Word) : leWord (bytesOfWord w) = w := by
  have hvalue := valueOf_bytesOf false 4 w
  rw [Nat.mod_eq_of_lt w.isLt, BitVec.ofNat_toNat, BitVec.setWidth_eq] at hvalue
  exact hvalue

/-- Settles O3: the step runs what it fetches, and main memory gives the word that stands there or a word that stood there. -/
theorem stepRunsDecoded : Obligations.StepRunsDecoded := by
  intro s t hreset hgo habort harm hpc
  rw [step_runsNext hreset hgo habort]
  refine ⟨fun w i u hf hd => ?_, fun w e u hf hd hc => ?_, fun f u hf he => runNext_fault harm hpc hf he,
    fun attr hadm hclash hitcm hicache hper hwin hbus hscu => ?_⟩
  · rw [runNext_word harm hpc hf, runWord_decoded hd]
  · rw [runNext_word harm hpc hf, runWord_noRow hd hc]
  · have hmain : FetchesMainMemory t t.pc attr := ⟨hadm, hclash, hitcm, hicache, hper, hwin, hbus, hscu⟩
    refine ⟨fun i hsynced hwf hbytes => ?_, fun x hx => ?_⟩
    · have hf := fetchWord_synced hmain hsynced
      rw [hbytes, leWord_bytesOfWord] at hf
      rw [runNext_word harm hpc hf, runWord_decoded (Laws.decodeOfEncode i hwf)]
    · obtain ⟨w, hw, hf⟩ := fetchWord_unsynced hmain hx
      exact ⟨w, hw, fun i hd => (runNext_word harm hpc hf).trans (runWord_decoded hd _)⟩

end Sys2Proof.Machine

/-!
# Refused registers

A body that begins with checks of its registers is refused when one of them is R15 (`notPc_refuses`). By what the instructions
check: two, three or four registers, the base and the privilege of a load or store.
-/

namespace Sys2Proof.Machine

/-- The body refuses its operands, which 42_a32_core_subset.md calls UNPREDICTABLE (93_implementation_defined.md U60). -/
def RefusesIn {α : Type} (s : State) (body : M α) : Prop := body s = .error (.refuse .unpredictable) s

theorem conditional_refused {c : Cond} {s : State} (hc : condPassed c s.cpsr = true) {body : M Unit} {r : Refusal}
    (h : body s = .error (.refuse r) s) : conditional c body s = .refused r := by
  rw [conditional_passed hc, h]
  rfl

section
variable {α : Type} {s : State} {rd ra rm rn rt : Reg}

/-- A check for R15, then the rest. -/
theorem notPc_refuses {r : Reg} {f : Unit → M α} (h : r = 15 ∨ RefusesIn s (f ())) : RefusesIn s (notPc r >>= f) := by
  by_cases hr : r = 15
  · exact bind_error (notPc_of_eq hr s)
  · exact (bind_ok (notPc_of_ne hr s)).trans (h.resolve_left hr)

/-- Two checks for R15. -/
theorem notPc_two_refuses {f : Unit → M α} (h : rd = 15 ∨ rm = 15) : RefusesIn s (do notPc rd; notPc rm >>= f) :=
  notPc_refuses (h.imp_right fun h => notPc_refuses (.inl h))

/-- Three checks for R15. -/
theorem notPc_three_refuses {f : Unit → M α} (h : rd = 15 ∨ rm = 15 ∨ rn = 15) :
    RefusesIn s (do notPc rd; notPc rm; notPc rn >>= f) :=
  notPc_refuses (h.imp_right notPc_two_refuses)

/-- Four checks for R15. -/
theorem notPc_four_refuses {f : Unit → M α} (h : rd = 15 ∨ ra = 15 ∨ rm = 15 ∨ rn = 15) :
    RefusesIn s (do notPc rd; notPc ra; notPc rm; notPc rn >>= f) :=
  notPc_refuses (h.imp_right notPc_three_refuses)

/-! ### Registers of the multiplies, divisions, bit operations and wide moves -/

theorem unary_refuses {f : Word → Word} (h : rd = 15 ∨ rm = 15) : RefusesIn s (unary rd rm f) :=
  notPc_two_refuses h

/-- A field out of range is refused as its registers are. -/
theorem field_unary_refuses {b : Bool} {f : Word → Word} (h : rd = 15 ∨ rm = 15) :
    RefusesIn s (do refuseIf b .unpredictable; unary rd rm f) := by
  cases b
  · exact unary_refuses h
  · rfl

theorem wideChecks_refuses {f : Unit → M α} (h : rd = 15 ∨ ra = 15 ∨ rm = 15 ∨ rn = 15) :
    RefusesIn s (wideChecks rd ra rm rn >>= f) := bind_error (notPc_four_refuses h)

section
variable {c : Cond} (hc : condPassed c s.cpsr = true)
include hc

/-- The instructions of Rd and one source (42_a32_core_subset.md R978 to R990). -/
theorem exec_refused_of_two (rot : BitVec 2) (k lsb : BitVec 5) (h : rd = 15 ∨ rm = 15) :
    ∀ i ∈ [Instr.clz c rd rm, .rev c rd rm, .rev16 c rd rm, .revsh c rd rm, .rbit c rd rm, .uxtb c rd rot rm,
      .uxth c rd rot rm, .sxtb c rd rot rm, .sxth c rd rot rm, .ubfx c k rd lsb rm, .sbfx c k rd lsb rm,
      .bfi c k rd lsb rm], exec i s = .refused .unpredictable := by
  have hunary (f : Word → Word) : conditional c (unary rd rm f) s = .refused .unpredictable :=
    conditional_refused hc (unary_refuses h)
  have hfield (b : Bool) (f : Word → Word) := conditional_refused hc (field_unary_refuses (b := b) (f := f) h)
  exact List.forall_iff_forall_mem.mp ⟨hunary _, hunary _, hunary _, hunary _, hunary _, hunary _, hunary _, hunary _, hunary _,
    hfield _ _, hfield _ _, conditional_refused hc (notPc_two_refuses h)⟩

/-- The instructions of Rd and two sources (42_a32_core_subset.md R991 to R993). -/
theorem exec_refused_of_three (S : Bool) (h : rd = 15 ∨ rm = 15 ∨ rn = 15) :
    ∀ i ∈ [Instr.sdiv c rd rm rn, .udiv c rd rm rn, .mul c S rd rm rn], exec i s = .refused .unpredictable :=
  List.forall_iff_forall_mem.mp ⟨conditional_refused hc (notPc_three_refuses h), conditional_refused hc (notPc_three_refuses h),
    conditional_refused hc (notPc_three_refuses h)⟩

/-- The instructions of four registers (42_a32_core_subset.md R994 to R999). -/
theorem exec_refused_of_four (S : Bool) (h : rd = 15 ∨ ra = 15 ∨ rm = 15 ∨ rn = 15) :
    ∀ i ∈ [Instr.mla c S rd ra rm rn, .mls c rd ra rm rn, .umull c S rd ra rm rn, .umlal c S rd ra rm rn,
      .smull c S rd ra rm rn, .smlal c S rd ra rm rn], exec i s = .refused .unpredictable := by
  have hnarrow (f : Unit → M Unit) := conditional_refused hc (notPc_four_refuses (f := f) h)
  have hwide (f : Unit → M Unit) := conditional_refused hc (wideChecks_refuses (f := f) h)
  exact List.forall_iff_forall_mem.mp ⟨hnarrow _, hnarrow _, hwide _, hwide _, hwide _, hwide _⟩

/-- The instructions of Rd alone (42_a32_core_subset.md R976, R977, R986). -/
theorem exec_refused_of_one (i4 : BitVec 4) (i12 : BitVec 12) (k lsb : BitVec 5) (h : rd = 15) :
    ∀ i ∈ [Instr.movw c i4 rd i12, .movt c i4 rd i12, .bfc c k rd lsb], exec i s = .refused .unpredictable :=
  List.forall_iff_forall_mem.mp ⟨conditional_refused hc (notPc_refuses (.inl h)), conditional_refused hc (notPc_refuses (.inl h)),
    conditional_refused hc (notPc_refuses (.inl h))⟩

end

/-! ### Single loads and stores -/

variable {p w : Bool}

theorem checkBase_refuses (h : ¬ baseAllowed p w rn rt) : RefusesIn s (checkBase p w rn rt) := by
  have hbad : ((!p || w) && (rn == 15 || rn == rt)) = true := by
    unfold baseAllowed at h
    grind
  unfold RefusesIn checkBase
  rw [hbad]
  rfl

theorem registerOffset_refuses {ty : ShiftType} {imm5 : BitVec 5} : RefusesIn s (registerOffset 15 ty imm5) := rfl

theorem plainOffset_refuses : RefusesIn s (plainOffset 15) := rfl

variable {u : Bool} {off : Word}

theorem loadInto_unprivileged {n : Nat} {ext : Word → Word} :
    loadInto n ext false u true rn rt off s = .error (.refuse .unprivilegedAccess) s := rfl

theorem loadWord_unprivileged : loadWord false u true rn rt off s = .error (.refuse .unprivilegedAccess) s := by
  unfold loadWord
  split <;> rfl

theorem storeFrom_unprivileged {n : Nat} :
    storeFrom n false u true rn rt off s = .error (.refuse .unprivilegedAccess) s := rfl

section
variable (hpw : ordinary p w)
include hpw

theorem loadInto_refuses {n : Nat} {ext : Word → Word} (h : rt = 15 ∨ ¬ baseAllowed p w rn rt) :
    RefusesIn s (loadInto n ext p u w rn rt off) :=
  (bind_ok (checkPrivilege_of_ordinary hpw)).trans (notPc_refuses (h.imp_right fun h => bind_error (checkBase_refuses h)))

theorem loadWord_refuses (h : ¬ baseAllowed p w rn rt) : RefusesIn s (loadWord p u w rn rt off) := by
  unfold loadWord
  split
  · exact (bind_ok (checkPrivilege_of_ordinary hpw)).trans (bind_error (checkBase_refuses h))
  · exact loadInto_refuses hpw (.inr h)

theorem storeFrom_refuses {n : Nat} (h : ¬ baseAllowed p w rn rt) : RefusesIn s (storeFrom n p u w rn rt off) :=
  (bind_ok (checkPrivilege_of_ordinary hpw)).trans (bind_error (checkBase_refuses h))

end

section
variable {c : Cond} (hc : condPassed c s.cpsr = true)
include hc

/-- A single load with an offset register that it allows is a word load or a narrow one, of any register Rt. -/
theorem exec_singleLoad_body {l : SingleLoad} (hl : l.allowed) :
    ∃ body : M Unit, exec (l.instr c p u w rn rt) s = finish (body s) ∧
      (l.size = 4 ∧ body = loadWord p u w rn rt (l.offset s) ∨
        l.size ≠ 4 ∧ ∃ ext, body = loadInto l.size ext p u w rn rt (l.offset s)) := by
  cases l with
  | ldrImm => exact ⟨_, conditional_passed hc _, .inl ⟨rfl, rfl⟩⟩
  | ldrReg i t m =>
    exact ⟨_, (conditional_passed hc _).trans (congrArg finish (bind_ok (registerOffset_of_ne hl t i))), .inl ⟨rfl, rfl⟩⟩
  | ldrbImm | ldrhImm | ldrsbImm | ldrshImm => exact ⟨_, conditional_passed hc _, .inr ⟨nofun, _, rfl⟩⟩
  | ldrbReg i t m =>
    exact ⟨_, (conditional_passed hc _).trans (congrArg finish (bind_ok (registerOffset_of_ne hl t i))), .inr ⟨nofun, _, rfl⟩⟩
  | ldrhReg | ldrsbReg | ldrshReg =>
    exact ⟨_, (conditional_passed hc _).trans (congrArg finish (bind_ok (plainOffset_of_ne hl))), .inr ⟨nofun, _, rfl⟩⟩

/-- A single load with offset register R15. -/
theorem exec_singleLoad_refused {l : SingleLoad} (hl : ¬ l.allowed) :
    exec (l.instr c p u w rn rt) s = .refused .unpredictable := by
  cases l with
  | ldrImm | ldrbImm | ldrhImm | ldrsbImm | ldrshImm => exact absurd trivial hl
  | ldrReg | ldrbReg =>
    obtain rfl := not_ne_iff.mp hl
    exact conditional_refused hc (bind_error registerOffset_refuses)
  | ldrhReg | ldrsbReg | ldrshReg =>
    obtain rfl := not_ne_iff.mp hl
    exact conditional_refused hc (bind_error plainOffset_refuses)

/-- A single store with offset register R15, or a narrow one of R15. -/
theorem exec_singleStore_refused {l : SingleStore} (hl : ¬ l.allowed rt) :
    exec (l.instr c p u w rn rt) s = .refused .unpredictable := by
  cases l with
  | strImm => exact absurd trivial hl
  | strReg =>
    obtain rfl := not_ne_iff.mp hl
    exact conditional_refused hc (bind_error registerOffset_refuses)
  | strbImm | strhImm =>
    exact conditional_refused hc (notPc_refuses (.inl (not_ne_iff.mp hl)))
  | strbReg =>
    refine conditional_refused hc (notPc_refuses ((Decidable.not_and_iff_not_or_not.mp hl).imp not_ne_iff.mp fun hm => ?_))
    obtain rfl := not_ne_iff.mp hm
    exact bind_error registerOffset_refuses
  | strhReg =>
    refine conditional_refused hc (notPc_refuses ((Decidable.not_and_iff_not_or_not.mp hl).imp not_ne_iff.mp fun hm => ?_))
    obtain rfl := not_ne_iff.mp hm
    exact bind_error plainOffset_refuses

end

end

/-- Settles O21: each instruction checks the registers it may not name before it does anything. -/
theorem unpredictableRegisters : Obligations.UnpredictableRegisters := by
  intro c S p u w rd ra rm rn rt rot k lsb i4 i12 s hc
  refine ⟨fun h => ?_, fun h => exec_refused_of_four hc S (.inr (.inl h)), exec_refused_of_one hc i4 i12 k lsb,
    fun h => List.forall_mem_append.mpr
      ⟨exec_refused_of_three hc S (.inr (.inr h)), exec_refused_of_four hc S (.inr (.inr (.inr h)))⟩,
    conditional_refused hc (notPc_refuses (.inl rfl)), ?_, ?_, fun l hpw h => ?_, fun l hpw h => ?_⟩
  · have hthree := exec_refused_of_three (rn := rn) hc S (h.imp_right .inl)
    have hfour := exec_refused_of_four (ra := ra) (rn := rn) hc S (h.imp_right fun h => .inr (.inl h))
    exact List.forall_mem_append.mpr ⟨exec_refused_of_two hc rot k lsb h, List.forall_mem_append.mpr ⟨hthree, hfour⟩⟩
  · rintro l hl rfl rfl
    obtain ⟨body, hexec, ⟨-, rfl⟩ | ⟨-, ext, rfl⟩⟩ := exec_singleLoad_body (p := false) (u := u) (w := true) hc hl
    · rw [hexec, loadWord_unprivileged]
      rfl
    · rw [hexec, loadInto_unprivileged]
      rfl
  · rintro l hl rfl rfl
    rw [exec_singleStore hc u hl]
    exact conditional_refused hc storeFrom_unprivileged
  · by_cases hl : l.allowed
    · have h := h.resolve_left (not_not_intro hl)
      obtain ⟨body, hexec, ⟨hsize, rfl⟩ | ⟨-, ext, rfl⟩⟩ := exec_singleLoad_body (p := p) (u := u) (w := w) hc hl
      · rw [hexec, loadWord_refuses hpw (h.resolve_right fun h => h.2 hsize)]
        rfl
      · rw [hexec, loadInto_refuses hpw (h.symm.imp_left And.left)]
        rfl
    · exact exec_singleLoad_refused hc hl
  · by_cases hl : l.allowed rt
    · rw [exec_singleStore hc u hl]
      exact conditional_refused hc (storeFrom_refuses hpw (h.resolve_left (not_not_intro hl)))
    · exact exec_singleStore_refused hc hl

end Sys2Proof.Machine

/-!
# Accesses to CP15 that are denied

A selector that names a register is an entry of the map, so what holds of every entry holds of it (`holds_of_cp15Sel`): the
registers that an access right covers are decided once over the map, not selector by selector.
-/

namespace Sys2Proof.Machine

/-! ### Access rights of User mode -/

/-- The registers that User mode reads whatever PMUSERENR says (40_system_register_access.md R434). -/
def Cp15Reg.userReads (r : Cp15Reg) : Bool := r == .tpidrurw || r == .tpidruro || r == .pmuserenr

/-- The registers that User mode writes whatever PMUSERENR says (40_system_register_access.md R434). -/
def Cp15Reg.userWrites (r : Cp15Reg) : Bool := r == .tpidrurw || r == .op .dsb || r == .op .dmb || r == .op .isb

theorem userReadable_eq (s : State) (r : Cp15Reg) :
    userReadable s r = (r.userReads || (r.userMonitor && pmuUserEnabled s)) := rfl

theorem userWritable_eq (s : State) (r : Cp15Reg) :
    userWritable s r = (r.userWrites || (r.userMonitor && pmuUserEnabled s)) := rfl

/-! ### Entries of the map -/

theorem mem_of_lookupKey {α : Type} {l : List (Nat × α)} {n : Nat} {a : α} (h : lookupKey l n = some a) : (n, a) ∈ l := by
  induction l with
  | nil => cases h
  | cons e l ih =>
    obtain ⟨k, b⟩ := e
    rw [lookupKey] at h
    split at h
    · next hk =>
      cases h
      exact hk ▸ List.mem_cons_self
    · exact List.mem_cons_of_mem _ (ih h)

/-- The fields of a selector, from its number (40_system_register_access.md R431). -/
def fieldsOf (n : Nat) : Selector := (n / 2048, n / 128 % 16, n / 8 % 16, n % 8)

theorem fieldsOf_selector (op1 : BitVec 3) (crn crm : BitVec 4) (op2 : BitVec 3) :
    fieldsOf (selector op1.toNat crn.toNat crm.toNat op2.toNat) = selectorOf op1 crn crm op2 := by
  unfold fieldsOf selector selectorOf
  simp only [Prod.mk.injEq]
  omega

section

variable {op1 : BitVec 3} {crn crm : BitVec 4} {op2 : BitVec 3} {r : Cp15Reg}

/-- What holds of the fields and the register of every entry of the map holds of a selector and the register it names. -/
theorem holds_of_cp15Sel {P : Selector → Cp15Reg → Prop} (hmap : ∀ e ∈ cp15Map, P (fieldsOf e.1) e.2)
    (hsel : cp15Sel op1 crn crm op2 = some r) : P (selectorOf op1 crn crm op2) r :=
  fieldsOf_selector op1 crn crm op2 ▸ hmap _ (mem_of_lookupKey hsel)

/-- The registers of a kind are in a list of selectors, if all their entries are. -/
theorem selectorOf_mem {p : Cp15Reg → Bool} {l : List Selector} (hsel : cp15Sel op1 crn crm op2 = some r) (hr : p r = true)
    (hmap : ∀ e ∈ cp15Map, p e.2 = true → fieldsOf e.1 ∈ l) : selectorOf op1 crn crm op2 ∈ l :=
  holds_of_cp15Sel (P := fun x r => p r = true → x ∈ l) hmap hsel hr

/-- While PMUSERENR.EN is 0, or off the list, User mode does not reach the PMU (40_system_register_access.md R434). -/
theorem userMonitor_closed {s : State} (hsel : cp15Sel op1 crn crm op2 = some r)
    (hpmu : selectorOf op1 crn crm op2 ∉ userPmu ∨ s.pmu.userenr.getLsbD 0 = false) :
    (r.userMonitor && pmuUserEnabled s) = false :=
  Bool.and_eq_false_iff.mpr (hpmu.imp_left fun h => eq_false_of_ne_true fun hr => h (selectorOf_mem hsel hr (by decide)))

/-- User mode reads no register but those of `userReads` and, while PMUSERENR.EN is 1, of `userPmu`. -/
theorem userReadable_eq_false {s : State} (hsel : cp15Sel op1 crn crm op2 = some r)
    (hreads : selectorOf op1 crn crm op2 ∉ userReads)
    (hpmu : selectorOf op1 crn crm op2 ∉ userPmu ∨ s.pmu.userenr.getLsbD 0 = false) : userReadable s r = false := by
  have hclosed : r.userReads = false := eq_false_of_ne_true fun hr => hreads (selectorOf_mem hsel hr (by decide))
  rw [userReadable_eq, hclosed, userMonitor_closed hsel hpmu, Bool.or_false]

/-- User mode writes no register but those of `userWrites` and, while PMUSERENR.EN is 1, of `userPmu`. -/
theorem userWritable_eq_false {s : State} (hsel : cp15Sel op1 crn crm op2 = some r)
    (hwrites : selectorOf op1 crn crm op2 ∉ userWrites)
    (hpmu : selectorOf op1 crn crm op2 ∉ userPmu ∨ s.pmu.userenr.getLsbD 0 = false) : userWritable s r = false := by
  have hclosed : r.userWrites = false := eq_false_of_ne_true fun hr => hwrites (selectorOf_mem hsel hr (by decide))
  rw [userWritable_eq, hclosed, userMonitor_closed hsel hpmu, Bool.or_false]

/-- The registers of c0, but CSSELR, are read-only (11_cp15_registers.md R103 to R113). -/
theorem readOnly_of_c0 (hsel : cp15Sel op1 crn crm op2 = some r) (hcrn : crn = 0) (hop1 : op1 ≠ 2) : r.readOnly = true :=
  holds_of_cp15Sel (P := fun x r => x.2.1 = 0 → x.1 ≠ 2 → r.readOnly = true) (by decide) hsel (congrArg BitVec.toNat hcrn)
    fun h => hop1 (BitVec.eq_of_toNat_eq h)

/-- The operations of c7 cannot be read (11_cp15_registers.md R150). -/
theorem writeOnly_of_c7 (hsel : cp15Sel op1 crn crm op2 = some r) (hcrn : crn = 7) : r.writeOnly = true :=
  holds_of_cp15Sel (P := fun x r => x.2.1 = 7 → r.writeOnly = true) (by decide) hsel (congrArg BitVec.toNat hcrn)

end

/-! ### Denied accesses -/

section

variable {c : Cond} {op1 op2 : BitVec 3} {crn crm : BitVec 4} {rt : Reg} {s : State}
  (hc : condPassed c s.cpsr = true) (harm : ArmEntry s)
include hc harm

/-- MRC is an Undefined Instruction if the mode may not read what the selector names, or nothing can, if it names anything. -/
theorem exec_mrcP15_undefined
    (h : ∀ r, cp15Sel op1 crn crm op2 = some r → ((!s.privileged && !userReadable s r) || r.writeOnly) = true) :
    exec (.mrcP15 c op1 crn rt op2 crm) s = .next (takeException .undefined (s.pc + 4) s) := by
  cases hsel : cp15Sel op1 crn crm op2 with
  | none => exact conditional_undefined hc harm (by rw [hsel]; rfl)
  | some r => exact exec_mrcP15_of_denied hsel hc harm (h r hsel)

/-- MCR is an Undefined Instruction if the mode may not write what the selector names, or nothing can, if it names anything. -/
theorem exec_mcrP15_undefined
    (h : ∀ r, cp15Sel op1 crn crm op2 = some r → ((!s.privileged && !userWritable s r) || r.readOnly) = true) :
    exec (.mcrP15 c op1 crn rt op2 crm) s = .next (takeException .undefined (s.pc + 4) s) := by
  cases hsel : cp15Sel op1 crn crm op2 with
  | none => exact conditional_undefined hc harm (by rw [hsel]; rfl)
  | some r => exact exec_mcrP15_of_denied hsel hc harm (h r hsel)

end

/-- Settles O43: each access names nothing, or a register that the rights deny it. -/
theorem systemRegistersDenied : Obligations.SystemRegistersDenied := by
  intro c op1 op2 crn crm rt s hc harm
  refine ⟨fun hnone => ⟨?_, ?_⟩, fun huser hreads hpmu => ?_, fun huser hwrites hpmu => ?_, fun hcrn hop1 => ?_,
    fun hcrn => ?_⟩
  · exact exec_mrcP15_undefined hc harm fun r hsel => nomatch hnone.symm.trans hsel
  · exact exec_mcrP15_undefined hc harm fun r hsel => nomatch hnone.symm.trans hsel
  · exact exec_mrcP15_undefined hc harm fun r hsel => by rw [huser, userReadable_eq_false hsel hreads hpmu]; rfl
  · exact exec_mcrP15_undefined hc harm fun r hsel => by rw [huser, userWritable_eq_false hsel hwrites hpmu]; rfl
  · exact exec_mcrP15_undefined hc harm fun r hsel => by rw [readOnly_of_c0 hsel hcrn hop1, Bool.or_true]
  · exact exec_mrcP15_undefined hc harm fun r hsel => by rw [writeOnly_of_c7 hsel hcrn, Bool.or_true]

end Sys2Proof.Machine

/-!
# Reads of CP15

An MRC that the rights admit is the read of the register its selector names (`exec_mrcOf_of_mayRead`), into Rt or the flags
(`exec_mrcOf_value`). What each register reads as is said of the whole table at once (`hasValue_of_mem_cp15Values`).
-/

namespace Sys2Proof.Machine

/-! ### Admitted reads -/

/-- The mode may read what a selector names (40_system_register_access.md R434). -/
abbrev MayRead (s : State) (x : Selector) : Prop :=
  s.privileged = true ∨ x ∈ userReads ∨ x ∈ userPmu ∧ s.pmu.userenr.getLsbD 0 = true

/-- What all registers have that a list of selectors names. -/
theorem holds_of_names {p : Cp15Reg → Bool} {l : List Selector} {x : Selector} {r : Cp15Reg} (hx : x ∈ l) (hname : Names x r)
    (hall : ∀ x ∈ l, (cp15Sel (BitVec.ofNat 3 x.1) (BitVec.ofNat 4 x.2.1) (BitVec.ofNat 4 x.2.2.1)
      (BitVec.ofNat 3 x.2.2.2)).all p = true) : p r = true := by
  have h := hall x hx
  rwa [hname] at h

theorem userReads_of_mem {x : Selector} {r : Cp15Reg} (hx : x ∈ userReads) (hname : Names x r) : r.userReads = true :=
  holds_of_names hx hname (by decide)

theorem userMonitor_of_mem {x : Selector} {r : Cp15Reg} (hx : x ∈ userPmu) (hname : Names x r) : r.userMonitor = true :=
  holds_of_names hx hname (by decide)

section

variable {c : Cond} {rt : Reg} {s t u : State} {x : Selector} {r : Cp15Reg} {v : Word}

theorem MayRead.admits (hmay : MayRead s x) (hname : Names x r) : (!s.privileged && !userReadable s r) = false := by
  rw [userReadable_eq, pmuUserEnabled]
  obtain hpriv | hx | ⟨hx, hen⟩ := hmay
  · rw [hpriv]; rfl
  · rw [userReads_of_mem hx hname, Bool.true_or, Bool.not_true, Bool.and_false]
  · rw [userMonitor_of_mem hx hname, hen, Bool.and_self, Bool.or_true, Bool.not_true, Bool.and_false]

/-- MRC of a register that the mode may read and that can be read is the read of it, and what Rt takes
(40_system_register_access.md R432). -/
theorem exec_mrcOf_of_mayRead (hc : condPassed c s.cpsr = true) (hmay : MayRead s x) (hname : Names x r)
    (hw : r.writeOnly = false) (hread : readCp15 r s = .ok v t) (hrec : receive rt v t = .ok () u) :
    exec (mrcOf c rt x) s = .next u := by
  refine (conditional_passed hc _).trans (congrArg finish (a₂ := .ok () u) ?_)
  rw [show cp15Sel _ _ _ _ = some r from hname]
  calc
    _ = (readCp15 r >>= receive rt) s := undefinedIf_admits (hmay.admits hname) hw (readCp15 r >>= receive rt) s
    _ = receive rt v t := bind_ok hread
    _ = .ok () u := hrec

/-- A selector names a register that can be read, and its value is `v`. -/
def HasValue (s : State) (x : Selector) (v : Word) : Prop :=
  ∃ r, Names x r ∧ r.writeOnly = false ∧ readCp15 r s = .ok v s

/-- A register whose read answers at once. -/
theorem HasValue.of (r : Cp15Reg) (hname : Names x r := by decide) (hw : r.writeOnly = false := by rfl)
    (hread : readCp15 r s = .ok v s := by rfl) : HasValue s x v := ⟨r, hname, hw, hread⟩

theorem exec_mrcOf_value (hruns : Runs c s) (hmay : MayRead s x) (hv : HasValue s x v) :
    (rt ≠ 15 → exec (mrcOf c rt x) s = .next (s.wrote rt v)) ∧
    exec (mrcOf c 15 x) s =
      .next (s.setFlags (v.getLsbD 31) (v.getLsbD 30) (v.getLsbD 29) (v.getLsbD 28)).past := by
  obtain ⟨r, hname, hw, hread⟩ := hv
  exact ⟨fun hrt => exec_mrcOf_of_mayRead hruns.1 hmay hname hw hread (receive_of_ne hrt v hruns.2),
    exec_mrcOf_of_mayRead hruns.1 hmay hname hw hread (receive_flags v hruns.2)⟩

end

/-! ### Values -/

/-- CCSIDR shows the cache that CSSELR selects (11_cp15_registers.md R111). -/
theorem readCp15_ccsidr (s : State) : readCp15 .ccsidr s = .ok (ccsidr s) s := by
  refine congrArg (EStateM.Result.ok · s) ?_
  unfold ccsidr
  cases s.cp15.csselr.getLsbD 0 <;> rfl

/-- The error register of a TCM keeps its bits in builds with ECC and the TCM (11_cp15_registers.md R184). -/
theorem and_tcmeerMask (s : State) (size : RamSize) (w : Word) :
    w &&& tcmeerMask s.cfg size = ifEcc s (if size = .none then 0 else w &&& 0x0201FFFF) := by
  unfold tcmeerMask ifEcc
  by_cases hecc : s.cfg.ecc = true <;> by_cases hsize : size = .none <;> simp [hecc, hsize]

/-- The value of every register that reads as one word (11_cp15_registers.md R103 to R190). -/
theorem hasValue_of_mem_cp15Values (s : State) : ∀ e ∈ cp15Values s, HasValue s e.1 e.2 := by
  have hdtcmeer := congrArg (EStateM.Result.ok (ε := Stop) · s) (and_tcmeerMask s s.cfg.dtcm s.cp15.dtcmeer)
  have hitcmeer := congrArg (EStateM.Result.ok (ε := Stop) · s) (and_tcmeerMask s s.cfg.itcm s.cp15.itcmeer)
  simp only [cp15Values, List.forall_mem_cons, List.not_mem_nil, false_imp_iff, implies_true, and_true]
  exact ⟨.of .tcmtr, .of (.feature 0x10404), .of (.feature 0), .of (.feature 0), .of (.feature 0x01200000),
    .of (.feature 0x2111), .of (.feature 0x13112111), .of (.feature 0x21232141), .of (.feature 0x01112131),
    .of .ccsidr (hread := readCp15_ccsidr s), .of .aidr, .of .raeccr, .of (.deer 0), .of (.deer 1), .of (.deer 2),
    .of (.ieer 0), .of (.ieer 1), .of (.ieer 2), .of .dtcmeer (hread := hdtcmeer), .of .itcmeer (hread := hitcmeer),
    .of .cbar, .of .midr, .of .ctr, .of .mpuir, .of .mpidr, .of .revidr, .of (.feature 0x131), .of (.feature 0x1),
    .of (.feature 0x110130), .of (.feature 0x02101111), .of (.feature 0x10142), .of .clidr, .of .csselr, .of .sctlr,
    .of .actlr, .of .cpacr, .of .dfsr, .of .ifsr, .of .dfar, .of .ifar, .of .rgnr, .of .dtcmrr, .of .itcmrr, .of .pmcr,
    .of .pmcntenset, .of .pmcntenclr, .of .pmovsr, .of .pmselr, .of .pmccntr, .of .pmuserenr, .of .pmintenset,
    .of .pmintenclr, .of .contextidr, .of .tpidrurw, .of .tpidruro, .of .tpidrprw, .of .pcr, .of .radrlo, .of .radrhi⟩

/-! ### Registers that another selects -/

section

variable {c : Cond} {rt : Reg} {s : State}

/-- RGNR names a region that the build has (11_cp15_registers.md R144). -/
theorem currentRegion_of_lt {n : Fin 16} (hn : s.cp15.rgnr.toNat = n.val) (hlt : n.val < regionCount s.cfg) :
    currentRegion s = .ok n s := by
  unfold currentRegion
  rw [hn, if_neg (by omega), Fin.ofNat_val_eq_self]

/-- PMSELR selects an event counter by its five low bits (64_debug_pmu.md R731; log entry 58). -/
theorem selectedCounter_of_mod {p : Pmu} {n : Fin 8} (hn : p.selr.toNat % 32 = n.val) : selectedCounter p = some n := by
  have hlow : (p.selr &&& 0x1F).toNat = n.val := by
    rw [BitVec.toNat_and, ← hn]
    exact Nat.and_two_pow_sub_one_eq_mod _ 5
  unfold selectedCounter
  simp only [hlow, n.isLt, dif_pos]

theorem hasValue_region {n : Fin 16} (hn : s.cp15.rgnr.toNat = n.val) (hlt : n.val < regionCount s.cfg) :
    HasValue s (0, 6, 1, 0) s.cp15.drbar[n] ∧ HasValue s (0, 6, 1, 2) s.cp15.drsr[n] ∧
      HasValue s (0, 6, 1, 4) s.cp15.dracr[n] :=
  have hregion := currentRegion_of_lt hn hlt
  ⟨⟨.drbar, by decide, rfl, (bind_ok (get_apply s)).trans (bind_ok hregion)⟩,
    ⟨.drsr, by decide, rfl, (bind_ok (get_apply s)).trans (bind_ok hregion)⟩,
    ⟨.dracr, by decide, rfl, (bind_ok (get_apply s)).trans (bind_ok hregion)⟩⟩

theorem hasValue_counter {n : Fin 8} (hn : s.pmu.selr.toNat % 32 = n.val) :
    HasValue s (0, 9, 13, 1) s.pmu.evtyper[n] ∧ HasValue s (0, 9, 13, 2) s.pmu.evcntr[n] := by
  have hsel := selectedCounter_of_mod hn
  refine ⟨⟨.pmxevtyper, by decide, rfl, (bind_ok (get_apply s)).trans ?_⟩,
    ⟨.pmxevcntr, by decide, rfl, (bind_ok (get_apply s)).trans ?_⟩⟩
  · simp only [hsel]; rfl
  · simp only [hsel]; rfl

end

/-- Settles O40: the registers that read as one word by the table of their values; of the others, the selected ones by what
RGNR and PMSELR select, CTDOR by the free value it draws, PMSWINC because it cannot be read. -/
theorem systemRegisterReads : Obligations.SystemRegisterReads := by
  intro c rt s hruns
  refine ⟨fun e he hmay => exec_mrcOf_value hruns hmay (hasValue_of_mem_cp15Values s e he),
    fun n hpriv hrt hn hlt => ?regions, fun n hmay hrt hn => ?counters, fun hpriv => ?ctdor, fun harm => ?pmswinc⟩
  case regions =>
    obtain ⟨hbase, hsize, haccess⟩ := hasValue_region hn hlt
    exact ⟨(exec_mrcOf_value hruns (.inl hpriv) hbase).1 hrt, (exec_mrcOf_value hruns (.inl hpriv) hsize).1 hrt,
      (exec_mrcOf_value hruns (.inl hpriv) haccess).1 hrt⟩
  case counters =>
    obtain ⟨htype, hcount⟩ := hasValue_counter hn
    exact ⟨(exec_mrcOf_value hruns (hmay.imp_right fun hen => .inr ⟨by decide, hen⟩) htype).1 hrt,
      (exec_mrcOf_value hruns (hmay.imp_right fun hen => .inr ⟨by decide, hen⟩) hcount).1 hrt⟩
  case ctdor =>
    have hread : readCp15 .ctdor s = .ok (Config.freeWord s.free) (s.drew 1) := rfl
    exact ⟨Config.freeWord s.free,
      fun hrt => exec_mrcOf_of_mayRead hruns.1 (.inl hpriv) (by decide) rfl hread (receive_of_ne hrt _ hruns.2),
      exec_mrcOf_of_mayRead hruns.1 (.inl hpriv) (by decide) rfl hread (receive_flags _ hruns.2)⟩
  case pmswinc => exact exec_mrcP15_of_denied (r := .pmswinc) (by decide) hruns.1 harm (Bool.or_true _)

end Sys2Proof.Machine

/-!
# Writes of CP15

An MCR that the rights admit is the write of the register its selector names (`exec_mcrOf_of_mayWrite`). What each register
keeps of a word is said of the two tables of plain registers at once (`stores_of_mem_cp15Stores`,
`stores_of_mem_pmuStores`); then of PMSWINC, and of SCTLR and ACTLR with the sequences that their changes have to keep.
-/

namespace Sys2Proof.Machine

/-! ### Admitted writes -/

/-- The mode may write what a selector names (40_system_register_access.md R434). -/
abbrev MayWrite (s : State) (x : Selector) : Prop :=
  s.privileged = true ∨ x ∈ userWrites ∨ x ∈ userPmu ∧ s.pmu.userenr.getLsbD 0 = true

theorem userWrites_of_mem {x : Selector} {r : Cp15Reg} (hx : x ∈ userWrites) (hname : Names x r) : r.userWrites = true :=
  holds_of_names hx hname (by decide)

section

variable {c : Cond} {rt : Reg} {s t u : State} {x : Selector} {r : Cp15Reg} {v : Word}

theorem MayWrite.admits (hmay : MayWrite s x) (hname : Names x r) : (!s.privileged && !userWritable s r) = false := by
  rw [userWritable_eq, pmuUserEnabled]
  obtain hpriv | hx | ⟨hx, hen⟩ := hmay
  · rw [hpriv]; rfl
  · rw [userWrites_of_mem hx hname, Bool.true_or, Bool.not_true, Bool.and_false]
  · rw [userMonitor_of_mem hx hname, hen, Bool.and_self, Bool.or_true, Bool.not_true, Bool.and_false]

/-- MCR of a register that the mode may write and that can be written is the write of it (40_system_register_access.md R433). -/
theorem exec_mcrOf_of_mayWrite (hc : condPassed c s.cpsr = true) (hrt : rt ≠ 15) (hmay : MayWrite s x) (hname : Names x r)
    (hw : r.readOnly = false) :
    exec (mcrOf c rt x) s = finish ((do writeCp15 r (s.reg rt); fallThrough : M Unit) s) := by
  refine (conditional_passed hc _).trans (congrArg finish ?_)
  rw [show cp15Sel _ _ _ _ = some r from hname]
  calc
    _ = (do notPc rt; writeCp15 r (s.reg rt); fallThrough : M Unit) s := undefinedIf_admits (hmay.admits hname) hw _ s
    _ = (do writeCp15 r (s.reg rt); fallThrough : M Unit) s := bind_ok (notPc_of_ne hrt s)

/-- A selector names a register that can be written, and a write of `v` to it leaves `t` before the pc advances. -/
def Stores (s : State) (x : Selector) (v : Word) (t : State) : Prop :=
  ∃ r, Names x r ∧ r.readOnly = false ∧ writeCp15 r v s = .ok () t ∧ t.pc = s.pc

/-- A register whose write completes at once. -/
theorem Stores.of (r : Cp15Reg) (hname : Names x r := by decide) (hw : r.readOnly = false := by rfl)
    (hwrite : writeCp15 r v s = .ok () t := by rfl) (hpc : t.pc = s.pc := by rfl) : Stores s x v t :=
  ⟨r, hname, hw, hwrite, hpc⟩

theorem exec_mcrOf_stores (hruns : Runs c s) (hrt : rt ≠ 15) (hmay : MayWrite s x) (h : Stores s x (s.reg rt) t) :
    exec (mcrOf c rt x) s = .next t.past := by
  obtain ⟨r, hname, hw, hwrite, hpc⟩ := h
  rw [exec_mcrOf_of_mayWrite hruns.1 hrt hmay hname hw, bind_ok hwrite, fallThrough_of_ne (by rw [hpc]; exact hruns.2)]
  rfl

end

/-! ### Plain registers -/

/-- The write of every register of CP15 that is plain storage (11_cp15_registers.md R120 to R184). -/
theorem stores_of_mem_cp15Stores (s : State) (v : Word) : ∀ e ∈ cp15Stores s v, Stores s e.1 v (s.setCp15 e.2) := by
  have hdeer (n : Fin 3) : writeCp15 (.deer n) v s =
      .ok () (s.setCp15 (if s.cfg.ecc then { s.cp15 with deer := s.cp15.deer.set n (v &&& 0xF2073FFF) } else s.cp15)) := by
    cases hecc : s.cfg.ecc <;> simp only [writeCp15, bind_ok (get_apply s), setCp15, State.setCp15, hecc] <;> rfl
  have hieer (n : Fin 3) : writeCp15 (.ieer n) v s =
      .ok () (s.setCp15 (if s.cfg.ecc then { s.cp15 with ieer := s.cp15.ieer.set n (v &&& 0xF2003FFF) } else s.cp15)) := by
    cases hecc : s.cfg.ecc <;> simp only [writeCp15, bind_ok (get_apply s), setCp15, State.setCp15, hecc] <;> rfl
  have hdtcmeer := congrArg (fun w => EStateM.Result.ok (ε := Stop) () (s.setCp15 { s.cp15 with dtcmeer := w }))
    (and_tcmeerMask s s.cfg.dtcm v)
  have hitcmeer := congrArg (fun w => EStateM.Result.ok (ε := Stop) () (s.setCp15 { s.cp15 with itcmeer := w }))
    (and_tcmeerMask s s.cfg.itcm v)
  simp only [cp15Stores, List.forall_mem_cons, List.not_mem_nil, false_imp_iff, implies_true, and_true]
  exact ⟨.of .csselr, .of .dfsr, .of .ifsr, .of .dfar, .of .ifar, .of .contextidr, .of .tpidrurw, .of .tpidruro,
    .of .tpidrprw, .of .pcr, .of .radrlo, .of .radrhi, .of .raeccr,
    .of (.deer 0) (hwrite := hdeer 0), .of (.deer 1) (hwrite := hdeer 1), .of (.deer 2) (hwrite := hdeer 2),
    .of (.ieer 0) (hwrite := hieer 0), .of (.ieer 1) (hwrite := hieer 1), .of (.ieer 2) (hwrite := hieer 2),
    .of .dtcmeer (hwrite := hdtcmeer), .of .itcmeer (hwrite := hitcmeer)⟩

/-- PMCR keeps four bits; its bits 1 and 2 clear the event counters and the cycle counter. -/
theorem writePmcr_eq (v : Word) (p : Pmu) : writePmcr v p = { p with
    pmcr := maskWrite p.pmcr v 0x39
    evcntr := if v.getLsbD 1 then Vector.replicate 8 0 else p.evcntr
    ccntr := if v.getLsbD 2 then 0 else p.ccntr } := by
  unfold writePmcr
  cases v.getLsbD 1 <;> cases v.getLsbD 2 <;> rfl

/-- The write of every register of the PMU that is plain storage (64_debug_pmu.md R731, R738). -/
theorem stores_of_mem_pmuStores (s : State) (v : Word) : ∀ e ∈ pmuStores s v, Stores s e.1 v (s.setPmuRegs e.2) := by
  have hpmcr := congrArg (fun p => EStateM.Result.ok (ε := Stop) () (s.setPmuRegs p)) (writePmcr_eq v s.pmu)
  simp only [pmuStores, List.forall_mem_cons, List.not_mem_nil, false_imp_iff, implies_true, and_true]
  exact ⟨.of .pmcr (hwrite := hpmcr), .of .pmcntenset, .of .pmcntenclr, .of .pmovsr, .of .pmselr, .of .pmccntr,
    .of .pmuserenr, .of .pmintenset, .of .pmintenclr⟩

/-- The write of the registers of the event counter that PMSELR selects (64_debug_pmu.md R731). -/
theorem stores_counter {s : State} {n : Fin 8} (v : Word) (hn : s.pmu.selr.toNat % 32 = n.val) :
    Stores s (0, 9, 13, 1) v (s.setPmuRegs { s.pmu with evtyper := s.pmu.evtyper.set n (v &&& 0xFF) }) ∧
    Stores s (0, 9, 13, 2) v (s.setPmuRegs { s.pmu with evcntr := s.pmu.evcntr.set n v }) := by
  have hsel := selectedCounter_of_mod hn
  refine ⟨.of .pmxevtyper (hwrite := ?_), .of .pmxevcntr (hwrite := ?_)⟩
  · simp only [writeCp15, bind_ok (get_apply s), hsel]; rfl
  · simp only [writeCp15, bind_ok (get_apply s), hsel]; rfl

/-- The write of the registers of the region that RGNR names (11_cp15_registers.md R144 to R147). -/
theorem stores_region {s : State} {n : Fin 16} (v : Word) (hn : s.cp15.rgnr.toNat = n.val) (hlt : n.val < regionCount s.cfg) :
    Stores s (0, 6, 1, 0) v (s.setCp15 { s.cp15 with drbar := s.cp15.drbar.set n (v &&& 0xFFFFFFE0) }) ∧
    Stores s (0, 6, 1, 2) v (s.setCp15 { s.cp15 with drsr := s.cp15.drsr.set n (v &&& 0x0000FF3F) }) ∧
    Stores s (0, 6, 1, 4) v (s.setCp15 { s.cp15 with dracr := s.cp15.dracr.set n (v &&& 0x0000173F) }) :=
  have hregion := currentRegion_of_lt hn hlt
  ⟨.of .drbar (hwrite := (bind_ok (get_apply s)).trans (bind_ok hregion)),
    .of .drsr (hwrite := (bind_ok (get_apply s)).trans (bind_ok hregion)),
    .of .dracr (hwrite := (bind_ok (get_apply s)).trans (bind_ok hregion))⟩

/-! ### PMSWINC -/

/-- A write of PMSWINC raises this counter: it selects it, and the counter is enabled and counts event 0x00 (64_debug_pmu.md
R738). -/
def raises (v : Word) (p : Pmu) (n : Fin 8) : Bool :=
  v.getLsbD n.val && counterEnabled p n.val && decide (p.evtyper[n] &&& 0xFF = 0)

/-- One counter's part of a write of PMSWINC. -/
def raise (v : Word) (p : Pmu) (n : Fin 8) : Pmu := if raises v p n then bumpEvent n 1 p else p

theorem softwareIncrement_eq (v : Word) (p : Pmu) :
    softwareIncrement v p = [0, 1, 2, 3, 4, 5, 6, 7].foldl (raise v) p := rfl

/-- `q` is `p` after a write of PMSWINC did its part on the counters of a list. -/
structure Raised (v : Word) (ns : List (Fin 8)) (p q : Pmu) : Prop where
  rest : q = { p with evcntr := q.evcntr, ovsr := q.ovsr }
  counter : ∀ n : Fin 8, q.evcntr[n] = p.evcntr[n] + BitVec.ofNat 32 (decide (n ∈ ns) && raises v p n).toNat
  flag : ∀ n : Fin 8, q.ovsr.getLsbD n.val =
    (p.ovsr.getLsbD n.val || (decide (n ∈ ns) && raises v p n && decide (p.evcntr[n] = 0xFFFFFFFF)))
  high : q.ovsr &&& 0xFFFFFF00 = p.ovsr &&& 0xFFFFFF00

theorem raised_nil (v : Word) (p : Pmu) : Raised v [] p p where
  rest := rfl
  counter n := by simp
  flag n := by simp
  high := rfl

/-- A counter raised by one wraps from its last value. -/
theorem overflows_iff (w : Word) : 2 ^ 32 ≤ w.toNat + (1 : Word).toNat ↔ w = 0xFFFFFFFF := by
  have hlast : w = 0xFFFFFFFF ↔ w.toNat = 0xFFFFFFFF := BitVec.toNat_eq
  have hone : (1 : Word).toNat = 1 := rfl
  rw [hlast, hone]
  omega

/-- The flags after a counter is raised by one: its own is set if it wraps. -/
theorem getLsbD_bumpEvent_one (n : Fin 8) (p : Pmu) (k : Nat) : (bumpEvent n 1 p).ovsr.getLsbD k =
    (p.ovsr.getLsbD k || (decide (k = n.val) && decide (p.evcntr[n] = 0xFFFFFFFF))) := by
  unfold bumpEvent
  simp only [overflows_iff]
  split
  · next hlast => rw [getLsbD_setBit_true _ (by omega), decide_eq_true hlast, Bool.and_true]
  · next hlast => rw [decide_eq_false hlast, Bool.and_false, Bool.or_false]

theorem raised_raise (v : Word) (p : Pmu) (n : Fin 8) : Raised v [n] p (raise v p n) := by
  have hmem (m : Fin 8) : decide (m ∈ [n]) = decide (m.val = n.val) := by simp [Fin.ext_iff]
  unfold raise
  cases hr : raises v p n with
  | false =>
    have hnone (m : Fin 8) : (decide (m ∈ [n]) && raises v p m) = false := by
      by_cases hm : m = n
      · rw [hm, hr, Bool.and_false]
      · rw [decide_eq_false (by simpa using hm), Bool.false_and]
    rw [if_neg (by decide)]
    exact { rest := rfl
            counter := fun m => by rw [hnone]; exact (BitVec.add_zero _).symm
            flag := fun m => by rw [hnone, Bool.false_and, Bool.or_false]
            high := rfl }
  | true =>
    rw [if_pos rfl]
    refine { rest := rfl, counter := fun m => ?_, flag := fun m => ?_, high := ?_ }
    · by_cases hm : m = n
      · subst hm; simp [bumpEvent, hr]
      · have hne : n.val ≠ m.val := fun h => hm (Fin.ext h.symm)
        simp [bumpEvent, hm, hne]
    · rw [getLsbD_bumpEvent_one, hmem]
      by_cases hm : m = n
      · subst hm; rw [hr, Bool.and_true]
      · rw [decide_eq_false fun h => hm (Fin.ext h), Bool.false_and, Bool.false_and, Bool.false_and]
    · have hbit : ∀ k : Fin 8, (0xFFFFFF00 : Word).getLsbD k.val = false := by decide
      unfold bumpEvent
      dsimp only
      split
      · exact setBit_and _ _ _ _ (hbit n)
      · rfl

/-- The parts on different counters do not meet. -/
theorem Raised.cons {v : Word} {n : Fin 8} {ns : List (Fin 8)} {p q r : Pmu} (hn : n ∉ ns) (h : Raised v [n] p q)
    (h' : Raised v ns q r) : Raised v (n :: ns) p r := by
  have hsame (m : Fin 8) : raises v q m = raises v p m := by rw [h.rest]; rfl
  refine { rest := ?_, counter := fun m => ?_, flag := fun m => ?_, high := h'.high.trans h.high }
  · rw [h'.rest, h.rest]
  · rw [h'.counter, h.counter, hsame]
    by_cases hm : m = n
    · subst hm; simp [hn]
    · simp [hm]
  · rw [h'.flag, h.flag, h.counter, hsame]
    by_cases hm : m = n
    · subst hm; simp [hn]
    · simp [hm]

theorem raised_foldl (v : Word) {ns : List (Fin 8)} (hnodup : ns.Nodup) (p : Pmu) : Raised v ns p (ns.foldl (raise v) p) := by
  induction ns generalizing p with
  | nil => exact raised_nil v p
  | cons n ns ih =>
    obtain ⟨hn, hns⟩ := List.nodup_cons.mp hnodup
    exact .cons hn (raised_raise v p n) (ih hns _)

theorem raised_softwareIncrement (v : Word) (p : Pmu) : Raised v [0, 1, 2, 3, 4, 5, 6, 7] p (softwareIncrement v p) :=
  softwareIncrement_eq v p ▸ raised_foldl v (by decide) p

/-- A write of PMSWINC, counter by counter (64_debug_pmu.md R738). -/
theorem softwareIncrement_counter (v : Word) (p : Pmu) (n : Fin 8) {up : Bool}
    (hup : up = (v.getLsbD n.val && p.pmcr.getLsbD 0 && p.cnten.getLsbD n.val && decide (p.evtyper[n] &&& 0xFF = 0))) :
    (softwareIncrement v p).evcntr[n] = p.evcntr[n] + BitVec.ofNat 32 up.toNat ∧
    (softwareIncrement v p).ovsr.getLsbD n.val =
      (p.ovsr.getLsbD n.val || (up && decide (p.evcntr[n] = 0xFFFFFFFF))) := by
  have hmem : ∀ n : Fin 8, decide (n ∈ ([0, 1, 2, 3, 4, 5, 6, 7] : List (Fin 8))) = true := by decide
  have hraises : raises v p n = up := by rw [hup, raises, counterEnabled, ← Bool.and_assoc (v.getLsbD n.val)]
  have h := raised_softwareIncrement v p
  exact ⟨by rw [h.counter, hmem, hraises, Bool.true_and], by rw [h.flag, hmem, hraises, Bool.true_and]⟩

/-! ### Writable bits -/

theorem getLsbD_maskWrite {old v mask : Word} {k : Nat} (hk : k < 32) {p : Prop} [Decidable p]
    (hmask : mask.getLsbD k = true ↔ p) :
    (maskWrite old v mask).getLsbD k = if p then v.getLsbD k else old.getLsbD k := by
  rw [maskWrite, BitVec.getLsbD_or, BitVec.getLsbD_and, BitVec.getLsbD_and, BitVec.getLsbD_not, decide_eq_true hk]
  by_cases hp : p
  · rw [hmask.mpr hp, if_pos hp, Bool.not_true, Bool.and_false, Bool.and_false, Bool.false_or, Bool.and_true]
  · rw [eq_false_of_ne_true fun h => hp (hmask.mp h), if_neg hp, Bool.not_false, Bool.and_true, Bool.and_true, Bool.and_false,
      Bool.or_false]

/-- The bits of SCTLR that are read/write: C and I with their caches (11_cp15_registers.md R120). -/
theorem getLsbD_sctlrMask (cfg : Config) {k : Nat} (hk : k < 32) : (sctlrMask cfg).getLsbD k = true ↔
    k ∈ [30, 25, 21, 19, 17, 13, 11, 10, 1, 0] ∨ k = 12 ∧ cfg.icache ≠ .none ∨ k = 2 ∧ cfg.dcache ≠ .none := by
  have hall : ∀ i d : Bool, ∀ k < 32, (0x422A3C07 &&& ~~~ (bitAt i 12 ||| bitAt d 2) : Word).getLsbD k = true ↔
      k ∈ [30, 25, 21, 19, 17, 13, 11, 10, 1, 0] ∨ k = 12 ∧ i = false ∨ k = 2 ∧ d = false := by decide
  unfold sctlrMask
  simpa only [beq_eq_false_iff_ne] using hall (cfg.icache == .none) (cfg.dcache == .none) k hk

/-- The bits of ACTLR that are read/write: the error checking in builds with ECC (11_cp15_registers.md R131). -/
theorem getLsbD_actlrMask (cfg : Config) {k : Nat} (hk : k < 32) : (actlrMask cfg).getLsbD k = true ↔
    k ∈ [3, 6, 8, 11] ∨ (k = 9 ∨ k = 10) ∧ cfg.ecc = true ∨ k = 0 ∧ cfg.twoCpus = true := by
  have hall : ∀ e two : Bool, ∀ k < 32,
      (0x00000F49 &&& ~~~ ((if e then 0 else 0x600) ||| bitAt (!two) 0) : Word).getLsbD k = true ↔
        k ∈ [3, 6, 8, 11] ∨ (k = 9 ∨ k = 10) ∧ e = true ∨ k = 0 ∧ two = true := by decide
  exact hall cfg.ecc cfg.twoCpus k hk

/-- The bits of CPACR that are read/write (11_cp15_registers.md R132). -/
theorem getLsbD_cpacrMask (cfg : Config) {k : Nat} (hk : k < 32) : (cpacrMask cfg).getLsbD k = true ↔
    20 ≤ k ∧ k ≤ 23 ∧ cfg.fpu ≠ .none := by
  have hbits : ∀ k < 32, (0x00F00000 : Word).getLsbD k = true ↔ 20 ≤ k ∧ k ≤ 23 := by decide
  unfold cpacrMask
  by_cases hfpu : cfg.fpu = .none
  · simp [hfpu]
  · rw [if_neg hfpu, hbits k hk, and_iff_left hfpu]

/-- The bits of a TCM region register that are read/write (11_cp15_registers.md R155, R156). -/
theorem getLsbD_tcmrrMask (size : RamSize) {k : Nat} (hk : k < 32) : (tcmrrMask size).getLsbD k = true ↔
    12 ≤ k ∨ k = 0 ∧ size ≠ .none := by
  have hbits : ∀ k < 32, ((0xFFFFF000 : Word).getLsbD k = true ↔ 12 ≤ k) ∧
    ((0xFFFFF001 : Word).getLsbD k = true ↔ 12 ≤ k ∨ k = 0) := by decide
  obtain ⟨hwithout, hwith⟩ := hbits k hk
  unfold tcmrrMask
  by_cases hsize : size = .none
  · simp only [hsize, if_true, hwithout, ne_eq, not_true_eq_false, and_false, or_false]
  · simp only [hsize, if_false, hwith, ne_eq, not_false_eq_true, and_true]

/-! ### SCTLR and ACTLR -/

section

variable {s : State}

/-- A body that refuses first. -/
theorem refuseIf_bind {α : Type} (b : Bool) (f : Refusal) (k : Unit → M α) :
    (refuseIf b f >>= k) s = if b then .error (.refuse f) s else k () s := by
  cases b <;> rfl

/-- A write of SCTLR outside the sequences is refused; one inside takes effect and notes what is due after it
(70_reset_and_hazards.md R861, R862). -/
theorem writeCp15_sctlr (v : Word) {w : Word} (hw : w = maskWrite s.cp15.sctlr v (sctlrMask s.cfg)) :
    writeCp15 .sctlr v s = if leavesSequence s w then .error (.refuse .cacheSequence) s
      else .ok () { s with cp15 := { s.cp15 with sctlr := w }, upkeep := s.upkeep.after s.cp15.sctlr w } := by
  subst hw
  exact (bind_ok (get_apply s)).trans ((bind_ok (get_apply s)).trans (refuseIf_bind ..))

theorem stores_sctlr (v : Word) {w : Word} (hw : w = maskWrite s.cp15.sctlr v (sctlrMask s.cfg))
    (h : ¬ leavesSequence s w = true) :
    Stores s (0, 1, 0, 0) v
      { s with cp15 := { s.cp15 with sctlr := w }, upkeep := s.upkeep.after s.cp15.sctlr w } :=
  .of .sctlr (hwrite := (writeCp15_sctlr v hw).trans (if_neg h))

theorem leavesSequence_iff {w : Word} {d i : Prop} (hd : d ↔ w.getLsbD 2 ≠ s.cp15.sctlr.getLsbD 2)
    (hi : i ↔ w.getLsbD 12 ≠ s.cp15.sctlr.getLsbD 12) :
    leavesSequence s w = true ↔ (d ∨ i) ∧ s.upkeep.isb = false ∨ d ∧ s.upkeep.dsb = false ∨
      i ∧ w.getLsbD 12 = true ∧ s.upkeep.instruction = false ∨
      d ∧ w.getLsbD 2 = true ∧ (dataInvalidated s = false ∨ dataCleaned s = false) := by
  rw [hd, hi]
  simp only [leavesSequence, Bool.or_eq_true, Bool.and_eq_true, bne_iff_ne, Bool.not_eq_true', Bool.and_eq_false_iff, and_assoc,
    or_assoc]

/-- What is due after a change of SCTLR (70_reset_and_hazards.md R861, R862; log entry 79). -/
theorem upkeep_after (u : CacheUpkeep) {old w : Word} {d i : Prop} (hd : d ↔ w.getLsbD 2 ≠ old.getLsbD 2)
    (hi : i ↔ w.getLsbD 12 ≠ old.getLsbD 12) :
    ((u.after old w).instruction = true ↔ u.instruction = true ∧ ¬ (i ∧ w.getLsbD 12 = false)) ∧
    ((u.after old w).isb = true ↔ u.isb = true ∧ ¬ i) ∧ ((u.after old w).dsb = true ↔ u.dsb = true ∧ ¬ d) ∧
    (d → w.getLsbD 2 = false →
      (u.after old w).data = Vector.replicate 64 0 ∧ (u.after old w).cleaned = Vector.replicate 64 0) ∧
    (¬ d ∨ w.getLsbD 2 = true → (u.after old w).data = u.data ∧ (u.after old w).cleaned = u.cleaned) := by
  rw [hd, hi]
  unfold CacheUpkeep.after
  generalize w.getLsbD 2 = c, old.getLsbD 2 = oldC, w.getLsbD 12 = e, old.getLsbD 12 = oldE
  refine ⟨?_, ?_, ?_, ?_, ?_⟩
  · cases e <;> cases oldE <;> simp
  · cases e <;> cases oldE <;> simp
  · cases c <;> cases oldC <;> simp
  · cases c <;> cases oldC <;> simp
  · cases c <;> cases oldC <;> simp

/-- A write of ACTLR that leaves the error checking alone (11_cp15_registers.md R131). -/
theorem stores_actlr (v : Word) {w : Word} (hw : w = maskWrite s.cp15.actlr v (actlrMask s.cfg))
    (hsame : w &&& 0x600 = s.cp15.actlr &&& 0x600) :
    Stores s (0, 1, 0, 1) v (s.setCp15 { s.cp15 with actlr := w }) := by
  subst hw
  exact .of .actlr
    (hwrite := (bind_ok (get_apply s)).trans ((bind_ok (get_apply s)).trans ((ite_apply ..).trans (if_pos hsame))))

/-- A write of ACTLR that changes the error checking refuses first what is outside the sequence. -/
theorem writeCp15_actlr_checking (v : Word) {w : Word} (hw : w = maskWrite s.cp15.actlr v (actlrMask s.cfg))
    (hchange : w &&& 0x600 ≠ s.cp15.actlr &&& 0x600) :
    writeCp15 .actlr v s = if s.cp15.sctlr &&& 0x1004 ≠ 0 ∨ s.upkeep.isb = false ∨ dataCleaned s = false
      then .error (.refuse .cacheSequence) s
      else .ok () { s with cp15 := { s.cp15 with actlr := w }, upkeep := CacheUpkeep.reset } := by
  subst hw
  refine (bind_ok (get_apply s)).trans ((bind_ok (get_apply s)).trans ((ite_apply ..).trans ((if_neg hchange).trans ?_)))
  refine (refuseIf_bind ..).trans ?_
  simp only [Bool.or_eq_true, bne_iff_ne, Bool.not_eq_true', or_assoc]
  rfl

/-- A change of the error checking with the caches off and their sequence complete (70_reset_and_hazards.md R863). -/
theorem stores_actlr_checking (v : Word) {w : Word} (hw : w = maskWrite s.cp15.actlr v (actlrMask s.cfg))
    (hchange : w &&& 0x600 ≠ s.cp15.actlr &&& 0x600) (hoff : s.cp15.sctlr &&& 0x1004 = 0) (hisb : s.upkeep.isb = true)
    (hclean : dataCleaned s = true) :
    Stores s (0, 1, 0, 1) v { s with cp15 := { s.cp15 with actlr := w }, upkeep := CacheUpkeep.reset } :=
  .of .actlr (hwrite := (writeCp15_actlr_checking v hw hchange).trans (if_neg (by
    simp only [hoff, hisb, hclean, ne_eq, not_true_eq_false, Bool.true_eq_false, or_self, not_false_eq_true])))

/-- A region number past the last region is refused (11_cp15_registers.md R148; log entry 63). -/
theorem writeCp15_rgnr (v : Word) : writeCp15 .rgnr v s = if regionCount s.cfg ≤ v.toNat
    then .error (.refuse .regionNumber) s else .ok () (s.setCp15 { s.cp15 with rgnr := v }) := by
  refine (bind_ok (get_apply s)).trans ((refuseIf_bind ..).trans ?_)
  simp only [decide_eq_true_eq]
  rfl

theorem stores_rgnr {v : Word} (h : v.toNat < regionCount s.cfg) :
    Stores s (0, 6, 2, 0) v (s.setCp15 { s.cp15 with rgnr := v }) :=
  .of .rgnr (hwrite := (writeCp15_rgnr v).trans (if_neg (Nat.not_le.mpr h)))

end

/-! ### Operations of c7 -/

theorem performOp_pc {o : Cp15Op} {v : Word} {s t : State} (h : performOp o v s = .ok () t) : t.pc = s.pc := by
  have hstep := accesses_performOp o v s
  rw [h] at hstep
  exact hstep.pc

theorem stores_op {o : Cp15Op} {x : Selector} {v : Word} {s t : State} (hname : Names x (.op o))
    (h : performOp o v s = .ok () t) : Stores s x v t :=
  ⟨.op o, hname, rfl, (bind_ok (get_apply s)).trans h, performOp_pc h⟩

theorem mcrOf_selectorOf (c : Cond) (rt : Reg) (op1 : BitVec 3) (crn crm : BitVec 4) (op2 : BitVec 3) :
    mcrOf c rt (selectorOf op1 crn crm op2) = .mcrP15 c op1 crn rt op2 crm := by
  simp only [mcrOf, selectorOf, BitVec.ofNat_toNat, BitVec.setWidth_eq]

theorem names_selectorOf {op1 : BitVec 3} {crn crm : BitVec 4} {op2 : BitVec 3} {r : Cp15Reg}
    (hsel : cp15Sel op1 crn crm op2 = some r) : Names (selectorOf op1 crn crm op2) r := by
  simpa only [Names, selectorOf, BitVec.ofNat_toNat, BitVec.setWidth_eq] using hsel

/-- Settles O41: each register by what its write leaves (`Stores`), for whom the rights admit; the writes outside a sequence or
past the last region by the refusal they end in. -/
theorem systemRegisterWrites : Obligations.SystemRegisterWrites := by
  constructor
  · rintro c rt s _ hruns hrt rfl
    have hstores {x : Selector} {t : State} := exec_mcrOf_stores (x := x) (t := t) hruns hrt
    refine ⟨fun e he hmay => ?plain, fun e he hmay => ?pmu, fun hmay => ⟨fun n hn => ?counters, ?pmswinc⟩, ?dmb, ?dsb, ?isb⟩
    case plain => exact hstores (hmay.imp_right .inl) (stores_of_mem_cp15Stores s _ e he)
    case pmu => exact hstores (hmay.imp_right .inr) (stores_of_mem_pmuStores s _ e he)
    case counters =>
      obtain ⟨htype, hcount⟩ := stores_counter (s.reg rt) hn
      exact ⟨hstores (hmay.imp_right fun hen => .inr ⟨by decide, hen⟩) htype,
        hstores (hmay.imp_right fun hen => .inr ⟨by decide, hen⟩) hcount⟩
    case pmswinc =>
      have hraised := raised_softwareIncrement (s.reg rt) s.pmu
      exact ⟨softwareIncrement (s.reg rt) s.pmu,
        hstores (hmay.imp_right fun hen => .inr ⟨by decide, hen⟩) (.of .pmswinc), hraised.rest,
        fun n _ hup => softwareIncrement_counter _ _ n hup, hraised.high⟩
    case dmb => exact hstores (.inr (.inl (by decide))) (.of (.op .dmb))
    case dsb => exact exec_mcrOf_of_mayWrite hruns.1 hrt (.inr (.inl (by decide))) (r := .op .dsb) (by decide) rfl
    case isb => exact exec_mcrOf_of_mayWrite hruns.1 hrt (.inr (.inl (by decide))) (r := .op .isb) (by decide) rfl
  · rintro c rt s _ hruns hpriv hrt rfl
    have hstores {x : Selector} {t : State} := exec_mcrOf_stores (x := x) (t := t) hruns hrt (.inl hpriv)
    refine ⟨?sctlr, ?actlr, ?cpacr, ?tcm, fun hlt => hstores (stores_rgnr hlt), fun hle => ?rgnr, fun n hn hlt => ?regions,
      hstores (.of (.op .nop)), fun op1 crn crm op2 o t hsel hop => ?operation⟩
    case sctlr =>
      refine ⟨_, fun k hk => getLsbD_maskWrite hk (getLsbD_sctlrMask s.cfg hk), fun d i hd hi bad hbad => ?_⟩
      have hleaves := (leavesSequence_iff hd hi).trans hbad.symm
      exact ⟨fun h => exec_mcrOf_refused hruns hpriv hrt (r := .sctlr) (by decide) rfl
          ((writeCp15_sctlr _ rfl).trans (if_pos (hleaves.mpr h))),
        fun h => ⟨_, hstores (stores_sctlr _ rfl fun hl => h (hleaves.mp hl)), upkeep_after _ hd hi⟩⟩
    case actlr =>
      refine ⟨_, fun k hk => getLsbD_maskWrite hk (getLsbD_actlrMask s.cfg hk), fun hsame => hstores (stores_actlr _ rfl hsame),
        fun hchange hoff hisb hclean => hstores (stores_actlr_checking _ rfl hchange hoff hisb hclean), fun hchange hbad => ?_⟩
      exact exec_mcrOf_refused hruns hpriv hrt (r := .actlr) (by decide) rfl
        ((writeCp15_actlr_checking _ rfl hchange).trans (if_pos hbad))
    case cpacr => exact ⟨_, fun k hk => getLsbD_maskWrite hk (getLsbD_cpacrMask s.cfg hk), hstores (.of .cpacr)⟩
    case tcm =>
      exact ⟨_, _, fun k hk => ⟨getLsbD_maskWrite hk (getLsbD_tcmrrMask s.cfg.dtcm hk),
        getLsbD_maskWrite hk (getLsbD_tcmrrMask s.cfg.itcm hk)⟩, hstores (.of .dtcmrr), hstores (.of .itcmrr)⟩
    case rgnr => exact exec_mcrOf_refused hruns hpriv hrt (r := .rgnr) (by decide) rfl ((writeCp15_rgnr _).trans (if_pos hle))
    case regions =>
      obtain ⟨hbase, hsize, haccess⟩ := stores_region (s.reg rt) hn hlt
      exact ⟨hstores hbase, hstores hsize, hstores haccess⟩
    case operation =>
      rw [← mcrOf_selectorOf, ← performOp_pc hop]
      exact hstores (stores_op (names_selectorOf hsel) hop)

end Sys2Proof.Machine

/-!
# Data processing

An operation on two sources hands its result and the flags of it to `writeResult` (`exec_op3`), a comparison sets the flags
alone (`Op2.body_eq`), MOV and MVN are logical results (`exec_mov`, `exec_mvn`). To a register that is `State.result`; to R15 a
branch or an exception return.
-/

namespace Sys2Proof.Machine

/-! ### Sums and differences -/

/-- AddWithCarry, by its exact results (42_a32_core_subset.md R954). -/
theorem addWithCarry_eq (x y : Word) (c : Bool) : addWithCarry x y c =
    ⟨x + y + BitVec.ofNat 32 c.toNat, carryOut x y c, signedOverflow (x.toInt + y.toInt + c.toNat)⟩ := by
  have hvalue := addWithCarry_value x y c
  have hint : (addWithCarry x y c).value.toInt = (x.toInt + y.toInt + c.toNat).bmod (2 ^ 32) := by
    rw [hvalue, BitVec.toInt_add, BitVec.toInt_add, BitVec.toInt_ofNat', Int.add_bmod_bmod, Int.bmod_add_bmod]
  have hoverflow : (addWithCarry x y c).overflow = signedOverflow (x.toInt + y.toInt + c.toNat) := by
    rw [addWithCarry_overflow, hint, signedOverflow, decide_eq_decide, Int.bmod_def]
    split <;> omega
  rw [← hvalue, ← hoverflow]
  rfl

theorem toInt_not (x : Word) : (~~~ x).toInt = -x.toInt - 1 := by
  have hx := x.isLt
  rw [BitVec.toInt_eq_toNat_cond, BitVec.toInt_eq_toNat_cond, BitVec.toNat_not]
  split <;> split <;> omega

/-- AddWithCarry of a complement is a difference, less a borrow unless the carry is set. -/
theorem addWithCarry_not (x y : Word) (c : Bool) : addWithCarry x (~~~ y) c =
    ⟨x - y - BitVec.ofNat 32 (!c).toNat, noBorrow x y (!c), signedOverflow (x.toInt - y.toInt - (!c).toNat)⟩ := by
  have hx := x.isLt
  have hy := y.isLt
  rw [addWithCarry_eq, toInt_not, carryOut, BitVec.toNat_not, noBorrow]
  congr 1
  · rw [BitVec.not_eq_neg_add]
    cases c <;> simp [BitVec.sub_eq_add_neg, add_assoc]
  · rw [decide_eq_decide]
    cases c <;> simp only [Bool.toNat_true, Bool.toNat_false, Bool.not_true, Bool.not_false] <;> omega
  · congr 1
    cases c <;> simp only [Bool.toNat_true, Bool.toNat_false, Bool.not_true, Bool.not_false] <;> omega

theorem addWithCarry_comm (x y : Word) (c : Bool) : addWithCarry x y c = addWithCarry y x c := by
  rw [addWithCarry, addWithCarry, Nat.add_comm x.toNat, Int.add_comm x.toInt]

/-! ### Results -/

section

variable {S : Bool} {rd rn : Reg} {s : State}

theorem State.setReg_flagC (s : State) (r : Reg) (v : Word) : (s.setReg r v).flagC = s.flagC := by
  rw [State.flagC, State.setReg_cpsr, State.flagC]

theorem State.setReg_flagV (s : State) (r : Reg) (v : Word) : (s.setReg r v).flagV = s.flagV := by
  rw [State.flagV, State.setReg_cpsr, State.flagV]

/-- A logical result is written as any other, with the old V. -/
theorem logical_eq (r : Word) (carry : Bool) :
    logical S rd r carry s = writeResult S rd r (setResultFlags r carry s.flagV) s := by
  unfold logical writeResult
  split
  · rfl
  · rw [bind_ok (writeReg_apply rd r s), bind_ok (writeReg_apply rd r s)]
    cases S with
    | false => rfl
    | true =>
      rw [if_pos rfl, if_pos rfl, bind_ok (setLogicalFlags_apply r carry _), bind_ok (setResultFlags_apply r carry _ _),
        State.setReg_flagV]

/-- A result written to a register (42_a32_core_subset.md R959). -/
theorem writeResult_register (hd : rd ≠ 15) (hp : s.pc ≠ 0xFFFFFFFC) (r : Word) (c v : Bool) :
    writeResult S rd r (setResultFlags r c v) s = .ok () (s.result S rd r c v) :=
  writeResult_of_ne hd S r _ (fun t => t.setFlags (r.getLsbD 31) (decide (r = 0)) c v) (fun _ => rfl) (fun _ => rfl) hp

/-- A result written to R15 (42_a32_core_subset.md R955, R956). -/
theorem writeResult_pc (S : Bool) (r : Word) (flags : M Unit) (s : State) :
    writeResult S 15 r flags s = (if S then exceptionReturn r else bxWritePc r) s := rfl

/-- What an operation does with its second operand and the shifter carry. -/
def Op3.body (S : Bool) (rd rn : Reg) (x : Word × Bool) : Op3 → M Unit
  | .and => andWith S rd rn x
  | .eor => eorWith S rd rn x
  | .orr => orrWith S rd rn x
  | .bic => bicWith S rd rn x
  | .add => addWith S rd rn x
  | .sub => subWith S rd rn x
  | .rsb => rsbWith S rd rn x
  | .adc => adcWith S rd rn x
  | .sbc => sbcWith S rd rn x
  | .rsc => rscWith S rd rn x

theorem Op3.body_eq (o : Op3) (x : Word × Bool) {y : Word} (hy : y = s.reg rn) :
    o.body S rd rn x s = writeResult S rd (o.value y x.1 s.flagC)
      (setResultFlags (o.value y x.1 s.flagC) (o.carry y x.1 s.flagC x.2) (o.overflow y x.1 s.flagC s.flagV)) s := by
  subst hy
  have harith {sum : Sum} {v : Word} {cy ov : Bool} (h : sum = ⟨v, cy, ov⟩) :
      arithmetic S rd sum s = writeResult S rd v (setResultFlags v cy ov) s := by rw [h]; rfl
  cases o with
  | and | eor | orr | bic => exact logical_eq _ _
  | add => exact harith (by simp [addWithCarry_eq, Op3.value, Op3.carry, Op3.overflow])
  | sub => exact harith (by simp [addWithCarry_not, Op3.value, Op3.carry, Op3.overflow])
  | rsb => exact harith (by rw [addWithCarry_comm]; simp [addWithCarry_not, Op3.value, Op3.carry, Op3.overflow])
  | adc => exact harith (addWithCarry_eq _ _ _)
  | sbc => exact harith (addWithCarry_not _ _ _)
  | rsc => exact harith ((addWithCarry_comm _ _ _).trans (addWithCarry_not _ _ _))

/-- What a comparison does with its second operand and the shifter carry. -/
def Op2.body (rn : Reg) (x : Word × Bool) : Op2 → M Unit
  | .tst => tstWith rn x
  | .teq => teqWith rn x
  | .cmp => cmpWith rn x
  | .cmn => cmnWith rn x

theorem Op2.body_eq (o : Op2) (hp : s.pc ≠ 0xFFFFFFFC) (x : Word × Bool) {y : Word} (hy : y = s.reg rn) :
    o.body rn x s = .ok () (s.compared (o.op3.value y x.1 s.flagC) (o.op3.carry y x.1 s.flagC x.2)
      (o.op3.overflow y x.1 s.flagC s.flagV)) := by
  subst hy
  have hlogical (r : Word) (carry : Bool) : logicalTest r carry s = .ok () (s.compared r carry s.flagV) :=
    fallThrough_of_ne (s := s.setFlags _ _ _ _) hp
  have harith {sum : Sum} {v : Word} {cy ov : Bool} (h : sum = ⟨v, cy, ov⟩) :
      arithmeticTest sum s = .ok () (s.compared v cy ov) := by
    rw [h]
    exact fallThrough_of_ne (s := s.setFlags _ _ _ _) hp
  cases o with
  | tst | teq => exact hlogical _ _
  | cmp => exact harith (by simp [addWithCarry_not, Op2.op3, Op3.value, Op3.carry, Op3.overflow])
  | cmn => exact harith (by simp [addWithCarry_eq, Op2.op3, Op3.value, Op3.carry, Op3.overflow])

end

/-! ### Instructions -/

section

variable {c : Cond} {S : Bool} {rd rn : Reg} {s : State} (hc : condPassed c s.cpsr = true)

/-- Three registers that are not R15. -/
theorem notPc_three {α : Type} {a b d : Reg} (ha : a ≠ 15) (hb : b ≠ 15) (hd : d ≠ 15) (f : Unit → M α) :
    (do notPc a; notPc b; notPc d >>= f) s = f () s := by
  rw [bind_ok (notPc_of_ne ha s), bind_ok (notPc_of_ne hb s), bind_ok (notPc_of_ne hd s)]

/-- Four registers that are not R15. -/
theorem notPc_four {α : Type} {a b d e : Reg} (ha : a ≠ 15) (hb : b ≠ 15) (hd : d ≠ 15) (he : e ≠ 15) (f : Unit → M α) :
    (do notPc a; notPc b; notPc d; notPc e >>= f) s = f () s :=
  (bind_ok (notPc_of_ne ha s)).trans (notPc_three hb hd he f)

include hc

theorem exec_op3_body (o : Op3) {x : Operand2} (hx : x.allowed rd rn) :
    exec (o.instr c S rn rd x) s = finish (o.body S rd rn (x.value s) s) := by
  cases x with
  | imm | reg => cases o <;> exact conditional_passed hc _
  | rsr rs t m =>
    obtain ⟨hrd, hrn, hrs, hrm⟩ := hx
    have hchecked (f : Unit → M Unit) := congrArg finish (notPc_four (s := s) hrd hrn hrm hrs f)
    cases o <;> exact (conditional_passed hc _).trans (hchecked _)

theorem exec_op2_body (o : Op2) {x : Operand2} (hx : x.allowed 0 rn) :
    exec (o.instr c rn x) s = finish (o.body rn (x.value s) s) := by
  cases x with
  | imm | reg => cases o <;> exact conditional_passed hc _
  | rsr rs t m =>
    obtain ⟨-, hrn, hrs, hrm⟩ := hx
    have hchecked (f : Unit → M Unit) := congrArg finish (notPc_three (s := s) hrn hrm hrs f)
    cases o <;> exact (conditional_passed hc _).trans (hchecked _)

theorem exec_op3 (o : Op3) {x : Operand2} (hx : x.allowed rd rn) {y : Word} (hy : y = s.reg rn) :
    exec (o.instr c S rn rd x) s = finish (writeResult S rd (o.value y (x.value s).1 s.flagC)
      (setResultFlags (o.value y (x.value s).1 s.flagC) (o.carry y (x.value s).1 s.flagC (x.value s).2)
        (o.overflow y (x.value s).1 s.flagC s.flagV)) s) :=
  (exec_op3_body hc o hx).trans (congrArg finish (o.body_eq _ hy))

theorem exec_mov {x : Operand2} (hx : x.allowed rd 0) :
    exec (movInstr c S rd x) s =
      finish (writeResult S rd (x.value s).1 (setResultFlags (x.value s).1 (x.value s).2 s.flagV) s) := by
  rw [← logical_eq]
  cases x with
  | imm => exact conditional_passed hc _
  | reg i t m =>
    cases t with
    | lsr | asr => exact conditional_passed hc _
    | lsl | ror =>
      unfold movInstr
      dsimp only
      split
      · next hi => subst hi; exact conditional_passed hc _
      · exact conditional_passed hc _
  | rsr rs t m =>
    obtain ⟨hrd, -, hrs, hrm⟩ := hx
    have hchecked (f : Unit → M Unit) := congrArg finish (notPc_three (s := s) hrd hrm hrs f)
    cases t <;> exact (conditional_passed hc _).trans (hchecked _)

theorem exec_mvn {x : Operand2} (hx : x.allowed rd 0) :
    exec (mvnInstr c S rd x) s =
      finish (writeResult S rd (~~~ (x.value s).1) (setResultFlags (~~~ (x.value s).1) (x.value s).2 s.flagV) s) := by
  rw [← logical_eq]
  cases x with
  | imm | reg => exact conditional_passed hc _
  | rsr rs t m =>
    obtain ⟨hrd, -, hrs, hrm⟩ := hx
    exact (conditional_passed hc _).trans (congrArg finish (notPc_three (s := s) hrd hrm hrs _))

/-- Every result for R15 in a form that names R15 (42_a32_core_subset.md R955, R956). -/
theorem exec_compute_pc (k : Compute) {x : Operand2} (hx : x.notShiftedByRegister) :
    exec (k.instr c S 15 x) s =
      finish ((if S then exceptionReturn (k.value s x) else bxWritePc (k.value s x)) s) := by
  have hallowed (rn : Reg) : x.allowed 15 rn := by
    cases x with
    | imm | reg => trivial
    | rsr => exact hx.elim
  cases k with
  | op o rn => exact (exec_op3 hc o (hallowed rn) rfl).trans rfl
  | mov => exact (exec_mov hc (hallowed 0)).trans rfl
  | mvn => exact (exec_mvn hc (hallowed 0)).trans rfl

/-! ### R15 in a register-shifted form -/

variable {rs rm : Reg} {ty : ShiftType}

theorem exec_op3_rsr_refused (o : Op3) (h : rn = 15 ∨ rd = 15 ∨ rs = 15 ∨ rm = 15) :
    exec (o.instr c S rn rd (.rsr rs ty rm)) s = .refused .unpredictable := by
  have h' : rd = 15 ∨ rn = 15 ∨ rm = 15 ∨ rs = 15 := by grind
  have hrefused (f : Unit → M Unit) := conditional_refused hc (notPc_four_refuses (f := f) h')
  cases o <;> exact hrefused _

theorem exec_op2_rsr_refused (o : Op2) (h : rn = 15 ∨ rs = 15 ∨ rm = 15) :
    exec (o.instr c rn (.rsr rs ty rm)) s = .refused .unpredictable := by
  have h' : rn = 15 ∨ rm = 15 ∨ rs = 15 := by grind
  have hrefused (f : Unit → M Unit) := conditional_refused hc (notPc_three_refuses (f := f) h')
  cases o <;> exact hrefused _

theorem exec_compute_rsr_refused (k : Compute) (h : rd = 15 ∨ rs = 15 ∨ rm = 15) :
    exec (k.instr c S rd (.rsr rs ty rm)) s = .refused .unpredictable := by
  have h' : rd = 15 ∨ rm = 15 ∨ rs = 15 := by grind
  have hrefused (f : Unit → M Unit) := conditional_refused hc (notPc_three_refuses (f := f) h')
  cases k with
  | op o rn => exact exec_op3_rsr_refused hc o (.inr h)
  | mov => cases ty <;> exact hrefused _
  | mvn => exact hrefused _

end

/-! ### Writing R15 -/

section

variable {v psr target : Word} {s : State}

theorem bxWritePc_of_and (h : v &&& 3 = 0) : bxWritePc v s = .ok () (s.resolved.setPc v) := by
  have hbit (k : Nat) (hk : (3#32).getLsbD k = true) : v.getLsbD k = false := by
    have := congrArg (fun w : Word => w.getLsbD k) h
    simpa [hk] using this
  exact bxWritePc_of_aligned (hbit 0 rfl) (hbit 1 rfl) s

theorem bxWritePc_thumb (h : v.getLsbD 0 = true) : bxWritePc v s = .error (.refuse .toThumb) s := by
  unfold bxWritePc
  rw [if_pos h]
  rfl

theorem bxWritePc_unaligned (h0 : v.getLsbD 0 = false) (h1 : v.getLsbD 1 = true) :
    bxWritePc v s = .error (.refuse .unpredictable) s := by
  unfold bxWritePc
  rw [h0, if_neg (by decide), if_pos h1]
  rfl

theorem readSpsr_of_some {j : Fin 5} (h : spsrIndex s.mode = some j) : readSpsr s = .ok s.spsr[j] s := by
  unfold readSpsr
  rw [h]

theorem readSpsr_of_none (h : spsrIndex s.mode = none) : readSpsr s = .error (.refuse .noSpsr) s := by
  unfold readSpsr
  rw [h]

/-- A status word that may go in CPSR, then the branch (60_exceptions.md R541, R565). -/
theorem restoreCpsr_branch (h : Returnable psr) :
    (do restoreCpsr psr; branchWritePc target) s = .ok () (s.resolved.returned psr target) := by
  obtain ⟨harm, hmode⟩ := h
  obtain ⟨m, hm⟩ := Option.isSome_iff_exists.mp hmode
  have hf : (if s.nmfi then psr.getLsbD 6 && s.cpsr.getLsbD 6 else psr.getLsbD 6) =
      (psr.getLsbD 6 && (!s.nmfi || s.cpsr.getLsbD 6)) := by
    cases s.nmfi
    · simp
    · rfl
  have hrestore : restoreCpsr psr s = .ok () (s.setCpsr (setBit (psr &&& 0xFF0FFFFF) 6
      (psr.getLsbD 6 && (!s.nmfi || s.cpsr.getLsbD 6)))) := by
    unfold restoreCpsr
    rw [harm, if_neg (by decide), hm, ← hf]
    rfl
  exact bind_ok hrestore

theorem exceptionReturn_of_some {j : Fin 5} (h : spsrIndex s.mode = some j) (hr : Returnable s.spsr[j]) :
    exceptionReturn target s = .ok () (s.resolved.returned s.spsr[j] target) :=
  (bind_ok (readSpsr_of_some h)).trans (restoreCpsr_branch hr)

theorem exceptionReturn_of_none (h : spsrIndex s.mode = none) :
    exceptionReturn target s = .error (.refuse .noSpsr) s := bind_error (readSpsr_of_none h)

end

/-! ### The statements -/

/-- Settles O11: each operation is a result and its flags (`exec_op3`), written to a register. -/
theorem computationResults : Obligations.ComputationResults := by
  rintro o c S rn rd x s ⟨hc, hpc⟩ hrd hx
  rw [exec_op3 hc o hx rfl, writeResult_register hrd hpc]
  rfl

/-- Settles O12: each comparison tests the result of its operation (`Op2.body_eq`). -/
theorem comparisonsSetFlags : Obligations.ComparisonsSetFlags := by
  rintro o c rn x s ⟨hc, hpc⟩ hx
  rw [exec_op2_body hc o hx, o.body_eq hpc _ rfl]
  rfl

/-- Settles O13: MOV and MVN are logical results of their operand. -/
theorem movesAndShifts : Obligations.MovesAndShifts := by
  rintro c S rd x s ⟨hc, hpc⟩ hrd hx
  rw [exec_mov hc hx, exec_mvn hc hx, writeResult_register hrd hpc, writeResult_register hrd hpc]
  exact ⟨rfl, rfl⟩

/-- Settles O14: a result for R15 is what `bxWritePc` or `exceptionReturn` does with it; a register-shifted form checks its
registers first. -/
theorem resultInPc : Obligations.ResultInPc := by
  intro k c x s hc hx
  have hbranch : exec (k.instr c false 15 x) s = finish (bxWritePc (k.value s x) s) := exec_compute_pc hc k hx
  have hreturn : exec (k.instr c true 15 x) s = finish (exceptionReturn (k.value s x) s) := exec_compute_pc hc k hx
  rw [hbranch, hreturn]
  refine ⟨fun h => ?_, fun h => ?_, fun h0 h1 => ?_, fun j hj hr => ?_, fun h => ?_,
    fun S rd rs ty rm h => exec_compute_rsr_refused hc k h, fun o S rn rd rs ty rm h => exec_op3_rsr_refused hc o h,
    fun o rn rs ty rm h => exec_op2_rsr_refused hc o h⟩
  · rw [bxWritePc_of_and h, finish_ok]
  · rw [bxWritePc_thumb h, finish_refuse]
  · rw [bxWritePc_unaligned h0 h1, finish_refuse]
  · rw [exceptionReturn_of_some hj hr, finish_ok]
  · rw [exceptionReturn_of_none h, finish_refuse]

end Sys2Proof.Machine

/-!
# Shifts

A shift by any amount is one by one place, then one by the rest (`shiftC_succ`); a rotation is said by its bits
(`getLsbD_rotateRight_word`).
-/

namespace Sys2Proof.Machine

/-- A rotation takes each bit from further up, around the end. -/
theorem getLsbD_rotateRight_word (x : Word) (r : Nat) {i : Nat} (hi : i < 32) :
    (x.rotateRight r).getLsbD i = x.getLsbD ((i + r) % 32) := by
  rw [BitVec.getLsbD_rotateRight, decide_eq_true hi, Bool.true_and, cond_eq_ite]
  split
  · next h => rw [decide_eq_true_eq] at h; congr 1; omega
  · next h => rw [decide_eq_true_eq] at h; congr 1; omega

theorem rotateRight_one_rotateRight (x : Word) (n : Nat) :
    (x.rotateRight 1).rotateRight (n % 32) = x.rotateRight ((n + 1) % 32) := by
  apply BitVec.eq_of_getLsbD_eq
  intro i hi
  rw [getLsbD_rotateRight_word _ _ hi, getLsbD_rotateRight_word _ _ (by omega), getLsbD_rotateRight_word _ _ hi]
  congr 1
  omega

/-- The first place of a shift. -/
theorem shiftC_one (ty : ShiftType) (x : Word) (c : Bool) : shiftC x ty 1 c = shiftStep ty (x, c) := by
  cases ty with
  | lsl | lsr | asr => rfl
  | ror => exact Prod.ext rfl (getLsbD_rotateRight_word x 1 (by decide))

/-- The recursion of a shift by places (42_a32_core_subset.md R952). -/
theorem shiftC_succ (ty : ShiftType) (x : Word) (n : Nat) (c : Bool) :
    shiftC x ty (n + 1) c = shiftC (shiftStep ty (x, c)).1 ty n (shiftStep ty (x, c)).2 := by
  cases n with
  | zero => exact shiftC_one ty x c
  | succ n =>
    cases ty with
    | lsl =>
      refine Prod.ext ((congrArg (x <<< ·) (Nat.add_comm _ 1)).trans (BitVec.shiftLeft_add x 1 (n + 1))) ?_
      show (decide (n + 2 ≤ 32) && x.getLsbD (32 - (n + 2))) = (decide (n + 1 ≤ 32) && (x <<< 1).getLsbD (32 - (n + 1)))
      rw [BitVec.getLsbD_shiftLeft]
      grind
    | lsr =>
      refine Prod.ext ((congrArg (x >>> ·) (Nat.add_comm _ 1)).trans (BitVec.shiftRight_add x 1 (n + 1))) ?_
      show (decide (n + 2 ≤ 32) && x.getLsbD (n + 1)) = (decide (n + 1 ≤ 32) && (x >>> 1).getLsbD n)
      rw [BitVec.getLsbD_ushiftRight, Nat.add_comm 1 n]
      by_cases h : n + 2 ≤ 32
      · rw [decide_eq_true h, decide_eq_true (by omega : n + 1 ≤ 32)]
      · rw [decide_eq_false h, BitVec.getLsbD_of_ge x _ (by omega), Bool.and_false, Bool.and_false]
    | asr =>
      refine Prod.ext ((congrArg x.sshiftRight (Nat.add_comm _ 1)).trans (BitVec.sshiftRight_add ..)) ?_
      show x.getLsbD (min (n + 2) 32 - 1) = (x.sshiftRight 1).getLsbD (min (n + 1) 32 - 1)
      rw [BitVec.getLsbD_sshiftRight]
      grind
    | ror =>
      have hrot := rotateRight_one_rotateRight x (n + 1)
      exact Prod.ext hrot.symm (congrArg (BitVec.getLsbD · 31) hrot.symm)

theorem shiftC_eq_shiftSteps (ty : ShiftType) (x : Word) (n : Nat) (c : Bool) : shiftC x ty n c = shiftSteps ty n (x, c) := by
  induction n generalizing x c with
  | zero => rfl
  | succ n ih => rw [shiftC_succ, ih]; rfl

theorem getLsbD_bitAt (b : Bool) (k i : Nat) : (bitAt b k).getLsbD i = (b && decide (i = k ∧ i < 32)) := by
  cases b with
  | false => simp [bitAt]
  | true =>
    rw [bitAt, if_pos rfl, BitVec.getLsbD_shiftLeft, BitVec.getLsbD_one]
    grind

/-- Settles O15, by the recursion of a shift by places. -/
theorem shiftsPlaceByPlace : Obligations.ShiftsPlaceByPlace := by
  refine ⟨shiftC_eq_shiftSteps, fun ty x k c hk => ?_, fun x c => ⟨rfl, ?_, ?_, rfl, ?_, fun i hi => ?_⟩, fun r b c => ?_⟩
  · rw [← shiftC_eq_shiftSteps]
    exact if_neg hk
  · rw [← shiftC_eq_shiftSteps]
    rfl
  · rw [← shiftC_eq_shiftSteps]
    rfl
  · show ((x >>> 1) ||| bitAt c 31).getLsbD 31 = c
    rw [BitVec.getLsbD_or, BitVec.getLsbD_ushiftRight, BitVec.getLsbD_of_ge x _ (by decide), getLsbD_bitAt]
    exact Bool.and_true c
  · show ((x >>> 1) ||| bitAt c 31).getLsbD i = x.getLsbD (i + 1)
    rw [BitVec.getLsbD_or, BitVec.getLsbD_ushiftRight, getLsbD_bitAt, decide_eq_false (by omega), Bool.and_false,
      Bool.or_false, Nat.add_comm]
  · rw [← shiftC_eq_shiftSteps]
    by_cases hr : r = 0
    · subst hr
      refine Prod.ext ?_ rfl
      show (b.setWidth 32).rotateRight 0 = b.setWidth 32
      exact BitVec.eq_of_getLsbD_eq fun i hi => by rw [getLsbD_rotateRight_word _ _ hi, Nat.add_zero, Nat.mod_eq_of_lt hi]
    · have hr0 : 2 * r.toNat ≠ 0 := fun h => hr (BitVec.eq_of_toNat_eq (by simp; omega))
      have hlt : 2 * r.toNat % 32 = 2 * r.toNat := Nat.mod_eq_of_lt (by omega)
      rw [modifiedImm, shiftC, if_neg hr0, if_neg hr]
      show _ = rorC _ _
      rw [rorC, hlt]

end Sys2Proof.Machine

/-!
# Register operations

The instructions that put a function of one source in a register: wide moves, extensions, bit fields and reversals. Each body
passes its checks and writes (`unary_wrote`); what remains is the value, bit by bit or as a number.
-/

namespace Sys2Proof.Machine

/-! ### Bodies that write a register -/

theorem conditional_next {c : Cond} {s t : State} (hc : condPassed c s.cpsr = true) {body : M Unit} (h : body s = .ok () t) :
    conditional c body s = .next t := by
  rw [conditional_passed hc, h]
  rfl

section

variable {rd rm : Reg} {s : State} (hp : s.pc ≠ 0xFFFFFFFC)
include hp

/-- A register written, then the pc past the instruction. -/
theorem writeReg_fallThrough (rd : Reg) (v : Word) : (do writeReg rd v; fallThrough) s = .ok () (s.wrote rd v) := by
  rw [bind_ok (writeReg_apply rd v s), fallThrough_of_ne (by rwa [State.setReg_pc]), State.setReg_pc, State.wrote]

theorem unary_wrote (hd : rd ≠ 15) (hm : rm ≠ 15) (f : Word → Word) :
    unary rd rm f s = .ok () (s.wrote rd (f (s.reg rm))) := by
  unfold unary
  rw [bind_ok (notPc_of_ne hd s), bind_ok (notPc_of_ne hm s), bind_ok (readReg_apply rm s)]
  exact writeReg_fallThrough hp rd _

end

theorem conditional_unary {c : Cond} {s : State} {rd rm : Reg} (h : Runs c s) (hd : rd ≠ 15) (hm : rm ≠ 15) (f : Word → Word) :
    conditional c (unary rd rm f) s = .next (s.wrote rd (f (s.reg rm))) :=
  conditional_next h.1 (unary_wrote h.2 hd hm f)

/-! ### Wide moves and extensions -/

/-- Two words side by side, as a number. -/
theorem toNat_append_eq {n m : Nat} (x : BitVec n) (y : BitVec m) : (x ++ y).toNat = x.toNat * 2 ^ m + y.toNat := by
  rw [BitVec.toNat_append, ← Nat.shiftLeft_add_eq_or_of_lt y.isLt, Nat.shiftLeft_eq]

theorem append_setWidth_eq (i4 : BitVec 4) (i12 : BitVec 12) :
    (i4 ++ i12).setWidth 32 = BitVec.ofNat 32 (i4.toNat * 4096 + i12.toNat) := by
  apply BitVec.eq_of_toNat_eq
  rw [BitVec.toNat_setWidth, toNat_append_eq, BitVec.toNat_ofNat, show 2 ^ 12 = 4096 from rfl]

theorem append_low_half_eq (i4 : BitVec 4) (i12 : BitVec 12) (x : Word) :
    i4 ++ i12 ++ x.extractLsb' 0 16 = BitVec.ofNat 32 ((i4.toNat * 4096 + i12.toNat) * 65536 + x.toNat % 65536) := by
  apply BitVec.eq_of_toNat_eq
  have h4 := i4.isLt
  have h12 := i12.isLt
  rw [toNat_append_eq, toNat_append_eq, BitVec.extractLsb'_toNat, BitVec.toNat_ofNat, Nat.shiftRight_zero]
  omega

/-- The low bits of a word, extended with zeros. -/
theorem low_setWidth_eq (x : Word) (n : Nat) : (x.extractLsb' 0 n).setWidth 32 = BitVec.ofNat 32 (x.toNat % 2 ^ n) := by
  apply BitVec.eq_of_toNat_eq
  rw [BitVec.toNat_setWidth, BitVec.extractLsb'_toNat, BitVec.toNat_ofNat, Nat.shiftRight_zero]

/-- The low bits of a word, extended with their sign. -/
theorem low_signExtend_eq (x : Word) (n : Nat) :
    (x.extractLsb' 0 n).signExtend 32 = BitVec.ofInt 32 ((x.toNat : Int).bmod (2 ^ n)) := by
  rw [BitVec.signExtend, BitVec.toInt_extractLsb', Nat.shiftRight_zero]

/-- Settles O16: each value as a number, from the halves, bytes or halfwords it is made of. -/
theorem wideMovesAndExtensions : Obligations.WideMovesAndExtensions := by
  intro c rd rm i4 i12 rot s hruns hd hm
  have hwrite (v : Word) := writeReg_fallThrough hruns.2 rd v
  refine ⟨?movw, ?movt, ?uxtb, ?uxth, ?sxtb, ?sxth⟩
  case movw =>
    rw [← append_setWidth_eq]
    exact conditional_next hruns.1 ((bind_ok (notPc_of_ne hd s)).trans (hwrite _))
  case movt =>
    rw [← append_low_half_eq]
    exact conditional_next hruns.1 ((bind_ok (notPc_of_ne hd s)).trans ((bind_ok (readReg_apply rd s)).trans (hwrite _)))
  case uxtb => exact low_setWidth_eq _ 8 ▸ conditional_unary hruns hd hm _
  case uxth => exact low_setWidth_eq _ 16 ▸ conditional_unary hruns hd hm _
  case sxtb => exact low_signExtend_eq _ 8 ▸ conditional_unary hruns hd hm _
  case sxth => exact low_signExtend_eq _ 16 ▸ conditional_unary hruns hd hm _

/-! ### Bit fields -/

theorem getLsbD_extractField (x : Word) (lsb : Nat) {k i : Nat} (hi : i < 32) :
    (extractField x lsb k).getLsbD i = (decide (i ≤ k) && x.getLsbD (lsb + i)) := by
  rw [extractField, BitVec.getLsbD_and, BitVec.getLsbD_ushiftRight, BitVec.getLsbD_ushiftRight, BitVec.getLsbD_allOnes,
    Bool.and_comm]
  congr 1
  rw [decide_eq_decide]
  omega

theorem getLsbD_extractSignedField (x : Word) {lsb k i : Nat} (hfit : lsb + k ≤ 31) (hi : i < 32) :
    (extractSignedField x lsb k).getLsbD i = x.getLsbD (lsb + min i k) := by
  rw [extractSignedField, BitVec.getLsbD_sshiftRight, BitVec.msb_eq_getLsbD_last, BitVec.getLsbD_shiftLeft,
    BitVec.getLsbD_shiftLeft]
  grind

theorem getLsbD_insertField (dst src : Word) {lsb msb i : Nat} (hm : msb ≤ 31) (hi : i < 32) :
    (insertField dst src lsb msb).getLsbD i = if lsb ≤ i ∧ i ≤ msb then src.getLsbD (i - lsb) else dst.getLsbD i := by
  have hmask : ((BitVec.allOnes 32 <<< lsb) &&& (BitVec.allOnes 32 >>> (31 - msb)) : Word).getLsbD i =
      decide (lsb ≤ i ∧ i ≤ msb) := by
    rw [BitVec.getLsbD_and, BitVec.getLsbD_shiftLeft, BitVec.getLsbD_ushiftRight, BitVec.getLsbD_allOnes, BitVec.getLsbD_allOnes]
    grind
  rw [insertField, BitVec.getLsbD_or, BitVec.getLsbD_and, BitVec.getLsbD_and, BitVec.getLsbD_not, hmask, BitVec.getLsbD_shiftLeft]
  grind

theorem refuseIf_of_true {b : Bool} (h : b = true) (r : Refusal) (s : State) : refuseIf b r s = .error (.refuse r) s := by
  subst h; rfl

/-- A field that runs past bit 31 is refused (42_a32_core_subset.md R983, R984). -/
theorem exec_field_refused {c : Cond} {k lsb : BitVec 5} {rd rn : Reg} {s : State} (hc : condPassed c s.cpsr = true)
    (hover : 31 < lsb.toNat + k.toNat) :
    exec (.ubfx c k rd lsb rn) s = .refused .unpredictable ∧ exec (.sbfx c k rd lsb rn) s = .refused .unpredictable := by
  have hfield {f : Unit → M Unit} : RefusesIn s (refuseIf (decide (31 < lsb.toNat + k.toNat)) .unpredictable >>= f) :=
    bind_error (refuseIf_of_true (decide_eq_true hover) _ s)
  exact ⟨conditional_refused hc hfield, conditional_refused hc hfield⟩

/-- A field that is inside out is refused (42_a32_core_subset.md R985, R986). -/
theorem exec_insertion_refused {c : Cond} {k lsb : BitVec 5} {rd rn : Reg} {s : State} (hc : condPassed c s.cpsr = true)
    (hlt : k.toNat < lsb.toNat) :
    exec (.bfi c k rd lsb rn) s = .refused .unpredictable ∧ exec (.bfc c k rd lsb) s = .refused .unpredictable := by
  have hfield {f : Unit → M Unit} : RefusesIn s (refuseIf (decide (k.toNat < lsb.toNat)) .unpredictable >>= f) :=
    bind_error (refuseIf_of_true (decide_eq_true hlt) _ s)
  exact ⟨conditional_refused hc (notPc_refuses (.inr (notPc_refuses (.inr hfield)))),
    conditional_refused hc (notPc_refuses (.inr hfield))⟩

section

variable {c : Cond} {k lsb : BitVec 5} {rd rn : Reg} {s : State} (hruns : Runs c s) (hd : rd ≠ 15)
include hruns hd

/-- A bit-field extraction whose field is in the word. -/
theorem conditional_field (hn : rn ≠ 15) {b : Bool} (hb : b = false) (f : Word → Word) :
    conditional c (do refuseIf b .unpredictable; unary rd rn f) s = .next (s.wrote rd (f (s.reg rn))) :=
  conditional_next hruns.1 ((bind_ok (refuseIf_of_false hb _)).trans (unary_wrote hruns.2 hd hn f))

theorem exec_bfi (hn : rn ≠ 15) (hle : lsb.toNat ≤ k.toNat) :
    exec (.bfi c k rd lsb rn) s = .next (s.wrote rd (insertField (s.reg rd) (s.reg rn) lsb.toNat k.toNat)) := by
  refine conditional_next hruns.1 ((bind_ok (notPc_of_ne hd s)).trans ((bind_ok (notPc_of_ne hn s)).trans ?_))
  exact (bind_ok (refuseIf_of_false (decide_eq_false (by omega)) _)).trans (writeReg_fallThrough hruns.2 rd _)

theorem exec_bfc (hle : lsb.toNat ≤ k.toNat) :
    exec (.bfc c k rd lsb) s = .next (s.wrote rd (insertField (s.reg rd) 0 lsb.toNat k.toNat)) := by
  refine conditional_next hruns.1 ((bind_ok (notPc_of_ne hd s)).trans ?_)
  exact (bind_ok (refuseIf_of_false (decide_eq_false (by omega)) _)).trans (writeReg_fallThrough hruns.2 rd _)

end

/-- Settles O17, bit by bit. -/
theorem bitFields : Obligations.BitFields := by
  intro c k lsb rd rn s hruns hd hn
  have hk := k.isLt
  refine ⟨fun hfit => ⟨⟨_, conditional_field hruns hd hn (decide_eq_false (by omega)) _, fun i hi => getLsbD_extractField _ _ hi⟩,
      ⟨_, conditional_field hruns hd hn (decide_eq_false (by omega)) _, fun i hi => getLsbD_extractSignedField _ hfit hi⟩⟩,
    exec_field_refused hruns.1, fun hle => ⟨⟨_, exec_bfi hruns hd hn hle, fun i hi => getLsbD_insertField _ _ (by omega) hi⟩,
      ⟨_, exec_bfc hruns hd hle, fun i hi => ?_⟩⟩, exec_insertion_refused hruns.1⟩
  rw [getLsbD_insertField _ _ (by omega) hi]
  exact if_congr Iff.rfl BitVec.getLsbD_zero rfl

/-! ### Reversals and leading zeros -/

theorem getLsbD_byteReverse (x : Word) {i : Nat} (hi : i < 32) :
    (byteReverse x).getLsbD i = x.getLsbD (8 * (3 - i / 8) + i % 8) := by
  simp only [byteReverse, BitVec.getLsbD_append, BitVec.getLsbD_extractLsb']
  grind

theorem getLsbD_byteReverse16 (x : Word) {i : Nat} (hi : i < 32) :
    (byteReverse16 x).getLsbD i = x.getLsbD (16 * (i / 16) + 8 * (1 - i % 16 / 8) + i % 8) := by
  simp only [byteReverse16, BitVec.getLsbD_append, BitVec.getLsbD_extractLsb']
  grind

theorem getLsbD_byteReverseSigned (x : Word) {i : Nat} (hi : i < 32) :
    (byteReverseSigned x).getLsbD i = x.getLsbD (if i < 8 then i + 8 else if i < 16 then i - 8 else 7) := by
  simp only [byteReverseSigned, BitVec.getLsbD_signExtend, BitVec.msb_eq_getLsbD_last, BitVec.getLsbD_append,
    BitVec.getLsbD_extractLsb']
  grind

theorem getLsbD_reverse_word (x : Word) {i : Nat} (hi : i < 32) : x.reverse.getLsbD i = x.getLsbD (31 - i) := by
  rw [BitVec.getLsbD_reverse, BitVec.getMsbD, decide_eq_true hi, Bool.true_and]

/-- The zeros counted from the top of the low `n` bits, then a one. -/
theorem leadingZeros_spec (x : Word) (n : Nat) : leadingZeros x n ≤ n ∧
    (∀ j, j < leadingZeros x n → x.getLsbD (n - 1 - j) = false) ∧
    (leadingZeros x n < n → x.getLsbD (n - 1 - leadingZeros x n) = true) := by
  induction n with
  | zero => exact ⟨Nat.le_refl 0, fun j hj => absurd hj (Nat.not_lt_zero j), fun h => absurd h (Nat.lt_irrefl 0)⟩
  | succ n ih =>
    obtain ⟨hle, hzeros, hone⟩ := ih
    rw [leadingZeros]
    split
    · next h => exact ⟨Nat.zero_le _, fun j hj => absurd hj (Nat.not_lt_zero j), fun _ => h⟩
    · next h =>
      refine ⟨by omega, fun j hj => ?_, fun hlt => ?_⟩
      · cases j with
        | zero => exact eq_false_of_ne_true h
        | succ j => exact (show n + 1 - 1 - (j + 1) = n - 1 - j by omega) ▸ hzeros j (by omega)
      · exact (show n + 1 - 1 - (leadingZeros x n + 1) = n - 1 - leadingZeros x n by omega) ▸ hone (by omega)

/-- Settles O18, bit by bit; CLZ by induction on the bits counted. -/
theorem reversalsAndLeadingZeros : Obligations.ReversalsAndLeadingZeros := by
  intro c rd rm s hruns hd hm
  exact ⟨⟨_, conditional_unary hruns hd hm _, fun i hi => getLsbD_byteReverse _ hi⟩,
    ⟨_, conditional_unary hruns hd hm _, fun i hi => getLsbD_byteReverse16 _ hi⟩,
    ⟨_, conditional_unary hruns hd hm _, fun i hi => getLsbD_byteReverseSigned _ hi⟩,
    ⟨_, conditional_unary hruns hd hm _, fun i hi => getLsbD_reverse_word _ hi⟩,
    _, conditional_unary hruns hd hm _, leadingZeros_spec _ 32⟩

end Sys2Proof.Machine

/-!
# Multiplies and divisions

Each body passes its checks and writes one register or two (`narrowResult_eq`, `wideResult_eq`, `conditional_divide`); the values
are the exact products and quotients.
-/

namespace Sys2Proof.Machine

/-! ### Multiplies -/

section

variable {S : Bool} {s : State}

/-- The end of a multiply: with S its N and Z, then the pc (42_a32_core_subset.md R993, R996). -/
theorem setNZ_fallThrough (hp : s.pc ≠ 0xFFFFFFFC) (n z : Bool) :
    (if S then do { setNZ n z; fallThrough } else fallThrough) s =
      .ok () ((if S then s.setFlags n z s.flagC s.flagV else s).setPc (s.pc + 4)) := by
  cases S with
  | false => exact fallThrough_of_ne hp
  | true => exact (bind_ok (setNZ_apply n z s)).trans (fallThrough_of_ne (s := s.setFlags n z s.flagC s.flagV) hp)

theorem narrowResult_eq (hp : s.pc ≠ 0xFFFFFFFC) (rd : Reg) (r : Word) :
    narrowResult S rd r s = .ok () (s.result S rd r s.flagC s.flagV) := by
  unfold narrowResult
  rw [bind_ok (writeReg_apply rd r s)]
  refine (setNZ_fallThrough (by rwa [State.setReg_pc]) _ _).trans ?_
  rw [State.setReg_flagC, State.setReg_flagV, State.setReg_pc]
  rfl

theorem wideResult_eq (hp : s.pc ≠ 0xFFFFFFFC) (rdHi rdLo : Reg) (p : BitVec 64) :
    wideResult S rdHi rdLo p s = .ok () (s.wide S rdHi rdLo p) := by
  unfold wideResult
  rw [bind_ok (writeReg_apply rdHi _ s), bind_ok (writeReg_apply rdLo _ _)]
  refine (setNZ_fallThrough (by rwa [State.setReg_pc, State.setReg_pc]) _ _).trans ?_
  simp only [State.setReg_flagC, State.setReg_flagV, State.setReg_pc]
  rfl

theorem wideChecks_of_ne {rdHi rdLo rm rn : Reg} (hh : rdHi ≠ 15) (hl : rdLo ≠ 15) (hm : rm ≠ 15) (hn : rn ≠ 15)
    (hne : rdHi ≠ rdLo) : wideChecks rdHi rdLo rm rn s = .ok () s :=
  (notPc_four hh hl hm hn _).trans (refuseIf_of_false (beq_false_of_ne hne) _)

end

theorem mul_eq_ofNat (x y : Word) : x * y = BitVec.ofNat 32 (x.toNat * y.toNat) := by
  rw [BitVec.ofNat_mul, BitVec.ofNat_toNat, BitVec.ofNat_toNat, BitVec.setWidth_eq, BitVec.setWidth_eq]

theorem mul_add_eq_ofNat (x y z : Word) : x * y + z = BitVec.ofNat 32 (x.toNat * y.toNat + z.toNat) := by
  rw [BitVec.ofNat_add, ← mul_eq_ofNat, BitVec.ofNat_toNat, BitVec.setWidth_eq]

/-- The exact product of two words. -/
theorem setWidth_mul_eq (x y : Word) : x.setWidth 64 * y.setWidth 64 = BitVec.ofNat 64 (x.toNat * y.toNat) := by
  rw [BitVec.ofNat_mul, BitVec.ofNat_toNat, BitVec.ofNat_toNat]

/-- The exact signed product of two words. -/
theorem signExtend_mul_eq (x y : Word) : x.signExtend 64 * y.signExtend 64 = BitVec.ofInt 64 (x.toInt * y.toInt) :=
  (BitVec.ofInt_mul _ _).symm

/-- The accumulator of a long multiply. -/
theorem append_eq_ofNat (hi lo : Word) : hi ++ lo = BitVec.ofNat 64 (hi.toNat * 2 ^ 32 + lo.toNat) := by
  rw [← toNat_append_eq, BitVec.ofNat_toNat, BitVec.setWidth_eq]

/-- Settles O19: the products of the model, in words, are the exact ones modulo 2^32 or 2^64. -/
theorem multiplies : Obligations.Multiplies := by
  rintro c S rd ra rm rn s ⟨hc, hp⟩ hd ha hm hn x y p q acc
  have hnarrow (S : Bool) (r : Word) := narrowResult_eq (S := S) hp rd r
  have hwide {body : M Unit} {v : BitVec 64} (hne : rd ≠ ra) (hv : body s = wideResult S rd ra v s) :
      conditional c (do wideChecks rd ra rm rn; body) s = .next (s.wide S rd ra v) :=
    conditional_next hc ((bind_ok (wideChecks_of_ne hd ha hm hn hne)).trans (hv.trans (wideResult_eq hp rd ra v)))
  refine ⟨?mul, ?mla, ?mls, fun hne => ⟨hwide hne ?umull, hwide hne ?umlal, hwide hne ?smull, hwide hne ?smlal⟩, ?same⟩
  case mul =>
    rw [show p = x * y from (mul_eq_ofNat x y).symm]
    exact conditional_next hc ((notPc_three hd hm hn _).trans (hnarrow S _))
  case mla =>
    rw [show q = x * y + s.reg ra from (mul_add_eq_ofNat x y (s.reg ra)).symm]
    exact conditional_next hc ((notPc_four hd ha hm hn _).trans (hnarrow S _))
  case mls =>
    rw [show p = x * y from (mul_eq_ofNat x y).symm]
    exact conditional_next hc ((notPc_four hd ha hm hn _).trans (hnarrow false _))
  case umull => rw [← setWidth_mul_eq]; rfl
  case umlal => rw [BitVec.ofNat_add, ← setWidth_mul_eq, ← append_eq_ofNat]; rfl
  case smull => rw [← signExtend_mul_eq]; rfl
  case smlal => rw [BitVec.ofInt_add, ← signExtend_mul_eq, BitVec.ofInt_natCast, ← append_eq_ofNat]; rfl
  case same =>
    rintro rfl
    have hchecks : wideChecks rd rd rm rn s = .error (.refuse .unpredictable) s :=
      (notPc_four hd hd hm hn _).trans (refuseIf_of_true (beq_self_eq_true rd) _ s)
    have hrefused (f : Unit → M Unit) := conditional_refused hc (bind_error (f := f) hchecks)
    exact List.forall_iff_forall_mem.mp ⟨hrefused _, hrefused _, hrefused _, hrefused _⟩

/-! ### Divisions -/

section

variable {c : Cond} {rd rm rn : Reg} {s : State} (hruns : Runs c s) (hd : rd ≠ 15) (hm : rm ≠ 15) (hn : rn ≠ 15)
include hruns hd hm hn

/-- A division that does not trap (42_a32_core_subset.md R991, R992). -/
theorem conditional_divide (h : s.reg rm ≠ 0 ∨ s.cp15.sctlr.getLsbD 19 = false) (quotient : Word → Word → Word) :
    conditional c (divide rd rm rn quotient) s =
      .next (s.wrote rd (if s.reg rm = 0 then 0 else quotient (s.reg rn) (s.reg rm))) := by
  have htrap : (decide (s.reg rm = 0) && s.divideByZeroTraps) = false := by
    rcases h with h | h
    · rw [decide_eq_false h, Bool.false_and]
    · rw [State.divideByZeroTraps, h, Bool.and_false]
  refine conditional_next hruns.1 ((notPc_three hd hm hn _).trans ?_)
  rw [bind_ok (readReg_apply rn s), bind_ok (readReg_apply rm s), bind_ok (get_apply s), htrap]
  exact writeReg_fallThrough hruns.2 rd _

/-- A zero divisor under SCTLR.DZ (41_instruction_classes.md R488). -/
theorem conditional_divide_traps (hzero : s.reg rm = 0) (hdz : s.cp15.sctlr.getLsbD 19 = true) (harm : ArmEntry s)
    (quotient : Word → Word → Word) :
    conditional c (divide rd rm rn quotient) s = .next (takeException .undefined (s.pc + 4) s) := by
  have htrap : (decide (s.reg rm = 0) && s.divideByZeroTraps) = true := by
    rw [decide_eq_true hzero, State.divideByZeroTraps, hdz, Bool.and_true]
  have hbody : divide rd rm rn quotient s = .error .undefined s := by
    refine (notPc_three hd hm hn _).trans ?_
    rw [bind_ok (readReg_apply rn s), bind_ok (readReg_apply rm s), bind_ok (get_apply s), htrap]
    rfl
  exact conditional_undefined hruns.1 harm hbody

end

/-- The remainder of a division rounded towards zero has the dividend's sign. -/
theorem tmod_sign (a b : Int) : a.tmod b = 0 ∨ (a.tmod b < 0 ↔ a < 0) := by
  rcases le_or_gt 0 a with ha | ha
  · exact .inr ⟨fun h => absurd (Int.tmod_nonneg b ha) (by omega), fun h => by omega⟩
  · have hneg := Int.tmod_nonneg b (a := -a) (by omega)
    rw [Int.neg_tmod] at hneg
    omega

theorem natAbs_tmod_lt (a : Int) {b : Int} (hb : b ≠ 0) : (a.tmod b).natAbs < b.natAbs := by
  rw [Int.natAbs_tmod]
  exact Nat.mod_lt _ (Int.natAbs_pos.mpr hb)

/-- Settles O20: the quotients are those of `Nat` and of `Int` rounded towards zero. -/
theorem divisions : Obligations.Divisions := by
  intro c rd rm rn s hruns hd hm hn
  refine ⟨fun hne => ?_, fun hzero hdz => ?_, fun hzero hdz harm =>
    ⟨conditional_divide_traps hruns hd hm hn hzero hdz harm _, conditional_divide_traps hruns hd hm hn hzero hdz harm _⟩⟩
  · have hdiv (quotient : Word → Word → Word) := conditional_divide hruns hd hm hn (.inl hne) quotient
    simp only [if_neg hne] at hdiv
    have hpos : 0 < (s.reg rm).toNat := Nat.pos_of_ne_zero fun h => hne (BitVec.eq_of_toNat_eq h)
    have hint : (s.reg rm).toInt ≠ 0 := fun h => hne (BitVec.eq_of_toInt_eq h)
    exact ⟨⟨(s.reg rn).toNat / (s.reg rm).toNat, (s.reg rn).toNat % (s.reg rm).toNat, hdiv _,
        (Nat.div_add_mod' _ _).symm, Nat.mod_lt _ hpos⟩,
      (s.reg rn).toInt.tdiv (s.reg rm).toInt, (s.reg rn).toInt.tmod (s.reg rm).toInt, hdiv _,
        (Int.tdiv_mul_add_tmod _ _).symm, natAbs_tmod_lt _ hint, tmod_sign _ _⟩
  · have hdiv (quotient : Word → Word → Word) := conditional_divide hruns hd hm hn (.inr hdz) quotient
    simp only [if_pos hzero] at hdiv
    exact ⟨hdiv _, hdiv _⟩

end Sys2Proof.Machine

/-!
# Status registers and barriers

MRS, MSR, CPS and SETEND by the bits they read and write: each mask is said bit by bit (`getLsbD_cpsrWriteMask`,
`getLsbD_psrByteMask`, `getLsbD_cpsMasks`). DSB and ISB by what they do to the list of stored words.
-/

namespace Sys2Proof.Machine

/-! ### Bits of the masks -/

/-- A mask or nothing. -/
theorem getLsbD_ite_zero (b : Bool) (w : Word) (k : Nat) : (if b then w else 0).getLsbD k = (b && w.getLsbD k) := by
  cases b with
  | false => exact BitVec.getLsbD_zero
  | true => rfl

/-- The bits of CPSR that an MSR writes (42_a32_core_subset.md R1001; 60_exceptions.md R541). -/
theorem getLsbD_cpsrWriteMask (privileged nmfi : Bool) (v : Word) (m : BitVec 4) {k : Nat} (hk : k < 32) :
    (cpsrWriteMask privileged nmfi v m).getLsbD k = true ↔
      (27 ≤ k ∧ m.getLsbD 3 = true) ∨ (16 ≤ k ∧ k ≤ 19 ∧ m.getLsbD 2 = true) ∨
        (k = 9 ∧ m.getLsbD 1 = true) ∨ (k = 8 ∧ m.getLsbD 1 = true ∧ privileged = true) ∨
        ((k = 7 ∨ k ≤ 4) ∧ m.getLsbD 0 = true ∧ privileged = true) ∨
        (k = 6 ∧ m.getLsbD 0 = true ∧ privileged = true ∧ (nmfi = false ∨ v.getLsbD 6 = false)) := by
  have hf : ∀ k < 32, (0xF8000000 : Word).getLsbD k = decide (27 ≤ k) := by decide
  have hs : ∀ k < 32, (0x000F0000 : Word).getLsbD k = decide (16 ≤ k ∧ k ≤ 19) := by decide
  have hx : ∀ p : Bool, ∀ k < 32, (if p then (0x00000300 : Word) else 0x00000200).getLsbD k =
      decide (k = 9 ∨ k = 8 ∧ p = true) := by decide
  have hc : ∀ n : Bool, ∀ k < 32, (if n then (0x0000009F : Word) else 0x000000DF).getLsbD k =
      decide (k = 7 ∨ k ≤ 4 ∨ k = 6 ∧ n = false) := by decide
  simp only [cpsrWriteMask, BitVec.getLsbD_or, getLsbD_ite_zero, hf k hk, hs k hk, hx _ k hk, hc _ k hk]
  grind

/-- Each field of an MSR selects one byte of a SPSR (42_a32_core_subset.md R1001). -/
theorem getLsbD_psrByteMask (m : BitVec 4) {k : Nat} (hk : k < 32) : (psrByteMask m).getLsbD k = m.getLsbD (k / 8) := by
  have h3 : ∀ k < 32, (0xFF000000 : Word).getLsbD k = decide (k / 8 = 3) := by decide
  have h2 : ∀ k < 32, (0x00FF0000 : Word).getLsbD k = decide (k / 8 = 2) := by decide
  have h1 : ∀ k < 32, (0x0000FF00 : Word).getLsbD k = decide (k / 8 = 1) := by decide
  have h0 : ∀ k < 32, (0x000000FF : Word).getLsbD k = decide (k / 8 = 0) := by decide
  simp only [psrByteMask, BitVec.getLsbD_or, getLsbD_ite_zero, h3 k hk, h2 k hk, h1 k hk, h0 k hk]
  obtain h | h | h | h : k / 8 = 0 ∨ k / 8 = 1 ∨ k / 8 = 2 ∨ k / 8 = 3 := by omega
  all_goals simp [h]

theorem getLsbD_cpsBits (a i f : Bool) (k : Nat) : (cpsBits a i f).getLsbD k =
    decide (k = 8 ∧ a = true ∨ k = 7 ∧ i = true ∨ k = 6 ∧ f = true) := by
  simp only [cpsBits, BitVec.getLsbD_or, getLsbD_bitAt]
  grind

/-- The mask bits that CPS names, cleared or set (42_a32_core_subset.md R1003). -/
theorem getLsbD_cpsMasks (imod : BitVec 2) (a i f nmfi : Bool) (cpsr : Word) {k : Nat} (hk : k < 32) :
    (cpsMasks imod a i f nmfi cpsr).getLsbD k =
      if imod = 2 ∧ (k = 8 ∧ a = true ∨ k = 7 ∧ i = true ∨ k = 6 ∧ f = true) then false
      else if imod = 3 ∧ (k = 8 ∧ a = true ∨ k = 7 ∧ i = true ∨ k = 6 ∧ f = true ∧ nmfi = false) then true
      else cpsr.getLsbD k := by
  unfold cpsMasks
  by_cases h2 : imod = 2
  · subst h2
    rw [if_pos rfl, BitVec.getLsbD_and, BitVec.getLsbD_not, getLsbD_cpsBits]
    grind
  · by_cases h3 : imod = 3
    · subst h3
      rw [if_neg (by decide), if_pos rfl, BitVec.getLsbD_or, getLsbD_cpsBits]
      grind
    · rw [if_neg h2, if_neg h3, if_neg (fun h => h2 h.1), if_neg (fun h => h3 h.1)]

theorem getLsbD_setBit (w : Word) {k i : Nat} (hi : i < 32) (b : Bool) :
    (setBit w k b).getLsbD i = if i = k then b else w.getLsbD i := by
  rw [setBit, BitVec.getLsbD_or, BitVec.getLsbD_and, BitVec.getLsbD_not, getLsbD_bitAt, BitVec.getLsbD_shiftLeft,
    BitVec.getLsbD_one]
  grind

/-- The bits of CPSR that an MRS reads (42_a32_core_subset.md R1000). -/
theorem getLsbD_mrsMask (cpsr : Word) {i : Nat} (hi : i < 32) : (cpsr &&& 0xF8FF03DF).getLsbD i = (cpsr.getLsbD i &&
    !(i == 5 || i == 24 || i == 25 || i == 26 || (decide (10 ≤ i) && decide (i ≤ 15)))) := by
  have hmask : ∀ i < 32, (0xF8FF03DF : Word).getLsbD i =
      !(i == 5 || i == 24 || i == 25 || i == 26 || (decide (10 ≤ i) && decide (i ≤ 15))) := by decide
  rw [BitVec.getLsbD_and, hmask i hi]

/-! ### MRS and MSR -/

section

variable {c : Cond} {rd : Reg} {s : State} {v : Word} {m : BitVec 4}

theorem exec_mrs_cpsr (h : Runs c s) (hd : rd ≠ 15) : exec (.mrs c false rd) s = .next (s.wrote rd (s.cpsr &&& 0xF8FF03DF)) :=
  conditional_next h.1 ((bind_ok (notPc_of_ne hd s)).trans (writeReg_fallThrough h.2 rd _))

theorem exec_mrs_spsr (h : Runs c s) (hd : rd ≠ 15) {j : Fin 5} (hj : spsrIndex s.mode = some j) :
    exec (.mrs c true rd) s = .next (s.wrote rd s.spsr[j]) :=
  conditional_next h.1 ((bind_ok (notPc_of_ne hd s)).trans
    ((bind_ok (readSpsr_of_some hj)).trans (writeReg_fallThrough h.2 rd _)))

theorem exec_mrs_noSpsr (hc : condPassed c s.cpsr = true) (hd : rd ≠ 15) (hj : spsrIndex s.mode = none) :
    exec (.mrs c true rd) s = .refused .noSpsr :=
  conditional_refused hc ((bind_ok (notPc_of_ne hd s)).trans
    ((bind_ok (get_apply s)).trans (bind_error (readSpsr_of_none hj))))

/-- Both forms of MSR move a value (42_a32_core_subset.md R1001, R1002). -/
theorem exec_msr (hc : condPassed c s.cpsr = true) {rn : Reg} (hn : rn ≠ 15) {i : Instr} {i12 : BitVec 12} {r : Bool}
    (h : (i = .msrReg c r m rn ∧ v = s.reg rn) ∨
      (i = .msrImm c r m i12 ∧ v = ((i12.extractLsb' 0 8).setWidth 32).rotateRight (2 * (i12.extractLsb' 8 4).toNat))) :
    exec i s = finish (moveToStatus r m v s) := by
  obtain ⟨rfl, rfl⟩ | ⟨rfl, rfl⟩ := h
  · exact (conditional_passed hc _).trans (congrArg finish (bind_ok (notPc_of_ne hn s)))
  · exact conditional_passed hc _

theorem moveToStatus_cpsr (hp : s.pc ≠ 0xFFFFFFFC)
    (h : ¬ (m.getLsbD 0 = true ∧ s.privileged = true ∧ (Mode.ofBits (v.extractLsb' 0 5)).isNone = true)) :
    moveToStatus false m v s =
      .ok () (s.setCpsr (maskWrite s.cpsr v (cpsrWriteMask s.privileged s.nmfi v m))).past := by
  have hwrite : writeCpsr v m s = .ok () (s.setCpsr (maskWrite s.cpsr v (cpsrWriteMask s.privileged s.nmfi v m))) :=
    if_neg fun hbad => h (by rw [Bool.and_eq_true, Bool.and_eq_true] at hbad; exact ⟨hbad.1.1, hbad.1.2, hbad.2⟩)
  exact (bind_ok hwrite).trans (fallThrough_of_ne (s := s.setCpsr _) hp)

theorem moveToStatus_reservedMode (h0 : m.getLsbD 0 = true) (hpriv : s.privileged = true)
    (hmode : (Mode.ofBits (v.extractLsb' 0 5)).isNone = true) :
    moveToStatus false m v s = .error (.refuse .reservedMode) s := by
  have hbad : (m.getLsbD 0 && s.privileged && (Mode.ofBits (modeField v)).isNone) = true := by
    rw [h0, hpriv, modeField, hmode]; rfl
  exact bind_error (if_pos hbad)

theorem moveToStatus_spsr (hp : s.pc ≠ 0xFFFFFFFC) {j : Fin 5} (hj : spsrIndex s.mode = some j) :
    moveToStatus true m v s =
      .ok () (State.past { s with spsr := s.spsr.set j (maskWrite s.spsr[j] v (psrByteMask m)) }) := by
  have hset (w : Word) : s.setSpsr s.mode w = { s with spsr := s.spsr.set j w } := by
    unfold State.setSpsr
    rw [hj]
  have hwrite : writeSpsr v m s = .ok () { s with spsr := s.spsr.set j (maskWrite s.spsr[j] v (psrByteMask m)) } := by
    rw [← hset]
    exact bind_ok (readSpsr_of_some hj)
  exact (bind_ok hwrite).trans (fallThrough_of_ne (s := { s with spsr := _ }) hp)

theorem moveToStatus_noSpsr (hj : spsrIndex s.mode = none) : moveToStatus true m v s = .error (.refuse .noSpsr) s :=
  bind_error (bind_error (readSpsr_of_none hj))

end

/-- Settles O22: what each form reads or writes, then the bits of its mask. -/
theorem statusReadsAndWrites : Obligations.StatusReadsAndWrites := by
  constructor
  · refine fun c rd s hruns => ⟨fun hd => ⟨⟨_, exec_mrs_cpsr hruns hd, fun i hi => getLsbD_mrsMask _ hi⟩,
      fun j hj => exec_mrs_spsr hruns hd hj, fun hj => exec_mrs_noSpsr hruns.1 hd hj⟩, fun hd r => ?_⟩
    exact conditional_refused hruns.1 (notPc_refuses (.inl hd))
  · intro c m rn i12 s hruns hn i v r hi
    rw [exec_msr hruns.1 hn hi]
    refine ⟨?_, ?_, ?_, ?_⟩
    · rintro rfl hmode
      rw [moveToStatus_cpsr hruns.2 hmode, finish_ok]
      exact ⟨_, rfl, fun k hk => getLsbD_maskWrite hk (getLsbD_cpsrWriteMask _ _ _ _ hk)⟩
    · rintro rfl h0 hpriv hmode
      rw [moveToStatus_reservedMode h0 hpriv hmode, finish_refuse]
    · rintro rfl j hj
      rw [moveToStatus_spsr hruns.2 hj, finish_ok]
      exact ⟨_, rfl, fun k hk => getLsbD_maskWrite hk (by rw [getLsbD_psrByteMask m hk])⟩
    · rintro rfl hj
      rw [moveToStatus_noSpsr hj, finish_refuse]

/-! ### CPS and SETEND -/

section

variable {imod : BitVec 2} {m a i f : Bool} {mode : BitVec 5} {s : State}

theorem exec_cps_user (hp : s.pc ≠ 0xFFFFFFFC) (hpriv : s.privileged = false) :
    exec (.cps imod m a i f mode) s = .next s.past := by
  have hbody : (if s.privileged then do { changeState imod m a i f mode; fallThrough } else fallThrough) s = .ok () s.past := by
    rw [hpriv]
    exact fallThrough_of_ne hp
  exact congrArg finish hbody

/-- In a privileged mode CPS is what it does to the status register, then the pc. -/
theorem exec_cps_privileged (hpriv : s.privileged = true) :
    exec (.cps imod m a i f mode) s = finish ((do changeState imod m a i f mode; fallThrough) s) := by
  refine congrArg finish (?_ : (if s.privileged then do { changeState imod m a i f mode; fallThrough } else fallThrough) s = _)
  rw [hpriv]
  rfl

theorem changeState_unpredictable (h : imod = 1 ∨ imod = 0 ∧ m = false) :
    changeState imod m a i f mode s = .error (.refuse .unpredictable) s := by
  refine if_pos ?_
  rcases h with rfl | ⟨rfl, rfl⟩ <;> rfl

theorem changeState_of_defined (h : ¬ (imod = 1 ∨ imod = 0 ∧ m = false)) :
    changeState imod m a i f mode s =
      if m = true ∧ (Mode.ofBits mode).isNone = true then .error (.refuse .reservedMode) s
      else .ok () (s.setCpsr (if m then maskWrite (cpsMasks imod a i f s.nmfi s.cpsr) (mode.setWidth 32) 0x1F
        else cpsMasks imod a i f s.nmfi s.cpsr)) := by
  have hdefined : ¬ (decide (imod = 0b01) || (imod == 0b00 && !m)) = true := by simpa using h
  refine (if_neg hdefined).trans ?_
  cases m with
  | false => rfl
  | true => cases (Mode.ofBits mode).isNone <;> rfl

/-- The mode field, and the masks CPS names. -/
theorem getLsbD_cpsResult (nmfi : Bool) (cpsr : Word) {k : Nat} (hk : k < 32) :
    (if m then maskWrite (cpsMasks imod a i f nmfi cpsr) (mode.setWidth 32) 0x1F
      else cpsMasks imod a i f nmfi cpsr).getLsbD k =
      if k ≤ 4 ∧ m = true then mode.getLsbD k else (cpsMasks imod a i f nmfi cpsr).getLsbD k := by
  have hmask : ∀ k < 32, (0x1F : Word).getLsbD k = true ↔ k ≤ 4 := by decide
  cases m with
  | false => simp
  | true =>
    rw [if_pos rfl, getLsbD_maskWrite hk (hmask k hk), BitVec.getLsbD_setWidth]
    simp [hk]

theorem exec_setend {e : Bool} (hp : s.pc ≠ 0xFFFFFFFC) :
    exec (.setend e) s = .next (s.setCpsr (setBit s.cpsr 9 e)).past :=
  congrArg finish (fallThrough_of_ne (s := s.setCpsr (setBit s.cpsr 9 e)) hp)

end

/-- Settles O23: CPS by its cases, then the bits of what it leaves. -/
theorem stateChanges : Obligations.StateChanges := by
  intro imod m a i f e mode s hp
  refine ⟨fun hpriv => exec_cps_user hp hpriv, fun hpriv h => ?_, fun hpriv h hm hmode => ?_, fun hpriv h hmode => ?_,
    _, exec_setend hp, fun k hk => getLsbD_setBit _ hk e⟩
  · rw [exec_cps_privileged hpriv, bind_error (changeState_unpredictable h), finish_refuse]
  · have hchange := (changeState_of_defined (a := a) (i := i) (f := f) (s := s) h).trans (if_pos ⟨hm, hmode⟩)
    rw [exec_cps_privileged hpriv, bind_error hchange, finish_refuse]
  · have hvalid : ¬ (m = true ∧ (Mode.ofBits mode).isNone = true) := fun hbad => by
      have hsome := hmode hbad.1
      rw [← Option.not_isNone, hbad.2] at hsome
      cases hsome
    have hchange := (changeState_of_defined (a := a) (i := i) (f := f) (s := s) h).trans (if_neg hvalid)
    have hadvance (w : Word) : fallThrough (s.setCpsr w) = .ok () (s.setCpsr w).past := fallThrough_of_ne (s := s.setCpsr w) hp
    rw [exec_cps_privileged hpriv, bind_ok hchange]
    refine ⟨_, congrArg finish (hadvance _), fun k hk => ?_⟩
    rw [getLsbD_cpsResult s.nmfi s.cpsr hk, getLsbD_cpsMasks _ _ _ _ _ _ hk]

/-! ### Hints and barriers -/

theorem Unsynced.afterDsb_eq (x : Unsynced) : x.afterDsb = { x with
    pushed := x.pushed || x.cleaned
    finished := x.finished || decide (x.memory ≠ .cached ∨ x.pushed = true ∧ x.dropped = true ∧ x.forgotten = true) } := by
  have hfinished : (x.memory != .cached || (x.pushed && x.dropped && x.forgotten)) =
      decide (x.memory ≠ .cached ∨ x.pushed = true ∧ x.dropped = true ∧ x.forgotten = true) := by
    rw [Bool.eq_iff_iff]
    simp [and_assoc]
  rw [Unsynced.afterDsb, Bool.or_assoc, hfinished]

theorem Unsynced.ready_iff (x : Unsynced) :
    x.ready = true ↔ x.finished = true ∧ (x.memory = .itcm ∨ x.forgotten = true) := by
  simp [Unsynced.ready]

/-- Settles O24: what has no effect is `fallThrough`; the barriers map and filter the list of stored words. -/
theorem hintsAndBarriers : Obligations.HintsAndBarriers := by
  rintro c h o u rn rm i12 i5 ty s ⟨hc, hp⟩
  have hpast := fallThrough_of_ne hp
  have hhint : conditional c fallThrough s = .next s.past := conditional_next hc hpast
  have halways : always fallThrough s = .next s.past := congrArg finish hpast
  refine ⟨List.forall_iff_forall_mem.mp ⟨hhint, hhint, hhint, halways, halways, halways, halways, halways, halways, halways⟩,
    ⟨s.unsynced.map Unsynced.afterDsb, ?dsb, List.length_map _, fun n x hx => ?_⟩,
    s.unsynced.filter fun x => !x.ready, ?isb, fun x => ?_⟩
  case dsb => exact congrArg finish (fallThrough_of_ne (s := completeAccesses s) hp)
  case isb => exact congrArg finish (fallThrough_of_ne (s := synchronise s) hp)
  · rw [List.getElem?_map, hx, Option.map_some, Unsynced.afterDsb_eq]
  · rw [List.mem_filter, Bool.not_eq_true', ← Bool.not_eq_true, Unsynced.ready_iff]

end Sys2Proof.Machine

/-!
# Branches and undefined spaces

Every branch ends in `branchWritePc` or `bxWritePc`; the spaces without a meaning of their own end in the Undefined Instruction
exception or a refusal.
-/

namespace Sys2Proof.Machine

/-! ### Branches -/

/-- The target of a branch is the exact sum, modulo 2^32 (30_encoding.md R405). -/
theorem branchTarget_eq (s : State) (off : BitVec 24) :
    branchTarget s off = BitVec.ofInt 32 (s.pc.toNat + 8 + 4 * off.toInt) := by
  have hoff : (off ++ 0#2).signExtend 32 = BitVec.ofInt 32 (4 * off.toInt) := by
    rw [BitVec.signExtend, BitVec.toInt_append_zero]
    rfl
  rw [branchTarget, hoff, BitVec.ofInt_add, BitVec.ofInt_add, BitVec.ofInt_natCast, BitVec.ofNat_toNat, BitVec.setWidth_eq]
  rfl

/-- The link and PipeAdv stand in different places. -/
theorem resolved_setReg (s : State) (r : Reg) (v : Word) : (s.setReg r v).resolved = s.resolved.setReg r v := by
  unfold State.setReg State.setRegIn
  split <;> rfl

section

variable {c : Cond} {rm : Reg} {s : State} (hc : condPassed c s.cpsr = true)
include hc

theorem exec_bl (off : BitVec 24) :
    exec (.bl c off) s = .next ((s.resolved.setReg 14 (s.pc + 4)).setPc (branchTarget s off &&& 0xFFFFFFFC)) := by
  rw [← resolved_setReg]
  exact conditional_next hc rfl

/-- BX and BLX (register) of a register that is not R15: BLX leaves the link first (42_a32_core_subset.md R1012, R1013). -/
theorem exec_bx_blxReg (hm : rm ≠ 15) :
    exec (.bx c rm) s = finish (bxWritePc (s.reg rm) s) ∧
      exec (.blxReg c rm) s = finish (bxWritePc (s.reg rm) (s.setReg 14 (s.pc + 4))) :=
  ⟨(conditional_passed hc _).trans (congrArg finish (bind_ok (notPc_of_ne hm s))),
    (conditional_passed hc _).trans (congrArg finish (bind_ok (notPc_of_ne hm s)))⟩

end

/-- Settles O25: each branch is its target and what `branchWritePc` or `bxWritePc` does with it. -/
theorem branches : Obligations.Branches := by
  intro c off rm s hc
  refine ⟨?_, fun hm h => ?_, fun hm h => ?_, fun hm h0 h1 => ?_, fun hm =>
    ⟨conditional_refused hc (notPc_refuses (.inl hm)), conditional_refused hc (notPc_refuses (.inl hm))⟩⟩
  · rw [← branchTarget_eq]
    exact ⟨conditional_next hc rfl, exec_bl hc off⟩
  · obtain ⟨hbx, hblx⟩ := exec_bx_blxReg hc hm
    rw [hbx, hblx, bxWritePc_of_and h, bxWritePc_of_and h, resolved_setReg]
    exact ⟨rfl, rfl⟩
  · obtain ⟨hbx, hblx⟩ := exec_bx_blxReg hc hm
    rw [hbx, hblx, bxWritePc_thumb h, bxWritePc_thumb h]
    exact ⟨rfl, rfl⟩
  · obtain ⟨hbx, hblx⟩ := exec_bx_blxReg hc hm
    rw [hbx, hblx, bxWritePc_unaligned h0 h1, bxWritePc_unaligned h0 h1]
    exact ⟨rfl, rfl⟩

/-! ### Undefined spaces -/

theorem always_undefined {s : State} (harm : ArmEntry s) :
    always undefined s = .next (takeException .undefined (s.pc + 4) s) := finish_undefined_next harm

/-- Settles O28: each space ends in its exception or refusal, the VFP ones past `vfpOn`. -/
theorem spacesWithoutMeaning : Obligations.SpacesWithoutMeaning := by
  intro s c a b cp r25 r3 r20 r14 r8 r9 h l off rest
  refine ⟨fun harm => List.forall_iff_forall_mem.mp ⟨always_undefined harm, always_undefined harm, always_undefined harm⟩,
    rfl, rfl, fun hc => ⟨fun harm => ?_, fun hready => ⟨fun harm => ?_, ?_⟩⟩⟩
  · have hundefined := conditional_undefined hc harm (undefined_apply s)
    exact List.forall_iff_forall_mem.mp ⟨hundefined, hundefined, hundefined⟩
  · exact conditional_undefined hc harm (bind_ok (vfpOn_of_ready hready))
  · exact conditional_refused hc (bind_ok (vfpOn_of_ready hready))

end Sys2Proof.Machine

/-!
# Loads and stores of registers

A single load or store that its access completes writes the base back and advances the pc (`loadInto_of_load`,
`storeFrom_of_store`); main memory serves an access after another as it served the first (`Plain.accessed`, `Plain.stored`), so the
words of a doubleword move one after the other.
-/

namespace Sys2Proof.Machine

/-! ### What main memory serves it goes on serving -/

section

variable {s : State} {k : AccessKind} {acc : Access} {a : Word}

theorem Plain.accessed (h : Plain s k acc a) : Plain s.accessed k acc a := h

theorem Plain.stored (h : Plain s k acc a) (b : Word) (n : Nat) (v : Word) : Plain (s.stored b n v) k acc a := h

/-- The two words of a doubleword. -/
theorem PlainWords.two (h : PlainWords s k a 2) :
    Plain s k (multiple s.privileged) a ∧ Plain s k (multiple s.privileged) (a + 4) :=
  ⟨h a (List.mem_cons_self ..), h (a + 4) (List.mem_cons_of_mem _ (List.mem_cons_self ..))⟩

end

/-! ### Accesses that complete -/

theorem loadValue_pc {acc : Access} {a v : Word} {s t : State} (h : loadValue acc a s = .ok v t) : t.pc = s.pc := by
  have hstep := accesses_loadValue acc a s
  rw [h] at hstep
  exact hstep.pc

theorem storeValue_pc {acc : Access} {a v : Word} {s t : State} (h : storeValue acc a v s = .ok () t) : t.pc = s.pc := by
  have hstep := accesses_storeValue acc a v s
  rw [h] at hstep
  exact hstep.pc

theorem writeBack_apply (rn : Reg) (ad : Address) (s : State) : writeBack rn ad s = .ok () (s.withBase rn ad) := by
  unfold writeBack State.withBase
  split <;> rfl

theorem State.withBase_pc (s : State) (rn : Reg) (ad : Address) : (s.withBase rn ad).pc = s.pc := by
  unfold State.withBase
  split
  · exact State.setReg_pc ..
  · rfl

section

variable {s m : State} {p u w : Bool} {rn rt : Reg} {off v : Word} {n : Nat} (hpw : ordinary p w) (hb : baseAllowed p w rn rt)
  {ad : Address} (had : ad = indexed (baseValue s rn) off p u w)
include hpw hb had

/-- A load past its checks is its access and what follows it (42_a32_core_subset.md R957). -/
theorem loadInto_eq (hrt : rt ≠ 15) (ext : Word → Word) :
    loadInto n ext p u w rn rt off s = (loadValue (single s n s.privileged) ad.address >>= fun v => do
      writeBack rn ad
      writeReg rt (ext v)
      fallThrough) s := by
  subst had
  exact (bind_ok (checkPrivilege_of_ordinary hpw)).trans ((bind_ok (notPc_of_ne hrt s)).trans (bind_ok (checkBase_of_allowed hb)))

theorem loadInto_of_load (hp : s.pc ≠ 0xFFFFFFFC) (hrt : rt ≠ 15) (ext : Word → Word)
    (h : loadValue (single s n s.privileged) ad.address s = .ok v m) :
    loadInto n ext p u w rn rt off s = .ok () (((m.withBase rn ad).setReg rt (ext v)).setPc (s.pc + 4)) := by
  have hpc : ((m.withBase rn ad).setReg rt (ext v)).pc = s.pc := by rw [State.setReg_pc, State.withBase_pc, loadValue_pc h]
  rw [loadInto_eq hpw hb had hrt, bind_ok h, bind_ok (writeBack_apply rn ad m), bind_ok (writeReg_apply rt (ext v) _),
    fallThrough_of_ne (by rwa [hpc]), hpc]

theorem loadInto_of_abort (hrt : rt ≠ 15) (ext : Word → Word) {e : Stop}
    (h : loadValue (single s n s.privileged) ad.address s = .error e m) :
    loadInto n ext p u w rn rt off s = .error e m := by
  rw [loadInto_eq hpw hb had hrt, bind_error h]

/-- A store past its checks is its access and what follows it. -/
theorem storeFrom_eq : storeFrom n p u w rn rt off s = (do
    storeValue (single s n s.privileged) ad.address (s.reg rt)
    writeBack rn ad
    fallThrough) s := by
  subst had
  exact (bind_ok (checkPrivilege_of_ordinary hpw)).trans (bind_ok (checkBase_of_allowed hb))

theorem storeFrom_of_store (hp : s.pc ≠ 0xFFFFFFFC)
    (h : storeValue (single s n s.privileged) ad.address (s.reg rt) s = .ok () m) :
    storeFrom n p u w rn rt off s = .ok () ((m.withBase rn ad).setPc (s.pc + 4)) := by
  have hpc : (m.withBase rn ad).pc = s.pc := by rw [State.withBase_pc, storeValue_pc h]
  rw [storeFrom_eq hpw hb had, bind_ok h, bind_ok (writeBack_apply rn ad m), fallThrough_of_ne (by rwa [hpc]), hpc]

theorem storeFrom_of_abort {e : Stop} (h : storeValue (single s n s.privileged) ad.address (s.reg rt) s = .error e m) :
    storeFrom n p u w rn rt off s = .error e m := by
  rw [storeFrom_eq hpw hb had, bind_error h]

end

/-! ### Single loads -/

theorem signByte_eq (v : Word) : signByte v = BitVec.ofInt 32 (v.setWidth 8).toInt := by
  rw [signByte, BitVec.signExtend, BitVec.toInt_extractLsb', BitVec.toInt_setWidth, Nat.shiftRight_zero]

theorem signHalf_eq (v : Word) : signHalf v = BitVec.ofInt 32 (v.setWidth 16).toInt := by
  rw [signHalf, BitVec.signExtend, BitVec.toInt_extractLsb', BitVec.toInt_setWidth, Nat.shiftRight_zero]

/-- A single load, but of R15, loads its bytes and extends them (42_a32_core_subset.md R1014 to R1021). -/
theorem exec_singleLoad_extend {c : Cond} {p u w : Bool} {rn rt : Reg} {s : State} (hc : condPassed c s.cpsr = true) (hrt : rt ≠ 15)
    {l : SingleLoad} (hl : l.allowed) :
    exec (l.instr c p u w rn rt) s = finish (loadInto l.size (fun v => l.extend v) p u w rn rt (l.offset s) s) := by
  have hword (off : Word) : loadWord p u w rn rt off = loadInto 4 id p u w rn rt off := if_neg hrt
  have hbyte : signByte = fun v => BitVec.ofInt 32 (v.setWidth 8).toInt := funext signByte_eq
  have hhalf : signHalf = fun v => BitVec.ofInt 32 (v.setWidth 16).toInt := funext signHalf_eq
  cases l with
  | ldrImm i => exact (conditional_passed hc _).trans (by rw [hword]; rfl)
  | ldrReg i t m =>
    exact (conditional_passed hc _).trans (congrArg finish ((bind_ok (registerOffset_of_ne hl t i)).trans (by rw [hword]; rfl)))
  | ldrbImm | ldrhImm => exact conditional_passed hc _
  | ldrsbImm => exact (conditional_passed hc _).trans (by rw [hbyte]; rfl)
  | ldrshImm => exact (conditional_passed hc _).trans (by rw [hhalf]; rfl)
  | ldrbReg i t m => exact (conditional_passed hc _).trans (congrArg finish (bind_ok (registerOffset_of_ne hl t i)))
  | ldrhReg m => exact (conditional_passed hc _).trans (congrArg finish (bind_ok (plainOffset_of_ne hl)))
  | ldrsbReg m =>
    exact (conditional_passed hc _).trans (congrArg finish ((bind_ok (plainOffset_of_ne hl)).trans (by rw [hbyte]; rfl)))
  | ldrshReg m =>
    exact (conditional_passed hc _).trans (congrArg finish ((bind_ok (plainOffset_of_ne hl)).trans (by rw [hhalf]; rfl)))

section

variable {s m : State} {p u w : Bool} {rn : Reg} {off v : Word} (hpw : ordinary p w) (hb : baseAllowed p w rn 15)
  {ad : Address} (had : ad = indexed (baseValue s rn) off p u w)
  (h : loadValue (single s 4 s.privileged) ad.address s = .ok v m)
include hpw hb had h

/-- A load of R15 whose access completes goes on with the check of its address. -/
theorem loadWord_pc_of_load : loadWord p u w rn 15 off s = (do
    refuseIf (!lowZero ad.address 2) .unpredictable
    writeBack rn ad
    bxWritePc v) m := by
  subst had
  refine (bind_ok (checkPrivilege_of_ordinary hpw)).trans ((bind_ok (checkBase_of_allowed hb)).trans ?_)
  exact (bind_ok (get_apply s)).trans (bind_ok h)

theorem loadWord_pc_of_aligned (hal : ad.address.toNat % 4 = 0) :
    loadWord p u w rn 15 off s = bxWritePc v (m.withBase rn ad) := by
  have hlow : (!lowZero ad.address 2) = false := by simpa [lowZero] using hal
  rw [loadWord_pc_of_load hpw hb had h, bind_ok (refuseIf_of_false hlow _), bind_ok (writeBack_apply rn ad m)]

theorem loadWord_pc_of_unaligned (hal : ad.address &&& 3 ≠ 0) :
    loadWord p u w rn 15 off s = .error (.refuse .unpredictable) m := by
  have hlow : (!lowZero ad.address 2) = true := by
    rw [Bool.not_eq_true', ← Bool.not_eq_true]
    refine fun hz => hal (BitVec.eq_of_toNat_eq ?_)
    have hmod : ad.address.toNat % 2 ^ 2 = 0 := beq_iff_eq.mp hz
    rw [BitVec.toNat_and, show (3 : Word).toNat = 2 ^ 2 - 1 from rfl, Nat.and_two_pow_sub_one_eq_mod, hmod]
    rfl
  rw [loadWord_pc_of_load hpw hb had h, bind_error (refuseIf_of_true hlow _ _)]

end

/-- Both forms of LDR to R15. -/
theorem exec_ldr_pc {c : Cond} {p u w : Bool} {rn rm : Reg} {i12 : BitVec 12} {i5 : BitVec 5} {ty : ShiftType} {s : State}
    {i : Instr} {off : Word} (hc : condPassed c s.cpsr = true)
    (hi : (i = .ldrImm c p u w rn 15 i12 ∧ off = i12.setWidth 32) ∨
      (i = .ldrReg c p u w rn 15 i5 ty rm ∧ rm ≠ 15 ∧ off = (immShiftC (s.reg rm) ty i5 s.flagC).1)) :
    exec i s = finish (loadWord p u w rn 15 off s) := by
  obtain ⟨rfl, rfl⟩ | ⟨rfl, hm, rfl⟩ := hi
  · exact conditional_passed hc _
  · exact (conditional_passed hc _).trans (congrArg finish (bind_ok (registerOffset_of_ne hm ty i5)))

/-- Settles O33: by what the access ends in, and for R15 by the alignment of the address and of the value. -/
theorem singleLoads : Obligations.SingleLoads := by
  constructor
  · rintro l c p u w rn rt s ad ⟨hc, hp⟩ hrt hl hpw hb had
    rw [exec_singleLoad_extend hc hrt hl]
    refine ⟨fun v m h => ?_, fun f a m h harm => ?_, fun h => ?_⟩
    · rw [loadInto_of_load hpw hb had hp hrt _ h, finish_ok]
    · rw [loadInto_of_abort hpw hb had hrt _ h, finish_dataAbort_next harm]
    · rw [loadInto_of_load hpw hb had hp hrt _ (loadValue_of_plain h), finish_ok]
      rfl
  · intro c p u w rn i12 i5 ty rm s i off hc hi hb hpw ad had
    rw [exec_ldr_pc hc hi]
    refine ⟨fun h => ?_, fun v m h hal => ?_⟩
    · have hload : loadValue (single s 4 s.privileged) ad.address s = .ok (s.memValue ad.address 4) s.accessed :=
        loadValue_of_plain h
      rw [loadWord_pc_of_aligned hpw hb had hload h.1]
      exact ⟨fun hv => congrArg finish (bxWritePc_of_and hv), fun h0 => congrArg finish (bxWritePc_thumb h0),
        fun h0 h1 => congrArg finish (bxWritePc_unaligned h0 h1)⟩
    · rw [loadWord_pc_of_unaligned hpw hb had h hal, finish_refuse]

/-- Settles O34: by what the access ends in. -/
theorem singleStores : Obligations.SingleStores := by
  rintro l c p u w rn rt s ad ⟨hc, hp⟩ hl hpw hb had
  have hsize : l.size ≤ 4 := by cases l <;> simp [SingleStore.size]
  rw [exec_singleStore hc u hl, conditional_passed hc]
  refine ⟨fun m h => ?_, fun f a m h harm => ?_, fun h => ?_⟩
  · rw [storeFrom_of_store hpw hb had hp h, finish_ok]
  · rw [storeFrom_of_abort hpw hb had h, finish_dataAbort_next harm]
  · rw [storeFrom_of_store hpw hb had hp (storeValue_of_plain h _ hsize), finish_ok]
    rfl

end Sys2Proof.Machine

/-!
# Doublewords, RFE and SRS

Two words that main memory serves are loaded or stored one after the other (`storeTwo_of_plain`).
-/

namespace Sys2Proof.Machine

/-! ### Doublewords -/

theorem onAbort_of_ok {α : Type} {body : M α} {cleanup : M Unit} {s t : State} {a : α} (h : body s = .ok a t) :
    onAbort body cleanup s = .ok a t := by
  unfold onAbort
  rw [h]

/-- A word that main memory serves is written as one part. -/
theorem writeAdmitted_of_plain {s : State} {privileged : Bool} {a : Word} {attr : Attr}
    (h : Plain s .write (multiple privileged) a) (hadm : admission .write (multiple privileged) a s = .ok attr) (v : Word) :
    writeAdmitted (multiple privileged) a attr (bytesOf s.bigEndian 4 v) s = .ok () (s.stored a 4 v) := by
  rw [writeAdmitted_of_aligned h.1]
  exact (storeValue_eq_writePart hadm h.1 v).symm.trans (storeValue_of_plain h v (Nat.le_refl 4))

/-- Two words that main memory serves are stored one after the other (42_a32_core_subset.md R1006, R1023). -/
theorem storeTwo_of_plain {s : State} {privileged : Bool} {a : Word} (h : Plain s .write (multiple privileged) a)
    (h' : Plain s .write (multiple privileged) (a + 4)) (v v' : Word) :
    storeTwo (multiple privileged) a v v' s = .ok () ((s.stored a 4 v).stored (a + 4) 4 v') := by
  obtain ⟨-, attr, hadm, hmem⟩ := plain_iff.mp h
  obtain ⟨-, attr', hadm', -⟩ := plain_iff.mp h'
  have hchunk : ((multiple privileged).form == .multiple && inItcm s a && decide (a.toNat % 8 = 0)) = false := by
    rw [hmem.itcm, Bool.and_false, Bool.false_and]
  unfold storeTwo
  simp only [hadm, hadm', hchunk, Bool.false_eq_true, if_false]
  rw [bind_ok (writeAdmitted_of_plain h hadm v)]
  exact writeAdmitted_of_plain (h'.stored a 4 v) hadm' v'

section

variable {s : State} {p u w : Bool} {rn rt : Reg} {off : Word} {ad : Address} (hchk : checkDouble p w rn rt s = .ok () s)
  (had : ad = indexed (baseValue s rn) off p u w) (hp : s.pc ≠ 0xFFFFFFFC)
include hchk had hp

theorem loadDouble_of_plain (h : PlainWords s .read ad.address 2) :
    loadDouble p u w rn rt off s = .ok () ((((s.accessed.withBase rn ad).setReg rt (s.memValue ad.address 4)).setReg (rt + 1)
      (s.memValue (ad.address + 4) 4)).setPc (s.pc + 4)) := by
  subst had
  obtain ⟨hlow, hhigh⟩ := h.two
  refine (bind_ok hchk).trans ((bind_ok (get_apply s)).trans ((bind_ok (loadValue_of_plain hlow)).trans ?_))
  refine (bind_ok (onAbort_of_ok (loadValue_of_plain hhigh.accessed))).trans ((bind_ok (writeBack_apply rn _ _)).trans ?_)
  refine (bind_ok (writeReg_apply rt _ _)).trans ((bind_ok (writeReg_apply (rt + 1) _ _)).trans ?_)
  rw [fallThrough_of_ne (by rwa [State.setReg_pc, State.setReg_pc, State.withBase_pc]), State.setReg_pc, State.setReg_pc,
    State.withBase_pc]
  rfl

theorem storeDouble_of_plain (h : PlainWords s .write ad.address 2) :
    storeDouble p u w rn rt off s = .ok () ((((s.stored ad.address 4 (s.reg rt)).stored (ad.address + 4) 4
      (s.reg (rt + 1))).withBase rn ad).setPc (s.pc + 4)) := by
  subst had
  obtain ⟨hlow, hhigh⟩ := h.two
  refine (bind_ok hchk).trans ((bind_ok (get_apply s)).trans ((bind_ok (storeTwo_of_plain hlow hhigh _ _)).trans ?_))
  refine (bind_ok (writeBack_apply rn _ _)).trans ?_
  rw [fallThrough_of_ne (by rwa [State.withBase_pc]), State.withBase_pc]
  rfl

end

/-- An odd register, or R14, is refused (42_a32_core_subset.md R1022). -/
theorem checkDouble_refuses {s : State} {p w : Bool} {rn rt : Reg} (h : rt.getLsbD 0 = true ∨ rt = 14) :
    RefusesIn s (checkDouble p w rn rt) := by
  have hbad : (rt.getLsbD 0 || rt == 14) = true := by
    rcases h with h | rfl
    · rw [h, Bool.true_or]
    · rfl
  exact bind_error (refuseIf_of_true hbad _ s)

/-- Settles O35: the check of the registers, then the two words. -/
theorem doublewords : Obligations.Doublewords := by
  rintro c p u w rn rt rm h l s off ld st ⟨hc, hp⟩ hi
  obtain ⟨hld, hst⟩ := exec_double hi hc
  rw [hld, hst]
  refine ⟨fun hbad => ?_, fun heven hne hpw hb hb' ad had => ?_⟩
  · have hrefused := checkDouble_refuses (s := s) (p := p) (w := w) (rn := rn) hbad
    exact ⟨conditional_refused hc (bind_error hrefused), conditional_refused hc (bind_error hrefused)⟩
  · have hchk := checkDouble_of_allowed (s := s) heven hne hpw hb hb'
    exact ⟨fun h => conditional_next hc (loadDouble_of_plain hchk had hp h),
      fun h => conditional_next hc (storeDouble_of_plain hchk had hp h)⟩

/-! ### RFE and SRS -/

/-- A base that is written back or not, then the rest. -/
theorem ite_writeReg_bind {α : Type} (w : Bool) (r : Reg) (v : Word) (f : M α) (s : State) :
    (if w then do { writeReg r v; f } else f) s = f (if w then s.setReg r v else s) := by
  cases w <;> rfl

theorem always_next {body : M Unit} {s t : State} (h : body s = .ok () t) : always body s = .next t := by
  rw [always, h, finish_ok]

theorem always_refused {body : M Unit} {s t : State} {r : Refusal} (h : body s = .error (.refuse r) t) :
    always body s = .refused r := by
  rw [always, h, finish_refuse]

section

variable {p u w : Bool} {rn : Reg} {mode : BitVec 5} {s : State}

theorem exec_rfe_of_plain (hpriv : s.privileged = true) (hn : rn ≠ 15) {a : Word} (ha : a = pairAddress (s.reg rn) p u)
    (h : PlainWords s .read a 2) (hr : Returnable (s.memValue (a + 4) 4)) :
    exec (.rfe p u w rn) s = .next ((if w then s.accessed.setReg rn (if u then s.reg rn + 8 else s.reg rn - 8)
      else s.accessed).resolved.returned (s.memValue (a + 4) 4) (s.memValue a 4)) := by
  subst ha
  obtain ⟨hlow, hhigh⟩ := h.two
  rw [hpriv] at hlow hhigh
  refine always_next ((bind_ok (get_apply s)).trans ((bind_ok (refuseIf_of_false (congrArg (!·) hpriv) _)).trans ?_))
  refine (bind_ok (notPc_of_ne hn s)).trans ((bind_ok (readReg_apply rn s)).trans ?_)
  refine (bind_ok (loadValue_of_plain hlow)).trans ((bind_ok (loadValue_of_plain hhigh.accessed)).trans ?_)
  exact (ite_writeReg_bind w rn _ _ _).trans (restoreCpsr_branch hr)

theorem exec_rfe_user (hpriv : s.privileged = false) : exec (.rfe p u w rn) s = .refused .noSpsr :=
  always_refused ((bind_ok (get_apply s)).trans (bind_error (refuseIf_of_true (congrArg (!·) hpriv) _ s)))

theorem exec_rfe_pc (hpriv : s.privileged = true) (hn : rn = 15) : exec (.rfe p u w rn) s = .refused .unpredictable := by
  refine always_refused (t := s) ((bind_ok (get_apply s)).trans ((bind_ok (refuseIf_of_false (congrArg (!·) hpriv) _)).trans ?_))
  exact bind_error (notPc_of_eq hn s)

theorem exec_srs_of_plain {m : Mode} {j : Fin 5} (hm : Mode.ofBits mode = some m) (hj : spsrIndex s.mode = some j)
    (hp : s.pc ≠ 0xFFFFFFFC) (hpriv : s.privileged = true) {a : Word} (ha : a = pairAddress (s.regIn m 13) p u)
    (h : PlainWords s .write a 2) {t : State} (ht : t = (s.stored a 4 (s.reg 14)).stored (a + 4) 4 s.spsr[j]) :
    exec (.srs p u w mode) s =
      .next (if w then t.setRegIn m 13 (if u then s.regIn m 13 + 8 else s.regIn m 13 - 8) else t).past := by
  subst ha ht
  obtain ⟨hlow, hhigh⟩ := h.two
  rw [hpriv] at hlow hhigh
  refine always_next ((bind_ok (readSpsr_of_some hj)).trans ?_)
  rw [hm]
  refine (bind_ok (get_apply s)).trans ((bind_ok (storeTwo_of_plain hlow hhigh _ _)).trans ?_)
  cases w with
  | false => exact fallThrough_of_ne (s := (s.stored _ 4 _).stored _ 4 _) hp
  | true => exact fallThrough_of_ne (s := State.setRegIn ((s.stored _ 4 _).stored _ 4 _) m 13 _) (by rwa [State.setRegIn_pc])

end

/-- Settles O29: the two words of each, and the refusals by the first check that fails. -/
theorem returnStateLoadsAndStores : Obligations.ReturnStateLoadsAndStores := by
  intro p u w rn mode s
  refine ⟨?_, exec_rfe_user, exec_rfe_pc, fun m j hm hj hp hpriv h => exec_srs_of_plain hm hj hp hpriv rfl h rfl, fun hj =>
    always_refused (bind_error (readSpsr_of_none hj))⟩
  rintro psr target hpriv hn h rfl rfl hr
  exact exec_rfe_of_plain hpriv hn rfl h hr

end Sys2Proof.Machine

/-!
# Multiple loads and stores

The words of a list move one after the other from rising addresses: `loadList_of_plain` gives the words loaded, `putList_eq` puts
them in their registers, `storeList_of_plain` stores them. R15 is the last register of its list (`listRegs_eq`), so its word is at
the last address. A base that is stored as a free value is drawn when its turn comes; the other words do not depend on it
(`storeList_draws`).
-/

namespace Sys2Proof.Machine

/-! ### Lists of registers -/

/-- The registers of a list below R15. -/
def lowRegs (regs : BitVec 16) : List Reg :=
  ((List.range 15).filter fun i => regs.getLsbD i).map fun i => BitVec.ofNat 4 i

theorem listRegs_eq (regs : BitVec 16) : listRegs regs = lowRegs regs ++ (if regs.getLsbD 15 then [15] else []) := by
  rw [listRegs, lowRegs, List.range_succ, List.filter_append, List.map_append]
  rw [List.filter_singleton]
  cases regs.getLsbD 15 <;> rfl

theorem ne_of_mem_lowRegs {regs : BitVec 16} {r : Reg} (h : r ∈ lowRegs regs) : r ≠ 15 := by
  obtain ⟨i, hi, rfl⟩ := List.mem_map.mp h
  have hlt : i < 15 := List.mem_range.mp (List.mem_of_mem_filter hi)
  intro h15
  have hi15 : i % 16 = 15 := congrArg BitVec.toNat h15
  omega

theorem length_listRegs (regs : BitVec 16) : (listRegs regs).length = listCount regs := by
  rw [listRegs, List.length_map, listCount, List.countP_eq_length_filter]

theorem getLsbD_of_mem_listRegs {regs : BitVec 16} {r : Reg} (h : r ∈ listRegs regs) : regs.getLsbD r.toNat = true := by
  obtain ⟨i, hi, rfl⟩ := List.mem_map.mp h
  obtain ⟨hlt, hbit⟩ := List.mem_filter.mp hi
  rwa [BitVec.toNat_ofNat, Nat.mod_eq_of_lt (List.mem_range.mp hlt)]

theorem mem_listRegs_of_getLsbD {regs : BitVec 16} {r : Reg} (h : regs.getLsbD r.toNat = true) : r ∈ listRegs regs :=
  List.mem_map.mpr ⟨r.toNat, List.mem_filter.mpr ⟨List.mem_range.mpr r.isLt, h⟩, by rw [BitVec.ofNat_toNat, BitVec.setWidth_eq]⟩

theorem nodup_listRegs (regs : BitVec 16) : (listRegs regs).Nodup := by
  refine List.Nodup.map_on (fun i hi j hj hij => ?_) (List.nodup_range.filter _)
  have hi := List.mem_range.mp (List.mem_of_mem_filter hi)
  have hj := List.mem_range.mp (List.mem_of_mem_filter hj)
  have hmod : i % 16 = j % 16 := congrArg BitVec.toNat hij
  omega

theorem listAddresses_concat (a : Word) (rs : List Reg) (r : Reg) :
    listAddresses a (rs ++ [r]) = listAddresses a rs ++ [(r, a + BitVec.ofNat 32 (4 * rs.length))] := by
  induction rs generalizing a with
  | nil => simp [listAddresses]
  | cons r' rs ih =>
    have hnext : a + 4 + BitVec.ofNat 32 (4 * rs.length) = a + BitVec.ofNat 32 (4 * (rs.length + 1)) := by
      rw [BitVec.add_assoc, Nat.mul_add, Nat.add_comm (4 * rs.length), BitVec.ofNat_add]
      rfl
    rw [List.cons_append, listAddresses, ih, hnext]
    rfl

theorem fst_mem_of_mem_listAddresses {a : Word} {rs : List Reg} {e : Reg × Word} (h : e ∈ listAddresses a rs) : e.1 ∈ rs := by
  induction rs generalizing a with
  | nil => cases h
  | cons r rs ih =>
    rcases List.mem_cons.mp h with rfl | h
    · exact List.mem_cons_self ..
    · exact List.mem_cons_of_mem _ (ih h)

/-! ### Loads -/

/-- The words that main memory holds at the addresses of a list. -/
def State.wordsAt (s : State) (l : List (Reg × Word)) : List (Reg × Word) := l.map fun e => (e.1, s.memValue e.2 4)

theorem loadList_of_plain {privileged : Bool} (m : Mode) (keep : Fin 30) (r : Reg) (rs : List Reg) (a : Word) (s : State)
    (h : ∀ x ∈ wordAddresses a (rs.length + 1), Plain s .read (multiple privileged) x) :
    loadList privileged m keep (r :: rs) a s = .ok (s.wordsAt (listAddresses a (r :: rs))) s.accessed := by
  induction rs generalizing r a s with
  | nil => exact (bind_ok (loadValue_of_plain (h a (List.mem_cons_self ..)))).trans rfl
  | cons r' rs ih =>
    have hrest := ih r' (a + 4) s.accessed fun x hx => (h x (List.mem_cons_of_mem _ hx)).accessed
    refine (bind_ok (loadValue_of_plain (h a (List.mem_cons_self ..)))).trans ?_
    exact (bind_ok (onAbort_of_ok hrest)).trans rfl

theorem putList_eq (m : Mode) (q : State) (l : List (Reg × Word)) (s : State) :
    putList m (q.wordsAt l) s = State.loadedFrom m q l s := by
  induction l generalizing s with
  | nil => rfl
  | cons e l ih => exact ih _

/-- A load of a list changes nothing but registers. -/
theorem exists_loadedFrom (m : Mode) (q : State) (l : List (Reg × Word)) (s : State) :
    ∃ r, State.loadedFrom m q l s = { s with regs := r } := by
  induction l generalizing s with
  | nil => exact ⟨s.regs, rfl⟩
  | cons e l ih =>
    obtain ⟨r, hr⟩ := ih (s.setRegIn m e.1 (q.memValue e.2 4))
    refine ⟨r, hr.trans ?_⟩
    unfold State.setRegIn
    split <;> rfl

/-- Nor does the write-back of its base. -/
theorem exists_loadedFrom_base (m : Mode) (q : State) (l : List (Reg × Word)) (s : State) (w : Bool) (rn : Reg) (v : Word) :
    ∃ r, (if w then (State.loadedFrom m q l s).setReg rn v else State.loadedFrom m q l s) = { s with regs := r } := by
  obtain ⟨r, hr⟩ := exists_loadedFrom m q l s
  rw [hr]
  split
  · unfold State.setReg State.setRegIn
    split <;> exact ⟨_, rfl⟩
  · exact ⟨r, rfl⟩

/-- R15 is loaded from the last address of its list (42_a32_core_subset.md R1024). -/
theorem loadedPc_wordsAt (regs : BitVec 16) (a : Word) (s : State) :
    loadedPc (s.wordsAt (listAddresses a (listRegs regs))) =
      if regs.getLsbD 15 then some (s.memValue (a + BitVec.ofNat 32 (4 * (listCount regs - 1))) 4) else none := by
  have hlow : (s.wordsAt (listAddresses a (lowRegs regs))).find? (fun e => e.1 == 15) = none := by
    rw [List.find?_eq_none]
    intro e he
    obtain ⟨x, hx, rfl⟩ := List.mem_map.mp he
    rw [beq_false_of_ne (ne_of_mem_lowRegs (fst_mem_of_mem_listAddresses hx))]
    exact Bool.false_ne_true
  have hregs := listRegs_eq regs
  have hcount := length_listRegs regs
  cases h15 : regs.getLsbD 15 with
  | false =>
    rw [h15, if_neg Bool.false_ne_true, List.append_nil] at hregs
    rw [hregs, loadedPc, hlow]
    rfl
  | true =>
    rw [h15, if_pos rfl] at hregs
    rw [hregs, List.length_append, List.length_singleton] at hcount
    rw [hregs, listAddresses_concat, State.wordsAt, List.map_append, loadedPc, List.find?_append]
    rw [State.wordsAt] at hlow
    rw [hlow, ← hcount, Nat.add_sub_cancel]
    rfl

/-- A multiple load that main memory serves ends in what it does with the word for R15 (42_a32_core_subset.md R1024). -/
theorem loadMultiple_of_plain {p u S w : Bool} {rn : Reg} {regs : BitVec 16} {s : State} (hn : rn ≠ 15) (hregs : regs ≠ 0)
    (hbase : w = true → regs.getLsbD rn.toNat = false)
    (hbank : S = true → regs.getLsbD 15 = false → spsrIndex s.mode ≠ none) {a : Word}
    (ha : a = multipleStart (s.reg rn) p u (listCount regs)) (h : PlainWords s .read a (listCount regs)) {t b : State}
    (ht : t = State.loadedFrom (listMode s (S && !regs.getLsbD 15)) s (listAddresses a (listRegs regs)) s.accessed)
    (hb : b = if w then t.setReg rn (multipleEnd (s.reg rn) u (listCount regs)) else t) :
    loadMultiple p u S w rn regs s =
      (if regs.getLsbD 15 then
        if S then exceptionReturn (s.memValue (a + BitVec.ofNat 32 (4 * (listCount regs - 1))) 4)
        else bxWritePc (s.memValue (a + BitVec.ofNat 32 (4 * (listCount regs - 1))) 4)
      else fallThrough) b := by
  subst ha ht hb
  have hlist : (regs == 0 || (w && regs.getLsbD rn.toNat)) = false := by
    rw [beq_false_of_ne hregs, Bool.false_or]
    cases w with
    | false => rfl
    | true => exact hbase rfl
  have hmode : (S && !regs.getLsbD 15 && (spsrIndex s.mode).isNone) = false := by
    rw [Bool.eq_false_iff]
    intro hbad
    simp only [Bool.and_eq_true, Bool.not_eq_true', Option.isNone_iff_eq_none] at hbad
    obtain ⟨⟨hS, h15⟩, hnone⟩ := hbad
    exact hbank hS h15 hnone
  obtain ⟨r, rs, hrs⟩ := exists_listRegs hregs
  have hload := loadList_of_plain (privileged := s.privileged) (listMode s (S && !regs.getLsbD 15)) (bankIndex s.mode rn) r rs
    (multipleStart (s.reg rn) p u (listCount regs)) s (by
      rw [← List.length_cons (a := r), ← hrs, length_listRegs]
      exact h)
  rw [← hrs] at hload
  unfold loadMultiple
  rw [bind_ok (notPc_of_ne hn s), bind_ok (refuseIf_of_false hlist _), bind_ok (get_apply s), bind_ok (refuseIf_of_false hmode _),
    bind_ok hload, bind_ok (modify_apply _ _), putList_eq, loadedPc_wordsAt]
  refine (ite_writeReg_bind w rn _ _ _).trans ?_
  cases regs.getLsbD 15 <;> rfl

/-- Settles O36: the list loaded, then the pc by what the list and S ask for. -/
theorem loadMultiples : Obligations.LoadMultiples := by
  intro c p u S w rn regs s i hc hi hn hregs hbase hbank a n hcount ha h t ht b hb
  subst hcount
  have hexec : exec i s = finish (loadMultiple p u S w rn regs s) := by
    obtain rfl | ⟨rfl, rfl, rfl, rfl, rfl, rfl⟩ := hi
    · exact conditional_passed hc _
    · exact conditional_passed hc _
  have hbody := loadMultiple_of_plain hn hregs hbase hbank ha h ht hb
  obtain ⟨r, hframe⟩ := exists_loadedFrom_base (listMode s (S && !regs.getLsbD 15)) s (listAddresses a (listRegs regs))
    s.accessed w rn (multipleEnd (s.reg rn) u (listCount regs))
  rw [← ht, ← hb] at hframe
  rw [hexec, hbody]
  refine ⟨fun h15 hp => ?_, fun h15 => ⟨fun hS hv => ?_, fun hS h0 => ?_, fun hS h0 h1 => ?_, fun j hS hj hr => ?_⟩⟩
  · rw [h15]
    exact congrArg finish (fallThrough_of_ne (by rw [hframe]; exact hp))
  · rw [h15, hS]
    exact congrArg finish (bxWritePc_of_and hv)
  · rw [h15, hS]
    exact congrArg finish (bxWritePc_thumb h0)
  · rw [h15, hS]
    exact congrArg finish (bxWritePc_unaligned h0 h1)
  · rw [h15, hS]
    subst hframe
    exact congrArg finish (exceptionReturn_of_some (s := { s.accessed with regs := r }) hj hr)

/-! ### Stores -/

section

variable {s p q : State} {privileged : Bool} {value : Reg → M Word} {m : Mode} {a : Word}

/-- Outside the ITCM the words of a list are stored one at a time (21_mpu_tcm.md R388). -/
theorem storeList_cons (h : inItcm s a = false) (r : Reg) (rs : List Reg) : storeList privileged value (r :: rs) a s = (do
    let v ← value r
    storeValue (multiple privileged) a v
    storeList privileged value rs (a + 4)) s := by
  cases rs with
  | nil =>
    refine congrFun (congrArg (value r >>= ·) (funext fun v => ?_)) s
    exact (bind_pure_unit (x := storeValue (multiple privileged) a v)).symm
  | cons r' rs =>
    have hchunk : ¬ (inItcm s a && decide (a.toNat % 8 = 0)) = true := by rw [h, Bool.false_and]; exact Bool.false_ne_true
    exact (bind_ok (get_apply s)).trans (congrFun (if_neg hchunk) s)

/-- One word of a list that main memory serves. -/
theorem storeList_cons_of_plain {t : State} {r : Reg} {v : Word} (hs : Plain s .write (multiple privileged) a)
    (hv : value r s = .ok v t) (ht : Plain t .write (multiple privileged) a) (rs : List Reg) :
    storeList privileged value (r :: rs) a s = storeList privileged value rs (a + 4) (t.stored a 4 v) := by
  obtain ⟨-, attr, -, hmem⟩ := plain_iff.mp hs
  rw [storeList_cons hmem.itcm, bind_ok hv, bind_ok (storeValue_of_plain ht v (Nat.le_refl 4))]
  rfl

/-- In every state with the registers of `p`, the value of `r` is what `q` holds. -/
def ReadsFrom (p q : State) (m : Mode) (value : Reg → M Word) (r : Reg) : Prop :=
  ∀ t : State, t.regs = p.regs → t.pc = p.pc → value r t = .ok (q.regIn m r) t

/-- The words of a list that main memory serves are stored one after the other (42_a32_core_subset.md R1025). -/
theorem storeList_of_plain {rs : List Reg} (hvalue : ∀ r ∈ rs, ReadsFrom p q m value r) (hregs : s.regs = p.regs)
    (hpc : s.pc = p.pc) (h : ∀ x ∈ wordAddresses a rs.length, Plain s .write (multiple privileged) x) :
    storeList privileged value rs a s = .ok () (State.storedTo m q (listAddresses a rs) s) := by
  induction rs generalizing a s with
  | nil => rfl
  | cons r rs ih =>
    obtain ⟨hr, hrest⟩ := List.forall_mem_cons.mp hvalue
    obtain ⟨hfirst, hplain⟩ := List.forall_mem_cons.mp h
    rw [storeList_cons_of_plain hfirst (hr s hregs hpc) hfirst]
    exact ih hrest hregs hpc fun x hx => (hplain x hx).stored ..

/-- A register that is drawn when its turn comes: the words before and after it do not depend on it. Main memory serves the words
before and after the draw, for a free value may choose the port of an access (20_memory.md R291). -/
theorem storeList_draws {rs : List Reg} {rn : Reg} (hn : rn ∈ rs) (hnodup : rs.Nodup)
    (hdraws : ∀ t : State, value rn t = .ok (Config.freeWord t.free) (t.drew 1))
    (hfree : q.regIn m rn = Config.freeWord s.free) (hvalue : ∀ r ∈ rs, r ≠ rn → ReadsFrom p q m value r)
    (hregs : s.regs = p.regs) (hpc : s.pc = p.pc)
    (h : ∀ x ∈ wordAddresses a rs.length, Plain s .write (multiple privileged) x)
    (hdrew : ∀ x ∈ wordAddresses a rs.length, Plain (s.drew 1) .write (multiple privileged) x) :
    storeList privileged value rs a s = .ok () (State.storedTo m q (listAddresses a rs) (s.drew 1)) := by
  induction rs generalizing a s with
  | nil => cases hn
  | cons r rs ih =>
    obtain ⟨hr, hrest⟩ := List.forall_mem_cons.mp hvalue
    obtain ⟨hfirst, hplain⟩ := List.forall_mem_cons.mp h
    obtain ⟨hfirst', hplain'⟩ := List.forall_mem_cons.mp hdrew
    obtain ⟨hnotin, hnodup⟩ := List.nodup_cons.mp hnodup
    by_cases hrn : r = rn
    · subst hrn
      have hothers : ∀ r' ∈ rs, ReadsFrom p q m value r' := fun r' hr' => hrest r' hr' fun e => hnotin (e ▸ hr')
      rw [storeList_cons_of_plain hfirst (hdraws s) hfirst', ← hfree]
      exact storeList_of_plain (s := (s.drew 1).stored a 4 (q.regIn m r)) hothers hregs hpc fun x hx =>
        (hplain' x hx).stored ..
    · have hin : rn ∈ rs := (List.mem_cons.mp hn).resolve_left fun e => hrn e.symm
      rw [storeList_cons_of_plain hfirst (hr hrn s hregs hpc) hfirst]
      exact ih (s := s.stored a 4 (q.regIn m r)) hin hnodup hfree hrest hregs hpc (fun x hx => (hplain x hx).stored ..)
        fun x hx => (hplain' x hx).stored ..

end

theorem State.regIn_congr {s t : State} (hregs : t.regs = s.regs) (hpc : t.pc = s.pc) (m : Mode) (r : Reg) :
    t.regIn m r = s.regIn m r := by
  rw [State.regIn, State.regIn, hregs, hpc]

/-- The other registers of a mode keep their values. -/
theorem State.regIn_setRegIn_ne (s : State) (m : Mode) {r r' : Reg} (v : Word) (h15 : r ≠ 15) (h : r' ≠ r) :
    (s.setRegIn m r v).regIn m r' = s.regIn m r' := by
  by_cases h15' : r' = 15
  · subst h15'
    exact s.regIn_pc_setRegIn m m r v
  · exact (s.regIn_setRegIn m m r r' v h15 h15').trans (if_neg fun e => h (bankIndex_injective m r r' h15 h15' e).symm)

theorem State.storedTo_pc (m : Mode) (q : State) (l : List (Reg × Word)) (s : State) :
    (State.storedTo m q l s).pc = s.pc := by
  induction l generalizing s with
  | nil => rfl
  | cons e l ih => exact ih _

/-- What is stored for a register, but for a base that is drawn (42_a32_core_subset.md R1025). -/
theorem readsFrom_storedValue {m : Mode} {w : Bool} {rn : Reg} {regs : BitVec 16} {r : Reg} {p q : State}
    (h : ¬ (w = true ∧ r = rn ∧ (listRegs regs).head? ≠ some rn)) (hq : q.regIn m r = p.regIn m r) :
    ReadsFrom p q m (storedValue m w rn regs) r := by
  intro t hregs hpc
  have hkept : ¬ (w && r == rn && decide ((listRegs regs).head? ≠ some rn)) = true := by
    simpa only [Bool.and_eq_true, beq_iff_eq, decide_eq_true_eq, and_assoc] using h
  rw [hq, ← State.regIn_congr hregs hpc m r]
  exact if_neg hkept

theorem storedValue_draws {m : Mode} {rn : Reg} {regs : BitVec 16} (h : (listRegs regs).head? ≠ some rn) (t : State) :
    storedValue m true rn regs rn t = .ok (Config.freeWord t.free) (t.drew 1) := by
  refine (if_pos ?_ : _ = drawWord t)
  rw [beq_self_eq_true, decide_eq_true h]
  rfl

/-- A multiple store whose list is stored: the base is written back, the pc advances. -/
theorem storeMultiple_of_storeList {p u S w : Bool} {rn : Reg} {regs : BitVec 16} {s t : State} (hn : rn ≠ 15) (hregs : regs ≠ 0)
    (h : storeList s.privileged (storedValue (listMode s S) w rn regs) (listRegs regs)
      (multipleStart (s.reg rn) p u (listCount regs)) s = .ok () t) (hp : t.pc ≠ 0xFFFFFFFC) :
    storeMultiple p u S w rn regs s =
      .ok () (if w then t.setReg rn (multipleEnd (s.reg rn) u (listCount regs)) else t).past := by
  refine (bind_ok (notPc_of_ne hn s)).trans ((bind_ok (refuseIf_of_false (beq_false_of_ne hregs) _)).trans ?_)
  refine (bind_ok (get_apply s)).trans ((bind_ok h).trans ((ite_writeReg_bind w rn _ _ _).trans (fallThrough_of_ne ?_)))
  split
  · rwa [State.setReg_pc]
  · exact hp

/-- Settles O37: the list stored, with no draw or with the one draw of the base. -/
theorem storeMultiples : Obligations.StoreMultiples := by
  rintro c p u S w rn regs s i ⟨hc, hp⟩ hi hn hregs a n rfl rfl h
  have hexec {t : State} (ht : storeMultiple p u S w rn regs s = .ok () t) : exec i s = .next t := by
    obtain rfl | ⟨rfl, rfl, rfl, rfl, rfl, rfl⟩ := hi
    · exact conditional_next hc ht
    · exact conditional_next hc ht
  have hplain : ∀ x ∈ wordAddresses (multipleStart (s.reg rn) p u (listCount regs)) (listRegs regs).length,
      Plain s .write (multiple s.privileged) x := by
    rw [length_listRegs]
    exact h
  constructor
  · rintro hhead t rfl
    have hvalue : ∀ r ∈ listRegs regs, ReadsFrom s s (listMode s S) (storedValue (listMode s S) w rn regs) r := by
      refine fun r hr => readsFrom_storedValue ?_ rfl
      rintro ⟨hw, rfl, hne⟩
      exact hne (hhead hw (getLsbD_of_mem_listRegs hr))
    exact hexec (storeMultiple_of_storeList hn hregs (storeList_of_plain hvalue rfl rfl hplain) (by rwa [State.storedTo_pc]))
  · rintro rfl hbit hhead hdrew
    have hplain' : ∀ x ∈ wordAddresses (multipleStart (s.reg rn) p u (listCount regs)) (listRegs regs).length,
        Plain (s.drew 1) .write (multiple s.privileged) x := by
      rw [length_listRegs]
      exact hdrew
    have hvalue : ∀ r ∈ listRegs regs, r ≠ rn → ReadsFrom s (s.setRegIn (listMode s S) rn (Config.freeWord s.free)) (listMode s S)
        (storedValue (listMode s S) true rn regs) r := fun r _ hne =>
      readsFrom_storedValue (fun hbad => hne hbad.2.1) (s.regIn_setRegIn_ne _ _ hn hne)
    have hfree : (s.setRegIn (listMode s S) rn (Config.freeWord s.free)).regIn (listMode s S) rn = Config.freeWord s.free :=
      (s.regIn_setRegIn _ _ rn rn _ hn hn).trans (if_pos rfl)
    have hstored := storeList_draws (mem_listRegs_of_getLsbD hbit) (nodup_listRegs regs) (storedValue_draws hhead) hfree hvalue rfl
      rfl hplain hplain'
    exact ⟨_, hexec (storeMultiple_of_storeList hn hregs hstored (by rw [State.storedTo_pc]; exact hp))⟩

end Sys2Proof.Machine

/-!
# Floating-point patterns

A pattern below the format's width is its three fields (`packFp_fields`), and the fields of a pattern made of them are those
(`fields_packFp`). FPAbs and FPNeg follow: they clear or turn the top bit.
-/

namespace Sys2Proof.Machine

/-! ### The fields of a pattern -/

section

variable (f : Format) {x : Nat}

theorem fpExp_mul_add_fpFrac (x : Nat) : fpExp f x * 2 ^ f.fracBits + fpFrac f x = x % 2 ^ (f.expBits + f.fracBits) := by
  rw [fpExp, fpFrac, Nat.add_comm f.expBits, pow_add, Nat.mod_mul, Nat.mul_comm, Nat.add_comm]

theorem fpAbs_eq (x : Nat) : fpAbs f x = x % 2 ^ (f.expBits + f.fracBits) := by
  rw [fpAbs, packFp, Nat.add_assoc, fpExp_mul_add_fpFrac, Bool.toNat_false, Nat.zero_mul, Nat.zero_add]

/-- The sign of a pattern is its top bit. -/
theorem fpSign_eq_decide (h : x < 2 ^ (1 + f.expBits + f.fracBits)) :
    fpSign f x = decide (2 ^ (f.expBits + f.fracBits) ≤ x) := by
  have hpos : 0 < 2 ^ (f.expBits + f.fracBits) := Nat.two_pow_pos _
  have hlt : x / 2 ^ (f.expBits + f.fracBits) < 2 := by
    rw [Nat.div_lt_iff_lt_mul hpos, ← pow_succ']
    rwa [show f.expBits + f.fracBits + 1 = 1 + f.expBits + f.fracBits by omega]
  rw [fpSign, Nat.mod_eq_of_lt hlt, beq_eq_decide, decide_eq_decide]
  have hone := Nat.le_div_iff_mul_le (x := 1) (y := x) hpos
  omega

/-- A pattern is its fields. -/
theorem packFp_fields (h : x < 2 ^ (1 + f.expBits + f.fracBits)) :
    packFp f (fpSign f x) (fpExp f x) (fpFrac f x) = x := by
  rw [packFp, Nat.add_assoc, fpExp_mul_add_fpFrac, fpSign_eq_decide f h]
  rw [Nat.add_assoc, Nat.add_comm, pow_succ] at h
  by_cases hs : 2 ^ (f.expBits + f.fracBits) ≤ x
  · rw [decide_eq_true hs, Nat.mod_eq_sub_mod hs, Nat.mod_eq_of_lt (by omega), Bool.toNat_true]
    omega
  · rw [decide_eq_false hs, Nat.mod_eq_of_lt (by omega), Bool.toNat_false]
    omega

/-- The fields of a pattern that was made of them. -/
theorem fields_packFp (s : Bool) {e m : Nat} (he : e < 2 ^ f.expBits) (hm : m < 2 ^ f.fracBits) :
    fpSign f (packFp f s e m) = s ∧ fpExp f (packFp f s e m) = e ∧ fpFrac f (packFp f s e m) = m := by
  have hF : 0 < 2 ^ f.fracBits := Nat.two_pow_pos _
  have hform : packFp f s e m = m + 2 ^ f.fracBits * (e + 2 ^ f.expBits * s.toNat) := by
    rw [packFp, pow_add]
    ring
  have hup : packFp f s e m / 2 ^ f.fracBits = e + 2 ^ f.expBits * s.toNat := by
    rw [hform, Nat.add_mul_div_left _ _ hF, Nat.div_eq_of_lt hm, Nat.zero_add]
  refine ⟨?_, ?_, ?_⟩
  · rw [fpSign, Nat.add_comm f.expBits, pow_add, ← Nat.div_div_eq_div_mul, hup,
      Nat.add_mul_div_left _ _ (Nat.two_pow_pos _), Nat.div_eq_of_lt he]
    cases s <;> rfl
  · rw [fpExp, hup, Nat.add_mul_mod_self_left, Nat.mod_eq_of_lt he]
  · rw [fpFrac, hform, Nat.add_mul_mod_self_left, Nat.mod_eq_of_lt hm]

theorem packFp_lt (s : Bool) {e m : Nat} (he : e < 2 ^ f.expBits) (hm : m < 2 ^ f.fracBits) :
    packFp f s e m < 2 ^ (1 + f.expBits + f.fracBits) := by
  have hem : e * 2 ^ f.fracBits + m < 2 ^ (f.expBits + f.fracBits) := by
    rw [pow_add]
    have := Nat.mul_le_mul_right (2 ^ f.fracBits) (Nat.succ_le_of_lt he)
    rw [Nat.succ_mul] at this
    omega
  have hs : s.toNat * 2 ^ (f.expBits + f.fracBits) ≤ 2 ^ (f.expBits + f.fracBits) := by
    cases s <;> simp
  rw [packFp, Nat.add_assoc, Nat.add_assoc 1, Nat.add_comm 1, pow_succ]
  omega

/-- The opposite sign and the same magnitude. -/
theorem fpNeg_eq (h : x < 2 ^ (1 + f.expBits + f.fracBits)) :
    fpNeg f x = if 2 ^ (f.expBits + f.fracBits) ≤ x then x - 2 ^ (f.expBits + f.fracBits)
      else x + 2 ^ (f.expBits + f.fracBits) := by
  have hx := packFp_fields f h
  have hs := fpSign_eq_decide f h
  rw [packFp] at hx
  rw [fpNeg, packFp]
  split
  · next hle =>
    rw [hs, decide_eq_true hle] at hx ⊢
    simp only [Bool.toNat_true, Bool.not_true, Bool.toNat_false] at hx ⊢
    omega
  · next hlt =>
    rw [hs, decide_eq_false hlt] at hx ⊢
    simp only [Bool.toNat_true, Bool.not_false, Bool.toNat_false] at hx ⊢
    omega

end

end Sys2Proof.Machine

/-!
# VFP data processing

Each instruction is its checks, which pass or trap by FPSCR.Len (`checkData_of_runs`, `checkData_of_short`), the registers it
reads, a computation on FPSCR, and the register it writes (`result_apply`).
-/

namespace Sys2Proof.Machine

/-! ### The registers' patterns -/

theorem fp_lt (s : State) (sz : Bool) (v : BitVec 4) (b : Bool) :
    s.fp sz v b < 2 ^ (1 + (formatOf sz).expBits + (formatOf sz).fracBits) := by
  cases sz
  · exact (s.single (singleNumber v b)).isLt
  · exact (s.double v).isLt

/-! ### Checks -/

section

variable {s : State} {sz : Bool}

/-- With the registers and the precision it names, a data-processing instruction has the last check left
(43_vfp_instructions.md R1042). -/
theorem checkData_eq_vectorTrap (hready : VfpReady s) (hdbl : sz = true → s.cfg.fpu = .double) {bad : Bool}
    (hbad : bad = false) : checkData bad sz s = vectorTrap s := by
  have hprec : (bad || (sz && s.cfg.fpu == .single)) = false := by
    subst hbad
    cases sz with
    | false => rfl
    | true => rw [hdbl rfl]; rfl
  unfold checkData
  rw [bind_ok (vfpOn_of_ready hready), bind_ok (get_apply s), hprec, bind_ok (undefinedIf_apply _ s)]

theorem checkData_of_runs (h : VfpRuns s sz) {bad : Bool} (hbad : bad = false) : checkData bad sz s = .ok () s := by
  obtain ⟨hready, hlen, hdbl⟩ := h
  rw [checkData_eq_vectorTrap hready hdbl hbad]
  unfold vectorTrap
  rw [bind_ok (get_apply s)]
  exact congrFun (if_neg (not_not_intro hlen)) s

/-- A short vector sets FPEXC.DEX and traps (12_fpu_registers.md R213). -/
theorem checkData_of_short (hready : VfpReady s) (hlen : s.fpu.fpscr.extractLsb' 16 3 ≠ 0)
    (hdbl : sz = true → s.cfg.fpu = .double) {bad : Bool} (hbad : bad = false) :
    checkData bad sz s = .error .undefined { s with fpu := { s.fpu with fpexc := s.fpu.fpexc ||| 0x20000000 } } := by
  rw [checkData_eq_vectorTrap hready hdbl hbad]
  unfold vectorTrap
  rw [bind_ok (get_apply s)]
  exact congrFun (if_pos hlen) s

end

/-! ### Registers and computations -/

theorem readFp_apply (sz : Bool) (v : BitVec 4) (b : Bool) (s : State) : readFp sz v b s = .ok (s.fp sz v b) s := rfl

theorem writeFp_apply (sz : Bool) (v : BitVec 4) (b : Bool) (x : Nat) (s : State) :
    writeFp sz v b x s = .ok () (s.setFp sz v b x) := rfl

theorem runFp_apply {α : Type} (f : Fp α) (s : State) :
    runFp f s = .ok (f s.fpu.fpscr).1 (s.setFpscr (f s.fpu.fpscr).2) := rfl

theorem State.setFp_pc (s : State) (sz : Bool) (v : BitVec 4) (b : Bool) (x : Nat) : (s.setFp sz v b x).pc = s.pc := by
  cases sz <;> rfl

/-- A result with its FPSCR goes to a register, and the pc past the instruction. -/
theorem write_fallThrough {s : State} (hp : s.pc ≠ 0xFFFFFFFC) (sz : Bool) (v : BitVec 4) (b : Bool) (r : Nat × Word) :
    (do writeFp sz v b r.1; fallThrough : M Unit) (s.setFpscr r.2) = .ok () (s.fpResult sz v b r) := by
  have hpc : ((s.setFpscr r.2).setFp sz v b r.1).pc = s.pc := State.setFp_pc ..
  rw [bind_ok (writeFp_apply ..), fallThrough_of_ne (by rwa [hpc]), hpc]
  rfl

/-- The result of a computation goes to a register. -/
theorem result_apply {s : State} (hp : s.pc ≠ 0xFFFFFFFC) (sz : Bool) (v : BitVec 4) (b : Bool) (f : Fp Nat) :
    (do writeFp sz v b (← runFp f); fallThrough : M Unit) s = .ok () (s.fpResult sz v b (f s.fpu.fpscr)) :=
  (bind_ok (runFp_apply f s)).trans (write_fallThrough hp sz v b _)

/-! ### Operations on registers -/

theorem exec_three (o : VfpOp) (c : Cond) (d : Bool) (vn vd : BitVec 4) (sz n m : Bool) (vm : BitVec 4) (s : State) :
    exec (o.instr c d vn vd sz n m vm) s =
      conditional c (vfpThree d vn vd sz n m vm fun f acc x y => o.compute f acc x y) s := by
  cases o <;> rfl

/-- Settles O48: the checks pass, then the computation of the operation; or they trap. -/
theorem vfpThreeRegisters : Obligations.VfpThreeRegisters := by
  intro o c d vn vd sz n m vm s hregs
  rw [exec_three]
  refine ⟨fun ⟨hc, hp⟩ hruns => conditional_next hc ?_, fun hc hready hlen hdbl harm => ?_⟩
  · exact (bind_ok (checkData_of_runs hruns hregs)).trans (result_apply hp sz vd d _)
  · have htrap : vfpThree d vn vd sz n m vm (fun f acc x y => o.compute f acc x y) s = _ :=
      bind_error (checkData_of_short hready hlen hdbl hregs)
    rw [conditional_passed hc, htrap]
    exact finish_undefined_next harm

/-- An operation on two registers that runs. -/
theorem vfpTwo_of_runs {s : State} {sz : Bool} (hp : s.pc ≠ 0xFFFFFFFC) (hruns : VfpRuns s sz) {d m : Bool}
    (hregs : (sz && (d || m)) = false) (vd vm : BitVec 4) (f : Format → Nat → Fp Nat) :
    vfpTwo d vd sz m vm f s = .ok () (s.fpResult sz vd d (f (formatOf sz) (s.fp sz vm m) s.fpu.fpscr)) :=
  (bind_ok (checkData_of_runs hruns hregs)).trans (result_apply hp sz vd d _)

/-- Settles O49: the two-register operations by what they compute of the pattern; the immediate form computes nothing. -/
theorem vfpTwoRegisters : Obligations.VfpTwoRegisters := by
  rintro c d vd sz m vm h l s ⟨hc, hp⟩ hruns
  refine ⟨fun hregs => ?_, fun hd => conditional_next hc ?_⟩
  · have htwo (f : Format → Nat → Fp Nat) : conditional c (vfpTwo d vd sz m vm f) s = _ :=
      conditional_next hc (vfpTwo_of_runs hp hruns hregs vd vm f)
    have htop : (if sz then 2 ^ 63 else 2 ^ 31) = 2 ^ ((formatOf sz).expBits + (formatOf sz).fracBits) := by cases sz <;> rfl
    rw [htop]
    refine ⟨htwo fun _ x => pure x, ?_, ?_, htwo fpSqrt⟩
    · rw [← fpAbs_eq]
      exact htwo fun f x => pure (fpAbs f x)
    · rw [← fpNeg_eq _ (fp_lt s sz vm m)]
      exact htwo fun f x => pure (fpNeg f x)
  · exact (bind_ok (checkData_of_runs hruns hd)).trans (write_fallThrough hp sz vd d (_, s.fpu.fpscr))

/-! ### Comparisons -/

/-- A comparison's result goes to FPSCR.N, Z, C and V (43_vfp_instructions.md R1074). -/
theorem setFpscrFlags_apply (nzcv : BitVec 4) (s : State) :
    setFpscrFlags nzcv s = .ok () (s.setFpscr ((s.fpu.fpscr &&& 0x0FFFFFFF) ||| (nzcv ++ 0#28))) := by
  have hflags : ∀ b : BitVec 4, (b.setWidth 32 <<< 28) &&& 0xF0000000 = b ++ 0#28 := by decide
  unfold setFpscrFlags
  rw [modify_apply, maskWrite, hflags]
  rfl

/-- What a comparison does past its checks. -/
theorem compare_apply {s : State} (hp : s.pc ≠ 0xFFFFFFFC) (f : Fp (BitVec 4)) :
    (do setFpscrFlags (← runFp f); fallThrough : M Unit) s =
      .ok () (s.setFpscr (((f s.fpu.fpscr).2 &&& 0x0FFFFFFF) ||| ((f s.fpu.fpscr).1 ++ 0#28))).past :=
  (bind_ok (runFp_apply f s)).trans ((bind_ok (setFpscrFlags_apply _ _)).trans (fallThrough_of_ne (s := s.setFpscr _) hp))

theorem fpZero_false (f : Format) : fpZero f false = 0 := by
  simp [fpZero, packFp]

/-- Settles O50: both forms are a computation whose result goes to the flags. -/
theorem vfpComparisons : Obligations.VfpComparisons := by
  rintro c d vd sz e m vm s ⟨hc, hp⟩ hruns
  refine ⟨fun hregs => conditional_next hc ?_, fun hd => ?_⟩
  · exact (bind_ok (checkData_of_runs hruns hregs)).trans ((bind_ok (readFp_apply sz vd d s)).trans
      ((bind_ok (readFp_apply sz vm m s)).trans (compare_apply hp _)))
  · have hzero : fpCompare (formatOf sz) (s.fp sz vd d) 0 e =
        fpCompare (formatOf sz) (s.fp sz vd d) (fpZero (formatOf sz) false) e := by rw [fpZero_false]
    rw [hzero]
    exact conditional_next hc ((bind_ok (checkData_of_runs hruns hd)).trans ((bind_ok (refuseIf_of_false rfl _)).trans
      ((bind_ok (readFp_apply sz vd d s)).trans (compare_apply hp _))))

/-! ### Conversions -/

/-- A word as a signed or unsigned integer is the fixed-point value of all its bits. -/
theorem fixedValue_word (w : Word) (signedInt : Bool) :
    fixedValue w.toNat 32 (!signedInt) = if signedInt then w.toInt else (w.toNat : Int) := by
  have hw := w.isLt
  rw [fixedValue, Nat.mod_eq_of_lt hw]
  cases signedInt with
  | false => rfl
  | true =>
    have htop : 2 * w.toNat < 2 ^ 32 ↔ w.toNat < 2 ^ 31 := by omega
    simp only [BitVec.toInt_eq_toNat_cond, htop, Bool.not_true, Bool.false_or, decide_eq_true_eq, if_true]

/-- The integer of the low bits of a pattern, the top one of them a sign or not. -/
theorem fixedValue_eq (x size : Nat) (uns : Bool) : fixedValue x size uns =
    if uns = true ∨ x % 2 ^ size < 2 ^ (size - 1) then ((x % 2 ^ size : Nat) : Int)
    else ((x % 2 ^ size : Nat) : Int) - 2 ^ size := by
  cases uns <;> simp [fixedValue]

theorem toNat_append_ofBool (k : BitVec 4) (i : Bool) : (k ++ BitVec.ofBool i).toNat = k.toNat * 2 + i.toNat := by
  revert k i; decide

/-- Settles O51: each conversion is its checks and one computation. -/
theorem vfpConversions : Obligations.VfpConversions := by
  rintro c d vd sz m b x vm k s ⟨hc, hp⟩
  refine ⟨fun hruns hreg => ?precision, fun hruns hreg r hr => ?toInt, fun hruns hreg w hw => ?fromInt,
    fun hruns hreg sx i size n hsize hn hle => ?fixed, fun hruns fmt hfmt => ?half⟩
  case precision =>
    exact conditional_next hc ((bind_ok (checkData_of_runs hruns hreg)).trans ((bind_ok (readFp_apply sz vm m s)).trans
      (result_apply hp (!sz) vd d _)))
  case toInt =>
    subst hr
    refine conditional_next hc ((bind_ok (checkData_of_runs hruns hreg)).trans ((bind_ok (readFp_apply sz vm m s)).trans ?_))
    exact (bind_ok (runFp_apply _ s)).trans (write_fallThrough hp false vd d (_, _))
  case fromInt =>
    subst hw
    rw [← fixedValue_word]
    exact conditional_next hc ((bind_ok (checkData_of_runs hruns hreg)).trans ((bind_ok (readFp_apply false vm m s)).trans
      (result_apply hp sz vd d _)))
  case fixed =>
    have hbits : (k ++ BitVec.ofBool i).toNat = n := (toNat_append_ofBool k i).trans hn.symm
    subst hsize
    have hrange : decide ((if sx then 32 else 16) < n) = false := decide_eq_false (Nat.not_lt.mpr hle)
    have hchecks {rest : Unit → M Unit} : (checkData (sz && d) sz >>= fun _ =>
        refuseIf (decide ((if sx then 32 else 16) < (k ++ BitVec.ofBool i).toNat)) .vfpUnpredictable >>= rest) s = rest () s := by
      rw [hbits, hrange]
      exact (bind_ok (checkData_of_runs hruns hreg)).trans (bind_ok (refuseIf_of_false rfl _))
    refine ⟨fun r hr => conditional_next hc (hchecks.trans ((bind_ok (readFp_apply sz vd d s)).trans ?_)),
      fun low hlow => conditional_next hc (hchecks.trans ((bind_ok (readFp_apply sz vd d s)).trans ?_))⟩
    · subst hr
      rw [hbits]
      exact (congrFun (if_pos rfl) s).trans ((bind_ok (runFp_apply _ s)).trans (write_fallThrough hp sz vd d (_, _)))
    · subst hlow
      rw [hbits, ← fixedValue_eq]
      exact result_apply hp sz vd d _
  case half =>
    subst hfmt
    refine ⟨conditional_next hc ?_, fun r old hr hold => conditional_next hc ?_⟩
    · exact (bind_ok (checkData_of_runs hruns rfl)).trans ((bind_ok (get_apply s)).trans (result_apply hp false vd d _))
    · subst hr hold
      refine (bind_ok (checkData_of_runs hruns rfl)).trans ((bind_ok (get_apply s)).trans ((bind_ok (runFp_apply _ s)).trans ?_))
      exact (bind_ok (modify_apply _ _)).trans (fallThrough_of_ne (s := (s.setFpscr _).setSingle _ _) hp)

end Sys2Proof.Machine

/-!
# VFP transfers, loads and stores

The transfers end in `fallThrough` after their checks. A register's worth of main memory is one word or two
(`loadFp_of_plain`, `storeFp_of_plain`); the registers of a list move one after the other, each from or to what main memory
goes on serving (`loadFpList_of_plain`, `storeFpList_of_plain`).
-/

namespace Sys2Proof.Machine

/-! ### Transfers -/

theorem notPcVfp_of_ne {r : Reg} (h : r ≠ 15) (s : State) : notPcVfp r s = .ok () s :=
  refuseIf_of_false (beq_false_of_ne h) _

/-- The single-precision register in the low or high half of a doubleword register (43_vfp_instructions.md R1041). -/
theorem singleNumber_fields (v : BitVec 4) (x : Bool) :
    (singleNumber v x).extractLsb' 1 4 = v ∧ (singleNumber v x).getLsbD 0 = x := by
  revert v x; decide

theorem setDouble_setHalf (s : State) (v : BitVec 4) (x : Bool) (w : Word) :
    s.setDouble v (setHalf (s.double v) x w) = s.setSingle (singleNumber v x) w := by
  obtain ⟨hv, hx⟩ := singleNumber_fields v x
  rw [State.setSingle, hv, hx]

theorem extractLsb'_double (s : State) (v : BitVec 4) (x : Bool) :
    (s.double v).extractLsb' (if x then 32 else 0) 32 = s.single (singleNumber v x) := by
  obtain ⟨hv, hx⟩ := singleNumber_fields v x
  rw [State.single, hv, hx]
  cases x <;> rfl

section

variable {c : Cond} {s t : State} {rt rt2 : Reg} {bad : Bool} {rest : M Unit}
  (hrun : Runs c s) (hready : VfpReady s) (hbad : bad = false) (hrt : rt ≠ 15) (h : rest s = .ok () t)
include hrun hready hbad hrt h

/-- A transfer of one ARM register past its checks. -/
theorem oneRegister_next : conditional c (do
    checkTransfer false
    refuseIf bad .vfpUnpredictable
    notPcVfp rt
    rest) s = .next t :=
  conditional_next hrun.1 ((bind_ok (checkTransfer_of_ready hready rfl)).trans
    ((bind_ok (refuseIf_of_false hbad _)).trans ((bind_ok (notPcVfp_of_ne hrt s)).trans h)))

/-- A transfer of two ARM registers past its checks. -/
theorem twoRegisters_next (hrt2 : rt2 ≠ 15) : conditional c (do
    checkTransfer false
    refuseIf bad .vfpUnpredictable
    notPcVfp rt
    notPcVfp rt2
    rest) s = .next t :=
  oneRegister_next hrun hready hbad hrt ((bind_ok (notPcVfp_of_ne hrt2 s)).trans h)

end

/-- Two words go to two registers. -/
theorem writeTwoRegs_fallThrough {s : State} (hp : s.pc ≠ 0xFFFFFFFC) (rt rt2 : Reg) (v v2 : Word) :
    (do writeReg rt v; writeReg rt2 v2; fallThrough : M Unit) s = .ok () ((s.setReg rt v).wrote rt2 v2) :=
  (bind_ok (writeReg_apply rt v s)).trans (writeReg_fallThrough (by rwa [State.setReg_pc]) rt2 v2)

/-- Settles O55: past their checks the transfers write registers and advance the pc. -/
theorem vfpTransfers : Obligations.VfpTransfers := by
  intro c v rt rt2 n x s hrun hready hrt hrt2
  have hp := hrun.2
  have hadvance (t : State) (ht : t.pc = s.pc) : fallThrough t = .ok () t.past := fallThrough_of_ne (by rwa [ht])
  refine ⟨?toCore, ?fromCore, fun h31 => ⟨fun hne => ?toPair, ?fromPair⟩, fun hne => ?toTwo, ?fromTwo, ?toHalf, ?fromHalf⟩
  case toCore => exact oneRegister_next hrun hready rfl hrt (writeReg_fallThrough hp rt _)
  case fromCore => exact oneRegister_next hrun hready rfl hrt (hadvance _ rfl)
  case toPair =>
    exact twoRegisters_next hrun hready (by rw [beq_false_of_ne h31, beq_false_of_ne hne]; rfl) hrt
      (writeTwoRegs_fallThrough hp rt rt2 _ _) hrt2
  case fromPair => exact twoRegisters_next hrun hready (by rw [beq_false_of_ne h31]; rfl) hrt (hadvance _ rfl) hrt2
  case toTwo =>
    exact twoRegisters_next hrun hready (by rw [beq_false_of_ne hne]; rfl) hrt (writeTwoRegs_fallThrough hp rt rt2 _ _) hrt2
  case fromTwo => exact twoRegisters_next hrun hready rfl hrt (hadvance _ rfl) hrt2
  case toHalf =>
    rw [← setDouble_setHalf]
    exact oneRegister_next hrun hready rfl hrt (hadvance _ rfl)
  case fromHalf =>
    rw [← extractLsb'_double]
    exact oneRegister_next hrun hready rfl hrt (writeReg_fallThrough hp rt _)

/-! ### One register's worth of main memory -/

section

variable {s : State} {privileged : Bool} {form : AccessForm} {a : Word} {sz : Bool}

/-- The words of one register. -/
def fpWords (sz : Bool) : Nat := if sz then 2 else 1

/-- VLDR and VSTR make single accesses, which choose their port as the multiple ones do. -/
theorem plain_of_multiple {k : AccessKind} (h : Plain s k (multiple privileged) a) (hform : form ≠ .locked) :
    Plain s k ⟨4, 4, privileged, form⟩ a := by
  cases form with
  | single => exact h
  | multiple => exact h
  | locked => exact absurd rfl hform

theorem loadFp_of_plain (hform : form ≠ .locked)
    (h : ∀ x ∈ wordAddresses a (fpWords sz), Plain s .read (multiple privileged) x) :
    loadFp privileged form sz a s = .ok (s.fpMem sz a) s.accessed := by
  have hlow := loadValue_of_plain (plain_of_multiple (h a (by cases sz <;> exact List.mem_cons_self ..)) hform)
  cases sz with
  | false => exact (bind_ok hlow).trans rfl
  | true =>
    have hhigh := loadValue_of_plain (plain_of_multiple (h (a + 4) (List.mem_cons_of_mem _ (List.mem_cons_self ..))) hform).accessed
    exact (bind_ok (get_apply s)).trans ((bind_ok hlow).trans ((bind_ok hhigh).trans rfl))

/-- A word that main memory serves is written as one part, however the access is made. -/
theorem writeAdmitted_word {acc : Access} {attr : Attr} (h : Plain s .write acc a) (hsize : acc.size = 4)
    (hadm : admission .write acc a s = .ok attr) (v : Word) :
    writeAdmitted acc a attr (bytesOf s.bigEndian 4 v) s = .ok () (s.stored a 4 v) := by
  have hstore := storeValue_of_plain h v hsize.le
  rw [storeValue_eq_writePart hadm h.1, hsize] at hstore
  rw [writeAdmitted_of_aligned h.1]
  exact hstore

/-- Two words that main memory serves are stored one after the other, however the accesses are made. -/
theorem storeTwo_words {acc : Access} (hsize : acc.size = 4) (h : Plain s .write acc a) (h' : Plain s .write acc (a + 4))
    (v v' : Word) : storeTwo acc a v v' s = .ok () ((s.stored a 4 v).stored (a + 4) 4 v') := by
  obtain ⟨-, attr, hadm, hmem⟩ := plain_iff.mp h
  obtain ⟨-, attr', hadm', -⟩ := plain_iff.mp h'
  have hchunk : (acc.form == .multiple && inItcm s a && decide (a.toNat % 8 = 0)) = false := by
    rw [hmem.itcm, Bool.and_false, Bool.false_and]
  unfold storeTwo
  simp only [hadm, hadm', hchunk, Bool.false_eq_true, if_false]
  rw [bind_ok (writeAdmitted_word h hsize hadm v)]
  exact writeAdmitted_word (h'.stored a 4 v) hsize hadm' v'

theorem storeFp_of_plain (hform : form ≠ .locked)
    (h : ∀ x ∈ wordAddresses a (fpWords sz), Plain s .write (multiple privileged) x) (x : Nat) :
    storeFp privileged form sz a x s = .ok () (s.fpStored sz a x) := by
  have hlow := plain_of_multiple (h a (by cases sz <;> exact List.mem_cons_self ..)) hform
  cases sz with
  | false => exact storeValue_of_plain hlow _ (Nat.le_refl 4)
  | true =>
    have hhigh := plain_of_multiple (h (a + 4) (List.mem_cons_of_mem _ (List.mem_cons_self ..))) hform
    exact (bind_ok (get_apply s)).trans (storeTwo_words rfl hlow hhigh _ _)

end

/-! ### Lists of registers -/

/-- The words of the first register of a list, and those of the others. -/
theorem wordAddresses_fp (sz : Bool) (a : Word) (n : Nat) :
    wordAddresses a (if sz then 2 * (n + 1) else n + 1) =
      wordAddresses a (fpWords sz) ++ wordAddresses (a + fpBytes sz) (if sz then 2 * n else n) := by
  cases sz with
  | false => rfl
  | true =>
    have hnext : a + 8 = a + 4 + 4 := by rw [BitVec.add_assoc]; rfl
    show a :: (a + 4) :: wordAddresses (a + 4 + 4) (2 * n) = a :: (a + 4) :: wordAddresses (a + 8) (2 * n)
    rw [hnext]

section

variable {privileged sz : Bool} {r n : Nat} {a : Word} {s : State}

theorem Plain.setFp {k : AccessKind} {acc : Access} {x : Word} (h : Plain s k acc x) (v : BitVec 4) (b : Bool) (p : Nat) :
    Plain (s.setFp sz v b p) k acc x := by
  cases sz <;> exact h

/-- Loads do not depend on the registers loaded before, only on memory and on the byte order. -/
theorem State.fpMem_setFp (v : BitVec 4) (b : Bool) (p : Nat) (x : Word) :
    (s.setFp sz v b p).fpMem sz x = s.fpMem sz x := by
  cases sz <;> rfl

theorem State.fpLoaded_congr {m m' : State} (h : ∀ x, m'.fpMem sz x = m.fpMem sz x) (t : State) :
    State.fpLoaded m' sz r n a t = State.fpLoaded m sz r n a t := by
  induction n generalizing r a t with
  | zero => rfl
  | succ n ih => rw [State.fpLoaded, State.fpLoaded, h, ih]

theorem State.accessed_setFp (v : BitVec 4) (b : Bool) (p : Nat) :
    (s.accessed.setFp sz v b p).accessed = s.accessed.setFp sz v b p := by
  cases sz <;> rfl

/-- The registers of a list are loaded one after the other (43_vfp_instructions.md R1087). -/
theorem loadFpList_of_plain (hn : n ≠ 0)
    (h : ∀ x ∈ wordAddresses a (if sz then 2 * n else n), Plain s .read (multiple privileged) x) :
    loadFpList privileged sz r n a s = .ok () (State.fpLoaded s sz r n a s.accessed) := by
  induction n generalizing r a s with
  | zero => exact absurd rfl hn
  | succ n ih =>
    rw [wordAddresses_fp] at h
    have hfirst := loadFp_of_plain (form := .multiple) (by decide) fun x hx => h x (List.mem_append_left _ hx)
    refine (bind_ok hfirst).trans ((bind_ok (writeFp_apply ..)).trans ?_)
    cases n with
    | zero => rfl
    | succ n =>
      have hplain : ∀ x ∈ wordAddresses (a + fpBytes sz) (if sz then 2 * (n + 1) else n + 1),
          Plain (s.accessed.setFp sz (listField sz r).1 (listField sz r).2 (s.fpMem sz a)) .read (multiple privileged) x :=
        fun x hx => (h x (List.mem_append_right _ hx)).accessed.setFp _ _ _
      have hrest := ih (r := r + 1) (Nat.succ_ne_zero n) hplain
      rw [State.accessed_setFp, State.fpLoaded_congr (m := s) fun x => s.accessed.fpMem_setFp _ _ _ x] at hrest
      exact hrest

theorem State.fp_fpStored (x : Word) (p : Nat) (v : BitVec 4) (b : Bool) : (s.fpStored sz x p).fp sz v b = s.fp sz v b := by
  cases sz <;> rfl

theorem Plain.fpStored {k : AccessKind} {acc : Access} {x : Word} (h : Plain s k acc x) (y : Word) (p : Nat) :
    Plain (s.fpStored sz y p) k acc x := by
  cases sz <;> exact h

theorem State.fpStoredList_congr {m m' : State} (h : ∀ v b, m'.fp sz v b = m.fp sz v b) (t : State) :
    State.fpStoredList m' sz r n a t = State.fpStoredList m sz r n a t := by
  induction n generalizing r a t with
  | zero => rfl
  | succ n ih => rw [State.fpStoredList, State.fpStoredList, h, ih]

/-- The registers of a list are stored one after the other (43_vfp_instructions.md R1088). -/
theorem storeFpList_of_plain
    (h : ∀ x ∈ wordAddresses a (if sz then 2 * n else n), Plain s .write (multiple privileged) x) :
    storeFpList privileged sz r n a s = .ok () (State.fpStoredList s sz r n a s) := by
  induction n generalizing r a s with
  | zero => rfl
  | succ n ih =>
    rw [wordAddresses_fp] at h
    have hfirst := storeFp_of_plain (form := .multiple) (by decide) (fun x hx => h x (List.mem_append_left _ hx))
      (s.fp sz (listField sz r).1 (listField sz r).2)
    have hrest := ih (r := r + 1) (a := a + fpBytes sz)
      (s := s.fpStored sz a (s.fp sz (listField sz r).1 (listField sz r).2))
      fun x hx => (h x (List.mem_append_right _ hx)).fpStored _ _
    rw [State.fpStoredList_congr (fun v b => State.fp_fpStored _ _ v b)] at hrest
    exact (bind_ok (readFp_apply ..)).trans ((bind_ok hfirst).trans hrest)

end

/-! ### The instructions -/

theorem State.fpLoaded_pc (m : State) (sz : Bool) (r n : Nat) (a : Word) (t : State) :
    (State.fpLoaded m sz r n a t).pc = t.pc := by
  induction n generalizing r a t with
  | zero => rfl
  | succ n ih => rw [State.fpLoaded, ih, State.setFp_pc]

theorem State.fpStored_pc (s : State) (sz : Bool) (a : Word) (x : Nat) : (s.fpStored sz a x).pc = s.pc := by
  cases sz <;> rfl

theorem State.fpStoredList_pc (m : State) (sz : Bool) (r n : Nat) (a : Word) (t : State) :
    (State.fpStoredList m sz r n a t).pc = t.pc := by
  induction n generalizing r a t with
  | zero => rfl
  | succ n ih => rw [State.fpStoredList, ih, State.fpStored_pc]

/-- A list of registers there are, with no write-back of R15 (43_vfp_instructions.md R1087). -/
theorem checkList_of_runs {s : State} {sz w d : Bool} {rn : Reg} {vd : BitVec 4} {k : BitVec 8} (hn : ¬ (rn = 15 ∧ w = true))
    (hne : listSize sz k ≠ 0) (hfit : listFirst sz vd d + listSize sz k ≤ if sz then 16 else 32) :
    checkList w d rn vd sz k s = .ok () s := by
  refine refuseIf_of_false ?_ _
  have hbase : (rn == 15 && w) = false := by
    rw [← Bool.not_eq_true, Bool.and_eq_true, beq_iff_eq]
    exact hn
  rw [hbase, beq_false_of_ne hne, decide_eq_false (by omega)]
  rfl

/-- The base of a list is written back or not, and the pc goes past the instruction. -/
theorem writeBack_fallThrough {t : State} (w : Bool) (rn : Reg) (v : Word) (hp : t.pc ≠ 0xFFFFFFFC) :
    (if w then do { writeReg rn v; fallThrough } else fallThrough : M Unit) t =
      .ok () (if w then t.setReg rn v else t).past := by
  refine (ite_writeReg_bind w rn v _ t).trans (fallThrough_of_ne ?_)
  cases w
  · exact hp
  · exact (State.setReg_pc ..).symm ▸ hp

section

variable {s : State} {u d w sz : Bool} {rn : Reg} {vd : BitVec 4} {k : BitVec 8} {off : Word} (hp : s.pc ≠ 0xFFFFFFFC)
  (hready : VfpReady s) (hd : (sz && d) = false) (hn : ¬ (rn = 15 ∧ w = true)) (hne : listSize sz k ≠ 0)
  (hfit : listFirst sz vd d + listSize sz k ≤ if sz then 16 else 32) (hoff : off = wordOffset k)
include hp hready hd hn hne hfit hoff

theorem vfpLoadMultiple_of_plain {base : Word} (hbase : base = baseValue s rn)
    (h : PlainWords s .read (if u then base else base - off) (if sz then 2 * listSize sz k else listSize sz k)) {t : State}
    (ht : t = State.fpLoaded s sz (listFirst sz vd d) (listSize sz k) (if u then base else base - off) s.accessed) :
    vfpLoadMultiple u d w rn vd sz k s =
      .ok () (if w then t.setReg rn (if u then base + off else base - off) else t).past := by
  subst hbase hoff ht
  unfold vfpLoadMultiple
  rw [bind_ok (checkTransfer_of_ready hready hd), bind_ok (checkList_of_runs hn hne hfit), bind_ok (get_apply s)]
  refine (bind_ok (onAbort_of_ok (loadFpList_of_plain hne h))).trans (writeBack_fallThrough w rn _ ?_)
  rwa [State.fpLoaded_pc]

theorem vfpStoreMultiple_of_plain {base : Word} (hbase : base = s.reg rn)
    (h : PlainWords s .write (if u then base else base - off) (if sz then 2 * listSize sz k else listSize sz k)) {t : State}
    (ht : t = State.fpStoredList s sz (listFirst sz vd d) (listSize sz k) (if u then base else base - off) s) :
    vfpStoreMultiple u d w rn vd sz k s =
      .ok () (if w then t.setReg rn (if u then base + off else base - off) else t).past := by
  subst hbase hoff ht
  unfold vfpStoreMultiple
  rw [bind_ok (checkTransfer_of_ready hready hd), bind_ok (checkList_of_runs hn hne hfit), bind_ok (get_apply s)]
  refine (bind_ok (storeFpList_of_plain h)).trans (writeBack_fallThrough w rn _ ?_)
  rwa [State.fpStoredList_pc]

end

/-- Settles O56: one register moves, or the registers of a list one after the other; then the base and the pc. -/
theorem vfpLoadsAndStores : Obligations.VfpLoadsAndStores := by
  constructor
  · rintro c u d rn vd sz k s ⟨hc, hp⟩ hready hd
    rw [← wordOffset_eq]
    refine ⟨fun a ha h => conditional_next hc ?_, fun a ha h => conditional_next hc ?_⟩
    · subst ha
      refine (bind_ok (checkTransfer_of_ready hready hd)).trans ((bind_ok (get_apply s)).trans ?_)
      refine (bind_ok (loadFp_of_plain (by decide) h)).trans ((bind_ok (writeFp_apply ..)).trans ?_)
      exact fallThrough_of_ne (by rwa [State.setFp_pc])
    · subst ha
      refine (bind_ok (checkTransfer_of_ready hready hd)).trans ((bind_ok (get_apply s)).trans ?_)
      refine (bind_ok (readFp_apply ..)).trans ((bind_ok (storeFp_of_plain (by decide) h _)).trans ?_)
      exact fallThrough_of_ne (by rwa [State.fpStored_pc])
  · rintro c u d w rn vd sz k s ld st ⟨hc, hp⟩ hready hd hi hn n first off rfl hne hfirst hfit hoff
    rw [← listFirst_eq] at hfirst
    rw [← wordOffset_eq] at hoff
    subst hfirst
    have hld {t : State} (h : vfpLoadMultiple u d w rn vd sz k s = .ok () t) : exec ld s = .next t := by
      obtain ⟨rfl, -, rfl⟩ | ⟨rfl, -, rfl, rfl⟩ | ⟨rfl, -, rfl, rfl, rfl⟩ | ⟨rfl, -, rfl, rfl, rfl⟩ := hi
      all_goals exact conditional_next hc h
    have hst {t : State} (h : vfpStoreMultiple u d w rn vd sz k s = .ok () t) : exec st s = .next t := by
      obtain ⟨-, rfl, rfl⟩ | ⟨-, rfl, rfl, rfl⟩ | ⟨-, rfl, rfl, rfl, rfl⟩ | ⟨-, rfl, rfl, rfl, rfl⟩ := hi
      all_goals exact conditional_next hc h
    exact ⟨fun base hbase h t ht => hld (vfpLoadMultiple_of_plain hp hready hd hn hne hfit hoff hbase h ht),
      fun base hbase h t ht => hst (vfpStoreMultiple_of_plain hp hready hd hn hne hfit hoff hbase h ht)⟩

end Sys2Proof.Machine

/-!
# Floating-point operands

What an operand is depends on its pattern and on FPSCR.FZ only (`fpUnpack_eq`), so the order in which operands are unpacked does
not matter. The operations on two operands share their way with NaNs (`twoOperands`); past it each is a function of the two
numbers.
-/

namespace Sys2Proof.Machine

/-! ### Computations on FPSCR -/

section

variable {α β : Type} (w : Word)

theorem fp_bind (x : Fp α) (f : α → Fp β) : (x >>= f) w = f (x w).1 (x w).2 := rfl

theorem fp_pure (a : α) : (pure a : Fp α) w = (a, w) := rfl

theorem fp_ite (p : Prop) [Decidable p] (x y : Fp α) : (if p then x else y) w = if p then x w else y w := by
  split <;> rfl

theorem raiseFpIf_apply (b : Bool) (flags : Word) : raiseFpIf b flags w = ((), if b then w ||| flags else w) := rfl

theorem flushToZero_apply : flushToZero w = (w.getLsbD 24, w) := rfl

theorem defaultNaN_apply : defaultNaN w = (w.getLsbD 25, w) := rfl

theorem roundingMode_apply : roundingMode w = (roundingOf w, w) := rfl

theorem fpInvalid_apply (f : Format) : fpInvalid f w = (fpDefaultNaN f, w ||| ioc) := rfl

end

/-! ### Unpacking -/

/-- The operand of a pattern, with flush-to-zero or without (43_vfp_instructions.md R1044). -/
def unpacked (f : Format) (fz : Bool) (x : Nat) : FpValue :=
  if fpExp f x = 0 then
    if fpFrac f x = 0 ∨ (!f.isHalf && fz) = true then ⟨.zero, fpSign f x, 0, 0⟩
    else ⟨.nonzero, fpSign f x, fpFrac f x, f.emin - f.fracBits⟩
  else if fpExp f x = f.maxExp ∧ f.alternative = false then
    if fpFrac f x = 0 then ⟨.infinity, fpSign f x, 0, 0⟩
    else ⟨if fpFrac f x / 2 ^ (f.fracBits - 1) = 1 then .quiet else .signalling, fpSign f x, 0, 0⟩
  else ⟨.nonzero, fpSign f x, 2 ^ f.fracBits + fpFrac f x, (fpExp f x : Int) - f.bias - f.fracBits⟩

/-- The flag that an operand raises: Input Denormal, where it is flushed to zero (43_vfp_instructions.md R1044). -/
def inputFlag (f : Format) (fz : Bool) (x : Nat) : Word :=
  if fpExp f x = 0 ∧ fpFrac f x ≠ 0 ∧ (!f.isHalf && fz) = true then idc else 0#32

theorem fpUnpack_eq (f : Format) (x : Nat) (w : Word) :
    fpUnpack f x w = (unpacked f (w.getLsbD 24) x, w ||| inputFlag f (w.getLsbD 24) x) := by
  unfold fpUnpack unpacked inputFlag
  by_cases he : fpExp f x = 0
  · by_cases hm : fpFrac f x = 0
    · simp only [he, hm, fp_ite, fp_pure, true_or, ne_eq, not_true, false_and, and_false, if_true, if_false, BitVec.or_zero]
    · have hdenormal (z : FpValue) (m : FpValue) (b : Bool) :
          (if b then do { raiseFp idc; pure z } else pure m : Fp FpValue) w =
            (if b then z else m, w ||| if b then idc else 0#32) := by
        cases b
        · exact congrArg (Prod.mk m) (BitVec.or_zero).symm
        · rfl
      simp only [he, hm, ne_eq, not_false_eq_true, true_and, false_or, if_true, if_false]
      exact hdenormal _ _ _
  · simp only [he, if_false, false_and, BitVec.or_zero, fp_ite, fp_pure]
    by_cases hinf : fpExp f x = f.maxExp ∧ f.alternative = false
    · by_cases hm : fpFrac f x = 0
      · simp only [hinf, hm, if_true, and_self]
      · simp only [hinf, hm, if_true, if_false, and_self]
    · simp only [hinf, if_false]

/-- The controls of FPSCR are no flags. -/
theorem getLsbD_of_raisesOnly {α : Type} {f : Fp α} (hf : RaisesOnly f) (w : Word) {k : Nat} (hk : 8 ≤ k) :
    (f w).2.getLsbD k = w.getLsbD k := by
  by_cases h32 : k < 32
  · have hmask : ∀ k < 32, 8 ≤ k → (0xFFFFFF60 : Word).getLsbD k = true := by decide
    have hbit := congrArg (BitVec.getLsbD · k) (hf w)
    simpa only [BitVec.getLsbD_and, hmask k h32 hk, Bool.and_true] using hbit
  · rw [BitVec.getLsbD_of_ge _ _ (Nat.le_of_not_lt h32), BitVec.getLsbD_of_ge _ _ (Nat.le_of_not_lt h32)]

theorem roundingOf_of_raisesOnly {α : Type} {f : Fp α} (hf : RaisesOnly f) (w : Word) : roundingOf (f w).2 = roundingOf w := by
  have hfield : (f w).2.extractLsb' 22 2 = w.extractLsb' 22 2 :=
    (extractLsb'_eq_of_and_eq (hf w) (by decide)).trans (extractLsb'_eq_of_and_eq rfl (by decide)).symm
  rw [roundingOf, hfield, roundingOf]

section

variable {f : Format} {x : Nat} {w w1 : Word} {a : FpValue} (h : fpUnpack f x w = (a, w1))
include h

theorem eq_unpacked : a = unpacked f (w.getLsbD 24) x := by
  rw [fpUnpack_eq] at h
  exact (congrArg Prod.fst h).symm

theorem getLsbD_of_unpack {k : Nat} (hk : 8 ≤ k) : w1.getLsbD k = w.getLsbD k := by
  have := getLsbD_of_raisesOnly (raisesOnly_fpUnpack f x) w hk
  rwa [h] at this

theorem roundingOf_of_unpack : roundingOf w1 = roundingOf w := by
  have := roundingOf_of_raisesOnly (raisesOnly_fpUnpack f x) w
  rwa [h] at this

end

/-- Two operands unpacked in either order: neither changes how the other is read. -/
theorem fpUnpack_swap {f : Format} {x y : Nat} {w w1 w2 : Word} {a b : FpValue} (ha : fpUnpack f x w = (a, w1))
    (hb : fpUnpack f y w1 = (b, w2)) : ∃ w1', fpUnpack f y w = (b, w1') ∧ fpUnpack f x w1' = (a, w2) := by
  have hfz := getLsbD_of_unpack ha (k := 24) (by decide)
  rw [fpUnpack_eq] at ha hb
  rw [hfz] at hb
  obtain ⟨rfl, rfl⟩ := Prod.mk.inj ha
  obtain ⟨rfl, rfl⟩ := Prod.mk.inj hb
  refine ⟨_, fpUnpack_eq f y w, ?_⟩
  rw [fpUnpack_eq, getLsbD_of_unpack (fpUnpack_eq f y w) (by decide), BitVec.or_assoc, BitVec.or_assoc,
    BitVec.or_comm (inputFlag f _ y)]

/-- What an operand's class says of its pattern and its numbers. -/
theorem unpacked_cls (f : Format) (fz : Bool) (x : Nat) : match (unpacked f fz x).cls with
    | .zero => (unpacked f fz x).sig = 0
    | .nonzero => 0 < (unpacked f fz x).sig ∧ (unpacked f fz x).sig < 2 ^ (f.fracBits + 1)
    | .infinity => True
    | .quiet => fpFrac f x / 2 ^ (f.fracBits - 1) = 1
    | .signalling => fpFrac f x / 2 ^ (f.fracBits - 1) ≠ 1 := by
  have hm : fpFrac f x < 2 ^ f.fracBits := Nat.mod_lt _ (Nat.two_pow_pos _)
  have hpos : 0 < 2 ^ f.fracBits := Nat.two_pow_pos _
  unfold unpacked
  rw [pow_succ]
  split_ifs with he hz hi hinf hq
  · rfl
  · exact ⟨Nat.pos_of_ne_zero fun h0 => hz (.inl h0), by dsimp only; omega⟩
  · trivial
  · exact hq
  · exact hq
  · exact ⟨by dsimp only; omega, by dsimp only; omega⟩

/-! ### NaNs (43_vfp_instructions.md R1045) -/

theorem FpClass.ne_of_not_isNaN {c : FpClass} (h : c.isNaN = false) : c ≠ .signalling ∧ c ≠ .quiet := by
  constructor <;> rintro rfl <;> cases h

theorem FpClass.quiet_of_isNaN {c : FpClass} (h : c.isNaN = true) (hs : c ≠ .signalling) : c = .quiet := by
  cases c with
  | quiet => rfl
  | signalling => exact absurd rfl hs
  | zero | nonzero | infinity => cases h

theorem FpClass.not_isNaN_of_finite {c : FpClass} (h : c.finite = true) : c.isNaN = false := by
  cases c with
  | zero | nonzero => rfl
  | infinity | quiet | signalling => cases h

theorem fpProcessNaN_apply (f : Format) (c : FpClass) (x : Nat) (w : Word) :
    fpProcessNaN f c x w = (if w.getLsbD 25 then fpDefaultNaN f
      else if c = .signalling then x + 2 ^ (f.fracBits - 1) else x, if c = .signalling then w ||| ioc else w) := by
  unfold fpProcessNaN
  rw [fp_bind, raiseFpIf_apply, fp_bind, defaultNaN_apply, fp_pure]
  by_cases hc : c = .signalling
  · have hdn : (w ||| ioc).getLsbD 25 = w.getLsbD 25 := getLsbD_of_raisesOnly (raisesOnly_raiseFp (by decide)) w (by decide)
    simp only [hc, beq_self_eq_true, if_true, hdn]
  · simp only [hc, beq_false_of_ne hc, Bool.false_eq_true, if_false]

theorem fpProcessNaNs_of_number {f : Format} {c1 c2 : FpClass} (h1 : c1.isNaN = false) (h2 : c2.isNaN = false) (x y : Nat)
    (w : Word) : fpProcessNaNs f c1 c2 x y w = (none, w) := by
  obtain ⟨hs1, hq1⟩ := FpClass.ne_of_not_isNaN h1
  obtain ⟨hs2, hq2⟩ := FpClass.ne_of_not_isNaN h2
  unfold fpProcessNaNs
  rw [if_neg hs1, if_neg hs2, if_neg hq1, if_neg hq2, fp_pure]

/-- A NaN is signalling or quiet by the top bit of its fraction. -/
theorem unpacked_nan_bit {f : Format} (hF : 0 < f.fracBits) {fz : Bool} {x : Nat} {c : FpClass}
    (hc : c = (unpacked f fz x).cls) : (c = .signalling → x / 2 ^ (f.fracBits - 1) % 2 = 0) ∧
      (c = .quiet → x / 2 ^ (f.fracBits - 1) % 2 ≠ 0) := by
  have hbit : x / 2 ^ (f.fracBits - 1) % 2 = fpFrac f x / 2 ^ (f.fracBits - 1) := by
    rw [fpFrac, ← Nat.mod_mul_right_div_self, ← pow_succ, Nat.sub_add_cancel hF]
  have hcls := unpacked_cls f fz x
  rw [← hc] at hcls
  constructor
  · rintro rfl
    dsimp only at hcls
    omega
  · rintro rfl
    dsimp only at hcls
    omega

/-- A NaN is made quiet, or the default NaN takes its place. -/
theorem some_fpProcessNaN_apply {f : Format} {c : FpClass} {x : Nat} (w : Word)
    (hs : c = .signalling → x / 2 ^ (f.fracBits - 1) % 2 = 0) (hq : c ≠ .signalling → x / 2 ^ (f.fracBits - 1) % 2 ≠ 0) :
    (do pure (some (← fpProcessNaN f c x)) : Fp (Option Nat)) w = (some (if w.getLsbD 25 then fpDefaultNaN f
      else if x / 2 ^ (f.fracBits - 1) % 2 = 0 then x + 2 ^ (f.fracBits - 1) else x),
      if c = .signalling then w ||| ioc else w) := by
  rw [fp_bind, fp_pure, fpProcessNaN_apply]
  by_cases hc : c = .signalling
  · rw [if_pos hc, if_pos (hs hc)]
  · rw [if_neg hc, if_neg (hq hc)]

/-- Of NaN operands the first signalling one, else the first quiet one, gives the result. -/
theorem fpProcessNaNs_of_nan {f : Format} (hF : 0 < f.fracBits) {fz : Bool} {x y n : Nat} {c1 c2 : FpClass}
    (h1 : c1 = (unpacked f fz x).cls) (h2 : c2 = (unpacked f fz y).cls) (h : c1.isNaN = true ∨ c2.isNaN = true)
    (hn : n = if c1 = .signalling then x else if c2 = .signalling then y else if c1 = .quiet then x else y) (w : Word) :
    fpProcessNaNs f c1 c2 x y w = (some (if w.getLsbD 25 then fpDefaultNaN f
      else if n / 2 ^ (f.fracBits - 1) % 2 = 0 then n + 2 ^ (f.fracBits - 1) else n),
      if c1 = .signalling ∨ c2 = .signalling then w ||| ioc else w) := by
  obtain ⟨hs1, hq1⟩ := unpacked_nan_bit hF h1
  obtain ⟨hs2, hq2⟩ := unpacked_nan_bit hF h2
  subst hn
  unfold fpProcessNaNs
  by_cases hc1 : c1 = .signalling
  · simp only [hc1, if_true, true_or]
    exact some_fpProcessNaN_apply w (fun _ => hs1 hc1) fun h => absurd rfl h
  by_cases hc2 : c2 = .signalling
  · simp only [hc1, hc2, if_true, if_false, or_true]
    exact some_fpProcessNaN_apply w (fun _ => hs2 hc2) fun h => absurd rfl h
  by_cases hc1' : c1 = .quiet
  · simp only [hc1', hc2, if_true, if_false, or_false, reduceCtorEq]
    exact some_fpProcessNaN_apply w (fun h => by cases h) fun _ => hq1 hc1'
  · have hc2' : c2 = .quiet := by
      rcases h with h | h
      · exact absurd (FpClass.quiet_of_isNaN h hc1) hc1'
      · exact FpClass.quiet_of_isNaN h hc2
    simp only [hc1, hc1', hc2', if_true, if_false, or_false, reduceCtorEq]
    exact some_fpProcessNaN_apply w (fun h => by cases h) fun _ => hq2 hc2'

/-! ### Operations on two operands -/

/-- An operation of two operands: unpacked, and where neither is a NaN the result of `g`. -/
def twoOperands (f : Format) (g : FpValue → FpValue → Fp Nat) (x1 x2 : Nat) : Fp Nat := do
  let a ← fpUnpack f x1
  let b ← fpUnpack f x2
  match ← fpProcessNaNs f a.cls b.cls x1 x2 with
  | some r => pure r
  | none => g a b

/-- An exact sum over a power of two: rounded, or a zero whose sign the rounding mode gives (43_vfp_instructions.md R1048). -/
def fpExactSum (f : Format) (v e : Int) : Fp Nat :=
  if v = 0 then do pure (fpZero f ((← roundingMode) == .minus))
  else fpRound f (decide (v < 0)) v.natAbs e false

/-- The product of two operands that are not NaNs (43_vfp_instructions.md R1049). -/
def fpProduct (f : Format) (a b : FpValue) : Fp Nat :=
  if (a.cls = .infinity ∧ b.cls = .zero) ∨ (a.cls = .zero ∧ b.cls = .infinity) then fpInvalid f
  else if a.cls = .infinity ∨ b.cls = .infinity then pure (fpInfinity f (a.sign != b.sign))
  else if a.cls = .zero ∨ b.cls = .zero then pure (fpZero f (a.sign != b.sign))
  else fpRound f (a.sign != b.sign) (a.sig * b.sig) (a.exp + b.exp) false

/-- The quotient of two operands that are not NaNs (43_vfp_instructions.md R1050). -/
def fpRatio (f : Format) (a b : FpValue) : Fp Nat :=
  if (a.cls = .infinity ∧ b.cls = .infinity) ∨ (a.cls = .zero ∧ b.cls = .zero) then fpInvalid f
  else if a.cls = .infinity ∨ b.cls = .zero then do
    raiseFpIf (a.cls != .infinity) dzc
    pure (fpInfinity f (a.sign != b.sign))
  else if a.cls = .zero ∨ b.cls = .infinity then pure (fpZero f (a.sign != b.sign))
  else fpQuotient f (a.sign != b.sign) a b

/-- An operand with the other sign. -/
def FpValue.neg (a : FpValue) : FpValue := { a with sign := !a.sign }

section

variable (f : Format) (x y : Nat)

theorem fpAdd_eq : fpAdd f x y = twoOperands f (fpSum f) x y := rfl
theorem fpSub_eq : fpSub f x y = twoOperands f (fun a b => fpSum f a b.neg) x y := rfl
theorem fpMul_eq : fpMul f x y = twoOperands f (fpProduct f) x y := rfl
theorem fpDiv_eq : fpDiv f x y = twoOperands f (fpRatio f) x y := rfl

end

section

variable {f : Format} {g : FpValue → FpValue → Fp Nat} {x y : Nat} {w w1 w2 : Word} {a b : FpValue}
  (ha : fpUnpack f x w = (a, w1)) (hb : fpUnpack f y w1 = (b, w2))
include ha hb

theorem twoOperands_of_number (hna : a.cls.isNaN = false) (hnb : b.cls.isNaN = false) :
    twoOperands f g x y w = g a b w2 := by
  unfold twoOperands
  rw [fp_bind, ha, fp_bind, hb, fp_bind, fpProcessNaNs_of_number hna hnb]

theorem twoOperands_of_nan (hF : 0 < f.fracBits) (h : a.cls.isNaN = true ∨ b.cls.isNaN = true) {n : Nat}
    (hn : n = if a.cls = .signalling then x else if b.cls = .signalling then y else if a.cls = .quiet then x else y) :
    twoOperands f g x y w = (if w.getLsbD 25 then fpDefaultNaN f
      else if n / 2 ^ (f.fracBits - 1) % 2 = 0 then n + 2 ^ (f.fracBits - 1) else n,
      if a.cls = .signalling ∨ b.cls = .signalling then w2 ||| ioc else w2) := by
  have hfz : w1.getLsbD 24 = w.getLsbD 24 := getLsbD_of_unpack ha (by decide)
  have hdn : w2.getLsbD 25 = w.getLsbD 25 := (getLsbD_of_unpack hb (by decide)).trans (getLsbD_of_unpack ha (by decide))
  have hca := congrArg FpValue.cls (eq_unpacked ha)
  have hcb := congrArg FpValue.cls (eq_unpacked hb)
  rw [hfz] at hcb
  unfold twoOperands
  rw [fp_bind, ha, fp_bind, hb, fp_bind, fpProcessNaNs_of_nan hF hca hcb h hn, hdn]
  rfl

theorem twoOperands_comm (hg : ∀ a b, g a b = g b a) (hna : a.cls.isNaN = false) (hnb : b.cls.isNaN = false) :
    twoOperands f g x y w = twoOperands f g y x w := by
  obtain ⟨w1', hb', ha'⟩ := fpUnpack_swap ha hb
  rw [twoOperands_of_number ha hb hna hnb, twoOperands_of_number hb' ha' hnb hna, hg]

theorem fpCompare_of_number (hna : a.cls.isNaN = false) (hnb : b.cls.isNaN = false) (e : Bool) :
    fpCompare f x y e w = (fpOrder a b, w2) := by
  unfold fpCompare
  rw [fp_bind, ha, fp_bind, hb, hna, hnb]
  rfl

theorem fpCompare_of_nan (h : a.cls.isNaN = true ∨ b.cls.isNaN = true) (e : Bool) :
    fpCompare f x y e w =
      (0b0011, if a.cls = .signalling ∨ b.cls = .signalling ∨ e = true then w2 ||| ioc else w2) := by
  have hnan : (a.cls.isNaN || b.cls.isNaN) = true := Bool.or_eq_true .. ▸ h
  unfold fpCompare
  rw [fp_bind, ha, fp_bind, hb, hnan, fp_ite, if_pos rfl, fp_bind, raiseFpIf_apply, fp_pure]
  simp only [Bool.or_eq_true, beq_iff_eq, or_assoc]

end

/-! ### Order of the operands and signs -/

theorem fpAlign_swap (a b : FpValue) : fpAlign b a = ((fpAlign a b).2.1, (fpAlign a b).1, (fpAlign a b).2.2) := by
  unfold fpAlign
  rw [min_comm]

theorem fpSum_eq (f : Format) (a b : FpValue) : fpSum f a b =
    if a.cls = .infinity ∧ b.cls = .infinity ∧ a.sign ≠ b.sign then fpInvalid f
    else if a.cls = .infinity then pure (fpInfinity f a.sign)
    else if b.cls = .infinity then pure (fpInfinity f b.sign)
    else if a.cls = .zero ∧ b.cls = .zero ∧ a.sign = b.sign then pure (fpZero f a.sign)
    else fpExactSum f ((fpAlign a b).1 + (fpAlign a b).2.1) (fpAlign a b).2.2 := rfl

theorem fpSum_comm (f : Format) (a b : FpValue) : fpSum f a b = fpSum f b a := by
  rw [fpSum_eq, fpSum_eq, fpAlign_swap a b, Int.add_comm]
  by_cases ha : a.cls = .infinity
  · by_cases hb : b.cls = .infinity
    · by_cases hs : a.sign = b.sign
      · simp [ha, hb, hs]
      · simp [ha, hb, hs, Ne.symm hs]
    · simp [ha, hb]
  · by_cases hz : a.cls = .zero ∧ b.cls = .zero ∧ a.sign = b.sign
    · obtain ⟨hza, hzb, hs⟩ := hz
      simp [hza, hzb, hs]
    · have hz' : ¬ (b.cls = .zero ∧ a.cls = .zero ∧ b.sign = a.sign) := fun ⟨hb, ha, hs⟩ => hz ⟨ha, hb, hs.symm⟩
      simp [ha, hz, hz']

theorem fpProduct_comm (f : Format) (a b : FpValue) : fpProduct f a b = fpProduct f b a := by
  have hsign : (a.sign != b.sign) = (b.sign != a.sign) := Bool.xor_comm _ _
  unfold fpProduct
  rw [Nat.mul_comm, Int.add_comm, hsign]
  simp only [or_comm, and_comm]

/-- The other sign, the same number and the same flag. -/
theorem unpacked_fpNeg (f : Format) (fz : Bool) (x : Nat) :
    unpacked f fz (fpNeg f x) = (unpacked f fz x).neg ∧ inputFlag f fz (fpNeg f x) = inputFlag f fz x := by
  obtain ⟨hs, he, hm⟩ := fields_packFp f (!fpSign f x) (e := fpExp f x) (m := fpFrac f x) (Nat.mod_lt _ (Nat.two_pow_pos _))
    (Nat.mod_lt _ (Nat.two_pow_pos _))
  unfold unpacked inputFlag
  rw [fpNeg, hs, he, hm]
  refine ⟨?_, rfl⟩
  split_ifs <;> rfl

theorem fpUnpack_fpNeg {f : Format} {x : Nat} {w w1 : Word} {a : FpValue} (h : fpUnpack f x w = (a, w1)) :
    fpUnpack f (fpNeg f x) w = (a.neg, w1) := by
  obtain ⟨hval, hflag⟩ := unpacked_fpNeg f (w.getLsbD 24) x
  rw [fpUnpack_eq, Prod.mk.injEq] at h
  obtain ⟨rfl, rfl⟩ := h
  rw [fpUnpack_eq, hval, hflag]

theorem fpOrder_eq (a b : FpValue) : fpOrder a b =
    if a.cls = .infinity ∧ b.cls = .infinity then (if a.sign = b.sign then 0b0110 else if a.sign then 0b1000 else 0b0010)
    else if a.cls = .infinity then (if a.sign then 0b1000 else 0b0010)
    else if b.cls = .infinity then (if b.sign then 0b0010 else 0b1000)
    else if (fpAlign a b).1 = (fpAlign a b).2.1 then 0b0110
    else if (fpAlign a b).1 < (fpAlign a b).2.1 then 0b1000 else 0b0010 := rfl

/-- Less one way is greater the other way (43_vfp_instructions.md R1052). -/
theorem fpOrder_swap (a b : FpValue) : fpOrder a b = 0b1000 ↔ fpOrder b a = 0b0010 := by
  rw [fpOrder_eq, fpOrder_eq, fpAlign_swap a b]
  by_cases ha : a.cls = .infinity
  · by_cases hb : b.cls = .infinity
    · cases hsa : a.sign <;> cases hsb : b.sign <;> simp [ha, hb]
    · cases hsa : a.sign <;> simp [ha, hb]
  · by_cases hb : b.cls = .infinity
    · cases hsb : b.sign <;> simp [ha, hb]
    · simp only [ha, hb, false_and, if_false]
      rcases lt_trichotomy (fpAlign a b).1 (fpAlign a b).2.1 with hlt | heq | hgt
      · simp [hlt, hlt.ne, hlt.ne', hlt.not_gt]
      · simp [heq]
      · simp [hgt, hgt.ne, hgt.ne', hgt.not_gt]

/-! ### Infinities -/

section

variable {f : Format} {a b : FpValue} (w : Word)

theorem fpSum_infinity (ha : a.cls = .infinity) :
    fpSum f a b w = if b.cls = .infinity ∧ a.sign ≠ b.sign then (fpDefaultNaN f, w ||| ioc) else (fpInfinity f a.sign, w) := by
  rw [fpSum_eq]
  simp only [ha, true_and, if_true, fp_ite, fpInvalid_apply, fp_pure]

theorem fpProduct_infinity (ha : a.cls = .infinity) : fpProduct f a b w =
    if b.cls = .zero then (fpDefaultNaN f, w ||| ioc) else (fpInfinity f (a.sign != b.sign), w) := by
  unfold fpProduct
  simp only [ha, true_and, true_or, if_true, fp_ite, fpInvalid_apply, fp_pure, reduceCtorEq, false_and, or_false]

theorem fpRatio_infinity (ha : a.cls = .infinity) : fpRatio f a b w =
    if b.cls = .infinity then (fpDefaultNaN f, w ||| ioc) else (fpInfinity f (a.sign != b.sign), w) := by
  unfold fpRatio
  simp only [ha, true_and, true_or, if_true, fp_ite, fpInvalid_apply, reduceCtorEq, false_and, or_false, bne_self_eq_false]
  rfl

theorem fpRatio_finite_infinity (ha : a.cls.finite = true) (hb : b.cls = .infinity) :
    fpRatio f a b w = (fpZero f (a.sign != b.sign), w) := by
  have hne : a.cls ≠ .infinity := by
    intro h
    rw [h] at ha
    cases ha
  unfold fpRatio
  simp only [hne, hb, false_and, reduceCtorEq, and_false, or_false, or_true, if_false, if_true]
  rfl

end

end Sys2Proof.Machine

/-!
# Rounding in terms of fields

`fpRoundWith` either flushes to zero or packs the fields of the rounded magnitude (`fpRoundWith_packed`). A number that the format
represents is cut nowhere, so it is its own rounding (`fpRound_representable`); with that the laws of arithmetic are complete.
-/

namespace Sys2Proof.Machine

/-! ### The packed result (43_vfp_instructions.md R1046) -/

/-- The exponent of a magnitude's leading bit, but at least the format's minimum. -/
def roundedExp (f : Format) (sig : Nat) (exp : Int) : Int := max (exp + sig.log2) f.emin

/-- The exponent field before rounding, 0 for a denormal. -/
def biasedExp (f : Format) (sig : Nat) (exp : Int) : Nat := (exp + sig.log2 - f.emin + 1).toNat

/-- The magnitude cut at the unit in the last place. -/
def roundedCut (f : Format) (sig : Nat) (exp : Int) (sticky : Bool) : Cut :=
  cutAt sig (exp - roundedExp f sig exp + f.fracBits) sticky

/-- A cut magnitude rounded to an integer. -/
def roundCut (rm : Rounding) (sign : Bool) (c : Cut) : Nat := if roundsUp rm sign c then c.int + 1 else c.int

/-- The first exponent field that is too large. -/
def expLimit (f : Format) : Nat := if f.alternative then 2 ^ f.expBits else f.maxExp

/-- What rounding answers for an exponent field and a fraction, on the FPSCR `w`. -/
def packRounded (f : Format) (rm : Rounding) (sign inexact : Bool) (e m : Nat) (w : Word) : Nat × Word :=
  if expLimit f ≤ e then
    if f.alternative then (packFp f sign f.maxExp (2 ^ f.fracBits - 1), w ||| ioc)
    else (if overflowsToInfinity rm sign then fpInfinity f sign else fpMaxNormal f sign, w ||| ofc ||| ixc)
  else (packFp f sign e (m % 2 ^ f.fracBits), if inexact then w ||| ixc else w)

section

variable (f : Format) (rm : Rounding) (sign : Bool) (sig : Nat) (exp : Int) (sticky : Bool) (w : Word)

/-- Under flush-to-zero a result below the least normal number is a zero. -/
theorem fpRoundWith_flushed (hfz : w.getLsbD 24 = true) (hhalf : f.isHalf = false) (hsmall : exp + sig.log2 < f.emin) :
    fpRoundWith f rm sign sig exp sticky w = (fpZero f sign, w ||| ufc) := by
  unfold fpRoundWith
  rw [fp_bind, flushToZero_apply]
  simp only [hfz, hhalf, hsmall, Bool.not_false, Bool.and_true, decide_true, if_true]
  rfl

/-- Else it is packed from its fields. -/
theorem fpRoundWith_packed (h : ¬ (w.getLsbD 24 = true ∧ f.isHalf = false ∧ exp + sig.log2 < f.emin)) :
    fpRoundWith f rm sign sig exp sticky w =
      packRounded f rm sign (roundedCut f sig exp sticky).inexact
        (adjustRounded f (biasedExp f sig exp) (roundCut rm sign (roundedCut f sig exp sticky))).1
        (adjustRounded f (biasedExp f sig exp) (roundCut rm sign (roundedCut f sig exp sticky))).2
        (if decide (biasedExp f sig exp = 0) && (roundedCut f sig exp sticky).inexact then w ||| ufc else w) := by
  have hflush : ¬ (w.getLsbD 24 && !f.isHalf && decide (exp + sig.log2 < f.emin)) = true := by
    simpa only [Bool.and_eq_true, Bool.not_eq_true', decide_eq_true_eq, and_assoc] using h
  have hpack (e m : Nat) (w' : Word) : (if f.alternative then
        if 2 ^ f.expBits ≤ e then do
          raiseFp ioc
          pure (packFp f sign f.maxExp (2 ^ f.fracBits - 1))
        else do
          raiseFpIf (roundedCut f sig exp sticky).inexact ixc
          pure (packFp f sign e (m % 2 ^ f.fracBits))
      else if f.maxExp ≤ e then do
        raiseFp (ofc ||| ixc)
        pure (if overflowsToInfinity rm sign then fpInfinity f sign else fpMaxNormal f sign)
      else do
        raiseFpIf (roundedCut f sig exp sticky).inexact ixc
        pure (packFp f sign e (m % 2 ^ f.fracBits)) : Fp Nat) w' =
      packRounded f rm sign (roundedCut f sig exp sticky).inexact e m w' := by
    unfold packRounded expLimit
    rw [BitVec.or_assoc]
    cases f.alternative with
    | true => exact fp_ite w' (2 ^ f.expBits ≤ e) _ _
    | false => exact fp_ite w' (f.maxExp ≤ e) _ _
  unfold fpRoundWith
  rw [fp_bind, flushToZero_apply]
  refine (congrFun (if_neg hflush) w).trans ?_
  exact hpack _ _ _

end

/-! ### Numbers that a format represents -/

theorem cutAt_zero (sig : Nat) : cutAt sig 0 false = ⟨sig, false, false, false⟩ := by
  simp [cutAt]

theorem roundCut_of_exact (rm : Rounding) (sign : Bool) (n : Nat) : roundCut rm sign ⟨n, false, false, false⟩ = n := by
  cases rm <;> rfl

theorem adjustRounded_of_lt {f : Format} {e m : Nat} (hlt : m < 2 ^ (f.fracBits + 1)) (hne : e = 0 → m < 2 ^ f.fracBits) :
    adjustRounded f e m = (e, m) := by
  unfold adjustRounded
  rw [if_neg fun ⟨hm, he⟩ => (hne he).ne hm, if_neg hlt.ne]

/-- A magnitude whose last bit is the unit in the last place is packed as it is. -/
theorem fpRoundWith_of_unit {f : Format} (rm : Rounding) (sign : Bool) {sig e : Nat} {exp : Int} {w : Word}
    (hunit : exp + f.fracBits = roundedExp f sig exp) (he : biasedExp f sig exp = e) (hlimit : e < expLimit f)
    (hlt : sig < 2 ^ (f.fracBits + 1)) (hne : e = 0 → sig < 2 ^ f.fracBits)
    (hfz : ¬ (w.getLsbD 24 = true ∧ f.isHalf = false ∧ exp + sig.log2 < f.emin)) :
    fpRoundWith f rm sign sig exp false w = (packFp f sign e (sig % 2 ^ f.fracBits), w) := by
  have hcut : roundedCut f sig exp false = ⟨sig, false, false, false⟩ := by
    rw [roundedCut, show exp - roundedExp f sig exp + f.fracBits = 0 by omega, cutAt_zero]
  rw [fpRoundWith_packed f rm sign sig exp false w hfz, hcut, roundCut_of_exact, he, adjustRounded_of_lt hlt hne, packRounded,
    if_neg (Nat.not_le.mpr hlimit), Bool.and_false]
  rfl

theorem fpRound_apply (f : Format) (sign : Bool) (sig : Nat) (exp : Int) (sticky : Bool) (w : Word) :
    fpRound f sign sig exp sticky w = fpRoundWith f (roundingOf w) sign sig exp sticky w := rfl

/-- The exponent field of a number is none of those that are too large. -/
theorem fpExp_lt_expLimit {f : Format} {x : Nat} (h : ¬ (fpExp f x = f.maxExp ∧ f.alternative = false)) :
    fpExp f x < expLimit f := by
  have he : fpExp f x < 2 ^ f.expBits := Nat.mod_lt _ (Nat.two_pow_pos _)
  unfold expLimit
  cases halt : f.alternative with
  | true => exact he
  | false =>
    have hne : fpExp f x ≠ f.maxExp := fun h' => h ⟨h', halt⟩
    unfold Format.maxExp at hne ⊢
    exact lt_of_le_of_ne (Nat.le_sub_one_of_lt he) hne

/-- A number the format represents is rounded to its own pattern, in every rounding mode. -/
theorem fpRound_representable {f : Format} (hE : 0 < f.expBits) {x : Nat} {w : Word} {a : FpValue}
    (hx : x < 2 ^ (1 + f.expBits + f.fracBits)) (h : fpUnpack f x w = (a, w)) (ha : a.cls = .nonzero) :
    fpRound f a.sign a.sig a.exp false w = (x, w) := by
  have hm : fpFrac f x < 2 ^ f.fracBits := Nat.mod_lt _ (Nat.two_pow_pos _)
  have hemin : f.emin = 1 - f.bias := rfl
  have hval := eq_unpacked h
  rw [fpRound_apply]
  conv_rhs => rw [← packFp_fields f hx]
  subst hval
  unfold unpacked at ha ⊢
  split_ifs at ha ⊢ with he hz hi hinf <;> dsimp only
  · -- a denormal: flush-to-zero would have made it a zero
    have hm0 : 0 < fpFrac f x := Nat.pos_of_ne_zero fun h0 => hz (.inl h0)
    have hlog : (fpFrac f x).log2 < f.fracBits := (Nat.log2_lt hm0.ne').mpr hm
    have hmax : f.maxExp ≠ 0 := by
      have := Nat.one_lt_two_pow hE.ne'
      unfold Format.maxExp
      omega
    rw [fpRoundWith_of_unit (e := fpExp f x) _ _ ?unit ?biased (fpExp_lt_expLimit fun h => hmax (h.1.symm.trans he)) ?lt
      (fun _ => hm) ?fz, Nat.mod_eq_of_lt hm]
    case unit => unfold roundedExp; omega
    case biased => unfold biasedExp; omega
    case lt => rw [pow_succ]; omega
    case fz => exact fun ⟨hfz, hhalf, _⟩ => hz (.inr (by rw [hfz, hhalf]; rfl))
  · have hlog : (2 ^ f.fracBits + fpFrac f x).log2 = f.fracBits := by
      rw [Nat.log2_eq_iff (by omega), pow_succ]
      omega
    rw [fpRoundWith_of_unit (e := fpExp f x) _ _ ?unit ?biased (fpExp_lt_expLimit hi) ?lt (fun h => absurd h he) ?fz,
      Nat.add_mod_left, Nat.mod_eq_of_lt hm]
    case unit => unfold roundedExp; omega
    case biased => unfold biasedExp; omega
    case lt => rw [pow_succ]; omega
    case fz => omega

/-- Settles O52: the operations on two operands as functions of the numbers; a number the format represents is cut nowhere. -/
theorem floatingPointLaws : Obligations.FloatingPointLaws := by
  refine ⟨fun sz x y w _ _ hna hnb => ?laws, fun f x w a hf hx h ha => fpRound_representable ?_ hx h ha,
    fun sz f x y w w1 w2 a b hf _ _ ha hb => ⟨fun op hop hnan n hn => ?nan, fun hinf hnb => ?infinity, fun hfin hinf => ?_,
      fun hnan e => fpCompare_of_nan ha hb hnan e⟩⟩
  case laws =>
    obtain ⟨a, w1, ha⟩ : ∃ a w1, fpUnpack (formatOf sz) x w = (a, w1) := ⟨_, _, rfl⟩
    obtain ⟨b, w2, hb⟩ : ∃ b w2, fpUnpack (formatOf sz) y w1 = (b, w2) := ⟨_, _, rfl⟩
    obtain ⟨w1', hb', ha'⟩ := fpUnpack_swap ha hb
    rw [ha] at hna
    rw [hb'] at hnb
    refine ⟨twoOperands_comm ha hb (fpSum_comm _) hna hnb, twoOperands_comm ha hb (fpProduct_comm _) hna hnb, ?_, ?_⟩
    · have hsub := twoOperands_of_number (g := fun a b => fpSum (formatOf sz) a b.neg) ha hb hna hnb
      exact hsub.trans (twoOperands_of_number ha (fpUnpack_fpNeg hb) hna hnb).symm
    · rw [fpCompare_of_number ha hb hna hnb, fpCompare_of_number hb' ha' hnb hna]
      exact fpOrder_swap a b
  case nan =>
    have hF : 0 < f.fracBits := by subst hf; cases sz <;> decide
    simp only [List.mem_cons, List.not_mem_nil, or_false] at hop
    obtain rfl | rfl | rfl | rfl := hop
    all_goals exact twoOperands_of_nan ha hb hF hnan hn
  case infinity =>
    have hna : a.cls.isNaN = false := by rw [hinf]; rfl
    exact ⟨(twoOperands_of_number ha hb hna hnb).trans (fpSum_infinity w2 hinf),
      (twoOperands_of_number ha hb hna hnb).trans (fpProduct_infinity w2 hinf),
      (twoOperands_of_number ha hb hna hnb).trans (fpRatio_infinity w2 hinf)⟩
  · obtain rfl | rfl | rfl | rfl := hf <;> decide
  · have hnb : b.cls.isNaN = false := by rw [hinf]; rfl
    exact (twoOperands_of_number ha hb (FpClass.not_isNaN_of_finite hfin) hnb).trans (fpRatio_finite_infinity w2 hfin hinf)

end Sys2Proof.Machine

/-!
# Correct rounding

A magnitude between `sig` and `sig + 1`, over a power of two, is cut at its unit in the last place (`cutAt_spec`), rounded to an
integer (`roundedInt_roundCut`), and the fields that result stand for that integer of units (`standsFor_adjustRounded`): so
`fpRoundWith` answers what `Rounded` asks for (`rounded_fpRoundWith`). Each operation on finite numbers gives `fpRoundWith` its
exact result.
-/

namespace Sys2Proof.Machine

/-! ### Cuts -/

/-- The number of which `sig` is known: `sig` itself, or with `sticky` one strictly between `sig` and the next integer. -/
def Extends (sig : Nat) (sticky : Bool) (y : ℝ) : Prop := if sticky then (sig : ℝ) < y ∧ y < sig + 1 else y = sig

theorem Extends.bounds {sig : Nat} {sticky : Bool} {y : ℝ} (h : Extends sig sticky y) : (sig : ℝ) ≤ y ∧ y < sig + 1 := by
  cases sticky with
  | false => exact ⟨h.ge, by rw [h]; linarith⟩
  | true => exact ⟨h.1.le, h.2⟩

theorem Extends.sticky_iff {sig : Nat} {sticky : Bool} {y : ℝ} (h : Extends sig sticky y) : sticky = true ↔ (sig : ℝ) < y := by
  cases sticky with
  | false => simp [show y = sig from h]
  | true => simp [h.1]

/-- What a cut says of the number it was cut from. -/
structure CutOf (c : Cut) (x : ℝ) : Prop where
  le : (c.int : ℝ) ≤ x
  lt : x < c.int + 1
  above : c.aboveHalf = true ↔ (c.int : ℝ) + 1 / 2 < x
  half : c.half = true ↔ x = c.int + 1 / 2
  inexact : c.inexact = true ↔ (c.int : ℝ) < x

/-- What is left over by half of the divisor `2 * h`: the integer `r` left decides, and where it does not, what is beyond it. -/
theorem leftover_cases {h r : ℕ} {z : ℝ} (hle : (r : ℝ) ≤ z) (hlt : z < r + 1) :
    (2 * h < 2 * r ∨ 2 * h = 2 * r ∧ (r : ℝ) < z ↔ (h : ℝ) < z) ∧ (2 * h = 2 * r ∧ ¬ (r : ℝ) < z ↔ z = h) ∧
      (2 * r ≠ 0 ∨ (r : ℝ) < z ↔ 0 < z) := by
  have hbelow (hh : r < h) : (r : ℝ) + 1 ≤ h := by exact_mod_cast hh
  have habove (hh : h < r) : (h : ℝ) + 1 ≤ r := by exact_mod_cast hh
  refine ⟨?_, ?_, ?_⟩
  · rcases lt_trichotomy h r with hh | rfl | hh
    · have := habove hh
      exact iff_of_true (.inl (by omega)) (by linarith)
    · exact ⟨fun hor => hor.elim (fun hbad => by omega) And.right, fun hz => .inr ⟨rfl, hz⟩⟩
    · have := hbelow hh
      exact iff_of_false (by omega) (by linarith)
  · rcases lt_trichotomy h r with hh | rfl | hh
    · have := habove hh
      exact iff_of_false (by omega) (by intro hz; linarith)
    · exact ⟨fun hor => le_antisymm (not_lt.mp hor.2) hle, fun hz => ⟨rfl, hz.le.not_gt⟩⟩
    · have := hbelow hh
      exact iff_of_false (by omega) (by intro hz; linarith)
  · rcases Nat.eq_zero_or_pos r with rfl | hr
    · simp
    · have : (0 : ℝ) < r := by exact_mod_cast hr
      exact iff_of_true (.inl (by omega)) (by linarith)

/-- A number cut to the right: its quotient, and what is left over. -/
theorem cutAt_negSucc_spec {sig : Nat} {sticky : Bool} {y : ℝ} (n : Nat) (h : Extends sig sticky y) :
    CutOf (cutAt sig (.negSucc n) sticky) (y / 2 ^ (n + 1)) := by
  obtain ⟨hle, hlt⟩ := h.bounds
  have hD : (2 : ℝ) ^ (n + 1) = 2 * (2 ^ n : ℕ) := by push_cast; exact pow_succ' 2 n
  have hH : (0 : ℝ) < (2 ^ n : ℕ) := by positivity
  have hr : sig % 2 ^ (n + 1) < 2 * 2 ^ n := pow_succ' 2 n ▸ Nat.mod_lt _ (Nat.two_pow_pos _)
  have hsig : (sig : ℝ) = 2 * (2 ^ n : ℕ) * (sig / 2 ^ (n + 1) : ℕ) + (sig % 2 ^ (n + 1) : ℕ) := by
    rw [← hD]
    exact_mod_cast (Nat.div_add_mod sig (2 ^ (n + 1))).symm
  have hsticky := h.sticky_iff
  simp only [cutAt]
  rw [hD, pow_succ']
  rw [pow_succ'] at hr hsig
  generalize 2 ^ n = H at *
  generalize sig % (2 * H) = r at *
  generalize sig / (2 * H) = k at *
  obtain ⟨z, hz⟩ : ∃ z, y = 2 * H * k + z := ⟨y - 2 * H * k, by ring⟩
  have hx : y / (2 * H) = k + z / (2 * H) := by rw [hz]; field_simp
  have hzle : (r : ℝ) ≤ z := by linarith
  have hzlt : z < r + 1 := by linarith
  have hst : sticky = true ↔ (r : ℝ) < z := hsticky.trans (by rw [hsig, hz]; exact add_lt_add_iff_left _)
  have hr' : (r : ℝ) + 1 ≤ 2 * H := by exact_mod_cast hr
  obtain ⟨habove, hhalf, hinexact⟩ := leftover_cases (h := H) hzle hzlt
  rw [hx]
  refine ⟨?_, ?_, ?_, ?_, ?_⟩
  · have : 0 ≤ z / (2 * H) := div_nonneg ((Nat.cast_nonneg r).trans hzle) (by linarith)
    linarith
  · have : z / (2 * H) < 1 := (div_lt_one (by linarith)).mpr (by linarith)
    linarith
  · simp only [Bool.or_eq_true, Bool.and_eq_true, decide_eq_true_eq, hst]
    rw [habove, add_lt_add_iff_left, div_lt_div_iff₀ (by norm_num) (by linarith)]
    constructor <;> intro <;> linarith
  · simp only [Bool.and_eq_true, Bool.not_eq_true', decide_eq_true_eq, ← Bool.not_eq_true, hst]
    rw [hhalf, add_right_inj, div_eq_div_iff (by linarith) (by norm_num)]
    constructor <;> intro <;> linarith
  · simp only [Bool.or_eq_true, decide_eq_true_eq, hst]
    rw [hinexact, lt_add_iff_pos_right, div_pos_iff_of_pos_right (by linarith)]

/-- What a cut says: `x` is the number times the power of two. -/
theorem cutAt_spec {sig : Nat} {shift : Int} {sticky : Bool} {x y : ℝ} (h : Extends sig sticky y)
    (hshift : sticky = true → shift < 0) (hx : x = y * 2 ^ shift) : CutOf (cutAt sig shift sticky) x := by
  cases shift with
  | ofNat n =>
    have hst : sticky = false := Bool.eq_false_iff.mpr fun hs => absurd (hshift hs) (Int.natCast_nonneg n).not_gt
    subst hst
    have hx' : x = ((sig * 2 ^ n : ℕ) : ℝ) := by
      rw [hx, show y = sig from h]
      push_cast
      rfl
    exact ⟨hx'.ge, by rw [hx']; exact lt_add_one _, by simp [cutAt, hx'], by simp [cutAt, hx'], by simp [cutAt, hx']⟩
  | negSucc n =>
    rw [hx, zpow_negSucc, ← div_eq_mul_inv]
    exact cutAt_negSucc_spec n h

/-! ### Rounding a cut number -/

theorem le_roundCut (rm : Rounding) (sign : Bool) (c : Cut) : c.int ≤ roundCut rm sign c := by
  unfold roundCut
  split <;> omega

theorem roundCut_le (rm : Rounding) (sign : Bool) (c : Cut) : roundCut rm sign c ≤ c.int + 1 := by
  unfold roundCut
  split <;> omega

section

variable {c : Cut} {x : ℝ} (h : CutOf c x)
include h

/-- Away from zero: up just if something was cut off. -/
theorem CutOf.away : x ≤ (if c.inexact then c.int + 1 else c.int : ℕ) ∧
    ((if c.inexact then c.int + 1 else c.int : ℕ) : ℝ) < x + 1 := by
  have hle := h.le
  have hlt := h.lt
  have hinexact := h.inexact
  cases hc : c.inexact with
  | true =>
    have := hinexact.mp hc
    rw [if_pos rfl]
    push_cast
    constructor <;> linarith
  | false =>
    have : ¬ (c.int : ℝ) < x := fun hx => by rw [hinexact.mpr hx] at hc; cases hc
    rw [if_neg (by decide)]
    constructor <;> linarith

theorem CutOf.roundedInt_nearest (sign : Bool) : RoundedInt .nearest sign x (roundCut .nearest sign c) := by
  have hle := h.le
  have hlt := h.lt
  unfold RoundedInt roundCut roundsUp
  by_cases hup : (c.aboveHalf || (c.half && c.int % 2 == 1)) = true
  · have hge : (c.int : ℝ) + 1 / 2 ≤ x := by
      simp only [Bool.or_eq_true, Bool.and_eq_true, h.above, h.half] at hup
      rcases hup with hup | ⟨hup, -⟩ <;> linarith
    rw [if_pos hup]
    push_cast
    rw [abs_of_nonpos (by linarith)]
    refine ⟨by linarith, fun htie => ?_⟩
    have hnot : ¬ c.aboveHalf = true := fun ha => by have := h.above.mp ha; linarith
    simp only [hnot, Bool.false_or, Bool.and_eq_true, beq_iff_eq] at hup
    omega
  · have hle' : x ≤ c.int + 1 / 2 := not_lt.mp fun hx => hup (by rw [h.above.mpr hx]; rfl)
    rw [if_neg hup, abs_of_nonneg (by linarith)]
    refine ⟨by linarith, fun htie => ?_⟩
    have hhalf : c.half = true := h.half.mpr (by linarith)
    simp only [hhalf, Bool.true_and, Bool.or_eq_true, beq_iff_eq, not_or] at hup
    omega

/-- Cut numbers are rounded in the direction the mode asks for (43_vfp_instructions.md R1046). -/
theorem CutOf.roundedInt (rm : Rounding) (sign : Bool) : RoundedInt rm sign x (roundCut rm sign c) := by
  cases rm with
  | nearest => exact h.roundedInt_nearest sign
  | zero => exact ⟨h.le, h.lt⟩
  | plus =>
    cases sign with
    | false => simpa [RoundedInt, roundCut, roundsUp] using h.away
    | true => simpa [RoundedInt, roundCut, roundsUp] using And.intro h.le h.lt
  | minus =>
    cases sign with
    | false => simpa [RoundedInt, roundCut, roundsUp] using And.intro h.le h.lt
    | true => simpa [RoundedInt, roundCut, roundsUp] using h.away

/-- The rounded integer is the number itself just if nothing was cut off. -/
theorem CutOf.roundCut_eq_iff (rm : Rounding) (sign : Bool) : (roundCut rm sign c : ℝ) = x ↔ c.inexact = false := by
  have hlt := h.lt
  rw [← Bool.not_eq_true, h.inexact, not_lt]
  unfold roundCut
  constructor
  · split
    · intro he
      push_cast at he
      linarith
    · exact fun he => he.ge
  · intro hx
    have hexact : x = c.int := le_antisymm hx h.le
    have habove : ¬ c.aboveHalf = true := fun ha => by have := h.above.mp ha; linarith
    have hhalf : ¬ c.half = true := fun ha => by have := h.half.mp ha; linarith
    have hinexact : ¬ c.inexact = true := fun ha => by have := h.inexact.mp ha; linarith
    have hup : roundsUp rm sign c = false := by cases rm <;> simp [roundsUp, habove, hhalf, hinexact]
    rw [hup, hexact]
    rfl

end

/-! ### Fields -/

/-- An exponent field and a significand stand for a magnitude. -/
def StandsFor (f : Format) (e m : Nat) (v : ℝ) : Prop :=
  (e = 0 ∧ m < 2 ^ f.fracBits ∧ v = m * (2 : ℝ) ^ (f.emin - f.fracBits)) ∨
    (e ≠ 0 ∧ 2 ^ f.fracBits ≤ m ∧ m < 2 ^ (f.fracBits + 1) ∧ v = m * (2 : ℝ) ^ ((e : ℤ) - f.bias - f.fracBits))

/-- A rounded magnitude of `m` units: the fields stand for it (43_vfp_instructions.md R1046). -/
theorem standsFor_adjustRounded {f : Format} {e m : Nat} (hle : m ≤ 2 ^ (f.fracBits + 1))
    (hdenormal : e = 0 → m ≤ 2 ^ f.fracBits) (hnormal : e ≠ 0 → 2 ^ f.fracBits ≤ m) :
    StandsFor f (adjustRounded f e m).1 (adjustRounded f e m).2
      (m * (2 : ℝ) ^ (max (e : ℤ) 1 - f.bias - f.fracBits)) := by
  have hlt : 2 ^ f.fracBits < 2 ^ (f.fracBits + 1) := Nat.pow_lt_pow_right (by decide) (Nat.lt_succ_self _)
  unfold adjustRounded
  by_cases he : e = 0
  · subst he
    by_cases hm : m = 2 ^ f.fracBits
    · rw [if_pos ⟨hm, rfl⟩]
      exact .inr ⟨one_ne_zero, hm.ge, hm.trans_lt hlt, rfl⟩
    · have hm' := lt_of_le_of_ne (hdenormal rfl) hm
      rw [if_neg fun h => hm h.1, if_neg (hm'.trans hlt).ne]
      exact .inl ⟨rfl, hm', rfl⟩
  · have hmax : max (e : ℤ) 1 = e := max_eq_left (by omega)
    rw [if_neg fun h => he h.2, hmax]
    by_cases hm : m = 2 ^ (f.fracBits + 1)
    · have hhalf : m / 2 = 2 ^ f.fracBits := by rw [hm, pow_succ, Nat.mul_div_cancel _ (by decide)]
      rw [if_pos hm]
      refine .inr ⟨Nat.succ_ne_zero e, hhalf.ge, hhalf.trans_lt hlt, ?_⟩
      have hexp : ((e + 1 : ℕ) : ℤ) - f.bias - f.fracBits = (e - f.bias - f.fracBits) + 1 := by push_cast; ring
      rw [hhalf, hm, hexp, zpow_add_one₀ (by norm_num)]
      push_cast
      ring
    · rw [if_neg hm]
      exact .inr ⟨he, hnormal he, lt_of_le_of_ne hle hm, rfl⟩

section

variable {f : Format} {e m : Nat} {v : ℝ} (h : StandsFor f e m v)
include h

theorem StandsFor.lt_zpow : v < (2 : ℝ) ^ ((e : ℤ) - f.bias + 1) := by
  obtain ⟨rfl, hm, rfl⟩ | ⟨-, -, hm, rfl⟩ := h
  · have hexp : ((0 : ℕ) : ℤ) - f.bias + 1 = f.fracBits + (f.emin - f.fracBits) := by unfold Format.emin; push_cast; ring
    rw [hexp, zpow_add₀ (by norm_num), zpow_natCast]
    gcongr
    exact_mod_cast hm
  · have hexp : (e : ℤ) - f.bias + 1 = (f.fracBits + 1 : ℕ) + (e - f.bias - f.fracBits) := by push_cast; ring
    rw [hexp, zpow_add₀ (by norm_num), zpow_natCast]
    gcongr
    exact_mod_cast hm

theorem StandsFor.zpow_le (he : e ≠ 0) : (2 : ℝ) ^ ((e : ℤ) - f.bias) ≤ v := by
  obtain ⟨h0, -, -⟩ | ⟨-, hm, -, rfl⟩ := h
  · exact absurd h0 he
  · have hexp : (e : ℤ) - f.bias = f.fracBits + (e - f.bias - f.fracBits) := by ring
    rw [hexp, zpow_add₀ (by norm_num), zpow_natCast, add_sub_cancel_left]
    gcongr
    exact_mod_cast hm

end

theorem expLimit_eq {f : Format} (hE : 1 < f.expBits) :
    0 < f.bias ∧ expLimit f = 2 * f.bias + (if f.alternative then 2 else 1) := by
  obtain ⟨k, hk⟩ : ∃ k, f.expBits = k + 2 := ⟨f.expBits - 2, by omega⟩
  have hpos : 0 < 2 ^ k := Nat.two_pow_pos k
  unfold expLimit Format.maxExp Format.bias
  rw [hk, show k + 2 - 1 = k + 1 by omega, pow_succ, pow_succ]
  cases f.alternative <;> constructor <;> simp <;> omega

/-- Fields that are too large stand for magnitudes that are. -/
theorem StandsFor.limit_le_iff {f : Format} (hE : 1 < f.expBits) {e m : Nat} {v : ℝ} (h : StandsFor f e m v) :
    (2 : ℝ) ^ (f.bias + if f.alternative then 2 else 1) ≤ v ↔ expLimit f ≤ e := by
  obtain ⟨hbias, hlimit⟩ := expLimit_eq hE
  rw [hlimit, ← zpow_natCast]
  generalize (if f.alternative then 2 else 1) = k at *
  constructor
  · intro hle
    have hlt : (2 : ℝ) ^ ((f.bias + k : ℕ) : ℤ) < 2 ^ ((e : ℤ) - f.bias + 1) := hle.trans_lt h.lt_zpow
    have := (zpow_lt_zpow_iff_right₀ one_lt_two).mp hlt
    omega
  · intro hle
    refine le_trans (zpow_le_zpow_right₀ one_le_two ?_) (h.zpow_le (by omega))
    omega

/-! ### Patterns that stand for numbers -/

theorem FpValue.abs_value (a : FpValue) : ((|a.value| : ℚ) : ℝ) = a.sig * (2 : ℝ) ^ a.exp := by
  have hnonneg : (0 : ℚ) ≤ (a.sig : ℚ) * 2 ^ a.exp := by positivity
  have habs : |a.value| = (a.sig : ℚ) * 2 ^ a.exp := by
    unfold FpValue.value
    cases a.sign <;> simp [abs_mul]
  rw [habs]
  push_cast
  rfl

theorem fpUnpack_unflushed (f : Format) (x : Nat) : fpUnpack f x 0 = (unpacked f false x, 0) := by
  have hflag : inputFlag f false x = 0#32 := if_neg fun h => by rw [Bool.and_false] at h; exact absurd h.2.2 (by decide)
  rw [fpUnpack_eq, show (0 : Word).getLsbD 24 = false from rfl, hflag, BitVec.or_zero]

/-- The pattern of fields that are not too large represents what they stand for. -/
theorem represents_packFp {f : Format} (sign : Bool) {e m : Nat} {v : ℝ} (h : StandsFor f e m v)
    (he : e < expLimit f) : Represents f (packFp f sign e (m % 2 ^ f.fracBits)) sign v := by
  have hm' : m % 2 ^ f.fracBits < 2 ^ f.fracBits := Nat.mod_lt _ (Nat.two_pow_pos _)
  have he' : e < 2 ^ f.expBits := by
    unfold expLimit Format.maxExp at he
    split at he <;> omega
  obtain ⟨hs, hexp, hfrac⟩ := fields_packFp f sign he' hm'
  refine ⟨packFp_lt f sign he' hm', _, fpUnpack_unflushed f _, ?_⟩
  unfold unpacked
  rw [hs, hexp, hfrac, Bool.and_false]
  obtain ⟨rfl, hm, rfl⟩ | ⟨hne, hm, hlt, rfl⟩ := h
  · rw [if_pos rfl, Nat.mod_eq_of_lt hm]
    by_cases h0 : m = 0
    · rw [if_pos (.inl h0), FpValue.abs_value]
      exact ⟨rfl, rfl, by simp [h0]⟩
    · rw [if_neg (by simp [h0]), FpValue.abs_value]
      exact ⟨rfl, rfl, rfl⟩
  · have hfinite : ¬ (e = f.maxExp ∧ f.alternative = false) := by
      rintro ⟨rfl, halt⟩
      simp [expLimit, halt] at he
    have hsig : 2 ^ f.fracBits + m % 2 ^ f.fracBits = m := by
      rw [Nat.mod_eq_sub_mod hm, Nat.mod_eq_of_lt (by rw [pow_succ] at hlt; omega)]
      omega
    rw [if_neg hne, if_neg hfinite, FpValue.abs_value, hsig]
    exact ⟨rfl, rfl, rfl⟩

/-! ### The rounded result -/

section

variable {f : Format} {sig : Nat} {exp : ℤ} {sticky : Bool} {y : ℝ} (hsig : sig ≠ 0) (h : Extends sig sticky y)
include hsig h

/-- The number has the leading bit of the part that is known. -/
theorem Extends.zpow_bounds :
    (2 : ℝ) ^ (exp + sig.log2) ≤ y * 2 ^ exp ∧ y * 2 ^ exp < (2 : ℝ) ^ (exp + sig.log2 + 1) := by
  obtain ⟨hle, hlt⟩ := h.bounds
  have hlow : (2 : ℝ) ^ sig.log2 ≤ sig := by exact_mod_cast Nat.log2_self_le hsig
  have hhigh : (sig : ℝ) + 1 ≤ 2 ^ (sig.log2 + 1) := by exact_mod_cast Nat.lt_log2_self
  have hpos : (0 : ℝ) < 2 ^ exp := by positivity
  rw [add_assoc, zpow_add₀ (by norm_num), zpow_add₀ (by norm_num), mul_comm y, zpow_natCast]
  constructor
  · gcongr
    linarith
  · have : (2 : ℝ) ^ ((sig.log2 : ℤ) + 1) = 2 ^ (sig.log2 + 1) := by exact_mod_cast zpow_natCast (2 : ℝ) (sig.log2 + 1)
    rw [this]
    gcongr
    linarith

theorem Extends.lt_zpow_iff (k : ℤ) : y * 2 ^ exp < (2 : ℝ) ^ k ↔ exp + sig.log2 < k := by
  obtain ⟨hle, hlt⟩ := h.zpow_bounds hsig (exp := exp)
  constructor
  · exact fun hk => (zpow_lt_zpow_iff_right₀ one_lt_two).mp (hle.trans_lt hk)
  · exact fun hk => hlt.trans_le (zpow_le_zpow_right₀ one_le_two (by omega))

theorem Extends.zpow_le_iff (k : ℤ) : (2 : ℝ) ^ k ≤ y * 2 ^ exp ↔ k ≤ exp + sig.log2 := by
  rw [← not_lt, h.lt_zpow_iff hsig, not_lt]

end

/-- The exponent of the unit in the last place. -/
def roundedUnit (f : Format) (sig : Nat) (exp : ℤ) : ℤ := max (biasedExp f sig exp : ℤ) 1 - f.bias - f.fracBits

theorem adjustRounded_zero_le (f : Format) (m : Nat) : (adjustRounded f 0 m).1 ≤ 1 := by
  unfold adjustRounded
  split_ifs <;> simp

section

variable {f : Format} {sig : Nat} {exp : ℤ} {sticky : Bool} {y q : ℝ} (hsig : sig ≠ 0) (h : Extends sig sticky y)
  (hq : q = y * 2 ^ exp)

include hsig h hq in
theorem tiny_iff : q < (2 : ℝ) ^ f.emin ↔ biasedExp f sig exp = 0 := by
  rw [hq, h.lt_zpow_iff hsig, biasedExp]
  omega

include hsig h hq in
theorem unitOf_roundedUnit : UnitOf f q (roundedUnit f sig exp) := by
  have hpow (k : ℕ) : (2 : ℝ) ^ k * 2 ^ roundedUnit f sig exp = 2 ^ (k + roundedUnit f sig exp) := by
    rw [zpow_add₀ (by norm_num), zpow_natCast]
  have hemin : f.emin = 1 - f.bias := rfl
  unfold UnitOf
  rw [hpow, hpow, hq, h.lt_zpow_iff hsig, h.zpow_le_iff hsig]
  unfold roundedUnit biasedExp
  push_cast
  refine ⟨by omega, by omega, by omega⟩

include h hq in
theorem cutOf_roundedCut (hsticky : sticky = true → f.fracBits < sig.log2) :
    CutOf (roundedCut f sig exp sticky) (q / 2 ^ roundedUnit f sig exp) := by
  have hemin : f.emin = 1 - f.bias := rfl
  have hshift : exp - roundedExp f sig exp + f.fracBits = exp - roundedUnit f sig exp := by
    unfold roundedExp roundedUnit biasedExp
    omega
  unfold roundedCut
  rw [hshift]
  refine cutAt_spec h (fun hs => ?_) ?_
  · have := hsticky hs
    unfold roundedUnit biasedExp
    omega
  · rw [hq, zpow_sub₀ (by norm_num), mul_div_assoc]

include hsig h hq

/-- The magnitude in units has the format's precision, or it is denormal. -/
theorem roundCut_bounds (hsticky : sticky = true → f.fracBits < sig.log2) (rm : Rounding) (sign : Bool) :
    roundCut rm sign (roundedCut f sig exp sticky) ≤ 2 ^ (f.fracBits + 1) ∧
      (biasedExp f sig exp = 0 → roundCut rm sign (roundedCut f sig exp sticky) ≤ 2 ^ f.fracBits) ∧
      (biasedExp f sig exp ≠ 0 → 2 ^ f.fracBits ≤ roundCut rm sign (roundedCut f sig exp sticky)) := by
  have hcut := cutOf_roundedCut h hq hsticky
  have hemin : f.emin = 1 - f.bias := rfl
  have hlt (k : ℕ) : q / 2 ^ roundedUnit f sig exp < ((2 ^ k : ℕ) : ℝ) ↔ exp + sig.log2 < k + roundedUnit f sig exp := by
    rw [div_lt_iff₀ (by positivity), Nat.cast_pow, Nat.cast_ofNat, ← zpow_natCast, ← zpow_add₀ (by norm_num), hq,
      h.lt_zpow_iff hsig]
  have hle (k : ℕ) (hk : exp + sig.log2 < k + roundedUnit f sig exp) :
      roundCut rm sign (roundedCut f sig exp sticky) ≤ 2 ^ k := by
    have : ((roundedCut f sig exp sticky).int : ℝ) < (2 ^ k : ℕ) := hcut.le.trans_lt ((hlt k).mpr hk)
    exact (roundCut_le rm sign _).trans (by exact_mod_cast this)
  refine ⟨hle _ ?_, fun h0 => hle _ ?_, fun h0 => ?_⟩
  · unfold roundedUnit biasedExp
    push_cast
    omega
  · rw [roundedUnit, h0]
    unfold biasedExp at h0
    push_cast
    omega
  · have hge : ¬ q / 2 ^ roundedUnit f sig exp < ((2 ^ f.fracBits : ℕ) : ℝ) := by
      rw [hlt]
      unfold roundedUnit
      unfold biasedExp at h0 ⊢
      omega
    have : ((2 ^ f.fracBits : ℕ) : ℝ) < ((roundedCut f sig exp sticky).int + 1 : ℕ) := by
      push_cast
      push_cast at hge
      linarith [hcut.lt, not_lt.mp hge]
    have hint : 2 ^ f.fracBits ≤ (roundedCut f sig exp sticky).int := Nat.lt_succ_iff.mp (by exact_mod_cast this)
    exact hint.trans (le_roundCut rm sign _)

/-- Rounding is correct: of a number whose leading bits are `sig`, one strictly beyond `sig` only where it has more bits than the
format (43_vfp_instructions.md R1046). -/
theorem rounded_fpRoundWith (hE : 1 < f.expBits) (hsticky : sticky = true → f.fracBits < sig.log2) (rm : Rounding) (sign : Bool)
    (w : Word) : Rounded f rm sign q w (fpRoundWith f rm sign sig exp sticky w) := by
  have hcut := cutOf_roundedCut h hq hsticky
  obtain ⟨hmax, hdenormal, hnormal⟩ := roundCut_bounds hsig h hq hsticky rm sign
  have hfields := standsFor_adjustRounded hmax hdenormal hnormal
  have htiny := tiny_iff (f := f) hsig h hq
  have htiny' : exp + sig.log2 < f.emin ↔ q < (2 : ℝ) ^ f.emin := by rw [hq, h.lt_zpow_iff hsig]
  have hexact := hcut.roundCut_eq_iff rm sign
  rw [eq_div_iff (by positivity)] at hexact
  unfold Rounded
  intro tiny flushed
  refine ⟨fun ⟨hfz, hhalf, hsmall⟩ => fpRoundWith_flushed f rm sign sig exp sticky w hfz hhalf (htiny'.mpr hsmall),
    fun hnot => ⟨roundCut rm sign (roundedCut f sig exp sticky), roundedUnit f sig exp, unitOf_roundedUnit hsig h hq,
      hcut.roundedInt rm sign, ?_⟩⟩
  rw [fpRoundWith_packed f rm sign sig exp sticky w fun ⟨hfz, hhalf, hsmall⟩ => hnot ⟨hfz, hhalf, htiny'.mp hsmall⟩]
  intro v limit
  have hlimit : limit ≤ v ↔ _ := hfields.limit_le_iff hE
  have hinexact (hne : v ≠ q) : (roundedCut f sig exp sticky).inexact = true := (Bool.not_eq_false _).mp (mt hexact.mpr hne)
  refine ⟨fun hv => ?_, fun hv => ?_⟩
  · have he := Nat.not_le.mp (hlimit.not.mp (not_le.mpr hv))
    rw [packRounded, if_neg (Nat.not_le.mpr he)]
    refine ⟨represents_packFp sign hfields he, fun heq => ?_, fun hne hsmall => ?_, fun hne hlarge => ?_⟩
    · simp [hexact.mp heq]
    · simp only [hinexact hne, htiny.mp hsmall, decide_true, Bool.and_self, if_true]
      rw [BitVec.or_assoc, BitVec.or_assoc, BitVec.or_comm ufc]
    · simp only [hinexact hne, mt htiny.mpr hlarge, decide_false, Bool.false_and, if_true]
      rfl
  · have he := hlimit.mp hv
    have hbiased : biasedExp f sig exp ≠ 0 := fun h0 => by
      have hone := adjustRounded_zero_le f (roundCut rm sign (roundedCut f sig exp sticky))
      have hthree := (expLimit_eq hE).2
      have hbias := (expLimit_eq hE).1
      rw [h0] at he
      omega
    rw [packRounded, if_pos he, decide_eq_false hbiased, Bool.false_and]
    rfl

end

end Sys2Proof.Machine

/-!
# Arithmetic on finite numbers

A finite operand is a number (`FpValue.IsNumber`). Each operation gives `fpRound` the magnitude of the exact result: a sum over the
common power of two, a product, the integer part of a quotient or of a root with a mark of what is beyond it.
-/

namespace Sys2Proof.Machine

/-! ### Numbers -/

/-- A finite operand: its magnitude is 0 just if its class says so. -/
structure FpValue.IsNumber (a : FpValue) : Prop where
  finite : a.cls.finite = true
  zero_iff : a.cls = .zero ↔ a.sig = 0

theorem isNumber_of_unpack {f : Format} {x : Nat} {w w1 : Word} {a : FpValue} (h : fpUnpack f x w = (a, w1))
    (hfin : a.cls.finite = true) : a.IsNumber := by
  have hcls := unpacked_cls f (w.getLsbD 24) x
  rw [← eq_unpacked h] at hcls
  refine ⟨hfin, ?_⟩
  cases hc : a.cls with
  | zero =>
    rw [hc] at hcls
    exact iff_of_true rfl hcls
  | nonzero =>
    rw [hc] at hcls
    exact iff_of_false (by decide) hcls.1.ne'
  | infinity | quiet | signalling =>
    rw [hc] at hfin
    cases hfin

theorem FpValue.value_neg (a : FpValue) : a.neg.value = -a.value := by
  unfold FpValue.value FpValue.neg
  cases a.sign <;> simp

theorem FpValue.value_eq_zero_iff (a : FpValue) : a.value = 0 ↔ a.sig = 0 := by
  have hpow : (2 : ℚ) ^ a.exp ≠ 0 := by positivity
  unfold FpValue.value
  cases a.sign <;> simp [hpow]

section

variable {a b : FpValue} (ha : a.IsNumber)
include ha

theorem FpValue.IsNumber.neg : a.neg.IsNumber := ⟨ha.finite, ha.zero_iff⟩

theorem FpValue.IsNumber.not_infinity : a.cls ≠ .infinity := fun h => by
  have := ha.finite
  rw [h] at this
  cases this

theorem FpValue.IsNumber.value_zero_iff : a.value = 0 ↔ a.cls = .zero := a.value_eq_zero_iff.trans ha.zero_iff.symm

end

/-- An exact magnitude is rounded correctly under FPSCR.RMode. -/
theorem rounded_fpRound {f : Format} (hE : 1 < f.expBits) {sig : Nat} {exp : ℤ} {q : ℝ} (hsig : sig ≠ 0)
    (hq : q = sig * (2 : ℝ) ^ exp) (sign : Bool) (w : Word) :
    Rounded f (roundingOf w) sign q w (fpRound f sign sig exp false w) :=
  rounded_fpRoundWith hsig (show Extends sig false sig from rfl) hq hE (fun h => by cases h) _ sign w

/-! ### Sums -/

theorem signed_cast (s : Bool) (m : Nat) : ((signed s m : ℤ) : ℚ) = (if s then -1 else 1) * (m : ℚ) := by
  cases s <;> simp [signed]

/-- An operand over a power of two that is not above its own. -/
theorem FpValue.value_eq_signed (a : FpValue) {e : ℤ} (he : e ≤ a.exp) :
    a.value = (signed a.sign (a.sig * 2 ^ (a.exp - e).toNat) : ℤ) * (2 : ℚ) ^ e := by
  obtain ⟨k, hk⟩ := Int.le.dest he
  rw [signed_cast, FpValue.value, ← hk, add_sub_cancel_left, Int.toNat_natCast, zpow_add₀ (by norm_num), zpow_natCast]
  push_cast
  ring

theorem fpAlign_value (a b : FpValue) : a.value = (fpAlign a b).1 * (2 : ℚ) ^ (fpAlign a b).2.2 ∧
    b.value = (fpAlign a b).2.1 * (2 : ℚ) ^ (fpAlign a b).2.2 :=
  ⟨a.value_eq_signed (min_le_left _ _), b.value_eq_signed (min_le_right _ _)⟩

/-- An exact sum, rounded, or a zero (43_vfp_instructions.md R1048). -/
theorem rounded_fpExactSum {f : Format} (hE : 1 < f.expBits) {v e : ℤ} {q : ℚ} (hq : q = v * (2 : ℚ) ^ e) (w : Word) :
    (q ≠ 0 → Rounded f (roundingOf w) (decide (q < 0)) (|q| : ℚ) w (fpExactSum f v e w)) ∧
    (q = 0 → fpExactSum f v e w = (fpZero f (roundingOf w == .minus), w)) := by
  have hpos : (0 : ℚ) < 2 ^ e := by positivity
  have hzero : q = 0 ↔ v = 0 := by simp [hq, hpos.ne']
  have hneg : q < 0 ↔ v < 0 := by rw [hq, ← not_le, ← not_le, mul_nonneg_iff_of_pos_right hpos, Int.cast_nonneg_iff]
  refine ⟨fun h0 => ?_, fun h0 => ?_⟩
  · have hv := mt hzero.mpr h0
    have habs : ((|q| : ℚ) : ℝ) = (v.natAbs : ℝ) * 2 ^ e := by
      rw [hq, abs_mul, abs_of_pos hpos]
      push_cast
      rw [Nat.cast_natAbs]
      push_cast
      rfl
    unfold fpExactSum
    rw [if_neg hv, decide_eq_decide.mpr hneg]
    exact rounded_fpRound hE (Int.natAbs_ne_zero.mpr hv) habs _ w
  · unfold fpExactSum
    rw [if_pos (hzero.mp h0)]
    rfl

section

variable {f : Format} (hE : 1 < f.expBits) {a b : FpValue} (ha : a.IsNumber) (hb : b.IsNumber) {q : ℚ} (w : Word)
include hE ha hb

theorem rounded_fpSum (hq : q = a.value + b.value) :
    (q ≠ 0 → Rounded f (roundingOf w) (decide (q < 0)) (|q| : ℚ) w (fpSum f a b w)) ∧
    (q = 0 → fpSum f a b w =
      (fpZero f (if a.cls = .zero ∧ b.cls = .zero ∧ a.sign = b.sign then a.sign else roundingOf w == .minus), w)) := by
  obtain ⟨hva, hvb⟩ := fpAlign_value a b
  have hexact : q = ((fpAlign a b).1 + (fpAlign a b).2.1 : ℤ) * (2 : ℚ) ^ (fpAlign a b).2.2 := by
    rw [hq, hva, hvb]
    push_cast
    ring
  have hsum := rounded_fpExactSum hE hexact w
  rw [fpSum_eq, if_neg fun h => ha.not_infinity h.1, if_neg ha.not_infinity, if_neg hb.not_infinity]
  by_cases hz : a.cls = .zero ∧ b.cls = .zero ∧ a.sign = b.sign
  · have hq0 : q = 0 := by rw [hq, ha.value_zero_iff.mpr hz.1, hb.value_zero_iff.mpr hz.2.1, add_zero]
    exact ⟨fun h => absurd hq0 h, fun _ => by rw [if_pos hz, if_pos hz, fp_pure]⟩
  · rw [if_neg hz, if_neg hz]
    exact hsum

/-- Subtraction adds the negated operand. -/
theorem rounded_fpSum_neg (hq : q = a.value - b.value) :
    (q ≠ 0 → Rounded f (roundingOf w) (decide (q < 0)) (|q| : ℚ) w (fpSum f a b.neg w)) ∧
    (q = 0 → fpSum f a b.neg w =
      (fpZero f (if a.cls = .zero ∧ b.cls = .zero ∧ a.sign ≠ b.sign then a.sign else roundingOf w == .minus), w)) := by
  have hsum := rounded_fpSum hE ha hb.neg w (hq.trans (by rw [FpValue.value_neg, sub_eq_add_neg]))
  have hsign : (a.sign = b.neg.sign) = (a.sign ≠ b.sign) := by
    unfold FpValue.neg
    cases a.sign <;> cases b.sign <;> simp
  simp only [hsign] at hsum
  exact hsum

/-! ### Products and quotients -/

theorem rounded_fpProduct (hq : q = a.value * b.value) :
    (q ≠ 0 → Rounded f (roundingOf w) (a.sign != b.sign) (|q| : ℚ) w (fpProduct f a b w)) ∧
    (q = 0 → fpProduct f a b w = (fpZero f (a.sign != b.sign), w)) := by
  have hzero : q = 0 ↔ a.cls = .zero ∨ b.cls = .zero := by rw [hq, mul_eq_zero, ha.value_zero_iff, hb.value_zero_iff]
  unfold fpProduct
  rw [if_neg (by simp [ha.not_infinity, hb.not_infinity]), if_neg (by simp [ha.not_infinity, hb.not_infinity])]
  refine ⟨fun h0 => ?_, fun h0 => by rw [if_pos (hzero.mp h0), fp_pure]⟩
  have hne := mt hzero.mpr h0
  rw [if_neg hne]
  rw [not_or, ha.zero_iff, hb.zero_iff] at hne
  refine rounded_fpRound hE (Nat.mul_ne_zero hne.1 hne.2) ?_ _ w
  rw [hq, abs_mul, Rat.cast_mul, FpValue.abs_value, FpValue.abs_value, zpow_add₀ (by norm_num)]
  push_cast
  ring

end

/-- The integer quotient, and whether anything is left. -/
theorem extends_div (n : Nat) {d : Nat} (hd : d ≠ 0) : Extends (n / d) (decide (n % d ≠ 0)) ((n : ℝ) / d) := by
  have hd' : (d : ℝ) ≠ 0 := by exact_mod_cast hd
  unfold Extends
  by_cases hr : n % d = 0
  · rw [if_neg (by simpa using hr), Nat.cast_div (Nat.dvd_of_mod_eq_zero hr) hd']
  · rw [if_pos (by simpa using hr)]
    refine ⟨lt_of_le_of_ne Nat.cast_div_le fun he => hr ?_, ?_⟩
    · rw [eq_div_iff hd'] at he
      have hmul : n / d * d = n := by exact_mod_cast he
      have := Nat.div_add_mod' n d
      omega
    · rw [← Nat.floor_div_eq_div (K := ℝ) n d]
      exact Nat.lt_floor_add_one _

/-- The integer quotient has more bits than the significand. -/
theorem lt_log2_quotient {n d F : Nat} (hn : n ≠ 0) (hd : d ≠ 0) :
    n * 2 ^ (F + 4 + d.log2) / d ≠ 0 ∧ F < (n * 2 ^ (F + 4 + d.log2) / d).log2 := by
  have hle : 2 ^ (F + 1) ≤ n * 2 ^ (F + 4 + d.log2) / d := by
    rw [Nat.le_div_iff_mul_le (Nat.pos_of_ne_zero hd)]
    calc 2 ^ (F + 1) * d ≤ 2 ^ (F + 1) * 2 ^ (d.log2 + 1) := Nat.mul_le_mul_left _ Nat.lt_log2_self.le
      _ = 2 ^ (F + 2 + d.log2) := by rw [← pow_add]; congr 1; omega
      _ ≤ 2 ^ (F + 4 + d.log2) := Nat.pow_le_pow_right (by decide) (by omega)
      _ ≤ n * 2 ^ (F + 4 + d.log2) := Nat.le_mul_of_pos_left _ (Nat.pos_of_ne_zero hn)
  have hne : n * 2 ^ (F + 4 + d.log2) / d ≠ 0 := fun h0 => by
    rw [h0] at hle
    exact absurd hle (Nat.not_le.mpr (Nat.two_pow_pos _))
  exact ⟨hne, Nat.lt_of_succ_le ((Nat.le_log2 hne).mpr hle)⟩

section

variable {f : Format} (hE : 1 < f.expBits) {a b : FpValue} (ha : a.IsNumber) (hb : b.IsNumber) {q : ℚ} (w : Word)
include hE ha hb

theorem rounded_fpRatio (hbz : b.cls = .nonzero) (hq : q = a.value / b.value) :
    (q ≠ 0 → Rounded f (roundingOf w) (a.sign != b.sign) (|q| : ℚ) w (fpRatio f a b w)) ∧
    (q = 0 → fpRatio f a b w = (fpZero f (a.sign != b.sign), w)) := by
  have hbne : b.cls ≠ .zero := by rw [hbz]; decide
  have hzero : q = 0 ↔ a.cls = .zero := by
    rw [hq, div_eq_zero_iff, ha.value_zero_iff, hb.value_zero_iff]
    exact or_iff_left hbne
  unfold fpRatio
  rw [if_neg (by simp [ha.not_infinity, hbne]), if_neg (by simp [ha.not_infinity, hbne])]
  refine ⟨fun h0 => ?_, fun h0 => by rw [if_pos (.inl (hzero.mp h0)), fp_pure]⟩
  have hane := mt hzero.mpr h0
  rw [if_neg (by simp [hane, hb.not_infinity])]
  rw [ha.zero_iff] at hane
  rw [ne_eq, hb.zero_iff] at hbne
  obtain ⟨hne, hlog⟩ := lt_log2_quotient (F := f.fracBits) hane hbne
  refine rounded_fpRoundWith hne (extends_div _ hbne) ?_ hE (fun _ => hlog) _ _ w
  have hb0 : (b.sig : ℝ) ≠ 0 := by exact_mod_cast hbne
  rw [hq, abs_div, Rat.cast_div, FpValue.abs_value, FpValue.abs_value, zpow_sub₀ (by norm_num), zpow_sub₀ (by norm_num),
    zpow_natCast]
  push_cast
  field_simp

end

/-- A division by zero (43_vfp_instructions.md R1050). -/
theorem fpRatio_by_zero {f : Format} {a b : FpValue} (ha : a.IsNumber) (hb : b.cls = .zero) (w : Word) : fpRatio f a b w =
    if a.cls = .zero then (fpDefaultNaN f, w ||| ioc) else (fpInfinity f (a.sign != b.sign), w ||| dzc) := by
  have hinf : (a.cls != .infinity) = true := bne_iff_ne.mpr ha.not_infinity
  unfold fpRatio
  rw [hb, hinf]
  by_cases haz : a.cls = .zero
  · rw [if_pos (.inr ⟨haz, rfl⟩), if_pos haz, fpInvalid_apply]
  · rw [if_neg (by simp [haz]), if_pos (.inr rfl), if_neg haz]
    rfl

/-! ### Roots -/

/-- The root found bit by bit is the greatest integer whose square is not above `n`. -/
theorem intSqrt_spec {n k r : Nat} (hle : r * r ≤ n) (hlt : n < (r + 2 ^ k) * (r + 2 ^ k)) :
    intSqrt n k r * intSqrt n k r ≤ n ∧ n < (intSqrt n k r + 1) * (intSqrt n k r + 1) := by
  induction k generalizing r with
  | zero => exact ⟨hle, hlt⟩
  | succ k ih =>
    unfold intSqrt
    split
    · next hbit =>
      refine ih hbit ?_
      rwa [Nat.add_assoc, ← Nat.two_mul, ← pow_succ']
    · next hbit => exact ih hle (Nat.not_le.mp hbit)

/-- The integer root, and whether the number is above its square. -/
theorem extends_sqrt {n r : Nat} (hle : r * r ≤ n) (hlt : n < (r + 1) * (r + 1)) :
    Extends r (decide (r * r ≠ n)) (Real.sqrt n) := by
  have hr : (0 : ℝ) ≤ r := Nat.cast_nonneg r
  unfold Extends
  by_cases hsq : r * r = n
  · rw [if_neg (by simpa using hsq), ← hsq, Nat.cast_mul, Real.sqrt_mul_self hr]
  · rw [if_pos (by simpa using hsq)]
    have hlow : ((r * r : ℕ) : ℝ) < n := by exact_mod_cast lt_of_le_of_ne hle hsq
    have hhigh : (n : ℝ) < ((r + 1) * (r + 1) : ℕ) := by exact_mod_cast hlt
    push_cast at hlow hhigh
    exact ⟨Real.lt_sqrt_of_sq_lt (by rwa [sq]), (Real.sqrt_lt' (by linarith)).mpr (by rwa [sq])⟩

/-- The root of a number of `2 * k` bits or more has `k` bits or more. -/
theorem two_pow_le_root {n r k : Nat} (hn : 2 ^ (2 * k) ≤ n) (hlt : n < (r + 1) * (r + 1)) : 2 ^ k ≤ r := by
  rw [Nat.mul_comm, Nat.pow_mul, sq] at hn
  exact Nat.lt_succ_iff.mp (Nat.mul_self_lt_mul_self_iff.mp (hn.trans_lt hlt))

/-- A number whose power of two is even is the root's square. -/
theorem sqrt_mul_zpow (x : ℝ) (h : ℤ) : Real.sqrt (x * 2 ^ (2 * h)) = Real.sqrt x * 2 ^ h := by
  rw [two_mul, zpow_add₀ (by norm_num), Real.sqrt_mul' _ (by positivity), Real.sqrt_mul_self (by positivity)]

theorem rounded_fpRoot {f : Format} (hE : 1 < f.expBits) {a : FpValue} (hsig : a.sig ≠ 0) (hlt : a.sig < 2 ^ (f.fracBits + 1))
    (hsign : a.sign = false) (w : Word) :
    Rounded f (roundingOf w) false (Real.sqrt (a.value : ℝ)) w (fpRoot f a w) := by
  obtain ⟨odd, hodd⟩ : ∃ odd, odd = (a.exp % 2).toNat := ⟨_, rfl⟩
  obtain ⟨n, hn⟩ : ∃ n, n = a.sig * 2 ^ (2 * (f.fracBits + 3) + odd) := ⟨_, rfl⟩
  have hlow : 2 ^ (2 * (f.fracBits + 3)) ≤ n := by
    rw [hn, pow_add, Nat.mul_left_comm]
    exact Nat.le_mul_of_pos_right _ (Nat.mul_pos (Nat.pos_of_ne_zero hsig) (Nat.two_pow_pos _))
  have hhigh : n < (0 + 2 ^ (2 * f.fracBits + 6)) * (0 + 2 ^ (2 * f.fracBits + 6)) := by
    calc n < 2 ^ (f.fracBits + 1) * 2 ^ (2 * (f.fracBits + 3) + odd) := by
          rw [hn]
          exact Nat.mul_lt_mul_of_pos_right hlt (Nat.two_pow_pos _)
      _ ≤ (0 + 2 ^ (2 * f.fracBits + 6)) * (0 + 2 ^ (2 * f.fracBits + 6)) := by
          rw [Nat.zero_add, ← pow_add, ← pow_add]
          exact Nat.pow_le_pow_right (by decide) (by omega)
  obtain ⟨hle, hlt'⟩ := intSqrt_spec (Nat.zero_le n) hhigh
  have hroot := two_pow_le_root hlow hlt'
  have hne : intSqrt n (2 * f.fracBits + 6) 0 ≠ 0 := fun h0 => by
    rw [h0] at hroot
    exact absurd hroot (Nat.not_le.mpr (Nat.two_pow_pos _))
  have hlog : f.fracBits < (intSqrt n (2 * f.fracBits + 6) 0).log2 := by
    have := (Nat.le_log2 hne).mpr hroot
    omega
  have hvalue : (a.value : ℝ) = n * 2 ^ (2 * ((a.exp - odd) / 2 - (f.fracBits + 3))) := by
    have hexp : a.exp = (2 * (f.fracBits + 3) + odd : ℕ) + 2 * ((a.exp - odd) / 2 - (f.fracBits + 3)) := by
      push_cast
      omega
    rw [hn, FpValue.value, hsign]
    push_cast
    conv_lhs => rw [hexp, zpow_add₀ (by norm_num), zpow_natCast]
    ring
  unfold fpRoot
  rw [← hodd, ← hn, hvalue, sqrt_mul_zpow]
  exact rounded_fpRoundWith hne (extends_sqrt hle hlt') rfl hE (fun _ => hlog) _ _ w

/-! ### Comparisons -/

/-- Finite numbers are compared by their values (43_vfp_instructions.md R1052). -/
theorem fpOrder_of_isNumber {a b : FpValue} (ha : a.IsNumber) (hb : b.IsNumber) :
    fpOrder a b = if a.value = b.value then 0b0110 else if a.value < b.value then 0b1000 else 0b0010 := by
  obtain ⟨hva, hvb⟩ := fpAlign_value a b
  have hpos : (0 : ℚ) < 2 ^ (fpAlign a b).2.2 := by positivity
  have heq : a.value = b.value ↔ (fpAlign a b).1 = (fpAlign a b).2.1 := by
    rw [hva, hvb, mul_left_inj' hpos.ne', Int.cast_inj]
  have hlt : a.value < b.value ↔ (fpAlign a b).1 < (fpAlign a b).2.1 := by
    rw [hva, hvb, mul_lt_mul_iff_left₀ hpos, Int.cast_lt]
  rw [fpOrder_eq, if_neg fun h => ha.not_infinity h.1, if_neg ha.not_infinity, if_neg hb.not_infinity]
  simp only [heq, hlt]

/-! ### The statement -/

theorem fpSqrt_of_number {f : Format} {x : Nat} {w w1 : Word} {a : FpValue} (h : fpUnpack f x w = (a, w1))
    (ha : a.IsNumber) : fpSqrt f x w = if a.cls = .zero then (fpZero f a.sign, w1)
      else if a.sign then (fpDefaultNaN f, w1 ||| ioc) else fpRoot f a w1 := by
  unfold fpSqrt
  rw [fp_bind, h, FpClass.not_isNaN_of_finite ha.finite]
  simp only [ha.not_infinity, Bool.false_eq_true, if_false, fp_ite, fp_pure, fpInvalid_apply]

/-- Settles O53: each operation on the numbers, with the rounding mode that unpacking leaves. -/
theorem correctRounding : Obligations.CorrectRounding := by
  intro sz f x y w w1 w2 a b rm hf _ _ ha hb hfa hfb hrm
  have hE : 1 < f.expBits := by subst hf; cases sz <;> decide
  have hna := isNumber_of_unpack ha hfa
  have hnb := isNumber_of_unpack hb hfb
  have hrm1 : rm = roundingOf w1 := by rw [hrm, roundingOf_of_unpack ha]
  have hrm2 : rm = roundingOf w2 := by rw [hrm1, roundingOf_of_unpack hb]
  have htwo (g : FpValue → FpValue → Fp Nat) : twoOperands f g x y w = g a b w2 :=
    twoOperands_of_number ha hb (FpClass.not_isNaN_of_finite hfa) (FpClass.not_isNaN_of_finite hfb)
  rw [fpAdd_eq, fpSub_eq, fpMul_eq, fpDiv_eq, htwo, htwo, htwo, htwo, fpSqrt_of_number ha hna]
  refine ⟨fun q hq => ?_, fun q hq => ?_, fun q hq => ?_, fun hbz q hq => ?_, fun hbz => fpRatio_by_zero hna hbz w2,
    fun hnz hs => ?_, fun hnz hs => ?_, fun hz => if_pos hz, fun e => ?_⟩
  · exact hrm2 ▸ rounded_fpSum hE hna hnb w2 hq
  · exact hrm2 ▸ rounded_fpSum_neg hE hna hnb w2 hq
  · exact hrm2 ▸ rounded_fpProduct hE hna hnb w2 hq
  · exact hrm2 ▸ rounded_fpRatio hE hna hnb w2 hbz hq
  · have hcls := unpacked_cls f (w.getLsbD 24) x
    rw [← eq_unpacked ha, hnz] at hcls
    rw [hrm1, hnz, hs]
    exact rounded_fpRoot hE hcls.1.ne' hcls.2 hs w1
  · rw [hnz, hs]
    rfl
  · rw [fpCompare_of_number ha hb (FpClass.not_isNaN_of_finite hfa) (FpClass.not_isNaN_of_finite hfb), fpOrder_of_isNumber hna hnb]

end Sys2Proof.Machine

/-!
# Conversions of floating-point numbers

Between formats, and from an integer over a power of two, the exact number goes to `fpRoundWith`; to an integer it is cut and
rounded once, and what is out of the range is the nearest bound.
-/

namespace Sys2Proof.Machine

/-! ### Between formats -/

section

variable {src dst : Format} {x : Nat} {w w1 : Word} {a : FpValue} (h : fpUnpack src x w = (a, w1)) (ha : a.IsNumber)
include h ha

theorem fpConvert_of_number : fpConvert src dst x w =
    if a.cls = .zero then (fpZero dst a.sign, w1) else fpRound dst a.sign a.sig a.exp false w1 := by
  unfold fpConvert
  rw [fp_bind, h, FpClass.not_isNaN_of_finite ha.finite]
  simp only [ha.not_infinity, Bool.false_eq_true, if_false, fp_ite, fp_pure]

theorem rounded_fpConvert (hE : 1 < dst.expBits) (hnz : a.cls = .nonzero) :
    Rounded dst (roundingOf w) a.sign (|a.value| : ℚ) w1 (fpConvert src dst x w) := by
  have hz : a.cls ≠ .zero := by rw [hnz]; decide
  rw [fpConvert_of_number h ha, if_neg hz, ← roundingOf_of_unpack h]
  exact rounded_fpRound hE (mt ha.zero_iff.mpr hz) a.abs_value a.sign w1

end

/-! ### From an integer -/

theorem rounded_fpFromFixed {f : Format} (hE : 1 < f.expBits) {i : Int} (hi : i ≠ 0) (fb : Nat) (nearest : Bool) (w : Word) :
    Rounded f (if nearest then .nearest else roundingOf w) (decide (i < 0)) ((|i| : ℤ) / (2 : ℝ) ^ fb) w
      (fpFromFixed f i fb nearest w) := by
  have hq : ((|i| : ℤ) : ℝ) / 2 ^ fb = (i.natAbs : ℝ) * 2 ^ (-(fb : ℤ)) := by
    rw [zpow_neg, zpow_natCast, ← div_eq_mul_inv, Nat.cast_natAbs]
  unfold fpFromFixed
  rw [fp_bind, roundingMode_apply, if_neg hi]
  exact rounded_fpRoundWith (Int.natAbs_ne_zero.mpr hi) (show Extends _ false _ from rfl) hq hE (fun h => by cases h) _ _ w

/-! ### To an integer -/

/-- What an integer is written as: the nearest bound where it is out of the range (43_vfp_instructions.md R1053). -/
def saturated (lo hi i : Int) (inexact : Bool) (w : Word) : Int × Word :=
  if i < lo then (lo, w ||| ioc) else if hi < i then (hi, w ||| ioc) else (i, if inexact then w ||| ixc else w)

/-- The least integer of `m` bits, and the greatest. -/
def leastFixed (m : Nat) (uns : Bool) : Int := if uns then 0 else -(2 ^ (m - 1) : Nat)
def greatestFixed (m : Nat) (uns : Bool) : Int := if uns then (2 ^ m - 1 : Nat) else (2 ^ (m - 1) - 1 : Nat)

section

variable {f : Format} {x : Nat} {w w1 : Word} {a : FpValue} (h : fpUnpack f x w = (a, w1)) (m fb : Nat) (uns zero : Bool)
include h

theorem fpToFixed_of_nan (hnan : a.cls.isNaN = true) : fpToFixed f x m fb uns zero w = (0, w1 ||| ioc) := by
  unfold fpToFixed
  rw [fp_bind, h, fp_bind, hnan]
  rfl

theorem fpToFixed_of_infinity (hinf : a.cls = .infinity) :
    fpToFixed f x m fb uns zero w = (if a.sign then leastFixed m uns else greatestFixed m uns, w1 ||| ioc) := by
  unfold fpToFixed
  rw [fp_bind, h, fp_bind, roundingMode_apply]
  simp only [hinf, if_true]
  rfl

theorem fpToFixed_of_number (ha : a.IsNumber) : fpToFixed f x m fb uns zero w =
    saturated (leastFixed m uns) (greatestFixed m uns)
      (signed a.sign (roundCut (if zero then .zero else roundingOf w) a.sign (cutAt a.sig (a.exp + fb) false)))
      (cutAt a.sig (a.exp + fb) false).inexact w1 := by
  unfold fpToFixed saturated
  rw [fp_bind, h, fp_bind, roundingMode_apply, roundingOf_of_unpack h]
  simp only [FpClass.not_isNaN_of_finite ha.finite, ha.not_infinity, Bool.false_eq_true, if_false, fp_ite]
  rfl

end

/-- What is in the range is exact just if nothing was cut off. -/
theorem saturated_spec {c : Cut} {X : ℝ} (hcut : CutOf c X) (rm : Rounding) (sign : Bool) (lo hi i : Int) (w : Word) :
    (i < lo → saturated lo hi i c.inexact w = (lo, w ||| ioc)) ∧
    (lo ≤ hi → hi < i → saturated lo hi i c.inexact w = (hi, w ||| ioc)) ∧
    (lo ≤ i → i ≤ hi → (saturated lo hi i c.inexact w).1 = i ∧
      ((roundCut rm sign c : ℝ) = X → (saturated lo hi i c.inexact w).2 = w) ∧
      ((roundCut rm sign c : ℝ) ≠ X → (saturated lo hi i c.inexact w).2 = w ||| ixc)) := by
  rw [ne_eq, hcut.roundCut_eq_iff, Bool.not_eq_false]
  unfold saturated
  refine ⟨fun hlow => if_pos hlow, fun hle hhigh => ?_, fun hlow hhigh => ?_⟩
  · rw [if_neg (by omega), if_pos hhigh]
  · rw [if_neg hlow.not_gt, if_neg hhigh.not_gt]
    exact ⟨rfl, fun hin => by rw [hin]; rfl, fun hin => by rw [hin]; rfl⟩

/-- Settles O54: the exact number goes to the rounding, or is cut at the binary point and rounded. -/
theorem conversionsRound : Obligations.ConversionsRound := by
  have hE : ∀ dst ∈ [single32, double64, half false, half true], 1 < dst.expBits := by decide
  refine ⟨fun src dst x w w1 a _ hdst _ h => ⟨fun hnz => ?_, fun hz => ?_⟩,
    fun f i fb nearest w hf => ⟨fun hi => ?_, fun hi => ?_⟩, ?_⟩
  · exact rounded_fpConvert h (isNumber_of_unpack h (by rw [hnz]; rfl)) (hE dst hdst) hnz
  · rw [fpConvert_of_number h (isNumber_of_unpack h (by rw [hz]; rfl)), if_pos hz]
  · exact rounded_fpFromFixed (by obtain rfl | rfl := hf <;> decide) hi fb nearest w
  · unfold fpFromFixed
    rw [fp_bind, roundingMode_apply, if_pos hi]
    rfl
  intro sz f x m fb uns zero w w1 a lo hi hf _ hm h hlo hhi r hr
  have hlo' : lo = leastFixed m uns := by
    rw [hlo, leastFixed]
    push_cast
    rfl
  have hhi' : hi = greatestFixed m uns := by
    rw [hhi, greatestFixed]
    obtain rfl | rfl := hm <;> rfl
  subst hr hlo' hhi'
  refine ⟨fpToFixed_of_nan h m fb uns zero, fpToFixed_of_infinity h m fb uns zero, fun hfin => ?_⟩
  have hcut : CutOf (cutAt a.sig (a.exp + fb) false) ((|a.value| : ℚ) * (2 : ℝ) ^ fb) := by
    refine cutAt_spec (show Extends _ false _ from rfl) (fun hs => by cases hs) ?_
    rw [a.abs_value, zpow_add₀ (by norm_num), zpow_natCast, mul_assoc]
  refine ⟨_, hcut.roundedInt _ a.sign, fun i hi => ?_⟩
  rw [fpToFixed_of_number h m fb uns zero (isNumber_of_unpack h hfin)]
  have hle : leastFixed m uns ≤ greatestFixed m uns := by
    obtain rfl | rfl := hm <;> cases uns <;> decide
  obtain ⟨hlow, hhigh, hin⟩ := saturated_spec hcut (if zero then .zero else roundingOf w) a.sign (leastFixed m uns)
    (greatestFixed m uns) i w1
  rw [show signed a.sign _ = i from hi.symm]
  exact ⟨hlow, hhigh hle, hin⟩

end Sys2Proof.Machine

/-!
# Exceptions

Taking an exception, field by field: CPSR bit by bit (`getLsbD_entryCpsr`), the SPSRs and the banked registers
(`spsr_takeException`, `regIn_takeException`). SVC and BKPT are entries; what a step takes between instructions is
`proceed_ready` and `goOn_abort`.
-/

namespace Sys2Proof.Machine

/-! ### The status register after an entry -/

/-- The bits of CPSR after entry of an exception (60_exceptions.md R522): the mode, T, F, I, A and E, then the flags and GE, which
stay; the rest is cleared. -/
theorem getLsbD_entryCpsr (e : Exc) (sctlr cpsr : Word) {k : Nat} (hk : k < 32) :
    (entryCpsr e sctlr cpsr).getLsbD k =
      if k < 5 then e.mode.bits.getLsbD k
      else if k = 5 then sctlr.getLsbD 30
      else if k = 6 then cpsr.getLsbD 6 || e.masksF
      else if k = 7 then true
      else if k = 8 then cpsr.getLsbD 8 || e.masksA
      else if k = 9 then sctlr.getLsbD 25
      else cpsr.getLsbD k && decide (16 ≤ k ∧ k ≤ 19 ∨ 27 ≤ k) := by
  have hmask : ∀ k < 32, (0xF80F01C0 : Word).getLsbD k = decide (6 ≤ k ∧ k ≤ 8 ∨ 16 ≤ k ∧ k ≤ 19 ∨ 27 ≤ k) := by decide
  have hmode : 5 ≤ k → e.mode.bits.getLsbD k = false := BitVec.getLsbD_of_ge _ _
  simp only [entryCpsr, BitVec.getLsbD_or, BitVec.getLsbD_and, BitVec.getLsbD_setWidth, getLsbD_bitAt, hmask k hk]
  grind

theorem modeField_entryCpsr (e : Exc) (sctlr cpsr : Word) : modeField (entryCpsr e sctlr cpsr) = e.mode.bits := by
  refine BitVec.eq_of_getLsbD_eq fun k hk => ?_
  rw [modeField, BitVec.getLsbD_extractLsb', Nat.zero_add, getLsbD_entryCpsr e sctlr cpsr (by omega), if_pos hk,
    decide_eq_true hk, Bool.true_and]

/-- IT and J are cleared, the reserved bits too (60_exceptions.md R522). -/
theorem entryCpsr_cleared (e : Exc) (sctlr cpsr : Word) : entryCpsr e sctlr cpsr &&& 0x0700FC00 = 0 := by
  refine BitVec.eq_of_getLsbD_eq fun k hk => ?_
  have hmask : ∀ k < 32, (0x0700FC00 : Word).getLsbD k = decide (10 ≤ k ∧ k ≤ 15 ∨ 24 ≤ k ∧ k ≤ 26) := by decide
  rw [BitVec.getLsbD_and, getLsbD_entryCpsr e sctlr cpsr hk, hmask k hk]
  grind

/-- N, Z, C, V, Q and GE stay (60_exceptions.md R522). -/
theorem entryCpsr_flags (e : Exc) (sctlr cpsr : Word) : entryCpsr e sctlr cpsr &&& 0xF80F0000 = cpsr &&& 0xF80F0000 := by
  refine BitVec.eq_of_getLsbD_eq fun k hk => ?_
  have hmask : ∀ k < 32, (0xF80F0000 : Word).getLsbD k = decide (16 ≤ k ∧ k ≤ 19 ∨ 27 ≤ k) := by decide
  rw [BitVec.getLsbD_and, BitVec.getLsbD_and, getLsbD_entryCpsr e sctlr cpsr hk, hmask k hk]
  grind

/-! ### Taking an exception -/

section

variable (e : Exc) (ret : Word) (s : State)

theorem cpsr_takeException : (takeException e ret s).cpsr = entryCpsr e s.cp15.sctlr s.cpsr := rfl

theorem pc_takeException : (takeException e ret s).pc = s.vectorBase + e.offset := rfl

theorem mode_takeException : (takeException e ret s).mode = e.mode := by
  rw [State.mode, cpsr_takeException, modeField_entryCpsr]
  cases e <;> rfl

/-- The old CPSR goes to the SPSR of the mode entered. -/
theorem spsr_takeException {j : Fin 5} (h : spsrIndex e.mode = some j) :
    (takeException e ret s).spsr = s.spsr.set j s.cpsr := by
  refine (State.setRegIn_spsr ..).trans ?_
  rw [State.setSpsr, h]

/-- The link goes to R14 of the mode entered. -/
theorem regs_takeException : (takeException e ret s).regs = s.regs.set (bankIndex e.mode 14) ret :=
  congrArg (fun regs : Vector Word 30 => regs.set (bankIndex e.mode 14) ret) (State.setSpsr_regs s e.mode s.cpsr)

theorem regIn_takeException (m : Mode) {r : Reg} (h : r ≠ 15) :
    (takeException e ret s).regIn m r = if bankIndex e.mode 14 = bankIndex m r then ret else s.regIn m r := by
  simp only [State.regIn, h, if_false, regs_takeException, Fin.getElem_fin, Vector.getElem_set, Fin.ext_iff]

/-- An entry changes registers, SPSRs, CPSR and the pc, nothing else (60_exceptions.md R522). -/
theorem takeException_frame : takeException e ret s =
    { s with
      regs := (takeException e ret s).regs
      spsr := (takeException e ret s).spsr
      cpsr := (takeException e ret s).cpsr
      pc := (takeException e ret s).pc } := by
  unfold takeException State.setSpsr
  split <;> rfl

/-- An entry goes on in ARM state just if SCTLR.TE is 0 (30_encoding.md R401). -/
theorem entered_takeException : entered (takeException e ret s) =
    if s.cp15.sctlr.getLsbD 30 then .refused .toThumb else .next (takeException e ret s) := by
  rw [entered, cpsr_takeException, notArm_entryCpsr]

end

theorem entered_takeException_next {s : State} (harm : ArmEntry s) (e : Exc) (ret : Word) :
    entered (takeException e ret s) = .next (takeException e ret s) := by
  rw [entered_takeException, if_neg (Bool.eq_false_iff.mp harm)]

/-- Settles O26: the new CPSR bit by bit, the SPSR and R14 of the mode entered, and what stays. -/
theorem exceptionEntry : Obligations.ExceptionEntry := by
  intro e ret s t
  have hmode : t.mode = e.mode := mode_takeException e ret s
  have hbit {k : Nat} (hk : k < 32) := getLsbD_entryCpsr e s.cp15.sctlr s.cpsr hk
  refine ⟨?pc, ?mode, ?spsr, ?link, ?others, hbit (by decide), ?maskF, ?maskA, hbit (by decide), hbit (by decide),
    entryCpsr_cleared e _ _, entryCpsr_flags e _ _, entered_takeException e ret s, ⟨_, _, _, _, takeException_frame e ret s⟩⟩
  case pc => cases e <;> rfl
  case mode => rw [hmode]; cases e <;> rfl
  case spsr =>
    intro j hj
    rw [hmode] at hj
    rw [spsr_takeException e ret s hj]
    refine ⟨by simp, fun k hk => ?_⟩
    simp [Fin.val_ne_of_ne hk.symm]
  case link =>
    rw [State.reg, hmode]
    exact (regIn_takeException e ret s e.mode (by decide)).trans (if_pos rfl)
  case others =>
    intro m r hr hbank
    rw [hmode] at hbank
    exact (regIn_takeException e ret s m hr).trans (if_neg fun h => hbank h.symm)
  case maskF => exact (hbit (k := 6) (by decide)).trans (by cases e <;> rfl)
  case maskA => exact (hbit (k := 8) (by decide)).trans (by cases e <;> rfl)

/-! ### SVC and BKPT -/

/-- Settles O27: both are entries; BKPT's Prefetch Abort leaves a free value in IFAR. -/
theorem supervisorCallAndBreakpoint : Obligations.SupervisorCallAndBreakpoint := by
  intro c k a b s harm
  refine ⟨fun hc => (if_pos hc).trans (entered_takeException_next harm _ _), Config.freeWord s.free, ?_⟩
  have hentered : exec (.bkpt a b) s = .next (takePrefetchAbort .debugEvent (Config.freeWord s.free) (s.drew 1)) :=
    entered_of_arm ((notArm_entryCpsr _ _ _).trans harm)
  rw [hentered, takePrefetchAbort, cp15_takeException]
  rfl

/-! ### Between instructions -/

section

variable {t : State}

theorem fiqRequest_eq (t : State) : fiqRequest t = !t.pins.nFiq := rfl

/-- The legacy pin while the interface is disabled, else the interface's output (62_gic.md R636, R637). -/
theorem irqRequest_iff (t : State) : irqRequest t = true ↔
    t.gic.ifEnable = false ∧ t.pins.nIrq = false ∨ t.gic.ifEnable = true ∧ (signalled t).isSome = true := by
  unfold irqRequest
  cases t.gic.ifEnable <;> simp

/-- FIQ comes first (60_exceptions.md R544). -/
theorem readyInterrupt_fiq (hdis : intDis t = false) (hpin : t.pins.nFiq = false) (hmask : t.maskF = false) :
    readyInterrupt t = some .fiq := by
  unfold readyInterrupt
  rw [fiqRequest_eq, hpin, hmask, hdis]
  rfl

/-- IRQ follows when no FIQ is ready (60_exceptions.md R544). -/
theorem readyInterrupt_irq (hdis : intDis t = false) (hfiq : t.pins.nFiq = true ∨ t.maskF = true) (hmask : t.maskI = false)
    (hirq : irqRequest t = true) : readyInterrupt t = some .irq := by
  unfold readyInterrupt
  rw [fiqRequest_eq, hmask, hdis, hirq]
  obtain h | h := hfiq <;> simp [h]

/-- With DBGDSCR.INTdis set, or each interrupt absent or masked, none is ready. -/
theorem readyInterrupt_none (h : intDis t = true ∨
    (t.pins.nFiq = true ∨ t.maskF = true) ∧ (irqRequest t = false ∨ t.maskI = true)) : readyInterrupt t = none := by
  unfold readyInterrupt
  rw [fiqRequest_eq]
  obtain h | ⟨hf | hf, hi | hi⟩ := h
  · simp [h]
  all_goals simp [hf, hi]

/-- An interrupt that is ready is taken at this boundary or left for a later one (71_timing.md R921; log entry 29). -/
theorem proceed_takes_or_leaves (hrun : t.standby = .running) (harm : ArmEntry t) {e : Exc} (he : readyInterrupt t = some e) :
    proceed t = .next (takeException e (t.pc + 4) (t.drew 1)) ∨ proceed t = goOn (t.drew 1) :=
  (proceed_ready hrun he).imp_left fun h => h.trans (entered_takeException_next (s := t.drew 1) harm e _)

/-- No abort is pending, or it is masked (60_exceptions.md R526). -/
theorem takeAbort_eq_none (h : t.maskA = true ∨ t.pendingAbort = none) : takeAbort t = none := by
  unfold takeAbort
  cases hp : t.pendingAbort with
  | none => rfl
  | some x => exact if_pos (h.resolve_right (by simp [hp]))

theorem takeAbort_eq_some {x : Bool} (hmask : t.maskA = false) (hp : t.pendingAbort = some x) :
    takeAbort t = some (takeAsyncAbort x t) := by
  unfold takeAbort
  rw [hp, hmask]
  rfl

/-- An unmasked asynchronous abort is taken; DFSR.WnR is a free value then (60_exceptions.md R524, R526; log entry 36). -/
theorem goOn_takes_abort (harm : ArmEntry t) {x : Bool} (hmask : t.maskA = false) (hp : t.pendingAbort = some x) :
    ∃ b, goOn t = .next { (takeException .dataAbort (t.pc + 8) t).setCp15
      { t.cp15 with dfsr := 0x406 ||| bitAt x 12 ||| bitAt b 11 } with pendingAbort := none, free := t.free + 1 } := by
  refine ⟨Config.freeBool t.free, ?_⟩
  have hentered : entered (takeAsyncAbort x t) = .next (takeAsyncAbort x t) :=
    entered_of_arm ((notArm_entryCpsr _ _ _).trans harm)
  rw [goOn_abort (takeAbort_eq_some hmask hp), hentered, takeAsyncAbort, cp15_takeException]
  rfl

end

/-- Settles O30: the interrupt that is ready, if any, then the pending abort, then the instruction. -/
theorem pendingExceptionsTaken : Obligations.PendingExceptionsTaken := by
  rintro s t rfl hreset hrun harm
  rw [step_proceeds hreset]
  refine ⟨fun hdis => ⟨fun hpin hmask => ?_, fun hfiq hmask hirq => ?_⟩, fun hnone => ?_, ?_⟩
  · exact proceed_takes_or_leaves hrun harm (readyInterrupt_fiq hdis hpin hmask)
  · exact proceed_takes_or_leaves hrun harm (readyInterrupt_irq hdis hfiq hmask ((irqRequest_iff _).mpr hirq))
  · exact proceed_goesOn hrun (readyInterrupt_none hnone)
  · intro u hu
    have harmu : ArmEntry u := by obtain rfl | rfl := hu <;> exact harm
    exact ⟨fun h => goOn_runs (takeAbort_eq_none h), fun x => goOn_takes_abort harmu⟩

end Sys2Proof.Machine

/-!
# The PMU in a build without the debug window

Of all that an access reaches only the debug window holds PMU registers (64_debug_pmu.md R770). In a build without the window
(`DBGSELFADDRV` LOW) an access therefore leaves the PMU as it was, which `AccessStep` does not say: from the devices over the
caches to the checked loads, stores and fetches.
-/

namespace Sys2Proof.Machine

/-- The build has no debug window, and the PMU holds `p`. -/
def PmuIs (p : Pmu) (s : State) : Prop := s.cfg.dbgSelfAddrV = false ∧ s.pmu = p

section

variable {p : Pmu}

/-! ### Devices -/

theorem inWindow_of_pmuIs {s : State} (h : PmuIs p s) (a : Word) : inWindow s.cfg a = false := by
  simp [inWindow, windowOffset, h.1]

/-- A body that answers at once. -/
theorem pmuIs_ok {α : Type} {a : α} {s : State} (h : PmuIs p s) : PmuIs p (after (EStateM.Result.ok (ε := Stop) a s)) := h

theorem pmuIs_timers {s : State} (h : PmuIs p s) (t : Timers) : PmuIs p { s with timers := t } := h

theorem keeps_pmu_drawWord : Keeps (PmuIs p) drawWord := fun _ h => h

theorem keeps_pmu_signalAbort (x : Bool) : Keeps (PmuIs p) (signalAbort x) := by
  intro s h
  unfold signalAbort
  cases s.pendingAbort <;> exact h

theorem keeps_pmu_freeBytes (n : Nat) : Keeps (PmuIs p) (freeBytes n) := by
  induction n with
  | zero => exact keeps_pure _
  | succ n ih => exact keeps_bind keeps_pmu_drawWord fun _ => keeps_bind ih fun _ => keeps_pure _

theorem keeps_pmu_failedRead (n : Nat) (x : Bool) : Keeps (PmuIs p) (do signalAbort x; freeBytes n : M (List Byte)) :=
  keeps_bind (keeps_pmu_signalAbort x) fun _ => keeps_pmu_freeBytes n

theorem keeps_pmu_iccRead (off : Nat) : Keeps (PmuIs p) (iccRead off) := by
  intro s h
  unfold iccRead
  repeat' split
  all_goals exact h

theorem keeps_pmu_iccWrite (off : Nat) (v : Word) : Keeps (PmuIs p) (iccWrite off v) := by
  intro s h
  unfold iccWrite endInterrupt
  dsimp only
  repeat' split
  all_goals exact h

theorem pmuIs_writePriority {s : State} (h : PmuIs p s) (id : Nat) (v : Byte) : PmuIs p (writePriority id v s) := by
  unfold writePriority
  split <;> exact h

theorem pmuIs_writeTarget {s : State} (h : PmuIs p s) (id : Nat) (v : Byte) : PmuIs p (writeTarget id v s) := by
  unfold writeTarget
  split <;> exact h

theorem pmuIs_foldl {β : Type} {f : State → β → State} (hf : ∀ s b, PmuIs p s → PmuIs p (f s b)) (l : List β) {s : State}
    (h : PmuIs p s) : PmuIs p (l.foldl f s) := by
  induction l generalizing s with
  | nil => exact h
  | cons b l ih => exact ih (hf s b h)

theorem pmuIs_writeConfig {s : State} (h : PmuIs p s) (n : Nat) (v : Word) : PmuIs p (writeConfig n v s) := by
  refine pmuIs_foldl (fun t j ht => ?_) _ h
  dsimp only
  split <;> exact ht

theorem pmuIs_sendSgi {s : State} (h : PmuIs p s) (v : Word) : PmuIs p (sendSgi v s) := by
  unfold sendSgi
  dsimp only
  repeat' split
  all_goals exact h

theorem pmuIs_writeFour {f : Nat → Byte → State → State} (hf : ∀ {s}, PmuIs p s → ∀ id v, PmuIs p (f id v s)) {s : State}
    (h : PmuIs p s) (id : Nat) (v : Word) : PmuIs p (writeFour f id v s) :=
  hf (hf (hf (hf h _ _) _ _) _ _) _ _

theorem pmuIs_distWrite {s : State} (h : PmuIs p s) (off : Nat) (v : Word) : PmuIs p (distWrite off v s) := by
  unfold distWrite
  dsimp only
  iterate 5
    split
    · exact h
  split
  · exact pmuIs_writeFour pmuIs_writePriority h _ _
  split
  · exact pmuIs_writeFour pmuIs_writeTarget h _ _
  split
  · exact pmuIs_writeConfig h _ _
  split
  · exact pmuIs_sendSgi h _
  · exact h

theorem pmuIs_scuTagOp {s : State} (h : PmuIs p s) (v : Word) : PmuIs p (scuTagOp v s) := by
  unfold scuTagOp
  dsimp only
  split <;> exact h

theorem pmuIs_scuWrite {s : State} (h : PmuIs p s) (off : Nat) (v : Word) : PmuIs p (scuWrite off v s) := by
  unfold scuWrite
  split
  case h_7 => exact pmuIs_scuTagOp h v
  case h_4 | h_8 | h_10 => exact h
  all_goals split <;> exact h

theorem keeps_pmu_privateReadWord (off : Nat) : Keeps (PmuIs p) (privateReadWord off) := by
  intro s h
  unfold privateReadWord
  split
  · exact h
  split
  · exact keeps_pmu_iccRead _ s h
  split
  · exact h
  split <;> exact h

theorem keeps_pmu_privateWriteWord (off : Nat) (v : Word) : Keeps (PmuIs p) (privateWriteWord off v) := by
  intro s h
  unfold privateWriteWord
  split
  · exact pmuIs_ok (pmuIs_scuWrite h _ _)
  split
  · exact keeps_pmu_iccWrite _ _ s h
  split
  · exact pmuIs_ok (pmuIs_timers h _)
  split
  · exact pmuIs_ok (pmuIs_timers h _)
  · exact pmuIs_ok (pmuIs_distWrite h _ _)

theorem keeps_pmu_privateWriteByte (off : Nat) (b : Byte) : Keeps (PmuIs p) (privateWriteByte off b) := by
  intro s h
  unfold privateWriteByte
  split
  · exact pmuIs_ok (pmuIs_scuWrite h _ _)
  split
  · exact pmuIs_ok (pmuIs_writePriority h _ _)
  · exact pmuIs_ok (pmuIs_writeTarget h _ _)

theorem keeps_pmu_privateRead (a : Word) (n : Nat) (form : AccessForm) : Keeps (PmuIs p) (privateRead a n form) :=
  keeps_ite (keeps_pmu_failedRead n true) (keeps_bind (keeps_pmu_privateReadWord _) fun _ => keeps_pure _)

theorem keeps_pmu_privateWrite (a : Word) (bs : List Byte) (form : AccessForm) : Keeps (PmuIs p) (privateWrite a bs form) := by
  unfold privateWrite
  refine keeps_ite (keeps_pmu_signalAbort true) ?_
  split
  · exact keeps_pmu_privateWriteWord _ _
  · exact keeps_pmu_privateWriteByte _ _
  · exact keeps_pure ()

/-! ### The ports: without the window none reaches the PMU -/

theorem keeps_pmu_busRead (a : Word) (n : Nat) (attr : Attr) (form : AccessForm) : Keeps (PmuIs p) (busRead a n attr form) := by
  intro s h
  unfold busRead
  rw [inWindow_of_pmuIs h]
  split
  · split
    · exact h
    · exact keeps_pmu_privateRead a n form s h
  split
  · exact h
  split
  · exact keeps_pmu_failedRead n true s h
  rw [if_neg Bool.false_ne_true]
  split
  · exact keeps_pmu_failedRead n _ s h
  · exact h

theorem keeps_pmu_busWrite (a : Word) (bs : List Byte) (attr : Attr) (form : AccessForm) :
    Keeps (PmuIs p) (busWrite a bs attr form) := by
  intro s h
  unfold busWrite
  rw [inWindow_of_pmuIs h]
  split
  · split
    · exact h
    · exact keeps_pmu_privateWrite a bs form s h
  split
  · exact h
  split
  · exact keeps_pmu_signalAbort true s h
  rw [if_neg Bool.false_ne_true]
  split
  · exact keeps_pmu_signalAbort _ s h
  · exact h

theorem keeps_pmu_lineRead (a : Word) : Keeps (PmuIs p) (lineRead a) := by
  have herr (x : Bool) : Keeps (PmuIs p) (do signalAbort x; pure none : M (Option (List Byte))) :=
    keeps_bind (keeps_pmu_signalAbort x) fun _ => keeps_pure _
  intro s h
  unfold lineRead
  split
  · exact h
  split
  · exact herr true s h
  split
  · exact herr _ s h
  · exact h

theorem keeps_pmu_lineWrite (a : Word) (bs : List (Option Byte)) : Keeps (PmuIs p) (lineWrite a bs) := by
  intro s h
  unfold lineWrite
  split
  · exact h
  split
  · exact keeps_pmu_signalAbort true s h
  split
  · exact keeps_pmu_signalAbort _ s h
  · exact h

/-! ### Caches -/

theorem keeps_pmu_wordOut (way set j : Nat) : Keeps (PmuIs p) (wordOut way set j) := by
  intro s h
  unfold wordOut
  dsimp only
  split <;> exact h

theorem keeps_pmu_wordsOut (way set n : Nat) : Keeps (PmuIs p) (wordsOut way set n) := by
  induction n with
  | zero => exact keeps_pure _
  | succ n ih => exact keeps_bind (keeps_pmu_wordOut _ _ _) fun _ => keeps_bind ih fun _ => keeps_pure _

theorem keeps_pmu_putDTag (way set : Nat) (t : Word) : Keeps (PmuIs p) (putDTag way set t) := fun _ h => h

theorem pmuIs_scuNote {s : State} (h : PmuIs p s) (way set : Nat) (valid : Bool) : PmuIs p (scuNote way set valid s) := by
  cases valid <;> exact h

theorem keeps_pmu_invalidateLine (way set : Nat) : Keeps (PmuIs p) (invalidateLine way set) :=
  fun s h => pmuIs_scuNote (s := { s with dcache := dropDLine (eccOn s) s.dcache (lineIndex way set) }) h way set false

theorem keeps_pmu_writeOutLine (way set : Nat) : Keeps (PmuIs p) (writeOutLine way set) := by
  intro s h
  unfold writeOutLine
  split
  · exact h
  · exact keeps_bind (keeps_pmu_wordsOut _ _ _) (fun _ => keeps_bind (keeps_pmu_lineWrite _ _) fun _ =>
      keeps_pmu_putDTag _ _ _) s h

section

variable {look : Word → M Unit} (hl : ∀ a, Keeps (PmuIs p) (look a))
include hl

theorem keeps_pmu_writeBackLine (way set : Nat) : Keeps (PmuIs p) (writeBackLine look way set) := by
  refine keeps_get fun s => ?_
  split
  · exact keeps_pure _
  · exact keeps_bind (hl _) fun _ => keeps_pmu_writeOutLine _ _

theorem keeps_pmu_cleanWith (way set : Nat) : Keeps (PmuIs p) (cleanWith look way set) := by
  intro s h
  unfold cleanWith
  split
  · exact keeps_pmu_writeBackLine hl _ _ s h
  · exact keeps_bind (keeps_pmu_putDTag _ _ _) (fun _ => keeps_pmu_writeBackLine hl _ _) (recordD way set 0 false false s) h
  · exact keeps_pmu_invalidateLine _ _ (recordD way set 0 false true s) h

theorem keeps_pmu_cleanInvalidateWith (way set : Nat) : Keeps (PmuIs p) (cleanInvalidateWith look way set) :=
  keeps_bind (keeps_pmu_cleanWith hl _ _) fun _ => keeps_pmu_invalidateLine _ _

theorem keeps_pmu_scuErrorIn (a : Word) (w : Nat) : Keeps (PmuIs p) (scuErrorIn look a w) := by
  intro s h
  unfold scuErrorIn
  split
  · dsimp only
    split
    · exact keeps_pmu_cleanInvalidateWith hl _ _ (recordScu _ _ _) h
    · exact h
  · exact h

theorem keeps_pmu_scuErrorsIn (a : Word) (ws : List Nat) : Keeps (PmuIs p) (scuErrorsIn look a ws) := by
  induction ws with
  | nil => exact keeps_pure _
  | cons w ws ih => exact keeps_bind (keeps_pmu_scuErrorIn hl _ _) fun _ => ih

end

theorem keeps_pmu_scuLookup (n : Nat) (a : Word) : Keeps (PmuIs p) (scuLookup n a) := by
  induction n generalizing a with
  | zero => exact keeps_pure _
  | succ n ih =>
    intro s h
    unfold scuLookup
    split
    · exact keeps_pmu_scuErrorsIn ih _ _ s h
    · exact h

theorem keeps_pmu_scuCheck (a : Word) : Keeps (PmuIs p) (scuCheck a) := keeps_pmu_scuLookup _ a

theorem keeps_pmu_cleanInvalidateLine (way set : Nat) : Keeps (PmuIs p) (cleanInvalidateLine way set) :=
  keeps_pmu_cleanInvalidateWith keeps_pmu_scuCheck _ _

theorem keeps_pmu_tagErrorIn (set way : Nat) : Keeps (PmuIs p) (tagErrorIn set way) := by
  intro s h
  unfold tagErrorIn
  split
  · exact keeps_pmu_cleanInvalidateLine _ _ s h
  · exact h

theorem keeps_pmu_dataErrorAt (a : Word) : Keeps (PmuIs p) (dataErrorAt a) := by
  intro s h
  unfold dataErrorAt
  dsimp only
  split
  · exact h
  split
  · exact h
  split
  · exact keeps_pmu_cleanInvalidateLine _ _ s h
  · exact keeps_pmu_invalidateLine _ _ (recordD _ _ _ true false s) h

theorem keeps_pmu_dcacheCheck (a : Word) : Keeps (PmuIs p) (dcacheCheck a) := by
  intro s h
  unfold dcacheCheck
  split
  · exact keeps_bind (keeps_pmu_tagErrorIn _ _) (fun _ => keeps_bind (keeps_pmu_tagErrorIn _ _) fun _ =>
      keeps_bind (keeps_pmu_tagErrorIn _ _) fun _ => keeps_pmu_tagErrorIn _ _) s h
  · exact h

theorem keeps_pmu_dcacheDataCheck (a : Word) (n : Nat) : Keeps (PmuIs p) (dcacheDataCheck a n) := by
  intro s h
  unfold dcacheDataCheck
  split
  · exact keeps_bind (keeps_pmu_dataErrorAt a) (fun _ => keeps_ite (keeps_pmu_dataErrorAt _) (keeps_pure _)) s h
  · exact h

theorem keeps_pmu_installLine (way : Nat) (a : Word) (attr : Attr) (bs : List Byte) :
    Keeps (PmuIs p) (installLine way a attr bs) := fun _ h => h

theorem keeps_pmu_dcacheFill (a : Word) (n : Nat) (attr : Attr) : Keeps (PmuIs p) (dcacheFill a n attr) := by
  refine keeps_bind (keeps_pmu_dcacheCheck a) fun _ => keeps_bind (keeps_pmu_dcacheDataCheck a n) fun _ =>
    keeps_get fun s => ?_
  dsimp only
  split
  · exact keeps_pure _
  · refine keeps_bind (keeps_pmu_scuCheck _) fun _ => keeps_get fun t => ?_
    split
    · exact keeps_pure _
    · refine keeps_bind (keeps_pmu_cleanInvalidateLine _ _) fun _ => keeps_get fun u => ?_
      refine keeps_ite (keeps_bind (keeps_pmu_lineRead _) fun r => ?_) (keeps_pure _)
      cases r with
      | none => exact keeps_pure _
      | some bs => exact keeps_bind (keeps_pmu_installLine _ _ _ _) fun _ => keeps_pure _

theorem keeps_pmu_dcacheRead (a : Word) (n : Nat) (attr : Attr) : Keeps (PmuIs p) (dcacheRead a n attr) := by
  refine keeps_bind (keeps_pmu_dcacheFill a n attr) fun r => ?_
  cases r with
  | inWay way => exact keeps_get fun _ => keeps_pure _
  | bypass => exact keeps_pmu_busRead _ _ _ _
  | failed => exact keeps_pmu_freeBytes _

theorem keeps_pmu_dcacheWrite (a : Word) (bs : List Byte) (attr : Attr) : Keeps (PmuIs p) (dcacheWrite a bs attr) := by
  refine keeps_bind (keeps_pmu_dcacheFill a bs.length attr) fun r => ?_
  cases r with
  | inWay way => exact keeps_modify fun _ h => h
  | bypass => exact keeps_pmu_busWrite _ _ _ _
  | failed => exact keeps_pure _

theorem keeps_pmu_transferCheck (a : Word) (form : AccessForm) : Keeps (PmuIs p) (transferCheck a form) := by
  intro s h
  unfold transferCheck
  split
  · exact h
  · exact keeps_pmu_scuCheck _ s h

theorem keeps_pmu_transferRead (a : Word) (n : Nat) (attr : Attr) (form : AccessForm) :
    Keeps (PmuIs p) (transferRead a n attr form) :=
  keeps_bind (keeps_pmu_transferCheck _ _) fun _ => keeps_pmu_busRead _ _ _ _

theorem keeps_pmu_transferWrite (a : Word) (bs : List Byte) (attr : Attr) (form : AccessForm) :
    Keeps (PmuIs p) (transferWrite a bs attr form) :=
  keeps_bind (keeps_pmu_transferCheck _ _) fun _ => keeps_pmu_busWrite _ _ _ _

theorem keeps_pmu_icacheErrorIn (set way : Nat) : Keeps (PmuIs p) (icacheErrorIn set way) := by
  intro s h
  unfold icacheErrorIn
  dsimp only
  split <;> exact h

theorem keeps_pmu_icacheDataErrorAt (a : Word) : Keeps (PmuIs p) (icacheDataErrorAt a) := by
  intro s h
  unfold icacheDataErrorAt
  dsimp only
  split
  · exact h
  · split <;> exact h

theorem keeps_pmu_icacheCheck (a : Word) : Keeps (PmuIs p) (icacheCheck a) := by
  intro s h
  unfold icacheCheck
  split
  · exact keeps_bind (keeps_pmu_icacheErrorIn _ _) (fun _ => keeps_bind (keeps_pmu_icacheErrorIn _ _) fun _ =>
      keeps_bind (keeps_pmu_icacheErrorIn _ _) fun _ => keeps_bind (keeps_pmu_icacheErrorIn _ _) fun _ =>
      keeps_pmu_icacheDataErrorAt _) s h
  · exact h

/-! ### Tightly-coupled memories -/

theorem keeps_pmu_itcmCheck (chunk : Nat) : Keeps (PmuIs p) (itcmCheck chunk) := by
  intro s h
  unfold itcmCheck
  split
  · split <;> exact h
  · exact h

theorem keeps_pmu_dtcmCheck (word : Nat) : Keeps (PmuIs p) (dtcmCheck word) := by
  intro s h
  unfold dtcmCheck
  split
  · split <;> exact h
  · exact h

theorem keeps_pmu_itcmRead (off n : Nat) : Keeps (PmuIs p) (itcmRead off n) :=
  keeps_bind (keeps_pmu_itcmCheck _) fun _ => keeps_get fun _ => keeps_pure _

theorem keeps_pmu_dtcmRead (off n : Nat) : Keeps (PmuIs p) (dtcmRead off n) := by
  have h : Keeps (PmuIs p) (do let s ← get; pure (memBytes s.dtcm.bytes off n) : M (List Byte)) :=
    keeps_get fun _ => keeps_pure _
  exact keeps_bind (keeps_pmu_dtcmCheck _) fun _ => keeps_ite (keeps_bind (keeps_pmu_dtcmCheck _) fun _ => h) h

theorem keeps_pmu_itcmWrite (off : Nat) (bs : List Byte) : Keeps (PmuIs p) (itcmWrite off bs) :=
  keeps_ite (keeps_bind (keeps_pmu_itcmCheck _) fun _ => keeps_modify fun _ h => h) (keeps_modify fun _ h => h)

theorem keeps_pmu_dtcmWrite (off : Nat) (bs : List Byte) : Keeps (PmuIs p) (dtcmWrite off bs) :=
  keeps_ite (keeps_bind (keeps_pmu_dtcmCheck _) fun _ => keeps_modify fun _ h => h) (keeps_modify fun _ h => h)

/-! ### Routing and checked accesses -/

theorem keeps_pmu_itcmReadAt (a : Word) (n : Nat) : Keeps (PmuIs p) (itcmReadAt a n) := by
  intro s h
  unfold itcmReadAt
  split
  · exact keeps_pmu_itcmRead _ _ s h
  · exact h

theorem keeps_pmu_dtcmReadAt (a : Word) (n : Nat) : Keeps (PmuIs p) (dtcmReadAt a n) := by
  intro s h
  unfold dtcmReadAt
  split
  · exact keeps_pmu_dtcmRead _ _ s h
  · exact h

theorem keeps_pmu_itcmWriteAt (a : Word) (bs : List Byte) : Keeps (PmuIs p) (itcmWriteAt a bs) := by
  intro s h
  unfold itcmWriteAt
  split
  · exact keeps_pmu_itcmWrite _ _ s h
  · exact h

theorem keeps_pmu_dtcmWriteAt (a : Word) (bs : List Byte) : Keeps (PmuIs p) (dtcmWriteAt a bs) := by
  intro s h
  unfold dtcmWriteAt
  split
  · exact keeps_pmu_dtcmWrite _ _ s h
  · exact h

theorem keeps_pmu_readPart (a : Word) (n : Nat) (attr : Attr) (form : AccessForm) : Keeps (PmuIs p) (readPart a n attr form) := by
  refine keeps_bind (keeps_modify fun _ h => h) fun _ s h => ?_
  unfold readRouted
  split
  · exact h
  split
  · exact keeps_pmu_itcmReadAt _ _ s h
  split
  · exact keeps_pmu_dtcmReadAt _ _ s h
  split
  · exact keeps_pmu_dcacheRead _ _ _ s h
  · exact keeps_pmu_transferRead _ _ _ _ s h

theorem keeps_pmu_writeRouted (a : Word) (bs : List Byte) (attr : Attr) (form : AccessForm) :
    Keeps (PmuIs p) (writeRouted a bs attr form) := by
  intro s h
  unfold writeRouted
  split
  · exact h
  split
  · exact keeps_pmu_itcmWriteAt _ _ s h
  split
  · exact keeps_pmu_dtcmWriteAt _ _ s h
  split
  · exact keeps_pmu_dcacheWrite _ _ _ s h
  · exact keeps_pmu_transferWrite _ _ _ _ s h

theorem keeps_pmu_markWord (s : State) (attr : Attr) (k : Nat) : Keeps (PmuIs p) (markWord s attr k) :=
  keeps_modify fun t h => by
    dsimp only
    split <;> exact h

theorem keeps_pmu_writePart (a : Word) (bs : List Byte) (attr : Attr) (form : AccessForm) :
    Keeps (PmuIs p) (writePart a bs attr form) :=
  keeps_get fun _ => keeps_bind (keeps_modify fun _ h => h) fun _ => keeps_bind (keeps_pmu_writeRouted _ _ _ _) fun _ =>
    keeps_ite (keeps_pure _) (keeps_bind (keeps_pmu_markWord _ _ _) fun _ =>
      keeps_ite (keeps_pmu_markWord _ _ _) (keeps_pure _))

theorem keeps_pmu_readBytewise (privileged : Bool) (a : Word) (n : Nat) : Keeps (PmuIs p) (readBytewise privileged a n) := by
  induction n generalizing a with
  | zero => exact keeps_pure _
  | succ n ih =>
    exact keeps_get fun _ => keeps_bind (keeps_pmu_readPart _ _ _ _) fun _ => keeps_bind (ih _) fun _ => keeps_pure _

theorem keeps_pmu_writeBytewise (privileged : Bool) (a : Word) (bs : List Byte) :
    Keeps (PmuIs p) (writeBytewise privileged a bs) := by
  induction bs generalizing a with
  | nil => exact keeps_pure _
  | cons b bs ih => exact keeps_get fun _ => keeps_bind (keeps_pmu_writePart _ _ _ _) fun _ => ih _

theorem keeps_pmu_writeAdmitted (acc : Access) (a : Word) (attr : Attr) (bs : List Byte) :
    Keeps (PmuIs p) (writeAdmitted acc a attr bs) :=
  keeps_ite (keeps_pmu_writePart _ _ _ _) (keeps_pmu_writeBytewise _ _ _)

theorem keeps_pmu_readBytes (acc : Access) (a : Word) : Keeps (PmuIs p) (readBytes acc a) := by
  intro s h
  unfold readBytes
  split
  · exact h
  · exact keeps_ite (keeps_pmu_readPart _ _ _ _) (keeps_pmu_readBytewise _ _ _) s h

theorem keeps_pmu_loadValue (acc : Access) (a : Word) : Keeps (PmuIs p) (loadValue acc a) :=
  keeps_get fun _ => keeps_bind (keeps_pmu_readBytes _ _) fun _ => keeps_pure _

theorem keeps_pmu_storeValue (acc : Access) (a v : Word) : Keeps (PmuIs p) (storeValue acc a v) := by
  refine keeps_get fun _ s h => ?_
  unfold writeBytes
  split
  · exact h
  · exact keeps_pmu_writeAdmitted _ _ _ _ s h

theorem keeps_pmu_storeTwo (acc : Access) (a v1 v2 : Word) : Keeps (PmuIs p) (storeTwo acc a v1 v2) := by
  intro s h
  unfold storeTwo
  split
  · exact h
  split
  · exact h
  split
  · exact keeps_pmu_writePart _ _ _ _ s h
  · exact keeps_bind (keeps_pmu_writeAdmitted _ _ _ _) (fun _ => keeps_pmu_writeAdmitted _ _ _ _) s h

/-! ### Fetches and the engines -/

theorem keeps_pmu_fetchTransfer (a : Word) (n : Nat) : Keeps (PmuIs p) (fetchTransfer a n) :=
  keeps_bind (keeps_pmu_scuCheck _) fun _ => keeps_get fun _ => keeps_pure _

theorem keeps_pmu_fetchCached (a : Word) : Keeps (PmuIs p) (fetchCached a) := by
  refine keeps_bind (keeps_pmu_icacheCheck a) fun _ => keeps_get fun s => ?_
  dsimp only
  split
  · exact keeps_pure _
  · refine keeps_bind (keeps_pmu_fetchTransfer _ _) fun r => ?_
    cases r with
    | error f => exact keeps_pure _
    | ok bs =>
      refine keeps_get_of fun t ht => ?_
      split
      · exact keeps_bind (fun _ _ => ht) fun _ => keeps_pure _
      · exact keeps_pure _

theorem keeps_pmu_fetchServed (a : Word) : Keeps (PmuIs p) (fetchServed a) := by
  intro s h
  unfold fetchServed
  split
  · exact h
  · exact h
  · split
    · exact h
    split
    · exact keeps_bind (keeps_pmu_itcmReadAt _ _) (fun _ => keeps_pure _) s h
    split
    · exact keeps_bind (keeps_pmu_fetchCached _) (fun _ => keeps_pure _) s h
    · exact keeps_bind (keeps_pmu_fetchTransfer _ _) (fun _ => keeps_pure _) s h

theorem keeps_pmu_fetchWord (a : Word) : Keeps (PmuIs p) (fetchWord a) := by
  refine keeps_bind (keeps_pmu_fetchServed a) fun r => keeps_get fun s => ?_
  split
  · exact keeps_bind (fun _ h => h) fun _ => keeps_pure _
  · exact keeps_pure _

theorem pmuIs_quietly {α : Type} {m : M α} (hm : Keeps (PmuIs p) m) {s : State} (h : PmuIs p s) : PmuIs p (quietly m s) := by
  have hs := hm s h
  unfold quietly
  cases e : m s with
  | ok a t => rw [e] at hs; exact hs
  | error x t => exact h

theorem pmuIs_times {f : State → State} (hf : ∀ {s}, PmuIs p s → PmuIs p (f s)) (n : Nat) {s : State} (h : PmuIs p s) :
    PmuIs p (times f n s) := by
  induction n generalizing s with
  | zero => exact h
  | succ n ih => exact ih (hf h)

theorem pmuIs_dataEngine {s : State} (h : PmuIs p s) : PmuIs p (dataEngine s) := by
  have hfill : PmuIs p (prefetchData s) := by
    unfold prefetchData
    dsimp only
    split
    · split
      · exact pmuIs_quietly (keeps_pmu_dcacheFill _ _ _) (s := { s with free := s.free + 1 }) h
      · exact h
    · exact h
  exact pmuIs_quietly (keeps_pmu_cleanInvalidateLine _ _) (s := { prefetchData s with free := (prefetchData s).free + 2 }) hfill

theorem pmuIs_instructionEngine {s : State} (h : PmuIs p s) : PmuIs p (instructionEngine s) := by
  have hfill : PmuIs p (prefetchInstruction s) := by
    unfold prefetchInstruction
    dsimp only
    split
    · split
      · exact pmuIs_quietly (keeps_pmu_fetchCached _) (s := { s with free := s.free + 1 }) h
      · exact h
    · exact h
  exact hfill

theorem pmuIs_engineStage {s : State} (h : PmuIs p s) : PmuIs p (engineStage s) := by
  have hd : PmuIs p (if dcacheOn s then times dataEngine (Config.freeTimes s.free) { s with free := s.free + 1 } else s) := by
    split
    · exact pmuIs_times pmuIs_dataEngine _ (s := { s with free := s.free + 1 }) h
    · exact h
  unfold engineStage
  split
  · exact h
  · dsimp only
    generalize (if dcacheOn s then times dataEngine (Config.freeTimes s.free) { s with free := s.free + 1 } else s) = u
      at hd ⊢
    split
    · exact pmuIs_times pmuIs_instructionEngine _ (s := { u with free := u.free + 1 }) hd
    · exact hd

end
end Sys2Proof.Machine

/-!
# User mode

An instruction of User mode ends in one of two ways (60_exceptions.md R561, R562): it completes, and then the mode, the masks,
the SPSRs and the registers of the other modes are as they were (`Confined`); or it raises an exception, up to which the pc and
CPSR are as they were too (`Underway`), so that the entry says the rest. `Completes` states this of a body. Most of a body is
operations that keep `Underway`; only its last ones, which raise nothing (`Ends`), move the pc or change the flags.
-/

namespace Sys2Proof.Machine

/-! ### What an instruction of User mode leaves alone -/

/-- CP15 without what User mode and an exception's entry may change: the User thread register, the fault registers and the
error banks; and without the direct-access registers, of which the statement says nothing. -/
def controlOf (c : Cp15) : Cp15 :=
  { c with
    tpidrurw := 0, dfsr := 0, ifsr := 0, dfar := 0, ifar := 0, radrlo := 0, radrhi := 0, raeccr := 0,
    deer := Vector.replicate 3 0, ieer := Vector.replicate 3 0, dtcmeer := 0, itcmeer := 0 }

/-- What a step from User mode leaves alone, whether or not it takes an exception. -/
structure Guarded (s t : State) : Prop where
  cfg : t.cfg = s.cfg
  control : controlOf t.cp15 = controlOf s.cp15
  enable : t.fpu.fpexc.getLsbD 30 = s.fpu.fpexc.getLsbD 30
  pmu : s.cfg.dbgSelfAddrV = false → t.pmu.userenr = s.pmu.userenr ∧ t.pmu.inten = s.pmu.inten

/-- What a step from User mode leaves alone that takes no exception. -/
structure Confined (s t : State) : Prop extends Guarded s t where
  mode : t.mode = .usr
  status : t.cpsr &&& 0x010001FF = s.cpsr &&& 0x010001FF
  spsr : t.spsr = s.spsr
  banked : ∀ i : Fin 30, 15 ≤ i.val → t.regs[i] = s.regs[i]

/-- What an instruction of User mode leaves alone up to where it may raise an exception. -/
structure Underway (s t : State) : Prop extends Confined s t where
  pc : t.pc = s.pc
  cpsr : t.cpsr = s.cpsr

theorem Underway.refl {s : State} (h : s.privileged = false) : Underway s s where
  cfg := rfl
  control := rfl
  enable := rfl
  pmu _ := ⟨rfl, rfl⟩
  mode := by
    unfold State.privileged at h
    cases hm : s.mode with
    | usr => rfl
    | _ => rw [hm] at h; cases h
  status := rfl
  spsr := rfl
  banked _ _ := rfl
  pc := rfl
  cpsr := rfl

theorem Confined.user {s t : State} (h : Confined s t) : t.privileged = false := by
  rw [State.privileged, h.mode]
  rfl

section

variable {s t : State}

theorem Confined.setCpsr (h : Confined s t) {psr : Word} (hp : psr &&& 0x010001FF = t.cpsr &&& 0x010001FF) :
    Confined s { t with cpsr := psr } :=
  { h with
    mode := by
      have hmode : modeField psr = modeField t.cpsr := modeField_congr (and_eq_of_and_eq hp (by decide))
      exact (congrArg (fun m => (Mode.ofBits m).getD .usr) hmode).trans h.mode
    status := hp.trans h.status }

/-- N, Z, C and V are the instruction's to write. -/
theorem Confined.setFlags (h : Confined s t) (n z c v : Bool) : Confined s (t.setFlags n z c v) := by
  refine h.setCpsr (withFlags_and _ _ _ _ _ _ fun i hi => ?_)
  rcases Nat.lt_or_ge i 32 with hlt | hge
  · have hlow : ∀ j : Fin 32, 28 ≤ j.val → (0x010001FF#32).getLsbD j.val = false := by decide
    exact hlow ⟨i, hlt⟩ hi
  · exact BitVec.getLsbD_of_ge _ _ hge

theorem Confined.setPc (h : Confined s t) (v : Word) : Confined s (t.setPc v) := { h with }

/-- The registers of User mode stand below R8_fiq. -/
theorem bankIndex_usr_lt {r : Reg} (h : r ≠ 15) : (bankIndex .usr r).val < 15 := by
  revert r; decide

theorem Underway.setRegIn (h : Underway s t) (r : Reg) (v : Word) : Underway s (t.setRegIn .usr r v) := by
  unfold State.setRegIn
  split
  · exact h
  · next hr =>
    have hlt := bankIndex_usr_lt hr
    exact { h with
      banked := fun i hi => (Vector.getElem_set_ne (bankIndex .usr r).isLt i.isLt (by omega)).trans (h.banked i hi) }

theorem Underway.setReg (h : Underway s t) (r : Reg) (v : Word) : Underway s (t.setReg r v) := by
  rw [State.setReg, h.mode]
  exact h.setRegIn r v

theorem Underway.setFpu (h : Underway s t) {u : Fpu} (hu : u.fpexc.getLsbD 30 = t.fpu.fpexc.getLsbD 30) :
    Underway s { t with fpu := u } :=
  { h with enable := hu.trans h.enable }

theorem Underway.setDouble (h : Underway s t) (n : BitVec 4) (v : BitVec 64) : Underway s (t.setDouble n v) := h.setFpu rfl

theorem Underway.setSingle (h : Underway s t) (n : BitVec 5) (v : Word) : Underway s (t.setSingle n v) := h.setDouble _ _

/-- The standby state, the event register and the outputs are no control. -/
theorem Underway.setStandby (h : Underway s t) (b : Standby) (e : Bool) (o : Outputs) :
    Underway s { t with standby := b, eventReg := e, outs := o } := { h with }

/-- What an access leaves of CP15 but the error banks. -/
theorem AccessStep.control {t u : State} (h : AccessStep t u) : controlOf u.cp15 = controlOf t.cp15 :=
  congrArg (fun v => controlOf v.cp15) h.core

theorem Underway.access (h : Underway s t) {u : State} (ha : AccessStep t u)
    (hp : t.cfg.dbgSelfAddrV = false → u.pmu.userenr = t.pmu.userenr ∧ u.pmu.inten = t.pmu.inten) : Underway s u where
  cfg := ha.cfg.trans h.cfg
  control := ha.control.trans h.control
  enable := ha.fpu ▸ h.enable
  pmu hw :=
    have ⟨huser, hint⟩ := hp (h.cfg ▸ hw)
    have ⟨huser', hint'⟩ := h.pmu hw
    ⟨huser.trans huser', hint.trans hint'⟩
  mode := by rw [State.mode, ha.cpsr]; exact h.mode
  status := ha.cpsr ▸ h.status
  spsr := ha.spsr.trans h.spsr
  banked i hi := ha.regs ▸ h.banked i hi
  pc := ha.pc.trans h.pc
  cpsr := ha.cpsr.trans h.cpsr

/-- An access that leaves the PMU alone where there is no debug window. -/
theorem Underway.accessPmu (h : Underway s t) {u : State} (ha : AccessStep t u) (hp : ∀ p, PmuIs p t → PmuIs p u) :
    Underway s u :=
  h.access ha fun hw => by
    have hpmu : u.pmu = t.pmu := (hp t.pmu ⟨hw, rfl⟩).2
    rw [hpmu]
    exact ⟨rfl, rfl⟩

end

/-! ### Bodies -/

/-- Whether a body that ends so raises an exception. -/
def Stop.raises : Stop → Bool
  | .undefined | .dataAbort _ _ _ => true
  | .fault _ | .refuse _ => false

/-- How an instruction of User mode may end. -/
def Allowed (s : State) : EStateM.Result Stop State Unit → Prop
  | .ok _ t => Confined s t
  | .error e t => e.raises = true → Underway s t

/-- How the last part of an instruction may end: with no exception. -/
def Final (s : State) : EStateM.Result Stop State Unit → Prop
  | .ok _ t => Confined s t
  | .error e _ => e.raises = false

/-- A body that, run in User mode, completes or raises an exception as it may. -/
def Completes (s : State) (m : M Unit) : Prop := ∀ u, Underway s u → Allowed s (m u)

/-- The last part of a body, which raises no exception. -/
def Ends (s : State) (m : M Unit) : Prop := ∀ u, Confined s u → Final s (m u)

section

variable {s : State} {α : Type}

theorem completes_of_ends {m : M Unit} (h : Ends s m) : Completes s m := by
  intro u hu
  have ht := h u hu.toConfined
  cases e : m u with
  | ok a t => rw [e] at ht; exact ht
  | error x t =>
    rw [e] at ht
    exact fun hx => absurd hx (Bool.eq_false_iff.mp ht)

theorem completes_of_keeps {m : M Unit} (h : Keeps (Underway s) m) : Completes s m := by
  intro u hu
  have ht := h u hu
  cases e : m u with
  | ok a t => rw [e] at ht; exact ht.toConfined
  | error x t => rw [e] at ht; exact fun _ => ht

theorem completes_bind {x : M α} {f : α → M Unit} (hx : Keeps (Underway s) x) (hf : ∀ a, Completes s (f a)) :
    Completes s (x >>= f) := by
  intro u hu
  have ht := hx u hu
  rw [bind_apply]
  cases e : x u with
  | ok a t => rw [e] at ht; exact hf a t ht
  | error r t => rw [e] at ht; exact fun _ => ht

theorem ends_bind {x : M Unit} {f : Unit → M Unit} (hx : Ends s x) (hf : ∀ a, Ends s (f a)) : Ends s (x >>= f) := by
  intro u hu
  have ht := hx u hu
  rw [bind_apply]
  cases e : x u with
  | ok a t => rw [e] at ht; exact hf a t ht
  | error r t => rw [e] at ht; exact ht

theorem completes_get {f : State → M Unit} (hf : ∀ u, Completes s (f u)) : Completes s (get >>= f) := fun u hu => hf u u hu

/-- A body that looks at the state it starts in. -/
theorem completes_get_of {f : State → M Unit} (hf : ∀ u, Underway s u → Completes s (f u)) : Completes s (get >>= f) :=
  fun u hu => hf u hu u hu

theorem completes_ite {p : Prop} [Decidable p] {x y : M Unit} (hx : Completes s x) (hy : Completes s y) :
    Completes s (if p then x else y) := by
  split <;> assumption

theorem ends_ite {p : Prop} [Decidable p] {x y : M Unit} (hx : Ends s x) (hy : Ends s y) : Ends s (if p then x else y) := by
  split <;> assumption

theorem completes_refuse (r : Refusal) : Completes s (refuse r) := completes_of_keeps (keeps_refuse r)

theorem completes_undefined : Completes s undefined := completes_of_keeps keeps_undefined

/-- What follows a check that refuses runs where the check lets it. -/
theorem completes_refuseIf {b : Bool} {r : Refusal} {f : Unit → M Unit} (hf : b = false → Completes s (f ())) :
    Completes s (refuseIf b r >>= f) := by
  cases b with
  | true => exact completes_of_keeps fun u hu => hu
  | false => exact hf rfl

theorem completes_undefinedIf {b : Bool} {f : Unit → M Unit} (hf : b = false → Completes s (f ())) :
    Completes s (undefinedIf b >>= f) := by
  cases b with
  | true => exact completes_of_keeps fun u hu => hu
  | false => exact hf rfl

end
end Sys2Proof.Machine

/-!
# The bodies of the instructions in User mode

Each operation of a body keeps an instruction `Underway`, is a last part that `Ends`, or is a whole body that `Completes`.
-/

namespace Sys2Proof.Machine

section

variable {s : State}

/-! ### The operations that keep an instruction under way -/

/-- An access that leaves the PMU alone where there is no debug window. -/
theorem Accesses.keeps_underway {α : Type} {m : M α} (ha : Accesses m) (hp : ∀ p, Keeps (PmuIs p) m) :
    Keeps (Underway s) m := fun u h => h.accessPmu (ha u) fun p hw => hp p u hw

theorem keeps_underway_writeReg (r : Reg) (v : Word) : Keeps (Underway s) (writeReg r v) := fun _ h => h.setReg r v

theorem keeps_underway_drawWord : Keeps (Underway s) drawWord :=
  accesses_drawWord.keeps_underway fun _ => keeps_pmu_drawWord

theorem keeps_underway_loadValue (acc : Access) (a : Word) : Keeps (Underway s) (loadValue acc a) :=
  (accesses_loadValue acc a).keeps_underway fun _ => keeps_pmu_loadValue acc a

theorem keeps_underway_readBytes (acc : Access) (a : Word) : Keeps (Underway s) (readBytes acc a) :=
  (accesses_readBytes acc a).keeps_underway fun _ => keeps_pmu_readBytes acc a

theorem keeps_underway_storeValue (acc : Access) (a v : Word) : Keeps (Underway s) (storeValue acc a v) :=
  (accesses_storeValue acc a v).keeps_underway fun _ => keeps_pmu_storeValue acc a v

theorem keeps_underway_storeTwo (acc : Access) (a v1 v2 : Word) : Keeps (Underway s) (storeTwo acc a v1 v2) :=
  (accesses_storeTwo acc a v1 v2).keeps_underway fun _ => keeps_pmu_storeTwo acc a v1 v2

theorem keeps_underway_setMonitor (b : Bool) : Keeps (Underway s) (setMonitor b) := keeps_modify fun _ h => { h with }

/-! ### The ends of an instruction -/

theorem ends_modify {f : State → State} (hf : ∀ u, Confined s u → Confined s (f u)) : Ends s (modify f) := hf

theorem ends_fallThrough : Ends s fallThrough := by
  intro u h
  unfold fallThrough
  split
  · exact rfl
  · exact h.setPc _

theorem ends_branchWritePc (v : Word) : Ends s (branchWritePc v) := fun _ h => { h with }

theorem ends_bxWritePc (v : Word) : Ends s (bxWritePc v) := by
  intro u h
  unfold bxWritePc
  split
  · exact rfl
  split
  · exact rfl
  · exact { h with }

/-- User mode has no SPSR to return from (60_exceptions.md R565). -/
theorem ends_readSpsr {f : Word → M Unit} : Ends s (readSpsr >>= f) := by
  intro u h
  have hnone : readSpsr u = .error (.refuse .noSpsr) u := by
    unfold readSpsr
    rw [h.mode]
    rfl
  rw [bind_error hnone]
  rfl

theorem ends_exceptionReturn (target : Word) : Ends s (exceptionReturn target) := ends_readSpsr

/-- Something that raises nothing, and then the next instruction. -/
theorem ends_advance {x : M Unit} (hx : Ends s x) : Ends s (do x; fallThrough) := ends_bind hx fun _ => ends_fallThrough

theorem ends_setFlags (n z c v : State → Bool) : Ends s (modify fun u => u.setFlags (n u) (z u) (c u) (v u)) :=
  ends_modify fun _ h => h.setFlags _ _ _ _

theorem completes_fallThrough : Completes s fallThrough := completes_of_ends ends_fallThrough

theorem completes_advance {x : M Unit} (hx : Keeps (Underway s) x) : Completes s (do x; fallThrough) :=
  completes_bind hx fun _ => completes_fallThrough

theorem completes_advanceIf {p : Prop} [Decidable p] {x : M Unit} (hx : Keeps (Underway s) x) :
    Completes s (if p then do { x; fallThrough } else fallThrough) :=
  completes_ite (completes_advance hx) completes_fallThrough

/-- Flags that are set or not, and then the next instruction. -/
theorem ends_advanceIf {p : Prop} [Decidable p] {x : M Unit} (hx : Ends s x) :
    Ends s (if p then do { x; fallThrough } else fallThrough) :=
  ends_ite (ends_advance hx) ends_fallThrough

/-! ### Results -/

theorem completes_writeThen (r : Reg) (v : Word) {x : M Unit} (hx : Ends s x) : Completes s (do writeReg r v; x) :=
  completes_bind (keeps_underway_writeReg r v) fun _ => completes_of_ends hx

theorem completes_writeResult (S : Bool) (rd : Reg) (r : Word) {flags : M Unit} (hf : Ends s flags) :
    Completes s (writeResult S rd r flags) :=
  completes_ite (completes_of_ends (ends_ite (ends_exceptionReturn r) (ends_bxWritePc r)))
    (completes_writeThen _ _ (ends_advanceIf hf))

theorem completes_logical (S : Bool) (rd : Reg) (r : Word) (c : Bool) : Completes s (logical S rd r c) :=
  completes_writeResult S rd r (ends_setFlags _ _ _ _)

theorem completes_arithmetic (S : Bool) (rd : Reg) (sum : Sum) : Completes s (arithmetic S rd sum) :=
  completes_writeResult S rd _ (ends_setFlags _ _ _ _)

theorem completes_logicalTest (r : Word) (c : Bool) : Completes s (logicalTest r c) :=
  completes_of_ends (ends_advance (ends_setFlags _ _ _ _))

theorem completes_arithmeticTest (sum : Sum) : Completes s (arithmeticTest sum) :=
  completes_of_ends (ends_advance (ends_setFlags _ _ _ _))

theorem completes_narrowResult (S : Bool) (rd : Reg) (r : Word) : Completes s (narrowResult S rd r) :=
  completes_writeThen _ _ (ends_advanceIf (ends_setFlags _ _ _ _))

theorem completes_wideResult (S : Bool) (rdHi rdLo : Reg) (p : BitVec 64) : Completes s (wideResult S rdHi rdLo p) :=
  completes_bind (keeps_underway_writeReg _ _) fun _ => completes_writeThen _ _ (ends_advanceIf (ends_setFlags _ _ _ _))

theorem completes_receive (rt : Reg) (v : Word) : Completes s (receive rt v) :=
  completes_ite (completes_of_ends (ends_advance (ends_setFlags _ _ _ _))) (completes_advance (keeps_underway_writeReg _ _))

theorem completes_writeReg (r : Reg) (v : Word) : Completes s (do writeReg r v; fallThrough) :=
  completes_advance (keeps_underway_writeReg r v)

/-! ### Data processing -/

section

variable {f : Word × Bool → M Unit} (hf : ∀ o, Completes s (f o))
include hf

theorem completes_immForm (rotate : BitVec 4) (imm8 : BitVec 8) : Completes s (operandImm rotate imm8 >>= f) :=
  completes_bind (keeps_operandImm rotate imm8) hf

theorem completes_regForm (rm : Reg) (ty : ShiftType) (imm5 : BitVec 5) : Completes s (operandReg rm ty imm5 >>= f) :=
  completes_bind (keeps_operandReg rm ty imm5) hf

theorem completes_rsrForm (r rm rs : Reg) (ty : ShiftType) :
    Completes s (do notPc r; notPc rm; notPc rs; operandRsr rm ty rs >>= f) :=
  completes_bind (keeps_notPc r) fun _ => completes_bind (keeps_notPc rm) fun _ => completes_bind (keeps_notPc rs) fun _ =>
    completes_bind (keeps_operandRsr rm ty rs) hf

theorem completes_rsrFormThree (rd rn rm rs : Reg) (ty : ShiftType) :
    Completes s (do notPc rd; notPc rn; notPc rm; notPc rs; operandRsr rm ty rs >>= f) :=
  completes_bind (keeps_notPc rd) fun _ => completes_rsrForm hf rn rm rs ty

end

theorem completes_sbz {x : M Unit} (sbz : BitVec 4) (hx : Completes s x) : Completes s (do zeroBits sbz; x) :=
  completes_bind (keeps_zeroBits sbz) fun _ => hx

theorem completes_unary (rd rm : Reg) (f : Word → Word) : Completes s (unary rd rm f) :=
  completes_bind (keeps_notPc rd) fun _ => completes_bind (keeps_notPc rm) fun _ => completes_bind (keeps_readReg rm) fun _ =>
    completes_writeReg _ _

theorem completes_divide (rd rm rn : Reg) (q : Word → Word → Word) : Completes s (divide rd rm rn q) :=
  completes_bind (keeps_notPc rd) fun _ => completes_bind (keeps_notPc rm) fun _ => completes_bind (keeps_notPc rn) fun _ =>
    completes_bind (keeps_readReg rn) fun _ => completes_bind (keeps_readReg rm) fun _ => completes_get fun _ =>
      completes_undefinedIf fun _ => completes_writeReg _ _

/-! ### Loads and stores -/

theorem keeps_underway_writeBack (rn : Reg) (ad : Address) : Keeps (Underway s) (writeBack rn ad) :=
  keeps_ite (keeps_underway_writeReg _ _) (keeps_pure ())

theorem completes_loadInto (n : Nat) (ext : Word → Word) (p u w : Bool) (rn rt : Reg) (offset : Word) :
    Completes s (loadInto n ext p u w rn rt offset) :=
  completes_bind (keeps_checkPrivilege p w) fun _ => completes_bind (keeps_notPc rt) fun _ =>
    completes_bind (keeps_checkBase p w rn rt) fun _ => completes_get fun _ =>
      completes_bind (keeps_underway_loadValue _ _) fun _ => completes_bind (keeps_underway_writeBack _ _) fun _ =>
        completes_writeReg _ _

theorem completes_loadWord (p u w : Bool) (rn rt : Reg) (offset : Word) : Completes s (loadWord p u w rn rt offset) :=
  completes_ite
    (completes_bind (keeps_checkPrivilege p w) fun _ => completes_bind (keeps_checkBase p w rn rt) fun _ =>
      completes_get fun _ => completes_bind (keeps_underway_loadValue _ _) fun _ => completes_refuseIf fun _ =>
        completes_bind (keeps_underway_writeBack _ _) fun _ => completes_of_ends (ends_bxWritePc _))
    (completes_loadInto _ _ _ _ _ _ _ _)

theorem completes_storeFrom (n : Nat) (p u w : Bool) (rn rt : Reg) (offset : Word) :
    Completes s (storeFrom n p u w rn rt offset) :=
  completes_bind (keeps_checkPrivilege p w) fun _ => completes_bind (keeps_checkBase p w rn rt) fun _ =>
    completes_get fun _ => completes_bind (keeps_underway_storeValue _ _ _) fun _ =>
      completes_advance (keeps_underway_writeBack _ _)

/-- A register of User mode is left with a free value. -/
theorem keeps_underway_scramble (r : Reg) : Keeps (Underway s) (scramble .usr r) :=
  keeps_bind keeps_underway_drawWord fun _ => keeps_modify fun _ h => h.setRegIn r _

theorem completes_loadDouble (p u w : Bool) (rn rt : Reg) (offset : Word) : Completes s (loadDouble p u w rn rt offset) := by
  refine completes_bind (keeps_checkDouble p w rn rt) fun _ => completes_get_of fun t ht => ?_
  rw [ht.mode]
  exact completes_bind (keeps_underway_loadValue _ _) fun _ =>
    completes_bind (keeps_onAbort (keeps_underway_loadValue _ _) (keeps_ite (keeps_pure ()) (keeps_underway_scramble _)))
      fun _ => completes_bind (keeps_underway_writeBack _ _) fun _ => completes_bind (keeps_underway_writeReg _ _) fun _ =>
        completes_writeReg _ _

theorem completes_storeDouble (p u w : Bool) (rn rt : Reg) (offset : Word) : Completes s (storeDouble p u w rn rt offset) :=
  completes_bind (keeps_checkDouble p w rn rt) fun _ => completes_get fun _ =>
    completes_bind (keeps_underway_storeTwo _ _ _ _) fun _ => completes_advance (keeps_underway_writeBack _ _)

/-! ### Multiple accesses -/

theorem keeps_underway_loadList (privileged : Bool) (keep : Fin 30) (rs : List Reg) (a : Word) :
    Keeps (Underway s) (loadList privileged .usr keep rs a) := by
  induction rs generalizing a with
  | nil => exact keeps_pure _
  | cons r rs ih =>
    exact keeps_bind (keeps_underway_loadValue _ _) fun _ =>
      keeps_bind (keeps_onAbort (ih _) (keeps_ite (keeps_pure ()) (keeps_underway_scramble _))) fun _ => keeps_pure _

theorem Underway.putList {t : State} (h : Underway s t) (vs : List (Reg × Word)) : Underway s (putList .usr vs t) := by
  induction vs generalizing t with
  | nil => exact h
  | cons e vs ih => exact ih (h.setRegIn e.1 e.2)

/-- In User mode both forms move User registers. -/
theorem listMode_usr {t : State} (h : t.mode = .usr) (userBank : Bool) : listMode t userBank = .usr := by
  cases userBank
  · exact h
  · rfl

theorem completes_loadMultiple (p u S w : Bool) (rn : Reg) (regs : BitVec 16) :
    Completes s (loadMultiple p u S w rn regs) := by
  have hend (vs : List (Reg × Word)) : Completes s (match loadedPc vs with
      | none => fallThrough
      | some t => if S then exceptionReturn t else bxWritePc t) := by
    refine completes_of_ends ?_
    cases loadedPc vs with
    | none => exact ends_fallThrough
    | some t => exact ends_ite (ends_exceptionReturn t) (ends_bxWritePc t)
  refine completes_bind (keeps_notPc rn) fun _ => completes_refuseIf fun _ => completes_get_of fun t ht => ?_
  dsimp only
  rw [listMode_usr ht.mode]
  exact completes_refuseIf fun _ => completes_bind (keeps_underway_loadList _ _ _ _) fun vs =>
    completes_bind (keeps_modify fun _ h => h.putList vs) fun _ =>
      completes_ite (completes_bind (keeps_underway_writeReg _ _) fun _ => hend vs) (hend vs)

theorem keeps_underway_storedValue (m : Mode) (w : Bool) (rn : Reg) (regs : BitVec 16) (r : Reg) :
    Keeps (Underway s) (storedValue m w rn regs r) := by
  intro t h
  unfold storedValue
  split
  · exact keeps_underway_drawWord t h
  · exact h

theorem keeps_underway_storeList (privileged : Bool) {value : Reg → M Word} (hv : ∀ r, Keeps (Underway s) (value r))
    (rs : List Reg) (a : Word) : Keeps (Underway s) (storeList privileged value rs a) := by
  induction rs, a using storeList.induct with
  | case1 a => exact keeps_pure ()
  | case2 r a => exact keeps_bind (hv r) fun _ => keeps_underway_storeValue _ _ _
  | case3 r r' rs a ih1 ih2 =>
    exact keeps_get fun _ => keeps_ite
      (keeps_bind (hv r) fun _ => keeps_bind (hv r') fun _ => keeps_bind (keeps_underway_storeTwo _ _ _ _) fun _ => ih1)
      (keeps_bind (hv r) fun _ => keeps_bind (keeps_underway_storeValue _ _ _) fun _ => ih2)

theorem completes_storeMultiple (p u S w : Bool) (rn : Reg) (regs : BitVec 16) :
    Completes s (storeMultiple p u S w rn regs) :=
  completes_bind (keeps_notPc rn) fun _ => completes_refuseIf fun _ => completes_get fun _ =>
    completes_bind (keeps_underway_storeList _ (fun _ => keeps_underway_storedValue _ _ _ _ _) _ _) fun _ =>
      completes_advanceIf (keeps_underway_writeReg _ _)

/-! ### Exclusive accesses -/

theorem completes_loadExclusive (n : Nat) (rn rt : Reg) : Completes s (loadExclusive n rn rt) :=
  completes_bind (keeps_notPc rn) fun _ => completes_bind (keeps_notPc rt) fun _ => completes_get fun _ =>
    completes_bind (keeps_underway_loadValue _ _) fun _ => completes_bind (keeps_underway_setMonitor _) fun _ =>
      completes_writeReg _ _

theorem keeps_underway_exclusiveSucceeds (attr : Attr) (a : Word) : Keeps (Underway s) (exclusiveSucceeds attr a) := by
  intro t h
  unfold exclusiveSucceeds
  split
  · exact h
  · exact accesses_drawBool.keeps_underway (fun _ _ hp => hp) t h

theorem completes_storeExclusive (bs : Bool → State → List Byte) (n : Nat) (rn rd : Reg) :
    Completes s (storeExclusive bs n rn rd) := by
  intro t h
  unfold storeExclusive
  dsimp only
  split
  · exact fun _ => h
  · have hend (v : Word) : Completes s (do setMonitor false; writeReg rd v; fallThrough) :=
      completes_bind (keeps_underway_setMonitor _) fun _ => completes_writeReg _ _
    have hstore (acc : Access) (a : Word) (attr : Attr) (data : List Byte) : Keeps (Underway s) (writeAdmitted acc a attr data) :=
      (accesses_writeAdmitted acc a attr data).keeps_underway fun _ => keeps_pmu_writeAdmitted acc a attr data
    exact completes_bind (keeps_underway_exclusiveSucceeds _ _) (fun _ => completes_get fun _ =>
      completes_ite (completes_bind (hstore _ _ _ _) fun _ => hend _) (hend _)) t h

theorem completes_storeExclusiveFrom (n : Nat) (rn rd rt : Reg) : Completes s (storeExclusiveFrom n rn rd rt) :=
  completes_bind (keeps_checkExclusive rn rd rt) fun _ => completes_storeExclusive _ _ _ _

theorem completes_swap (n : Nat) (rn rt rt2 : Reg) : Completes s (swap n rn rt rt2) :=
  completes_get fun _ => completes_undefinedIf fun _ => completes_bind (keeps_notPc _) fun _ =>
    completes_bind (keeps_notPc _) fun _ => completes_bind (keeps_notPc _) fun _ => completes_refuseIf fun _ =>
      completes_bind (keeps_underway_loadValue _ _) fun _ => completes_bind (keeps_underway_storeValue _ _ _) fun _ =>
        completes_writeReg _ _

/-! ### VFP -/

/-- A computation changes FPSCR alone. -/
theorem keeps_underway_runFp {α : Type} (f : Fp α) : Keeps (Underway s) (runFp f) := fun _ h => h.setFpu rfl

theorem keeps_underway_writeFp (sz : Bool) (v : BitVec 4) (b : Bool) (x : Nat) : Keeps (Underway s) (writeFp sz v b x) := by
  refine keeps_modify fun t h => ?_
  split
  · exact h.setDouble _ _
  · exact h.setSingle _ _

/-- A short vector sets FPEXC.DEX, which is not FPEXC.EN (12_fpu_registers.md R213). -/
theorem keeps_underway_vectorTrap : Keeps (Underway s) vectorTrap := by
  refine keeps_get fun _ => keeps_ite (keeps_bind (keeps_modify fun t h => h.setFpu ?_) fun _ => keeps_undefined) (keeps_pure ())
  rw [BitVec.getLsbD_or]
  exact Bool.or_false _

theorem keeps_underway_checkData (bad dbl : Bool) : Keeps (Underway s) (checkData bad dbl) :=
  keeps_bind keeps_vfpOn fun _ => keeps_get fun _ => keeps_bind (keeps_undefinedIf _) fun _ => keeps_underway_vectorTrap

theorem completes_result (f : Fp Nat) (sz : Bool) (v : BitVec 4) (b : Bool) :
    Completes s (do writeFp sz v b (← runFp f); fallThrough) :=
  completes_bind (keeps_underway_runFp f) fun _ => completes_advance (keeps_underway_writeFp _ _ _ _)

theorem completes_vfpThree (d : Bool) (vn vd : BitVec 4) (sz n m : Bool) (vm : BitVec 4)
    (f : Format → Nat → Nat → Nat → Fp Nat) : Completes s (vfpThree d vn vd sz n m vm f) :=
  completes_bind (keeps_underway_checkData _ _) fun _ => completes_bind (keeps_readFp _ _ _) fun _ =>
    completes_bind (keeps_readFp _ _ _) fun _ => completes_bind (keeps_readFp _ _ _) fun _ => completes_result _ _ _ _

theorem completes_vfpTwo (d : Bool) (vd : BitVec 4) (sz m : Bool) (vm : BitVec 4) (f : Format → Nat → Fp Nat) :
    Completes s (vfpTwo d vd sz m vm f) :=
  completes_bind (keeps_underway_checkData _ _) fun _ => completes_bind (keeps_readFp _ _ _) fun _ => completes_result _ _ _ _

theorem keeps_underway_setFpscrFlags (nzcv : BitVec 4) : Keeps (Underway s) (setFpscrFlags nzcv) :=
  keeps_modify fun _ h => h.setFpu rfl

theorem keeps_underway_loadFp (privileged : Bool) (form : AccessForm) (sz : Bool) (a : Word) :
    Keeps (Underway s) (loadFp privileged form sz a) :=
  keeps_ite
    (keeps_get fun _ => keeps_bind (keeps_underway_loadValue _ _) fun _ => keeps_bind (keeps_underway_loadValue _ _) fun _ =>
      keeps_pure _)
    (keeps_bind (keeps_underway_loadValue _ _) fun _ => keeps_pure _)

theorem keeps_underway_storeFp (privileged : Bool) (form : AccessForm) (sz : Bool) (a : Word) (x : Nat) :
    Keeps (Underway s) (storeFp privileged form sz a x) :=
  keeps_ite (keeps_get fun _ => keeps_underway_storeTwo _ _ _ _) (keeps_underway_storeValue _ _ _)

theorem keeps_underway_loadFpList (privileged sz : Bool) (r n : Nat) (a : Word) :
    Keeps (Underway s) (loadFpList privileged sz r n a) := by
  induction n generalizing r a with
  | zero => exact keeps_pure ()
  | succ n ih =>
    exact keeps_bind (keeps_underway_loadFp _ _ _ _) fun _ => keeps_bind (keeps_underway_writeFp _ _ _ _) fun _ => ih _ _

theorem keeps_underway_storeFpList (privileged sz : Bool) (r n : Nat) (a : Word) :
    Keeps (Underway s) (storeFpList privileged sz r n a) := by
  induction n generalizing r a with
  | zero => exact keeps_pure ()
  | succ n ih =>
    exact keeps_bind (keeps_readFp _ _ _) fun _ => keeps_bind (keeps_underway_storeFp _ _ _ _ _) fun _ => ih _ _

theorem keeps_underway_scrambleFp (sz : Bool) (r n : Nat) : Keeps (Underway s) (scrambleFp sz r n) := by
  induction n generalizing r with
  | zero => exact keeps_pure ()
  | succ n ih =>
    exact keeps_bind keeps_underway_drawWord fun _ => keeps_bind keeps_underway_drawWord fun _ =>
      keeps_bind (keeps_underway_writeFp _ _ _ _) fun _ => ih _

theorem completes_vfpLoadMultiple (u d w : Bool) (rn : Reg) (vd : BitVec 4) (sz : Bool) (imm8 : BitVec 8) :
    Completes s (vfpLoadMultiple u d w rn vd sz imm8) :=
  completes_bind (keeps_checkTransfer _) fun _ => completes_bind (keeps_checkList _ _ _ _ _ _) fun _ => completes_get fun _ =>
    completes_bind (keeps_onAbort (keeps_underway_loadFpList _ _ _ _ _) (keeps_underway_scrambleFp _ _ _)) fun _ =>
      completes_advanceIf (keeps_underway_writeReg _ _)

theorem completes_vfpStoreMultiple (u d w : Bool) (rn : Reg) (vd : BitVec 4) (sz : Bool) (imm8 : BitVec 8) :
    Completes s (vfpStoreMultiple u d w rn vd sz imm8) :=
  completes_bind (keeps_checkTransfer _) fun _ => completes_bind (keeps_checkList _ _ _ _ _ _) fun _ => completes_get fun _ =>
    completes_bind (keeps_underway_storeFpList _ _ _ _ _) fun _ => completes_advanceIf (keeps_underway_writeReg _ _)

end
end Sys2Proof.Machine

/-!
# The instructions of User mode

The status registers and the coprocessors, what an exception's entry makes of an instruction under way, and with both every
instruction: its next state is a `UserResult`.
-/

namespace Sys2Proof.Machine

section

variable {s : State}

/-! ### Status registers -/

/-- In User mode MSR reaches no mask, no mode and no state bit (42_a32_core_subset.md R1001). -/
theorem cpsrWriteMask_user (nmfi : Bool) (v : Word) (m : BitVec 4) : cpsrWriteMask false nmfi v m &&& 0x010001FF = 0 := by
  unfold cpsrWriteMask
  generalize m.getLsbD 3 = f
  generalize m.getLsbD 2 = g
  generalize m.getLsbD 1 = x
  generalize m.getLsbD 0 = c
  generalize (nmfi && v.getLsbD 6) = keepF
  revert f g x c keepF
  decide

theorem ends_writeCpsr (v : Word) (m : BitVec 4) : Ends s (writeCpsr v m) := by
  intro u h
  unfold writeCpsr
  rw [h.user]
  split
  · exact rfl
  · exact h.setCpsr (maskWrite_and_of_disjoint (cpsrWriteMask_user u.nmfi v m))

theorem completes_moveToStatus (r : Bool) (m : BitVec 4) (v : Word) : Completes s (moveToStatus r m v) :=
  completes_of_ends (ends_ite (ends_advance ends_readSpsr) (ends_advance (ends_writeCpsr v m)))

/-- A body that starts by reading the SPSR is refused. -/
theorem completes_readSpsr {f : Word → M Unit} : Completes s (readSpsr >>= f) := completes_of_ends ends_readSpsr

/-! ### Coprocessors 15 and 14 -/

theorem keeps_underway_readCp15 (r : Cp15Reg) : Keeps (Underway s) (readCp15 r) := by
  refine keeps_get fun t => ?_
  cases r
  case drbar | drsr | dracr => exact keeps_bind keeps_currentRegion fun _ => keeps_pure _
  case op | pmswinc => exact keeps_undefined
  case ctdor => exact keeps_underway_drawWord
  case pmxevtyper | pmxevcntr =>
    dsimp only
    split
    · exact keeps_pure _
    · exact keeps_underway_drawWord
  all_goals exact keeps_pure _

theorem Underway.setPmu {t : State} (h : Underway s t) {p : Pmu} (huser : p.userenr = t.pmu.userenr)
    (hint : p.inten = t.pmu.inten) : Underway s { t with pmu := p } :=
  { h with pmu := fun hw => ⟨huser.trans (h.pmu hw).1, hint.trans (h.pmu hw).2⟩ }

theorem keeps_underway_setPmu {f : Pmu → Pmu} (huser : ∀ p, (f p).userenr = p.userenr) (hint : ∀ p, (f p).inten = p.inten) :
    Keeps (Underway s) (setPmu f) := fun _ h => h.setPmu (huser _) (hint _)

/-- A software increment raises counters and their overflow flags. -/
theorem softwareIncrement_keeps (v : Word) (p : Pmu) :
    (softwareIncrement v p).userenr = p.userenr ∧ (softwareIncrement v p).inten = p.inten := by
  unfold softwareIncrement
  refine List.foldlRecOn (motive := fun q : Pmu => q.userenr = p.userenr ∧ q.inten = p.inten) _ _ ⟨rfl, rfl⟩ fun q hq n _ => ?_
  split <;> exact hq

theorem writePmcr_keeps (v : Word) (p : Pmu) : (writePmcr v p).userenr = p.userenr ∧ (writePmcr v p).inten = p.inten := by
  unfold writePmcr
  cases v.getLsbD 1 <;> cases v.getLsbD 2 <;> exact ⟨rfl, rfl⟩

/-- What User mode may write changes no control: its thread register, the barriers and, while PMUSERENR.EN is 1, the counters
(40_system_register_access.md R434). -/
theorem keeps_underway_writeCp15 {t : State} {r : Cp15Reg} (hr : userWritable t r = true) (v : Word) :
    Keeps (Underway s) (writeCp15 r v) := by
  refine keeps_get fun u => ?_
  cases r
  case tpidrurw => exact fun _ h => { h with }
  case op o =>
    cases o
    case dsb => exact fun _ h => { h with }
    case dmb => exact keeps_pure ()
    case isb => exact fun _ h => { h with }
    all_goals simp [userWritable, Cp15Reg.userMonitor] at hr
  case pmcr => exact keeps_underway_setPmu (fun p => (writePmcr_keeps v p).1) fun p => (writePmcr_keeps v p).2
  case pmswinc => exact keeps_underway_setPmu (fun p => (softwareIncrement_keeps v p).1) fun p => (softwareIncrement_keeps v p).2
  case pmcntenset | pmcntenclr | pmovsr | pmselr | pmccntr => exact keeps_underway_setPmu (fun _ => rfl) fun _ => rfl
  case pmxevtyper | pmxevcntr =>
    dsimp only
    split
    · exact keeps_underway_setPmu (fun _ => rfl) fun _ => rfl
    · exact keeps_pure ()
  all_goals simp [userWritable, Cp15Reg.userMonitor] at hr

theorem keeps_underway_readDebug (r : DebugReg) : Keeps (Underway s) (readDebug r) := by
  refine (accesses_readDebug r).keeps_underway fun p => keeps_get fun t => ?_
  cases r
  case dtrInt | dtrtxExt | prsr => exact keeps_bind (fun _ h => h) fun _ => keeps_pure _
  case itrPcsr => exact keeps_pmu_drawWord
  case drcr => exact keeps_undefined
  all_goals exact keeps_pure _

end

/-! ### Exceptions -/

/-- How a step from User mode may leave the machine. -/
def UserResult (s t : State) : Prop :=
  Guarded s t ∧ ((∃ e, Took e s t) ∨ t.cpsr &&& 0x010001FF = s.cpsr &&& 0x010001FF ∧ t.spsr = s.spsr ∧
    ∀ i : Fin 30, 15 ≤ i.val → t.regs[i] = s.regs[i])

section

variable {s u t : State}

theorem Confined.result (h : Confined s t) : UserResult s t := ⟨h.toGuarded, .inr ⟨h.status, h.spsr, h.banked⟩⟩

theorem Guarded.sctlr (h : Guarded s t) : t.cp15.sctlr = s.cp15.sctlr :=
  show (controlOf t.cp15).sctlr = (controlOf s.cp15).sctlr from congrArg Cp15.sctlr h.control

theorem Underway.took (h : Underway s u) {e : Exc} {ret : Word} (hret : ret = u.pc + if e = .dataAbort then 8 else 4) :
    Took e s (takeException e ret u) := by
  refine ⟨mode_takeException e ret u, ?_, ?_, fun j hj => ?_, ?_, fun i hi hne => ?_⟩
  · rw [pc_takeException, State.vectorBase, h.sctlr]
    rfl
  · rw [cpsr_takeException, h.sctlr, h.cpsr]
  · rw [spsr_takeException e ret u hj, h.spsr, h.cpsr]
  · rw [regs_takeException, ← h.pc, ← hret]
    exact Vector.getElem_set_self _
  · rw [regs_takeException, ← h.banked i hi]
    exact Vector.getElem_set_ne _ _ fun hv => hne (Fin.ext hv.symm)

/-- An entry, with what it does to the fault registers and to the pending abort. -/
theorem Underway.entry (h : Underway s u) {e : Exc} {ret : Word} (hret : ret = u.pc + if e = .dataAbort then 8 else 4)
    {c : Cp15} (hc : controlOf c = controlOf u.cp15) (x : Option Bool) (n : Nat) :
    UserResult s { takeException e ret u with cp15 := c, pendingAbort := x, free := n } := by
  refine ⟨?_, .inl ⟨e, h.took hret⟩⟩
  rw [takeException_frame]
  exact { h.toGuarded with control := hc.trans h.control }

/-- Taking an exception leaves CP15 alone, and a fault's registers are no control. -/
theorem controlOf_takeException (e : Exc) (ret : Word) : controlOf (takeException e ret u).cp15 = controlOf u.cp15 :=
  congrArg controlOf (cp15_takeException e ret u)

theorem Underway.plainEntry (h : Underway s u) {e : Exc} (he : e ≠ .dataAbort) :
    UserResult s (takeException e (u.pc + 4) u) :=
  h.entry (e := e) (by rw [if_neg he]) (controlOf_takeException e (u.pc + 4)) _ _

theorem Underway.prefetchAbort (h : Underway s u) (f : FaultStatus) (a : Word) : UserResult s (takePrefetchAbort f a u) :=
  h.entry (e := .prefetchAbort) (c := { (takeException .prefetchAbort (u.pc + 4) u).cp15 with ifsr := f.bits, ifar := a }) rfl
    (controlOf_takeException .prefetchAbort (u.pc + 4)) _ _

theorem Underway.dataAbort (h : Underway s u) (f : FaultStatus) (w : Bool) (a : Word) : UserResult s (takeDataAbort f w a u) :=
  h.entry (e := .dataAbort)
    (c := { (takeException .dataAbort (u.pc + 8) u).cp15 with dfsr := f.bits ||| bitAt w 11, dfar := a }) rfl
    (controlOf_takeException .dataAbort (u.pc + 8)) _ _

theorem Underway.asyncAbort (h : Underway s u) (x : Bool) : UserResult s (takeAsyncAbort x u) :=
  h.entry (e := .dataAbort)
    (c := { (takeException .dataAbort (u.pc + 8) u).cp15 with
      dfsr := (FaultStatus.asyncExternal x).bits ||| bitAt (Config.freeBool u.free) 11 }) rfl
    (controlOf_takeException .dataAbort (u.pc + 8)) none (u.free + 1)

/-! ### The end of an instruction -/

theorem result_of_finish {r : EStateM.Result Stop State Unit} (h : Allowed s r) (e : finish r = .next t) : UserResult s t := by
  rcases finish_next e with ⟨a, rfl⟩ | ⟨v, rfl, rfl⟩ | ⟨f, w, a, v, rfl, rfl⟩
  · exact Confined.result h
  · exact (h rfl).plainEntry (by decide)
  · exact (h rfl).dataAbort f w a

theorem result_always {body : M Unit} (hb : Completes s body) (h : Underway s u) (e : always body u = .next t) :
    UserResult s t := result_of_finish (hb u h) e

theorem result_conditional {c : Cond} {body : M Unit} (hb : Completes s body) (h : Underway s u)
    (e : conditional c body u = .next t) : UserResult s t := by
  unfold conditional at e
  split at e
  · exact result_of_finish (hb u h) e
  · exact result_of_finish (completes_fallThrough u h) e

/-! ### Instructions with a body of their own -/

/-- What follows the checks of VMSR's register runs just for FPSCR, which alone is User mode's (12_fpu_registers.md R230). -/
theorem completes_fpuRegAccess (reg : BitVec 4) {f : FpuReg → M Unit} (hf : Completes s (f .fpscr)) :
    Completes s (fpuRegAccess reg >>= f) := by
  unfold fpuRegAccess
  rw [bind_assoc]
  refine completes_bind keeps_vfpAccess fun _ => ?_
  rw [bind_assoc]
  refine completes_get_of fun v hv => ?_
  cases fpuReg reg with
  | none => exact completes_of_keeps fun _ h => h
  | some r =>
    dsimp only
    rw [bind_assoc]
    refine completes_undefinedIf fun hperm => ?_
    rw [pure_bind]
    cases r with
    | fpscr => exact hf
    | fpsid | mvfr0 | mvfr1 | fpexc => exact absurd hv.user (by simpa [fpuRegPermitted] using hperm)

section

variable (h : Underway s u)
include h

theorem result_execSetend {b : Bool} (e : execSetend b u = .next t) : UserResult s t :=
  result_always (completes_of_ends (ends_advance (ends_modify fun _ k => k.setCpsr (setBit_and _ _ 9 _ (by decide))))) h e

/-- In User mode CPS does nothing (42_a32_core_subset.md R1003). -/
theorem result_execCps {imod : BitVec 2} {m a i f : Bool} {mode : BitVec 5} (e : execCps imod m a i f mode u = .next t) :
    UserResult s t := by
  refine result_always (completes_get_of fun v hv => ?_) h e
  rw [hv.user]
  exact completes_fallThrough

/-- User mode has no exception to return from (42_a32_core_subset.md R1005). -/
theorem result_execRfe {p b w : Bool} {rn : Reg} (e : execRfe p b w rn u = .next t) : UserResult s t := by
  refine result_always (completes_get_of fun v hv => completes_refuseIf fun hpriv => ?_) h e
  rw [hv.user] at hpriv
  cases hpriv

theorem result_execMrs {c : Cond} {r : Bool} {rd : Reg} (e : execMrs c r rd u = .next t) : UserResult s t :=
  result_conditional (completes_bind (keeps_notPc rd) fun _ => completes_get fun _ =>
    completes_ite completes_readSpsr (completes_bind (keeps_pure _) fun _ => completes_writeReg _ _)) h e

theorem result_execLdrexd {c : Cond} {rn rt : Reg} (e : execLdrexd c rn rt u = .next t) : UserResult s t :=
  result_conditional (completes_bind (keeps_notPc rn) fun _ => completes_bind (keeps_checkPair rt) fun _ =>
    completes_get fun _ => completes_bind (keeps_underway_readBytes _ _) fun _ =>
      completes_bind (keeps_underway_setMonitor _) fun _ => completes_bind (keeps_underway_writeReg _ _) fun _ =>
        completes_writeReg _ _) h e

theorem result_execStrexd {c : Cond} {rn rd rt : Reg} (e : execStrexd c rn rd rt u = .next t) : UserResult s t :=
  result_conditional (completes_bind (keeps_checkPair rt) fun _ => completes_bind (keeps_checkExclusive rn rd rt) fun _ =>
    completes_refuseIf fun _ => completes_storeExclusive _ _ _ _) h e

theorem result_execMla {c : Cond} {S : Bool} {rd ra rm rn : Reg} (e : execMla c S rd ra rm rn u = .next t) :
    UserResult s t :=
  result_conditional (completes_bind (keeps_notPc rd) fun _ => completes_bind (keeps_notPc ra) fun _ =>
    completes_bind (keeps_notPc rm) fun _ => completes_bind (keeps_notPc rn) fun _ => completes_bind (keeps_readReg _) fun _ =>
      completes_bind (keeps_readReg _) fun _ => completes_bind (keeps_readReg _) fun _ => completes_narrowResult _ _ _) h e

theorem result_execMls {c : Cond} {rd ra rm rn : Reg} (e : execMls c rd ra rm rn u = .next t) : UserResult s t :=
  result_conditional (completes_bind (keeps_notPc rd) fun _ => completes_bind (keeps_notPc ra) fun _ =>
    completes_bind (keeps_notPc rm) fun _ => completes_bind (keeps_notPc rn) fun _ => completes_bind (keeps_readReg _) fun _ =>
      completes_bind (keeps_readReg _) fun _ => completes_bind (keeps_readReg _) fun _ => completes_narrowResult _ _ _) h e

theorem result_execMul {c : Cond} {S : Bool} {rd rm rn : Reg} (e : execMul c S rd rm rn u = .next t) : UserResult s t :=
  result_conditional (completes_bind (keeps_notPc rd) fun _ => completes_bind (keeps_notPc rm) fun _ =>
    completes_bind (keeps_notPc rn) fun _ => completes_bind (keeps_readReg _) fun _ => completes_bind (keeps_readReg _) fun _ =>
      completes_narrowResult _ _ _) h e

theorem result_execBfi {c : Cond} {msb : BitVec 5} {rd : Reg} {lsb : BitVec 5} {rn : Reg}
    (e : execBfi c msb rd lsb rn u = .next t) : UserResult s t :=
  result_conditional (completes_bind (keeps_notPc rd) fun _ => completes_bind (keeps_notPc rn) fun _ =>
    completes_refuseIf fun _ => completes_bind (keeps_readReg rd) fun _ => completes_bind (keeps_readReg rn) fun _ =>
      completes_writeReg _ _) h e

theorem result_execBfc {c : Cond} {msb : BitVec 5} {rd : Reg} {lsb : BitVec 5} (e : execBfc c msb rd lsb u = .next t) :
    UserResult s t :=
  result_conditional (completes_bind (keeps_notPc rd) fun _ => completes_refuseIf fun _ =>
    completes_bind (keeps_readReg rd) fun _ => completes_writeReg _ _) h e

theorem result_execBlxReg {c : Cond} {rm : Reg} (e : execBlxReg c rm u = .next t) : UserResult s t :=
  result_conditional (completes_bind (keeps_notPc rm) fun _ => completes_get fun _ => completes_bind (keeps_readReg rm) fun _ =>
    completes_writeThen _ _ (ends_bxWritePc _)) h e

theorem result_execMrcP15 {c : Cond} {opc1 : BitVec 3} {crn : BitVec 4} {rt : Reg} {opc2 : BitVec 3} {crm : BitVec 4}
    (e : execMrcP15 c opc1 crn rt opc2 crm u = .next t) : UserResult s t := by
  refine result_conditional ?_ h e
  cases cp15Sel opc1 crn crm opc2 with
  | none => exact completes_undefined
  | some r =>
    exact completes_get fun _ => completes_undefinedIf fun _ => completes_undefinedIf fun _ =>
      completes_bind (keeps_underway_readCp15 r) fun _ => completes_receive _ _

/-- MCR gets past its checks just with a register that User mode may write (40_system_register_access.md R434). -/
theorem result_execMcrP15 {c : Cond} {opc1 : BitVec 3} {crn : BitVec 4} {rt : Reg} {opc2 : BitVec 3} {crm : BitVec 4}
    (e : execMcrP15 c opc1 crn rt opc2 crm u = .next t) : UserResult s t := by
  refine result_conditional ?_ h e
  cases cp15Sel opc1 crn crm opc2 with
  | none => exact completes_undefined
  | some r =>
    refine completes_get_of fun v hv => completes_undefinedIf fun hwritable => completes_undefinedIf fun _ =>
      completes_bind (keeps_notPc rt) fun _ => completes_advance (keeps_underway_writeCp15 (t := v) ?_ _)
    rw [hv.user] at hwritable
    simpa using hwritable

theorem result_execMrcP14 {c : Cond} {opc1 : BitVec 3} {crn : BitVec 4} {rt : Reg} {opc2 : BitVec 3} {crm : BitVec 4}
    (e : execMrcP14 c opc1 crn rt opc2 crm u = .next t) : UserResult s t := by
  refine result_conditional ?_ h e
  cases cp14Sel opc1 crn crm opc2 with
  | none => exact completes_undefined
  | some r =>
    exact completes_get fun _ => completes_undefinedIf fun _ => completes_bind (keeps_underway_readDebug r) fun _ =>
      completes_receive _ _

/-- User mode writes no debug register over CP14: those it may use are read-only (64_debug_pmu.md R746). -/
theorem result_execMcrP14 {c : Cond} {opc1 : BitVec 3} {crn : BitVec 4} {rt : Reg} {opc2 : BitVec 3} {crm : BitVec 4}
    (e : execMcrP14 c opc1 crn rt opc2 crm u = .next t) : UserResult s t := by
  refine result_conditional ?_ h e
  cases cp14Sel opc1 crn crm opc2 with
  | none => exact completes_undefined
  | some r =>
    refine completes_get_of fun v hv => completes_undefinedIf fun hperm => completes_undefinedIf fun hwrite => ?_
    rw [debugPermitted, hv.user] at hperm
    cases r <;> simp [DebugReg.userRow, DebugReg.readOnly] at hperm hwrite

theorem result_execVmrs {c : Cond} {reg : BitVec 4} {rt : Reg} (e : execVmrs c reg rt u = .next t) : UserResult s t :=
  result_conditional (completes_bind (keeps_fpuRegAccess reg) fun _ => completes_bind (keeps_refuseIf _ _) fun _ =>
    completes_get fun _ => completes_receive _ _) h e

theorem result_execVmsr {c : Cond} {reg : BitVec 4} {rt : Reg} (e : execVmsr c reg rt u = .next t) : UserResult s t := by
  have hwrite (v : Word) : Keeps (Underway s) (modify (writeFpuReg .fpscr v)) := fun _ k => k.setFpu rfl
  exact result_conditional (completes_fpuRegAccess reg (completes_bind (keeps_notPc rt) fun _ => completes_get fun _ =>
    completes_advance (hwrite _))) h e

theorem result_execSvc {c : Cond} {imm24 : BitVec 24} (e : execSvc c imm24 u = .next t) : UserResult s t := by
  unfold execSvc at e
  split at e
  · exact (entered_next e).1 ▸ h.plainEntry (by decide)
  · exact result_conditional completes_fallThrough h e

theorem result_execBkpt {imm12 : BitVec 12} {imm4 : BitVec 4} (e : execBkpt imm12 imm4 u = .next t) : UserResult s t :=
  have hdrew : Underway s { u with free := u.free + 1 } := h.accessPmu (accessStep_draw u _) fun _ hp => hp
  (entered_next e).1 ▸ hdrew.prefetchAbort _ _

/-- User mode has no SPSR to store (42_a32_core_subset.md R1006). -/
theorem result_execSrs {p v w : Bool} {mode : BitVec 5} (e : execSrs p v w mode u = .next t) : UserResult s t :=
  result_always completes_readSpsr h e

/-! ### Instructions of the VFP space with a body of their own -/

theorem result_execVmovImm {c : Cond} {d : Bool} {imm4H vd : BitVec 4} {sz sbz sbz1 : Bool} {imm4L : BitVec 4}
    (e : execVmovImm c d imm4H vd sz sbz sbz1 imm4L u = .next t) : UserResult s t :=
  result_conditional (completes_bind (keeps_underway_checkData _ _) fun _ => completes_refuseIf fun _ =>
    completes_advance (keeps_underway_writeFp _ _ _ _)) h e

theorem result_execVcmpReg {c : Cond} {d : Bool} {vd : BitVec 4} {sz signal m : Bool} {vm : BitVec 4}
    (e : execVcmpReg c d vd sz signal m vm u = .next t) : UserResult s t :=
  result_conditional (completes_bind (keeps_underway_checkData _ _) fun _ => completes_bind (keeps_readFp _ _ _) fun _ =>
    completes_bind (keeps_readFp _ _ _) fun _ => completes_bind (keeps_underway_runFp _) fun _ =>
      completes_advance (keeps_underway_setFpscrFlags _)) h e

theorem result_execVcmpZero {c : Cond} {d : Bool} {vd : BitVec 4} {sz signal sbz : Bool} {sbz1 : BitVec 4}
    (e : execVcmpZero c d vd sz signal sbz sbz1 u = .next t) : UserResult s t :=
  result_conditional (completes_bind (keeps_underway_checkData _ _) fun _ => completes_refuseIf fun _ =>
    completes_bind (keeps_readFp _ _ _) fun _ => completes_bind (keeps_underway_runFp _) fun _ =>
      completes_advance (keeps_underway_setFpscrFlags _)) h e

theorem result_execVcvtDoubleSingle {c : Cond} {d : Bool} {vd : BitVec 4} {sz m : Bool} {vm : BitVec 4}
    (e : execVcvtDoubleSingle c d vd sz m vm u = .next t) : UserResult s t :=
  result_conditional (completes_bind (keeps_underway_checkData _ _) fun _ => completes_bind (keeps_readFp _ _ _) fun _ =>
    completes_result _ _ _ _) h e

theorem result_execVcvtIntToFp {c : Cond} {d : Bool} {vd : BitVec 4} {sz op m : Bool} {vm : BitVec 4}
    (e : execVcvtIntToFp c d vd sz op m vm u = .next t) : UserResult s t :=
  result_conditional (completes_bind (keeps_underway_checkData _ _) fun _ => completes_bind (keeps_readFp _ _ _) fun _ =>
    completes_result _ _ _ _) h e

theorem result_execVcvtFpToInt {c : Cond} {d sgn : Bool} {vd : BitVec 4} {sz op m : Bool} {vm : BitVec 4}
    (e : execVcvtFpToInt c d sgn vd sz op m vm u = .next t) : UserResult s t :=
  result_conditional (completes_bind (keeps_underway_checkData _ _) fun _ => completes_bind (keeps_readFp _ _ _) fun _ =>
    completes_bind (keeps_underway_runFp _) fun _ => completes_advance (keeps_underway_writeFp _ _ _ _)) h e

theorem result_execVcvtFixed {c : Cond} {d op v : Bool} {vd : BitVec 4} {sf sx i : Bool} {imm4 : BitVec 4}
    (e : execVcvtFixed c d op v vd sf sx i imm4 u = .next t) : UserResult s t :=
  result_conditional (completes_bind (keeps_underway_checkData _ _) fun _ => completes_refuseIf fun _ =>
    completes_bind (keeps_readFp _ _ _) fun _ => completes_ite
      (completes_bind (keeps_underway_runFp _) fun _ => completes_bind (keeps_pure _) fun _ =>
        completes_advance (keeps_underway_writeFp _ _ _ _))
      (completes_result _ _ _ _)) h e

theorem result_execVcvtbVcvtt {c : Cond} {d op : Bool} {vd : BitVec 4} {top m : Bool} {vm : BitVec 4}
    (e : execVcvtbVcvtt c d op vd top m vm u = .next t) : UserResult s t :=
  result_conditional (completes_bind (keeps_underway_checkData _ _) fun _ => completes_get fun _ => completes_ite
    (completes_bind (keeps_underway_runFp _) fun _ => completes_advance (keeps_modify fun _ k => k.setSingle _ _))
    (completes_result _ _ _ _)) h e

theorem result_execVldr {c : Cond} {v d : Bool} {rn : Reg} {vd : BitVec 4} {sz : Bool} {imm8 : BitVec 8}
    (e : execVldr c v d rn vd sz imm8 u = .next t) : UserResult s t :=
  result_conditional (completes_bind (keeps_checkTransfer _) fun _ => completes_get fun _ =>
    completes_bind (keeps_underway_loadFp _ _ _ _) fun _ => completes_advance (keeps_underway_writeFp _ _ _ _)) h e

theorem result_execVstr {c : Cond} {v d : Bool} {rn : Reg} {vd : BitVec 4} {sz : Bool} {imm8 : BitVec 8}
    (e : execVstr c v d rn vd sz imm8 u = .next t) : UserResult s t :=
  result_conditional (completes_bind (keeps_checkTransfer _) fun _ => completes_get fun _ =>
    completes_bind (keeps_readFp _ _ _) fun _ => completes_advance (keeps_underway_storeFp _ _ _ _ _)) h e

theorem result_execVmovCoreSingle {c : Cond} {l : Bool} {vn : BitVec 4} {rt : Reg} {n : Bool} {sbz : BitVec 2}
    {sbz1 : BitVec 4} (e : execVmovCoreSingle c l vn rt n sbz sbz1 u = .next t) : UserResult s t :=
  result_conditional (completes_bind (keeps_checkTransfer _) fun _ => completes_refuseIf fun _ =>
    completes_bind (keeps_notPcVfp rt) fun _ => completes_get fun _ => completes_ite (completes_writeReg _ _)
      (completes_advance (keeps_modify fun _ k => k.setSingle _ _))) h e

theorem result_execVmovCoreTwoSingles {c : Cond} {l : Bool} {rt2 rt : Reg} {m : Bool} {vm : BitVec 4}
    (e : execVmovCoreTwoSingles c l rt2 rt m vm u = .next t) : UserResult s t :=
  result_conditional (completes_bind (keeps_checkTransfer _) fun _ => completes_refuseIf fun _ =>
    completes_bind (keeps_notPcVfp rt) fun _ => completes_bind (keeps_notPcVfp rt2) fun _ => completes_get fun _ =>
      completes_ite (completes_bind (keeps_underway_writeReg _ _) fun _ => completes_writeReg _ _)
        (completes_advance (keeps_modify fun _ k => (k.setSingle _ _).setSingle _ _))) h e

theorem result_execVmovCoreDouble {c : Cond} {l : Bool} {rt2 rt : Reg} {m : Bool} {vm : BitVec 4}
    (e : execVmovCoreDouble c l rt2 rt m vm u = .next t) : UserResult s t :=
  result_conditional (completes_bind (keeps_checkTransfer _) fun _ => completes_refuseIf fun _ =>
    completes_bind (keeps_notPcVfp rt) fun _ => completes_bind (keeps_notPcVfp rt2) fun _ => completes_get fun _ =>
      completes_ite (completes_bind (keeps_underway_writeReg _ _) fun _ => completes_writeReg _ _)
        (completes_advance (keeps_modify fun _ k => k.setDouble _ _))) h e

theorem result_execVmovCoreToHalf {c : Cond} {x : Bool} {vd : BitVec 4} {rt : Reg} {d : Bool} {sbz : BitVec 4}
    (e : execVmovCoreToHalf c x vd rt d sbz u = .next t) : UserResult s t :=
  result_conditional (completes_bind (keeps_checkTransfer _) fun _ => completes_refuseIf fun _ =>
    completes_bind (keeps_notPcVfp rt) fun _ => completes_advance (keeps_modify fun _ k => k.setDouble _ _)) h e

theorem result_execVmovHalfToCore {c : Cond} {x : Bool} {vn : BitVec 4} {rt : Reg} {n : Bool} {sbz : BitVec 4}
    (e : execVmovHalfToCore c x vn rt n sbz u = .next t) : UserResult s t :=
  result_conditional (completes_bind (keeps_checkTransfer _) fun _ => completes_refuseIf fun _ =>
    completes_bind (keeps_notPcVfp rt) fun _ => completes_get fun _ => completes_writeReg _ _) h e

end
end
end Sys2Proof.Machine

/-!
# A step from User mode

Every instruction, the hardware beside the processor, and what the processor does between instructions (60_exceptions.md R561,
R562).
-/

namespace Sys2Proof.Machine

/-! ### Every instruction -/

section

variable {s u : State} (h : Underway s u)
include h

theorem Underway.waitForInterrupt : Underway s (waitForInterrupt u) := by
  unfold Machine.waitForInterrupt
  split
  · exact h
  · exact h.setStandby _ _ _

theorem Underway.waitForEvent : Underway s (waitForEvent u) := by
  unfold Machine.waitForEvent
  split
  · exact h.setStandby _ _ _
  split
  · exact h
  · exact h.setStandby _ _ _

end

theorem result_exec {s u t : State} (h : Underway s u) {i : Instr} (e : exec i u = .next t) : UserResult s t := by
  cases i
  -- hints, preloads, barriers, and what has no meaning or raises an exception
  case nop | yield | hintUnallocated => exact result_conditional completes_fallThrough h e
  case dmb | pldImm | pldwImm | pliImm | pldReg | pldwReg | pliReg => exact result_always completes_fallThrough h e
  case smc | udf | otherCoproc => exact result_conditional completes_undefined h e
  case advSimdDataProcessing | advSimdLoadStore | coprocTwoSpace => exact result_always completes_undefined h e
  case blxImm | restOfUnconditional => exact result_always (completes_refuse _) h e
  case svc c imm24 => exact result_execSvc (imm24 := imm24) h e
  case bkpt imm12 imm4 => exact result_execBkpt (imm12 := imm12) (imm4 := imm4) h e
  case clrex => exact result_always (completes_advance (keeps_underway_setMonitor _)) h e
  case dsb => exact result_always (completes_advance
      ((accesses_modify accessStep_completeAccesses).keeps_underway fun _ _ hp => hp)) h e
  case isb => exact result_always (completes_advance
      ((accesses_modify accessStep_synchronise).keeps_underway fun _ _ hp => hp)) h e
  case wfe => exact result_conditional (completes_advance (keeps_modify fun _ => Underway.waitForEvent)) h e
  case wfi => exact result_conditional (completes_advance (keeps_modify fun _ => Underway.waitForInterrupt)) h e
  case sev => exact result_conditional (completes_advance (keeps_modify fun _ k => k.setStandby _ _ _)) h e
  -- status registers and modes
  case setend => exact result_execSetend h e
  case cps => exact result_execCps h e
  case rfe => exact result_execRfe h e
  case srs => exact result_execSrs h e
  case mrs => exact result_execMrs h e
  case msrImm => exact result_conditional (completes_moveToStatus _ _ _) h e
  case msrReg => exact result_conditional (completes_bind (keeps_notPc _) fun _ => completes_bind (keeps_readReg _) fun _ =>
      completes_moveToStatus _ _ _) h e
  -- branches
  case b => exact result_conditional (completes_get fun _ => completes_of_ends (ends_branchWritePc _)) h e
  case bl => exact result_conditional (completes_get fun _ => completes_writeThen _ _ (ends_branchWritePc _)) h e
  case bx => exact result_conditional (completes_bind (keeps_notPc _) fun _ => completes_bind (keeps_readReg _) fun _ =>
      completes_of_ends (ends_bxWritePc _)) h e
  case blxReg => exact result_execBlxReg h e
  -- data processing
  case andImm | eorImm | orrImm | bicImm =>
    refine result_conditional (completes_immForm (fun _ => ?_) _ _) h e
    exact completes_bind (keeps_readReg _) fun _ => completes_logical _ _ _ _
  case andReg | eorReg | orrReg | bicReg =>
    refine result_conditional (completes_regForm (fun _ => ?_) _ _ _) h e
    exact completes_bind (keeps_readReg _) fun _ => completes_logical _ _ _ _
  case andRsr | eorRsr | orrRsr | bicRsr =>
    refine result_conditional (completes_rsrFormThree (fun _ => ?_) _ _ _ _ _) h e
    exact completes_bind (keeps_readReg _) fun _ => completes_logical _ _ _ _
  case subImm | rsbImm | addImm =>
    refine result_conditional (completes_immForm (fun _ => ?_) _ _) h e
    exact completes_bind (keeps_readReg _) fun _ => completes_arithmetic _ _ _
  case subReg | rsbReg | addReg =>
    refine result_conditional (completes_regForm (fun _ => ?_) _ _ _) h e
    exact completes_bind (keeps_readReg _) fun _ => completes_arithmetic _ _ _
  case subRsr | rsbRsr | addRsr =>
    refine result_conditional (completes_rsrFormThree (fun _ => ?_) _ _ _ _ _) h e
    exact completes_bind (keeps_readReg _) fun _ => completes_arithmetic _ _ _
  case adcImm | sbcImm | rscImm =>
    refine result_conditional (completes_immForm (fun _ => ?_) _ _) h e
    exact completes_bind (keeps_readReg _) fun _ => completes_get fun _ => completes_arithmetic _ _ _
  case adcReg | sbcReg | rscReg =>
    refine result_conditional (completes_regForm (fun _ => ?_) _ _ _) h e
    exact completes_bind (keeps_readReg _) fun _ => completes_get fun _ => completes_arithmetic _ _ _
  case adcRsr | sbcRsr | rscRsr =>
    refine result_conditional (completes_rsrFormThree (fun _ => ?_) _ _ _ _ _) h e
    exact completes_bind (keeps_readReg _) fun _ => completes_get fun _ => completes_arithmetic _ _ _
  case tstImm | teqImm =>
    refine result_conditional (completes_sbz _ (completes_immForm (fun _ => ?_) _ _)) h e
    exact completes_bind (keeps_readReg _) fun _ => completes_logicalTest _ _
  case tstReg | teqReg =>
    refine result_conditional (completes_sbz _ (completes_regForm (fun _ => ?_) _ _ _)) h e
    exact completes_bind (keeps_readReg _) fun _ => completes_logicalTest _ _
  case tstRsr | teqRsr =>
    refine result_conditional (completes_sbz _ (completes_rsrForm (fun _ => ?_) _ _ _ _)) h e
    exact completes_bind (keeps_readReg _) fun _ => completes_logicalTest _ _
  case cmpImm | cmnImm =>
    refine result_conditional (completes_sbz _ (completes_immForm (fun _ => ?_) _ _)) h e
    exact completes_bind (keeps_readReg _) fun _ => completes_arithmeticTest _
  case cmpReg | cmnReg =>
    refine result_conditional (completes_sbz _ (completes_regForm (fun _ => ?_) _ _ _)) h e
    exact completes_bind (keeps_readReg _) fun _ => completes_arithmeticTest _
  case cmpRsr | cmnRsr =>
    refine result_conditional (completes_sbz _ (completes_rsrForm (fun _ => ?_) _ _ _ _)) h e
    exact completes_bind (keeps_readReg _) fun _ => completes_arithmeticTest _
  case movImm | mvnImm =>
    exact result_conditional (completes_sbz _ (completes_immForm (fun _ => completes_logical _ _ _ _) _ _)) h e
  case mvnReg => exact result_conditional (completes_sbz _ (completes_regForm (fun _ => completes_logical _ _ _ _) _ _ _)) h e
  case mvnRsr => exact result_conditional (completes_sbz _ (completes_rsrForm (fun _ => completes_logical _ _ _ _) _ _ _ _)) h e
  case movReg | rrx | lslImm | lsrImm | asrImm | rorImm =>
    exact result_conditional (completes_regForm (fun _ => completes_logical _ _ _ _) _ _ _) h e
  case lslReg | lsrReg | asrReg | rorReg =>
    exact result_conditional (completes_rsrForm (fun _ => completes_logical _ _ _ _) _ _ _ _) h e
  -- wide moves, bit fields, reversals, extensions
  case movw => exact result_conditional (completes_bind (keeps_notPc _) fun _ => completes_writeReg _ _) h e
  case movt => exact result_conditional (completes_bind (keeps_notPc _) fun _ => completes_bind (keeps_readReg _) fun _ =>
      completes_writeReg _ _) h e
  case clz | rev | rev16 | revsh | rbit | uxtb | uxth | sxtb | sxth => exact result_conditional (completes_unary _ _ _) h e
  case ubfx | sbfx =>
    exact result_conditional (completes_bind (keeps_refuseIf _ _) fun _ => completes_unary _ _ _) h e
  case bfi => exact result_execBfi h e
  case bfc => exact result_execBfc h e
  -- multiplies and divisions
  case mul => exact result_execMul h e
  case mla => exact result_execMla h e
  case mls => exact result_execMls h e
  case umull | smull => exact result_conditional (completes_bind (keeps_wideChecks _ _ _ _) fun _ =>
      completes_bind (keeps_readReg _) fun _ => completes_bind (keeps_readReg _) fun _ => completes_wideResult _ _ _ _) h e
  case umlal | smlal => exact result_conditional (completes_bind (keeps_wideChecks _ _ _ _) fun _ =>
      completes_bind (keeps_readReg _) fun _ => completes_bind (keeps_readReg _) fun _ => completes_bind (keeps_readReg _) fun _ =>
        completes_bind (keeps_readReg _) fun _ => completes_wideResult _ _ _ _) h e
  case sdiv | udiv => exact result_conditional (completes_divide _ _ _ _) h e
  -- loads and stores
  case ldrImm => exact result_conditional (completes_loadWord _ _ _ _ _ _) h e
  case ldrReg => exact result_conditional (completes_bind (keeps_registerOffset _ _ _) fun _ => completes_loadWord _ _ _ _ _ _) h e
  case ldrbImm | ldrhImm | ldrsbImm | ldrshImm => exact result_conditional (completes_loadInto _ _ _ _ _ _ _ _) h e
  case ldrbReg => exact result_conditional (completes_bind (keeps_registerOffset _ _ _) fun _ =>
      completes_loadInto _ _ _ _ _ _ _ _) h e
  case ldrhReg | ldrsbReg | ldrshReg => exact result_conditional (completes_bind (keeps_plainOffset _) fun _ =>
      completes_loadInto _ _ _ _ _ _ _ _) h e
  case strImm => exact result_conditional (completes_storeFrom _ _ _ _ _ _ _) h e
  case strReg => exact result_conditional (completes_bind (keeps_registerOffset _ _ _) fun _ =>
      completes_storeFrom _ _ _ _ _ _ _) h e
  case strbImm | strhImm => exact result_conditional (completes_bind (keeps_notPc _) fun _ => completes_storeFrom _ _ _ _ _ _ _) h e
  case strbReg => exact result_conditional (completes_bind (keeps_notPc _) fun _ => completes_bind (keeps_registerOffset _ _ _) fun _ =>
      completes_storeFrom _ _ _ _ _ _ _) h e
  case strhReg => exact result_conditional (completes_bind (keeps_notPc _) fun _ => completes_bind (keeps_plainOffset _) fun _ =>
      completes_storeFrom _ _ _ _ _ _ _) h e
  case ldrdImm => exact result_conditional (completes_loadDouble _ _ _ _ _ _) h e
  case ldrdReg => exact result_conditional (completes_bind (keeps_plainOffset _) fun _ => completes_loadDouble _ _ _ _ _ _) h e
  case strdImm => exact result_conditional (completes_storeDouble _ _ _ _ _ _) h e
  case strdReg => exact result_conditional (completes_bind (keeps_plainOffset _) fun _ => completes_storeDouble _ _ _ _ _ _) h e
  case ldm | pop => exact result_conditional (completes_loadMultiple _ _ _ _ _ _) h e
  case stm | push => exact result_conditional (completes_storeMultiple _ _ _ _ _ _) h e
  case ldrex | ldrexb | ldrexh => exact result_conditional (completes_loadExclusive _ _ _) h e
  case strex | strexb | strexh => exact result_conditional (completes_storeExclusiveFrom _ _ _ _) h e
  case ldrexd => exact result_execLdrexd h e
  case strexd => exact result_execStrexd h e
  case swp | swpb => exact result_conditional (completes_swap _ _ _ _) h e
  -- coprocessors 15 and 14
  case mrcP15 => exact result_execMrcP15 h e
  case mcrP15 => exact result_execMcrP15 h e
  case mrcP14 => exact result_execMrcP14 h e
  case mcrP14 => exact result_execMcrP14 h e
  -- VFP
  case vmrs => exact result_execVmrs h e
  case vmsr => exact result_execVmsr h e
  case vmrsVmsrSbz => exact result_conditional (completes_bind keeps_vfpOn fun _ => completes_refuse _) h e
  case vfpUnallocated => exact result_conditional (completes_bind keeps_vfpOn fun _ => completes_undefined) h e
  case vadd | vsub | vmul | vdiv | vnmul | vmla | vmls | vnmla | vnmls =>
    exact result_conditional (completes_vfpThree _ _ _ _ _ _ _ _) h e
  case vmovReg | vabs | vneg | vsqrt => exact result_conditional (completes_vfpTwo _ _ _ _ _ _) h e
  case vmovImm => exact result_execVmovImm h e
  case vcmpReg => exact result_execVcmpReg h e
  case vcmpZero => exact result_execVcmpZero h e
  case vcvtDoubleSingle => exact result_execVcvtDoubleSingle h e
  case vcvtIntToFp => exact result_execVcvtIntToFp h e
  case vcvtFpToInt => exact result_execVcvtFpToInt h e
  case vcvtFixed => exact result_execVcvtFixed h e
  case vcvtbVcvtt => exact result_execVcvtbVcvtt h e
  case vldr => exact result_execVldr h e
  case vstr => exact result_execVstr h e
  case vldmIa | vldmDb | vpop => exact result_conditional (completes_vfpLoadMultiple _ _ _ _ _ _ _) h e
  case vstmIa | vstmDb | vpush => exact result_conditional (completes_vfpStoreMultiple _ _ _ _ _ _ _) h e
  case vmovCoreSingle => exact result_execVmovCoreSingle h e
  case vmovCoreTwoSingles => exact result_execVmovCoreTwoSingles h e
  case vmovCoreDouble => exact result_execVmovCoreDouble h e
  case vmovCoreToHalf => exact result_execVmovCoreToHalf h e
  case vmovHalfToCore => exact result_execVmovHalfToCore h e

/-! ### What the hardware beside the processor leaves alone -/

section

variable {p : Pmu} {s : State}

theorem pmuIs_raisePpi (id : Nat) (h : PmuIs p s) : PmuIs p (raisePpi id s) := by
  unfold raisePpi
  split <;> exact h

theorem pmuIs_timerTick (h : PmuIs p s) : PmuIs p (timerTick s) := by
  unfold timerTick
  dsimp only
  split
  · split
    · split
      · exact pmuIs_raisePpi 29 (pmuIs_timers h _)
      · exact h
    · exact h
  split <;> exact h

theorem pmuIs_watchdogTick (h : PmuIs p s) : PmuIs p (watchdogTick s) := by
  unfold watchdogTick
  dsimp only
  split
  · split
    · split
      · exact h
      split
      · exact pmuIs_raisePpi 30 (pmuIs_timers h _)
      · exact h
    · exact h
  split <;> exact h

theorem pmuIs_timerEdge (h : PmuIs p s) : PmuIs p (timerEdge s) := by
  unfold timerEdge
  split
  · exact h
  split
  · exact pmuIs_timerTick (pmuIs_timers h _)
  · exact h

theorem pmuIs_watchdogEdge (h : PmuIs p s) : PmuIs p (watchdogEdge s) := by
  unfold watchdogEdge
  split
  · exact h
  split
  · exact pmuIs_watchdogTick (pmuIs_timers h _)
  · exact h

theorem pmuIs_globalEdge (h : PmuIs p s) : PmuIs p (globalEdge s) := by
  unfold globalEdge
  split
  · exact h
  split <;> exact h

theorem pmuIs_timerStage (h : PmuIs p s) : PmuIs p (timerStage s) := by
  unfold timerStage
  split
  · exact pmuIs_times (fun k => pmuIs_globalEdge (pmuIs_watchdogEdge (pmuIs_timerEdge k))) _
      (s := { s with free := s.free + 1 }) h
  · exact h

theorem pmuIs_sampleInputs (h : PmuIs p s) : PmuIs p (sampleInputs s) := by
  unfold sampleInputs
  split <;> exact h

end

section

variable {s u : State}

/-- The counters run, and who may use the PMU and which of its interrupts are enabled stay. -/
theorem pmuStage_keeps (u : State) :
    (pmuStage u).pmu.userenr = u.pmu.userenr ∧ (pmuStage u).pmu.inten = u.pmu.inten := by
  unfold pmuStage
  split
  · refine List.foldlRecOn (motive := fun v : State => v.pmu.userenr = u.pmu.userenr ∧ v.pmu.inten = u.pmu.inten) _ _ ?_
      fun v hv n _ => ?_
    · split <;> exact ⟨rfl, rfl⟩
    · unfold advanceEvent
      split <;> exact hv
  · exact ⟨rfl, rfl⟩

theorem Underway.sampleEvent (h : Underway s u) : Underway s (sampleEvent u) := by
  unfold Machine.sampleEvent
  split
  · exact h.setStandby _ _ _
  · exact h

theorem Underway.sampleWakeup (h : Underway s u) : Underway s (sampleWakeup u) := by
  unfold Machine.sampleWakeup
  split
  · exact h.setStandby _ _ _
  · exact h

theorem Underway.hardwareStage (h : Underway s u) : Underway s (hardwareStage u) :=
  have hevent := (h.setStandby _ _ _ : Underway s (clearPulses u)).sampleEvent
  have htimers := hevent.accessPmu (accessStep_timerStage _) fun _ => pmuIs_timerStage
  have hinputs := htimers.accessPmu (accessStep_sampleInputs _) fun _ => pmuIs_sampleInputs
  have hcounters := hinputs.sampleWakeup.access (accessStep_pmuStage _) fun _ => pmuStage_keeps _
  hcounters.accessPmu (accessStep_engineStage _) fun _ => pmuIs_engineStage

end

/-! ### A step from User mode -/

/-- An interrupt is an FIQ or an IRQ, no abort. -/
theorem readyInterrupt_ne_dataAbort {u : State} {e : Exc} (he : readyInterrupt u = some e) : e ≠ .dataAbort := by
  rintro rfl
  unfold readyInterrupt at he
  split at he
  · cases he
  split at he <;> cases he

section

variable {s u t : State} (h : Underway s u)
include h

theorem Underway.wait : Confined s (wait u) := by
  unfold Machine.wait
  cases u.standby with
  | running => exact h.toConfined
  | wfi | halted =>
    dsimp only
    split
    · exact (h.setStandby _ _ _).toConfined
    · exact h.toConfined
  | wfe =>
    dsimp only
    split
    · exact (h.setStandby _ _ _).toConfined
    split
    · exact (h.setStandby _ _ _).toConfined
    · exact h.toConfined

theorem result_runWord {w : Word} (e : runWord w u = .next t) : UserResult s t := by
  unfold runWord at e
  split at e
  · exact result_exec h e
  split at e
  · cases e
  · exact result_of_finish (completes_fallThrough u h) e

theorem result_runNext (e : runNext u = .next t) : UserResult s t := by
  have hf := (accesses_fetchWord u.pc).keeps_underway (fun _ => keeps_pmu_fetchWord u.pc) u h
  unfold runNext at e
  split at e
  · cases e
  split at e
  · cases e
  cases he : fetchWord u.pc u with
  | error x v =>
    rw [he] at e hf
    exact result_of_finish (r := .error x v) (fun _ => hf) e
  | ok r v =>
    rw [he] at e hf
    cases r with
    | error f => exact (entered_next e).1 ▸ hf.prefetchAbort f u.pc
    | ok w => exact result_runWord hf e

theorem result_goOn (e : goOn u = .next t) : UserResult s t := by
  cases ha : takeAbort u with
  | none =>
    rw [goOn_runs ha] at e
    exact result_runNext h e
  | some v =>
    rw [goOn_abort ha] at e
    obtain ⟨x, rfl⟩ := takeAbort_some ha
    exact (entered_next e).1 ▸ h.asyncAbort x

theorem result_proceed (e : proceed u = .next t) : UserResult s t := by
  have hdrew : Underway s { u with free := u.free + 1 } := h.accessPmu (accessStep_draw u _) fun _ hp => hp
  by_cases hrun : u.standby = .running
  · cases hready : readyInterrupt u with
    | none =>
      rw [proceed_goesOn hrun hready] at e
      exact result_goOn h e
    | some x =>
      rcases proceed_ready hrun hready with hp | hp
      · rw [hp] at e
        exact (entered_next e).1 ▸ hdrew.plainEntry (readyInterrupt_ne_dataAbort hready)
      · rw [hp] at e
        exact result_goOn hdrew e
  · rw [proceed_standby hrun] at e
    cases e
    exact h.wait.result

end

/-- Settles O7: the hardware beside the processor leaves an instruction's start `Underway`, and whatever the processor then
does, standby, an entry or an instruction, ends in a `UserResult`. -/
theorem userModeChangesNoControl : Obligations.UserModeChangesNoControl := by
  intro s t huser hreset hstep
  rw [step_proceeds hreset] at hstep
  obtain ⟨⟨-, hcontrol, henable, hpmu⟩, hends⟩ := result_proceed (Underway.refl huser).hardwareStage hstep
  have hfield {α : Type} (f : Cp15 → α) : f (controlOf t.cp15) = f (controlOf s.cp15) := congrArg f hcontrol
  exact ⟨hfield Cp15.sctlr, hfield Cp15.actlr, hfield Cp15.cpacr, hfield Cp15.csselr, hfield Cp15.pcr, hfield Cp15.rgnr,
    hfield Cp15.drbar, hfield Cp15.drsr, hfield Cp15.dracr, hfield Cp15.itcmrr, hfield Cp15.dtcmrr, hfield Cp15.contextidr,
    hfield Cp15.tpidruro, hfield Cp15.tpidrprw, henable, hpmu, hends⟩

end Sys2Proof.Machine

/-!
# The Snoop Control Unit

An entry of the duplicate tag RAM is named by the bits of an operation that select it (`scuEntryOf_eq_iff`), and holds the bits of a
value that its data cache size uses (`scuRead_writtenTag`). The port of an access is `portOf`, case by case. A word access to the
region at PERIPHBASE goes through to the block that has its offset (`InPrivateRegion`, `ReadsBlock`, `WritesBlock`).
-/

namespace Sys2Proof.Machine

/-! ### The duplicate tag RAM -/

/-- Words agree under a mask when they agree in each bit that the mask has. -/
theorem and_eq_and_iff {x y m : Word} : x &&& m = y &&& m ↔ ∀ i < 32, m.getLsbD i = true → x.getLsbD i = y.getLsbD i := by
  refine ⟨fun h i _ hm => ?_, fun h => BitVec.eq_of_getLsbD_eq fun i hi => ?_⟩
  · have hbit := congrArg (BitVec.getLsbD · i) h
    simpa only [BitVec.getLsbD_and, hm, Bool.and_true] using hbit
  · rw [BitVec.getLsbD_and, BitVec.getLsbD_and]
    cases hm : m.getLsbD i with
    | false => rw [Bool.and_false, Bool.and_false]
    | true => rw [h i hi hm]

/-- A field of two words is the same when its bits are. -/
theorem extractLsb'_eq_iff {x y : Word} {first n : Nat} :
    x.extractLsb' first n = y.extractLsb' first n ↔ ∀ i, first ≤ i → i < first + n → x.getLsbD i = y.getLsbD i := by
  refine ⟨fun h i hlow hhigh => ?_, fun h => BitVec.eq_of_getLsbD_eq fun i hi => ?_⟩
  · have hbit := congrArg (BitVec.getLsbD · (i - first)) h
    simpa only [BitVec.getLsbD_extractLsb', show i - first < n by omega, decide_true, Bool.true_and,
      show first + (i - first) = i by omega] using hbit
  · rw [BitVec.getLsbD_extractLsb', BitVec.getLsbD_extractLsb', h (first + i) (by omega) (by omega)]

/-- The entry of the duplicate tag RAM that a debug tag RAM operation names (61_scu.md R600). -/
def scuEntryOf (op : Word) : Nat :=
  scuTagKey (op.extractLsb' 24 1).toNat (op.extractLsb' 30 2).toNat (op.extractLsb' 5 9).toNat

/-- The bits of an operation that name its entry: the way in [31:30], the processor in [24], the set in [13:5] (61_scu.md
R600). -/
theorem getLsbD_scuEntryMask {i : Nat} (hi : i < 32) :
    (0xC1003FE0 : Word).getLsbD i = true ↔ 24 ≤ i ∧ i < 24 + 1 ∨ 30 ≤ i ∧ i < 30 + 2 ∨ 5 ≤ i ∧ i < 5 + 9 := by
  revert i
  decide

/-- Operations name the same entry just when they select it alike. -/
theorem scuEntryOf_eq_iff {op op' : Word} : scuEntryOf op = scuEntryOf op' ↔ op &&& 0xC1003FE0 = op' &&& 0xC1003FE0 := by
  have hfields : scuEntryOf op = scuEntryOf op' ↔ op.extractLsb' 24 1 = op'.extractLsb' 24 1 ∧
      op.extractLsb' 30 2 = op'.extractLsb' 30 2 ∧ op.extractLsb' 5 9 = op'.extractLsb' 5 9 := by
    simp only [scuEntryOf, scuTagKey, ← BitVec.toNat_inj]
    have := (op.extractLsb' 30 2).isLt
    have := (op'.extractLsb' 30 2).isLt
    have := (op.extractLsb' 5 9).isLt
    have := (op'.extractLsb' 5 9).isLt
    omega
  rw [hfields, extractLsb'_eq_iff, extractLsb'_eq_iff, extractLsb'_eq_iff, and_eq_and_iff]
  constructor
  · rintro ⟨hcpu, hway, hset⟩ i hi hm
    obtain ⟨h, h'⟩ | ⟨h, h'⟩ | ⟨h, h'⟩ := (getLsbD_scuEntryMask hi).mp hm
    · exact hcpu i h h'
    · exact hway i h h'
    · exact hset i h h'
  · intro h
    have hbit (i : Nat) (hi : i < 32) hfield := h i hi ((getLsbD_scuEntryMask hi).mpr hfield)
    exact ⟨fun i hl hh => hbit i (by omega) (.inl ⟨hl, hh⟩), fun i hl hh => hbit i (by omega) (.inr (.inl ⟨hl, hh⟩)),
      fun i hl hh => hbit i (by omega) (.inr (.inr ⟨hl, hh⟩))⟩

/-- The Data Value register holds all that an entry of a processor of the build uses (61_scu.md R601). -/
theorem scuValueMask_covers (cfg : Config) {cpu : Bool} (h : cpu = true → cfg.twoCpus = true) :
    scuValueMask cfg &&& scuTagMask (dcacheOf cfg cpu) = scuTagMask (dcacheOf cfg cpu) := by
  apply BitVec.eq_of_getLsbD_eq
  intro i _
  rw [scuValueMask, BitVec.getLsbD_and, BitVec.getLsbD_or]
  cases cpu with
  | false => grind
  | true => rw [if_pos (h rfl)]; grind

/-- A tag written through the debug registers goes, as far as its entry uses it, to the entry that the operation names. -/
theorem tags_writtenTag {s : State} {v op : Word} (hwrite : op.getLsbD 0 = true)
    (hcpu : op.getLsbD 24 = true → s.cfg.twoCpus = true) :
    (scuWrite 0x70 op (scuWrite 0x74 v s)).scu.tags =
      sparseWrite s.scu.tags (scuEntryOf op) (v &&& scuTagMask (dcacheOf s.cfg (op.getLsbD 24))) := by
  show (scuTagOp op _).scu.tags = _
  unfold scuTagOp
  simp only [if_pos hwrite]
  show sparseWrite s.scu.tags (scuEntryOf op) (v &&& scuValueMask s.cfg &&& scuTagMask (dcacheOf s.cfg (op.getLsbD 24))) = _
  rw [BitVec.and_assoc, scuValueMask_covers s.cfg hcpu]

/-- A tag read through the debug registers is that of the entry that the operation names. -/
theorem scuRead_readTag {op : Word} (hread : op.getLsbD 0 = false) (s : State) :
    scuRead (scuWrite 0x70 op s) 0x74 = sparseRead s.scu.tags (scuEntryOf op) := by
  show (scuTagOp op s).scu.tagValue = _
  unfold scuTagOp
  simp only [hread, Bool.false_eq_true, if_false]
  rfl

/-- What a tag read through the debug registers gives after one was written: of the same entry the bits of the value that its data
cache size uses, of another what it gave before (61_scu.md R600, R601). -/
theorem scuRead_writtenTag {s t : State} {v op op' : Word} (hwf : sparseWf 0 s.scu.tags = true) (hwrite : op.getLsbD 0 = true)
    (hread : op'.getLsbD 0 = false) (hcpu : op.getLsbD 24 = true → s.cfg.twoCpus = true)
    (ht : t.scu.tags = (scuWrite 0x70 op (scuWrite 0x74 v s)).scu.tags) :
    scuRead (scuWrite 0x70 op' t) 0x74 = if op &&& 0xC1003FE0 = op' &&& 0xC1003FE0
      then v &&& scuTagMask (dcacheOf s.cfg (op.getLsbD 24)) else scuRead (scuWrite 0x70 op' s) 0x74 := by
  rw [scuRead_readTag hread, scuRead_readTag hread, ht, tags_writtenTag hwrite hcpu, sparseRead_write hwf]
  exact if_congr scuEntryOf_eq_iff rfl rfl

/-- A gated register ignores the write of a processor whose bit of the access register is clear (61_scu.md R596). -/
theorem scuWrite_gated {s : State} (h : scuAllowed s = false) (v : Word) {off : Nat}
    (hoff : off ∈ [0x00, 0x08, 0x0C, 0x60, 0x64]) : scuWrite off v s = s := by
  simp only [List.mem_cons, List.not_mem_nil, or_false] at hoff
  obtain rfl | rfl | rfl | rfl | rfl := hoff <;> simp [scuWrite, h]

/-! ### Ports -/

/-- A filter range is a range of megabytes. -/
theorem inFilter_iff {first last : BitVec 12} {a : Word} :
    inFilter first last a = true ↔ first.toNat ≤ a.toNat / 2 ^ 20 ∧ a.toNat / 2 ^ 20 ≤ last.toNat := by
  have htop : (a.extractLsb' 20 12).toNat = a.toNat / 2 ^ 20 := by
    rw [BitVec.extractLsb'_toNat, Nat.shiftRight_eq_div_pow]
    have := a.isLt
    omega
  rw [inFilter, htop, Bool.and_eq_true, decide_eq_true_eq, decide_eq_true_eq]

theorem inPeripheral_iff {cfg : Config} {a : Word} : inPeripheral cfg a = true ↔
    cfg.pfilterStart.toNat ≤ a.toNat / 2 ^ 20 ∧ a.toNat / 2 ^ 20 ≤ cfg.pfilterEnd.toNat := inFilter_iff

section

variable {s : State} {form : AccessForm} {a : Word}

theorem portOf_peripheral (h : inPeripheral s.cfg a = true) : portOf s form a = .peripheral := if_pos h

theorem portOf_onePort (hper : inPeripheral s.cfg a = false) (hport : s.cfg.axiMaster1 = false) :
    portOf s form a = .master0 := by
  simp [portOf, hper, hport]

/-- With the filtering of master port 1 on, its range decides, for locked and exclusive accesses too (20_memory.md R291). -/
theorem portOf_filtered (hper : inPeripheral s.cfg a = false) (hport : s.cfg.axiMaster1 = true)
    (hfilter : s.scu.ctrl.getLsbD 1 = true) :
    portOf s form a = if inFilter s.cfg.mfilterStart s.cfg.mfilterEnd a then .master1 else .master0 := by
  simp [portOf, hper, hport, hfilter]

/-- With the filtering of master port 1 off a locked or exclusive access is on port 0, and the hardware picks for any other. -/
theorem portOf_unfiltered (hper : inPeripheral s.cfg a = false) (hport : s.cfg.axiMaster1 = true)
    (hfilter : s.scu.ctrl.getLsbD 1 = false) :
    portOf s form a = if form != .locked && Config.freePort s.free a then .master1 else .master0 := by
  unfold portOf
  simp only [hper, hport, hfilter, Bool.not_true, Bool.false_eq_true, if_false]

theorem portOf_locked (hper : inPeripheral s.cfg a = false) (hfilter : s.scu.ctrl.getLsbD 1 = false) :
    portOf s .locked a = .master0 := by
  cases hport : s.cfg.axiMaster1 with
  | false => exact portOf_onePort hper hport
  | true => rw [portOf_unfiltered hper hport hfilter]; rfl

theorem portOf_ne_peripheral (hper : inPeripheral s.cfg a = false) : portOf s form a ≠ .peripheral := by
  cases hport : s.cfg.axiMaster1 with
  | false => rw [portOf_onePort hper hport]; decide
  | true =>
    cases hfilter : s.scu.ctrl.getLsbD 1 with
    | true => rw [portOf_filtered hper hport hfilter]; split <;> decide
    | false => rw [portOf_unfiltered hper hport hfilter]; split <;> decide

/-! ### Doubleword and multiple accesses to the peripheral port -/

variable {attr : Attr}

/-- A doubleword or multiple read in the peripheral-port range, outside the region at PERIPHBASE, stops whatever its
attributes. -/
theorem readRouted_peripheralMultiple (hclash : tcmClash s = false) (hi : inItcm s a = false) (hd : inDtcm s a = false)
    (hper : inPeripheral s.cfg a = true) (hpriv : inPrivate s.cfg a = false) (n : Nat) :
    readRouted a n attr .multiple s = .error (.refuse .peripheralMultiple) s := by
  have hbus : busRead a n attr .multiple s = .error (.refuse .peripheralMultiple) s := by simp [busRead, hpriv, hper]
  unfold readRouted
  simp only [hclash, hi, hd, throughCache_multiple attr hper, Bool.false_eq_true, if_false]
  exact (bind_ok (transferCheck_multiple hper)).trans hbus

/-- A doubleword or multiple write in the peripheral-port range, outside the region at PERIPHBASE, stops whatever its
attributes. -/
theorem writeRouted_peripheralMultiple (hclash : tcmClash s = false) (hi : inItcm s a = false) (hd : inDtcm s a = false)
    (hper : inPeripheral s.cfg a = true) (hpriv : inPrivate s.cfg a = false) (bs : List Byte) :
    writeRouted a bs attr .multiple s = .error (.refuse .peripheralMultiple) s := by
  have hbus : busWrite a bs attr .multiple s = .error (.refuse .peripheralMultiple) s := by simp [busWrite, hpriv, hper]
  unfold writeRouted
  simp only [hclash, hi, hd, throughCache_multiple attr hper, Bool.false_eq_true, if_false]
  exact (bind_ok (transferCheck_multiple hper)).trans hbus

end

/-! ### Words of the region at PERIPHBASE -/

/-- The word at an offset of the region at PERIPHBASE reads `w` from the block that has the offset, and the read leaves
`t`. -/
def ReadsBlock (s : State) (off : Nat) (w : Word) (t : State) : Prop :=
  (off < 0x100 ∧ w = scuRead s off ∧ t = s.accessed) ∨
  (0x100 ≤ off ∧ off < 0x200 ∧ iccRead (off - 0x100) s.accessed = .ok w t) ∨
  (0x200 ≤ off ∧ off < 0x300 ∧ w = globalRead s.timers (off - 0x200) ∧ t = s.accessed) ∨
  (0x600 ≤ off ∧ off < 0x700 ∧ w = privateTimerRead s.timers (off - 0x600) ∧ t = s.accessed) ∨
  (0x1000 ≤ off ∧ w = distRead s (off - 0x1000) ∧ t = s.accessed)

/-- A word written at an offset of the region at PERIPHBASE goes to the block that has the offset, which leaves `t`. -/
def WritesBlock (s : State) (off : Nat) (w : Word) (t : State) : Prop :=
  (off < 0x100 ∧ t = scuWrite off w s.accessed) ∨
  (0x100 ≤ off ∧ off < 0x200 ∧ iccWrite (off - 0x100) w s.accessed = .ok () t) ∨
  (0x200 ≤ off ∧ off < 0x300 ∧ t = { s.accessed with timers := globalWrite (off - 0x200) w s.timers }) ∨
  (0x600 ≤ off ∧ off < 0x700 ∧ t = { s.accessed with timers := privateTimerWrite (off - 0x600) w s.timers }) ∨
  (0x1000 ≤ off ∧ t = distWrite (off - 0x1000) w s.accessed)

/-- Every block accepts words (20_memory.md R302). -/
theorem privateSizeOk_word {off : Nat} (h : off < 0x300 ∨ 0x600 ≤ off ∧ off < 0x700 ∨ 0x1000 ≤ off) :
    privateSizeOk off 4 = true := by
  unfold privateSizeOk
  grind

section

variable {s t : State} {off : Nat} {w : Word}

theorem ReadsBlock.sizeOk (h : ReadsBlock s off w t) : privateSizeOk off 4 = true :=
  privateSizeOk_word (by unfold ReadsBlock at h; omega)

theorem WritesBlock.sizeOk (h : WritesBlock s off w t) : privateSizeOk off 4 = true :=
  privateSizeOk_word (by unfold WritesBlock at h; omega)

theorem ReadsBlock.privateReadWord_eq (h : ReadsBlock s off w t) : privateReadWord off s.accessed = .ok w t := by
  unfold ReadsBlock at h
  unfold privateReadWord
  obtain ⟨hoff, hw, ht⟩ | ⟨hlow, hoff, hread⟩ | ⟨hlow, hoff, hw, ht⟩ | ⟨hlow, hoff, hw, ht⟩ | ⟨hlow, hw, ht⟩ := h
  case inl => rw [if_pos hoff, hw, ht]; rfl
  case inr.inl => rw [if_neg (by omega), if_pos hoff, hread]
  case inr.inr.inl => rw [if_neg (by omega), if_neg (by omega), if_pos hoff, hw, ht]; rfl
  case inr.inr.inr.inl => rw [if_neg (by omega), if_neg (by omega), if_neg (by omega), if_pos (by omega), hw, ht]; rfl
  case inr.inr.inr.inr => rw [if_neg (by omega), if_neg (by omega), if_neg (by omega), if_neg (by omega), hw, ht]; rfl

theorem WritesBlock.privateWriteWord_eq (h : WritesBlock s off w t) : privateWriteWord off w s.accessed = .ok () t := by
  unfold WritesBlock at h
  unfold privateWriteWord
  obtain ⟨hoff, ht⟩ | ⟨hlow, hoff, hwrite⟩ | ⟨hlow, hoff, ht⟩ | ⟨hlow, hoff, ht⟩ | ⟨hlow, ht⟩ := h
  case inl => rw [if_pos hoff, ht]
  case inr.inl => rw [if_neg (by omega), if_pos hoff, hwrite]
  case inr.inr.inl => rw [if_neg (by omega), if_neg (by omega), if_pos hoff, ht]; rfl
  case inr.inr.inr.inl => rw [if_neg (by omega), if_neg (by omega), if_neg (by omega), if_pos (by omega), ht]; rfl
  case inr.inr.inr.inr => rw [if_neg (by omega), if_neg (by omega), if_neg (by omega), if_neg (by omega), ht]

end

/-- The word of four bytes. -/
theorem leWord_four (b0 b1 b2 b3 : Byte) : leWord [b0, b1, b2, b3] = wordOfBytes b0 b1 b2 b3 := by
  apply BitVec.eq_of_getLsbD_eq
  intro i hi
  rw [getLsbD_leWord _ hi]
  simp only [wordOfBytes, BitVec.getLsbD_append]
  grind

/-- A word read of the region at PERIPHBASE is the read of the word at its offset. -/
theorem privateRead_word {s t : State} {a w : Word} {form : AccessForm} (hform : form ≠ .multiple) (hal : a.toNat % 4 = 0)
    (hsize : privateSizeOk (a.toNat % 0x2000) 4 = true) (h : privateReadWord (a.toNat % 0x2000) s = .ok w t) :
    privateRead a 4 form s = .ok (bytesOfWord w) t := by
  have haccepts : ¬ (form == .multiple || !privateSizeOk (a.toNat % 0x2000) 4) = true := by simp [hform, hsize]
  have hread : privateReadWord (a.toNat % 0x2000 / 4 * 4) s = .ok w t := by
    rwa [Nat.div_mul_cancel (Nat.dvd_of_mod_eq_zero (by omega))]
  exact (congrFun (if_neg haccepts) s).trans (bind_ok hread)

/-- A word write of the region at PERIPHBASE is the write of the word at its offset. -/
theorem privateWrite_word {s : State} {a : Word} {form : AccessForm} (hform : form ≠ .multiple)
    (hsize : privateSizeOk (a.toNat % 0x2000) 4 = true) {bs : List Byte} (hlen : bs.length = 4) :
    privateWrite a bs form s = privateWriteWord (a.toNat % 0x2000) (leWord bs) s := by
  match bs, hlen with
  | [b0, b1, b2, b3], _ =>
    have haccepts : ¬ (form == .multiple || !privateSizeOk (a.toNat % 0x2000) 4) = true := by simp [hform, hsize]
    rw [leWord_four]
    exact congrFun (if_neg haccepts) s

/-! ### Word accesses to the region at PERIPHBASE -/

/-- The region at PERIPHBASE serves a word access: no TCM, Device or Strongly Ordered memory, and the lookup in the duplicate
tag RAM finds no error (20_memory.md R289). -/
structure InPrivateRegion (s : State) (attr : Attr) (a : Word) : Prop where
  clash : tcmClash s = false
  itcm : inItcm s a = false
  dtcm : inDtcm s a = false
  region : inPrivate s.cfg a = true
  aligned : a.toNat % 4 = 0
  device : attr.type ≠ .normal
  lookup : scuFinds s a = false

section

variable {s t : State} {acc : Access} {attr : Attr} {a w : Word}

theorem InPrivateRegion.accessed (h : InPrivateRegion s attr a) : InPrivateRegion s.accessed attr a :=
  ⟨h.clash, h.itcm, h.dtcm, h.region, h.aligned, h.device, h.lookup⟩

theorem InPrivateRegion.peripheral (h : InPrivateRegion s attr a) : inPeripheral s.cfg a = true :=
  (Bool.and_eq_true_iff.mp h.region).2

theorem InPrivateRegion.uncached (h : InPrivateRegion s attr a) : (dcacheOn s && cacheable s attr) = false := by
  simp [cacheable, h.device]

/-- A read of the region at PERIPHBASE is `privateRead`. -/
theorem InPrivateRegion.readRouted_eq (h : InPrivateRegion s attr a) (n : Nat) (form : AccessForm) :
    readRouted a n attr form s = privateRead a n form s := by
  unfold readRouted
  simp only [h.clash, h.itcm, h.dtcm, throughCache_of_uncached a form h.uncached, Bool.false_eq_true, if_false]
  rw [transferRead_quiet h.lookup]
  exact (if_pos h.region).trans (if_neg h.device)

/-- A write of the region at PERIPHBASE is `privateWrite`. -/
theorem InPrivateRegion.writeRouted_eq (h : InPrivateRegion s attr a) (bs : List Byte) (form : AccessForm) :
    writeRouted a bs attr form s = privateWrite a bs form s := by
  unfold writeRouted
  simp only [h.clash, h.itcm, h.dtcm, throughCache_of_uncached a form h.uncached, Bool.false_eq_true, if_false]
  rw [transferWrite_quiet h.lookup]
  exact (if_pos h.region).trans (if_neg h.device)

/-- A word load from the region at PERIPHBASE is the read of a register of the block that has the offset. -/
theorem InPrivateRegion.loadValue_eq (h : InPrivateRegion s attr a) (hsize : acc.size = 4) (hform : acc.form ≠ .multiple)
    (hadm : admission .read acc a s = .ok attr) (hblock : ReadsBlock s (a.toNat % 0x2000) w t) :
    loadValue acc a s = .ok (valueOf s.bigEndian (bytesOfWord w)) t := by
  have hpart : readPart a acc.size attr acc.form s = .ok (bytesOfWord w) t := by
    rw [hsize]
    exact (h.accessed.readRouted_eq 4 acc.form).trans (privateRead_word hform h.aligned hblock.sizeOk hblock.privateReadWord_eq)
  exact loadValue_of_readPart hadm (hsize ▸ h.aligned) hpart

/-- A word store to the region at PERIPHBASE is the write of a register of the block that has the offset. -/
theorem InPrivateRegion.storeValue_eq (h : InPrivateRegion s attr a) (hsize : acc.size = 4) (hform : acc.form ≠ .multiple)
    (hadm : admission .write acc a s = .ok attr) (v : Word)
    (hblock : WritesBlock s (a.toNat % 0x2000) (leWord (bytesOf s.bigEndian 4 v)) t) :
    storeValue acc a v s = .ok () t := by
  have hrouted : writeRouted a (bytesOf s.bigEndian 4 v) attr acc.form s.accessed = .ok () t := by
    rw [h.accessed.writeRouted_eq, privateWrite_word hform hblock.sizeOk (length_bytesOf _ _ _)]
    exact hblock.privateWriteWord_eq
  rw [storeValue_eq_writePart hadm (hsize ▸ h.aligned), hsize, writePart_of_writeRouted hrouted, h.peripheral]
  rfl

end

/-- An address of the 8 KB region at PERIPHBASE, by its offset (20_memory.md R300). -/
theorem toNat_privateAddress (base : BitVec 19) {off : Nat} (hoff : off < 0x2000) :
    ((base ++ 0#13) + BitVec.ofNat 32 off).toNat = base.toNat * 0x2000 + off := by
  have hbase := base.isLt
  rw [BitVec.toNat_add, toNat_append_eq, BitVec.toNat_ofNat]
  simp only [BitVec.toNat_ofNat]
  omega

theorem inPrivate_privateAddress {cfg : Config} {off : Nat} {a : Word} (hoff : off < 0x2000)
    (ha : a = (cfg.periphBase ++ 0#13) + BitVec.ofNat 32 off) (hper : inPeripheral cfg a = true) : inPrivate cfg a = true := by
  have hbase : a.extractLsb' 13 19 = cfg.periphBase := by
    apply BitVec.eq_of_toNat_eq
    have := cfg.periphBase.isLt
    rw [BitVec.extractLsb'_toNat, ha, toNat_privateAddress _ hoff, Nat.shiftRight_eq_div_pow]
    omega
  exact Bool.and_eq_true_iff.mpr ⟨beq_iff_eq.mpr hbase, hper⟩

/-- The data cache sizes and the bits of a tag that they use (61_scu.md R601). -/
theorem scuTagMask_of_mem : ∀ e ∈ [(RamSize.kb4, 0x00600000#32), (.kb8, 0x00700000), (.kb16, 0x00780000), (.kb32, 0x007C0000),
    (.kb64, 0x007E0000)], scuTagMask e.1 = e.2 := by decide

/-- Settles O60: a tag through its entry, a port through the filter ranges, a word of the region at PERIPHBASE
through the block that has its offset. -/
theorem scuRegisters : Obligations.ScuRegisters := by
  intro s v op op'
  refine ⟨rfl, fun hgate off hoff => scuWrite_gated hgate v hoff, fun hwf hwrite hread hcpu t ht => ?tags,
    fun form a m hm => ?ports,
    fun a n attr bs hclash hi hd hper hpriv => ⟨readRouted_peripheralMultiple hclash hi hd hper hpriv n,
      writeRouted_peripheralMultiple hclash hi hd hper hpriv bs⟩,
    fun acc a attr off hsize hform hword hoff ha hstart hend hdevice hclash hi hd hquiet => ?region⟩
  case tags =>
    have htag := scuRead_writtenTag hwf hwrite hread hcpu ht
    refine ⟨fun hsame e he hram => ?_, fun hother => htag.trans (if_neg hother)⟩
    rw [htag, if_pos hsame, hram, scuTagMask_of_mem e he]
  case ports =>
    subst hm
    rw [← inPeripheral_iff, Bool.not_eq_true]
    refine ⟨portOf_peripheral, fun hper => ⟨portOf_onePort hper, ?_, fun hport hfilter => ?_, portOf_ne_peripheral hper⟩⟩
    · rintro hfilter rfl
      exact portOf_locked hper hfilter
    · rw [← inFilter_iff, portOf_filtered hper hport hfilter]
      exact ⟨fun h => if_neg h, fun h => if_pos h⟩
  case region =>
    have haddr : a.toNat = s.cfg.periphBase.toNat * 0x2000 + off := ha ▸ toNat_privateAddress s.cfg.periphBase hoff
    have hlow : a.toNat % 0x2000 = off := by omega
    have hregion : InPrivateRegion s attr a :=
      ⟨hclash, hi, hd, inPrivate_privateAddress hoff ha (inPeripheral_iff.mpr ⟨hstart, hend⟩), by omega, hdevice, hquiet⟩
    refine ⟨fun hadm w t hblock => hregion.loadValue_eq hsize hform hadm (by rw [hlow]; exact hblock), ?_,
      fun he => he ▸ ⟨leWord_bytesOfWord v, leWord_bytesOfWord v⟩⟩
    rintro hadm w t rfl hblock
    exact hregion.storeValue_eq hsize hform hadm v (by rw [hlow]; exact hblock)

end Sys2Proof.Machine

/-!
# Standby and events

WFI, WFE and SEV each change the state and go on (`conditional_modify`); a step of a processor that does not run is a `wait`
(`step_waits`).
-/

namespace Sys2Proof.Machine

/-- A body that does something to the state and goes on to the next instruction. -/
theorem conditional_modify {c : Cond} {s : State} (hrun : Runs c s) {f : State → State} (hpc : (f s).pc = s.pc) :
    conditional c (do modify f; fallThrough) s = .next (f s).past := by
  refine conditional_next hrun.1 ((bind_ok (modify_apply f s)).trans ?_)
  exact fallThrough_of_ne (hpc ▸ hrun.2)

section

variable {s : State}

/-! ### WFI, WFE and SEV -/

theorem waitForInterrupt_awake (h : wfiWakeup s = true) : waitForInterrupt s = s := if_pos h

theorem waitForInterrupt_asleep (h : wfiWakeup s = false) :
    waitForInterrupt s = { s with standby := .wfi, outs := { s.outs with pwrctlo := powerField s } } :=
  if_neg (Bool.eq_false_iff.mp h)

/-- An event in the register is used up, and WFE does not wait (65_power_mp.md R795). -/
theorem waitForEvent_event (h : s.eventReg = true) : waitForEvent s = { s with eventReg := false } := if_pos h

theorem waitForEvent_noEvent (h : s.eventReg = false) :
    waitForEvent s = if wfeWakeup s then s else { s with standby := .wfe } :=
  if_neg (Bool.eq_false_iff.mp h)

theorem waitForInterrupt_pc (s : State) : (waitForInterrupt s).pc = s.pc := by
  unfold waitForInterrupt
  split <;> rfl

theorem waitForEvent_pc (s : State) : (waitForEvent s).pc = s.pc := by
  unfold waitForEvent
  split
  · rfl
  · split <;> rfl

variable {c : Cond} (hrun : Runs c s)
include hrun

theorem exec_wfi : exec (.wfi c) s = .next (waitForInterrupt s).past := conditional_modify hrun (waitForInterrupt_pc s)

theorem exec_wfe : exec (.wfe c) s = .next (waitForEvent s).past := conditional_modify hrun (waitForEvent_pc s)

theorem exec_sev : exec (.sev c) s = .next (sendEvent s).past := conditional_modify hrun rfl

end

/-! ### A step in standby -/

section

variable {t : State}

theorem wait_wfi (h : t.standby = .wfi) : wait t = if wfiWakeup t then { t with standby := .running } else t := by
  unfold wait
  rw [h]

theorem wait_wfe (h : t.standby = .wfe) : wait t =
    if t.eventReg then { t with eventReg := false, standby := .running }
    else if wfeWakeup t then { t with standby := .running } else t := by
  unfold wait
  rw [h]

theorem wait_halted (h : t.standby = .halted) : wait t = if t.pins.nCpuHalt then { t with standby := .running } else t := by
  unfold wait
  rw [h]

end

/-- A step of a processor that does not run, with no reset asserted, is a wait (65_power_mp.md R793, R795). -/
theorem step_waits {u : State} (hreset : resetsOf u = .none) (h : (hardwareStage u).standby ≠ .running) :
    step u = .next (wait (hardwareStage u)) :=
  (step_proceeds hreset).trans (proceed_standby h)

/-- Settles O31: each instruction is its change of the standby state and the pc, each step of a stopped processor a `wait`. -/
theorem waitsAndEvents : Obligations.WaitsAndEvents := by
  intro c s hrun
  refine ⟨fun h => ?_, fun h => ?_, fun h => ?_, fun h hwake => ?_, fun h hwake => ?_, exec_sev hrun, ?_⟩
  · rw [exec_wfi hrun, waitForInterrupt_awake h]
  · rw [exec_wfi hrun, waitForInterrupt_asleep h]
    rfl
  · rw [exec_wfe hrun, waitForEvent_event h]
  · rw [exec_wfe hrun, waitForEvent_noEvent h, if_pos hwake]
  · rw [exec_wfe hrun, waitForEvent_noEvent h, if_neg (Bool.eq_false_iff.mp hwake)]
  · rintro u t rfl hreset
    have hstep {b : Standby} (hb : b ≠ .running) (h : (hardwareStage u).standby = b) := step_waits hreset (h ▸ hb)
    exact ⟨fun h => wait_wfi h ▸ hstep (by decide) h, fun h => wait_wfe h ▸ hstep (by decide) h,
      fun h => wait_halted h ▸ hstep (by decide) h⟩

end Sys2Proof.Machine

/-!
# The interrupt controller

The scan of the IDs keeps the candidate that goes before every other (`scanResult_step`), so that it finds the best one
(`scanResult_highestPending`); the interrupt signalled is that one, if it passes (`signalled_eq_some_iff`).
-/

namespace Sys2Proof.Machine

/-! ### The best candidate -/

/-- An interrupt that the distributor forwards, by its ID. -/
theorem forwarded_iff {s : State} (hcpu : s.cfg.cpu = true → s.cfg.twoCpus = true) (id : Nat) :
    Forwarded s id ↔ id < idCount s.cfg ∧ isCandidate s id = true := by
  have htarget : (spiTarget s id &&& cpuBit s.cfg != 0) = true ↔ s.cfg.twoCpus = false ∨
      (sparseRead s.gic.target id).getLsbD (if s.cfg.cpu then 1 else 0) = true := by
    unfold spiTarget cpuBit
    generalize sparseRead s.gic.target id = x
    revert hcpu
    generalize s.cfg.cpu = cpu
    generalize s.cfg.twoCpus = two
    revert x cpu two
    decide
  rw [Forwarded, isCandidate, Bool.and_eq_true, Bool.and_eq_true, Bool.or_eq_true, decide_eq_true_eq, htarget, and_assoc]

/-- An interrupt goes before another: a lower priority value, or the same and no higher ID (62_gic.md R672). -/
def GoesBefore (s : State) (b j : Nat) : Prop :=
  (idPriority s b).toNat < (idPriority s j).toNat ∨ idPriority s b = idPriority s j ∧ b ≤ j

theorem GoesBefore.le {s : State} {b j : Nat} (h : GoesBefore s b j) : (idPriority s b).toNat ≤ (idPriority s j).toNat :=
  h.elim Nat.le_of_lt fun h => h.1 ▸ le_refl _

/-- What the scan of the IDs below a bound has found: the candidate that goes before every other, or nothing where there is none. -/
def ScanResult (s : State) (n : Nat) : Option Nat → Prop
  | some b => b < n ∧ isCandidate s b = true ∧ ∀ j < n, isCandidate s j = true → GoesBefore s b j
  | none => ∀ j < n, isCandidate s j = false

theorem scanResult_step {s : State} {n : Nat} {r : Option Nat} (h : ScanResult s n r) :
    ScanResult s (n + 1) (betterId s r n) := by
  unfold betterId
  cases r with
  | none =>
    by_cases hn : isCandidate s n = true
    · rw [if_pos hn]
      refine ⟨n.lt_succ_self, hn, fun j hj hcand => ?_⟩
      obtain hlt | rfl := Nat.lt_succ_iff_lt_or_eq.mp hj
      · exact absurd hcand (Bool.eq_false_iff.mp (h j hlt))
      · exact .inr ⟨rfl, le_refl j⟩
    · rw [if_neg hn]
      exact fun j hj => (Nat.lt_succ_iff_lt_or_eq.mp hj).elim (h j) fun e => e ▸ Bool.eq_false_iff.mpr hn
  | some b =>
    obtain ⟨hb, hcand, hbest⟩ := h
    have hstays (hn : isCandidate s n = true → GoesBefore s b n) : ScanResult s (n + 1) (some b) :=
      ⟨hb.trans n.lt_succ_self, hcand, fun j hj hj' =>
        (Nat.lt_succ_iff_lt_or_eq.mp hj).elim (hbest j · hj') fun e => e ▸ hn (e ▸ hj')⟩
    by_cases hn : isCandidate s n = true
    · simp only [if_pos hn]
      by_cases hlt : (idPriority s n).toNat < (idPriority s b).toNat
      · rw [if_pos hlt]
        refine ⟨n.lt_succ_self, hn, fun j hj hj' => ?_⟩
        obtain hj | rfl := Nat.lt_succ_iff_lt_or_eq.mp hj
        · exact .inl (hlt.trans_le (hbest j hj hj').le)
        · exact .inr ⟨rfl, le_refl j⟩
      · rw [if_neg hlt]
        refine hstays fun _ => ?_
        exact (Nat.le_of_not_lt hlt).lt_or_eq.imp_right fun heq => ⟨BitVec.eq_of_toNat_eq heq, hb.le⟩
    · rw [if_neg hn]
      exact hstays fun hn' => absurd hn' hn

/-- The scan finds the best candidate, by induction on the bound. -/
theorem scanResult_range (s : State) (n : Nat) : ScanResult s n ((List.range n).foldl (betterId s) none) := by
  induction n with
  | zero => exact fun j hj => absurd hj (Nat.not_lt_zero j)
  | succ n ih =>
    rw [List.range_succ, List.foldl_append]
    exact scanResult_step ih

theorem scanResult_highestPending {s : State} (h : s.gic.distEnable = true) :
    ScanResult s (idCount s.cfg) (highestPending s) := by
  unfold highestPending
  rw [if_pos h]
  exact scanResult_range s _

/-! ### The interrupt signalled -/

theorem prioritySuffices_iff (s : State) (id : Nat) : prioritySuffices s (idPriority s id) = true ↔ Preempts s id := by
  unfold prioritySuffices Preempts groupPriority
  rw [Bool.and_eq_true, decide_eq_true_eq]
  cases s.gic.stack <;> simp

/-- What preempts for one priority value does for every lower one. -/
theorem Preempts.of_le {s : State} {b j : Nat} (h : Preempts s j) (hle : (idPriority s b).toNat ≤ (idPriority s j).toNat) :
    Preempts s b :=
  ⟨hle.trans_lt h.1, fun e rest hstack => (Nat.div_le_div_right hle).trans_lt (h.2 e rest hstack)⟩

/-- The interrupt that is signalled is the one the scan finds, if it passes (62_gic.md R661, R672). -/
theorem signalled_eq_some_iff {s : State} {id : Nat} : signalled s = some id ↔
    s.gic.ifEnable = true ∧ s.gic.distEnable = true ∧ highestPending s = some id ∧ Preempts s id := by
  have hdist (h : highestPending s = some id) : s.gic.distEnable = true := by
    by_contra hd
    rw [highestPending, if_neg hd] at h
    cases h
  rw [← prioritySuffices_iff]
  unfold signalled
  cases s.gic.ifEnable with
  | false => simp
  | true =>
    cases hbest : highestPending s with
    | none => simp
    | some b =>
      simp only [if_true, Option.ite_none_right_eq_some, Option.some.injEq, true_and]
      constructor
      · rintro ⟨hsuffices, rfl⟩
        exact ⟨hdist hbest, rfl, hsuffices⟩
      · rintro ⟨-, rfl, hsuffices⟩
        exact ⟨hsuffices, rfl⟩

/-- Some interrupt is signalled just if one that is forwarded passes: then the best one does too. -/
theorem signalled_isSome_iff {s : State} (hcpu : s.cfg.cpu = true → s.cfg.twoCpus = true) : (signalled s).isSome = true ↔
    s.gic.ifEnable = true ∧ s.gic.distEnable = true ∧ ∃ id, Forwarded s id ∧ Preempts s id := by
  rw [Option.isSome_iff_exists]
  constructor
  · rintro ⟨id, h⟩
    obtain ⟨hif, hdist, hbest, hpre⟩ := signalled_eq_some_iff.mp h
    have hscan := scanResult_highestPending hdist
    rw [hbest] at hscan
    exact ⟨hif, hdist, id, (forwarded_iff hcpu id).mpr ⟨hscan.1, hscan.2.1⟩, hpre⟩
  · rintro ⟨hif, hdist, j, hfwd, hpre⟩
    obtain ⟨hj, hcand⟩ := (forwarded_iff hcpu j).mp hfwd
    have hscan := scanResult_highestPending hdist
    cases hbest : highestPending s with
    | none =>
      rw [hbest] at hscan
      exact absurd hcand (Bool.eq_false_iff.mp (hscan j hj))
    | some b =>
      rw [hbest] at hscan
      exact ⟨b, signalled_eq_some_iff.mpr ⟨hif, hdist, hbest, hpre.of_le (hscan.2.2 j hj hcand).le⟩⟩

/-! ### The acknowledge register -/

/-- An interrupt's bit reads back what was set. -/
theorem idBit_setIdBit (v : Vector Word 16) (id : Nat) (b : Bool) : idBit (setIdBit v id b) id = b := by
  simp only [idBit, setIdBit, Fin.getElem_fin, Vector.getElem_set_self]
  rw [getLsbD_setBit _ (Nat.mod_lt id (by decide)), if_pos rfl]

theorem active_acknowledge (id : Nat) (s : State) : idBit (acknowledge id s).gic.active id = true := idBit_setIdBit _ id true

/-- The ID stands in [9:0] of ICCIAR, below the source of an SGI (62_gic.md R664). -/
theorem idValue_id (s : State) {id : Nat} (h : id < 2 ^ 10) : (idValue s id &&& 0x3FF).toNat = id := by
  have hmask : ∀ i < 32, (0x3FF : Word).getLsbD i = decide (i < 10) := by decide
  have hvalue : idValue s id &&& 0x3FF = BitVec.ofNat 32 id := by
    refine BitVec.eq_of_getLsbD_eq fun i hi => ?_
    rw [BitVec.getLsbD_and, idValue, BitVec.getLsbD_or, BitVec.getLsbD_ofNat, hmask i hi]
    by_cases hlow : i < 10
    · have hsource : (if id < 16 then sgiSource (sparseRead s.gic.sgiFrom id) <<< 10 else 0).getLsbD i = false := by
        split <;> simp [hlow]
      rw [hsource, decide_eq_true hlow, Bool.or_false, Bool.and_true]
    · have hhigh : id.testBit i = false := Nat.testBit_lt_two_pow (h.trans_le (Nat.pow_le_pow_right (by decide) (by omega)))
      rw [hhigh, decide_eq_false hlow, Bool.and_false, Bool.and_false]
  rw [hvalue, BitVec.toNat_ofNat]
  omega

theorem idCount_le (cfg : Config) : idCount cfg ≤ 2 ^ 9 := by
  have := cfg.spiBlocks.isLt
  unfold idCount
  omega

theorem iccRead_acknowledge {s : State} {id : Nat} (h : signalled s = some id) :
    iccRead 0x0C s = .ok (idValue s id) (acknowledge id s) := by
  simp only [iccRead, h]

theorem iccRead_spurious {s : State} (h : signalled s = none) : iccRead 0x0C s = .ok 0x3FF s := by
  simp only [iccRead, h]

/-- Settles O58: the scan of the IDs finds the best candidate, which is signalled just if it passes. -/
theorem bestInterruptSignalled : Obligations.BestInterruptSignalled := by
  intro s hcpu
  refine ⟨fun id h => ?_, signalled_isSome_iff hcpu, iccRead_spurious⟩
  obtain ⟨hif, hdist, hbest, hpre⟩ := signalled_eq_some_iff.mp h
  have hscan := scanResult_highestPending hdist
  rw [hbest] at hscan
  obtain ⟨hid, hcand, hfirst⟩ := hscan
  refine ⟨hif, hdist, (forwarded_iff hcpu id).mpr ⟨hid, hcand⟩, hpre, fun j hj => ?_, _, _, iccRead_acknowledge h,
    idValue_id s (by have := idCount_le s.cfg; omega), active_acknowledge id s⟩
  obtain ⟨hj, hjcand⟩ := (forwarded_iff hcpu j).mp hj
  exact hfirst j hj hjcand

end Sys2Proof.Machine

/-!
# The timers

A tick of the timer or of the watchdog by its counter: at zero, at one, above (`timerTick_reachesZero` and its like). The
global timer's ticks and writes that compare are one comparison (`Compares.eq`, `globalCompare_of_reached`).
-/

namespace Sys2Proof.Machine

/-! ### Registers of the blocks -/

/-- A status register with its flag cleared by a 1, its other bits left alone (63_timers.md R696, R706, R708, R714). -/
theorem getLsbD_clearFlag (w v : Word) {k : Nat} (hk : k < 32) :
    (w &&& ~~~ (v &&& 1)).getLsbD k = if k = 0 ∧ v.getLsbD 0 = true then false else w.getLsbD k := by
  have hone : (1 : Word).getLsbD k = decide (k = 0) := by simp
  rw [BitVec.getLsbD_and, BitVec.getLsbD_not, BitVec.getLsbD_and, hone, decide_eq_true hk, Bool.true_and]
  by_cases h0 : k = 0
  · subst h0
    cases v.getLsbD 0 <;> simp
  · simp [h0]

/-- In watchdog mode only the load register's write changes the watchdog's counter (63_timers.md R701, R702). -/
theorem privateTimerWrite_watchdogMode {t : Timers} (h : t.wdControl.getLsbD 3 = true) (v : Word) {off : Nat}
    (hoff : off ≠ 0x20) : (privateTimerWrite off v t).wdCounter = t.wdCounter := by
  unfold privateTimerWrite
  simp only [h]
  split
  case h_5 => exact absurd rfl hoff
  case h_10 => split <;> [rfl; split <;> rfl]
  all_goals rfl

/-- The lower half of a 64-bit counter, and the upper. -/
theorem extractLsb'_low (x : BitVec 64) : x.extractLsb' 0 32 = BitVec.ofNat 32 x.toNat := by
  apply BitVec.eq_of_toNat_eq
  simp

theorem extractLsb'_high (x : BitVec 64) : x.extractLsb' 32 32 = BitVec.ofNat 32 (x.toNat / 2 ^ 32) := by
  apply BitVec.eq_of_toNat_eq
  simp [Nat.shiftRight_eq_div_pow]

/-- A counter with its lower half written, and with its upper half. -/
theorem setLow_eq (x : BitVec 64) (v : Word) :
    x.extractLsb' 32 32 ++ v = BitVec.ofNat 64 (x.toNat / 2 ^ 32 * 2 ^ 32 + v.toNat) := by
  apply BitVec.eq_of_toNat_eq
  have := x.isLt
  have := v.isLt
  rw [toNat_append_eq, extractLsb'_high, BitVec.toNat_ofNat, BitVec.toNat_ofNat]
  omega

theorem setHigh_eq (x : BitVec 64) (v : Word) :
    v ++ x.extractLsb' 0 32 = BitVec.ofNat 64 (v.toNat * 2 ^ 32 + x.toNat % 2 ^ 32) := by
  apply BitVec.eq_of_toNat_eq
  have := v.isLt
  rw [toNat_append_eq, extractLsb'_low, BitVec.toNat_ofNat, BitVec.toNat_ofNat]
  omega

/-! ### The global timer -/

/-- The comparison finds the comparator reached (63_timers.md R712). -/
def Reached (u : Timers) : Prop := u.gControl.getLsbD 1 = true ∧ u.comparator.toNat ≤ u.gCounter.toNat

theorem globalCompare_of_reached {u : Timers} (h : Reached u) : globalCompare u = { u with
    gStatus := u.gStatus ||| 1
    comparator := if u.gControl.getLsbD 3 = true then BitVec.ofNat 64 (u.comparator.toNat + u.autoInc.toNat)
      else u.comparator } := by
  have hsum : u.comparator + u.autoInc.setWidth 64 = BitVec.ofNat 64 (u.comparator.toNat + u.autoInc.toNat) := by
    apply BitVec.eq_of_toNat_eq
    simp
  obtain ⟨henable, hle⟩ := h
  rw [globalCompare, henable, decide_eq_true hle, if_pos (by rfl), hsum]

theorem globalCompare_of_not_reached {u : Timers} (h : ¬ Reached u) : globalCompare u = u :=
  if_neg fun hc => h ((Bool.and_eq_true _ _ ▸ hc).imp_right of_decide_eq_true)

/-- A comparison of the timers `u` leaves `r`: of a tick, of a write of the control or of a half of the comparator
(63_timers.md R712; log entry 102). -/
def Compares (s : State) (t : Timers) (v : Word) (u r : Timers) : Prop :=
  (u = { t with gCounter := BitVec.ofNat 64 (t.gCounter.toNat + 1) } ∧ globalTick s = { s with timers := r }) ∨
  (u = { t with gControl := v &&& 0x0000FF0F } ∧ r = globalWrite 0x08 v t) ∨
  (u = { t with comparator := BitVec.ofNat 64 (t.comparator.toNat / 2 ^ 32 * 2 ^ 32 + v.toNat) } ∧ r = globalWrite 0x10 v t) ∨
  (u = { t with comparator := BitVec.ofNat 64 (v.toNat * 2 ^ 32 + t.comparator.toNat % 2 ^ 32) } ∧ r = globalWrite 0x14 v t)

theorem Compares.eq {s : State} {v : Word} {u r : Timers} (h : Compares s s.timers v u r) : r = globalCompare u := by
  obtain ⟨rfl, h⟩ | ⟨rfl, rfl⟩ | ⟨rfl, rfl⟩ | ⟨rfl, rfl⟩ := h
  · have hcount : s.timers.gCounter + 1 = BitVec.ofNat 64 (s.timers.gCounter.toNat + 1) := by
      apply BitVec.eq_of_toNat_eq
      simp
    rw [← hcount]
    exact (congrArg State.timers h).symm
  · rfl
  · rw [← setLow_eq]
    rfl
  · rw [← setHigh_eq]
    rfl

/-! ### Interrupts of the timers -/

theorem pending_raisePpi {s : State} (h : s.gic.distEnable = true) (id : Nat) : idBit (raisePpi id s).gic.pending id = true := by
  rw [raisePpi, if_pos h]
  exact idBit_setIdBit _ id true

theorem timers_raisePpi (id : Nat) (s : State) : (raisePpi id s).timers = s.timers := by
  unfold raisePpi
  split <;> rfl

/-- ID27 is the level of the global timer's comparator (63_timers.md R716). -/
theorem level_sampleInputs {s : State} (h : s.gic.distEnable = true) :
    idBit (sampleInputs s).gic.level 27 = (s.timers.gStatus.getLsbD 0 && s.timers.gControl.getLsbD 2) := by
  have hword : (sampleInputs s).gic.level[0] = inputWord s 0 := by
    rw [sampleInputs, if_pos h]
    exact Vector.getElem_ofFn _
  show (sampleInputs s).gic.level[0].getLsbD 27 = _
  rw [hword, inputWord, if_pos rfl, BitVec.getLsbD_or, BitVec.getLsbD_or, getLsbD_bitAt, getLsbD_bitAt, getLsbD_bitAt]
  simp [globalTimerLevel]

/-! ### Ticks of the timer -/

/-- The tick that reaches zero sets the event flag, and raises ID29 where the control enables it (63_timers.md R696). -/
theorem timerTick_reachesZero {s : State} (h : s.timers.counter = 1) : timerTick s =
    let t := { s with timers := { s.timers with counter := 0, status := s.timers.status ||| 1 } }
    if s.timers.control.getLsbD 2 then raisePpi 29 t else t :=
  (if_pos (by rw [h]; decide)).trans (if_pos h)

/-- A tick at zero reloads the counter under auto-reload (63_timers.md R694). -/
theorem timerTick_atZero {s : State} (h : s.timers.counter = 0) : timerTick s =
    if s.timers.control.getLsbD 1 then { s with timers := { s.timers with counter := s.timers.load } } else s :=
  if_neg (not_not_intro h)

theorem timerTick_counts {s : State} (h0 : s.timers.counter ≠ 0) (h1 : s.timers.counter ≠ 1) :
    timerTick s = { s with timers := { s.timers with counter := s.timers.counter - 1 } } :=
  (if_pos h0).trans (if_neg h1)

theorem timers_timerTick_reachesZero {s : State} (h : s.timers.counter = 1) :
    (timerTick s).timers = { s.timers with counter := 0, status := s.timers.status ||| 1 } := by
  rw [timerTick_reachesZero h]
  dsimp only
  split
  · exact timers_raisePpi 29 _
  · rfl

/-- A tick that does not reach zero sets no flag and raises no interrupt. -/
theorem timerTick_quiet {s : State} (h : s.timers.counter ≠ 1) :
    (timerTick s).timers.status = s.timers.status ∧ (timerTick s).gic = s.gic := by
  by_cases h0 : s.timers.counter = 0
  · rw [timerTick_atZero h0]
    split <;> exact ⟨rfl, rfl⟩
  · rw [timerTick_counts h0 h]
    exact ⟨rfl, rfl⟩

/-! ### Ticks of the watchdog -/

/-- In timer mode the tick that reaches zero sets the event flag, and raises ID30 where the control enables it (63_timers.md
R706). -/
theorem watchdogTick_reachesZero {s : State} (h : s.timers.wdCounter = 1) (hmode : s.timers.wdControl.getLsbD 3 = false) :
    watchdogTick s =
      let t := { s with timers := { s.timers with wdCounter := 0, wdStatus := s.timers.wdStatus ||| 1 } }
      if s.timers.wdControl.getLsbD 2 then raisePpi 30 t else t :=
  (if_pos (by rw [h]; decide)).trans ((if_pos h).trans (if_neg (Bool.eq_false_iff.mp hmode)))

/-- In watchdog mode it sets the reset flag and asserts WDRESETREQ (63_timers.md R705). -/
theorem watchdogTick_expires {s : State} (h : s.timers.wdCounter = 1) (hmode : s.timers.wdControl.getLsbD 3 = true) :
    watchdogTick s = { s with
      timers := { s.timers with wdCounter := 0, wdReset := s.timers.wdReset ||| 1 }
      outs := { s.outs with wdResetReq := true } } :=
  (if_pos (by rw [h]; decide)).trans ((if_pos h).trans (if_pos hmode))

/-- A tick at zero reloads the counter in timer mode under auto-reload (63_timers.md R701). -/
theorem watchdogTick_atZero {s : State} (h : s.timers.wdCounter = 0) : watchdogTick s =
    if !s.timers.wdControl.getLsbD 3 && s.timers.wdControl.getLsbD 1 then
      { s with timers := { s.timers with wdCounter := s.timers.wdLoad } } else s :=
  if_neg (not_not_intro h)

theorem watchdogTick_counts {s : State} (h0 : s.timers.wdCounter ≠ 0) (h1 : s.timers.wdCounter ≠ 1) :
    watchdogTick s = { s with timers := { s.timers with wdCounter := s.timers.wdCounter - 1 } } :=
  (if_pos h0).trans (if_neg h1)

theorem timers_watchdogTick_reachesZero {s : State} (h : s.timers.wdCounter = 1) (hmode : s.timers.wdControl.getLsbD 3 = false) :
    (watchdogTick s).timers = { s.timers with wdCounter := 0, wdStatus := s.timers.wdStatus ||| 1 } := by
  rw [watchdogTick_reachesZero h hmode]
  dsimp only
  split
  · exact timers_raisePpi 30 _
  · rfl

/-- In watchdog mode the counter stays at zero (63_timers.md R705). -/
theorem watchdogTick_stays {s : State} (h : s.timers.wdCounter = 0) (hmode : s.timers.wdControl.getLsbD 3 = true) :
    watchdogTick s = s := by
  rw [watchdogTick_atZero h, hmode]
  rfl

/-- Settles O59: the registers row by row, the ticks by whether the counter reaches zero, the comparison by whether the counter
has reached the comparator. -/
theorem timerRegisters : Obligations.TimerRegisters := by
  refine ⟨fun t v => ⟨rfl, rfl, rfl, rfl, fun h off hoff => privateTimerWrite_watchdogMode h v hoff,
      fun k hk => getLsbD_clearFlag _ _ hk⟩,
    fun s hone hreload => ?reload, fun s => ⟨fun hone => ?event, timerTick_quiet, fun hzero hreload => ?stays⟩,
    fun t v k hk => ⟨getLsbD_clearFlag _ _ hk, getLsbD_clearFlag _ _ hk⟩,
    fun t => ⟨extractLsb'_low _, extractLsb'_high _, rfl, rfl, rfl, extractLsb'_low _, extractLsb'_high _⟩,
    ?global, fun s hdist => ⟨level_sampleInputs hdist, fun hflag henable => ?level⟩,
    fun s hone hmode => ⟨?flag, ?zero, fun hreload => ?again, fun henable hdist => ?interrupt⟩, ?watchdog,
    fun t v k hk => getLsbD_clearFlag _ _ hk⟩
  case reload =>
    have ht := timers_timerTick_reachesZero hone
    refine ⟨by rw [ht], ?_⟩
    rw [timerTick_atZero (by rw [ht]), if_pos (by rw [ht]; exact hreload)]
    show (timerTick s).timers.load = _
    rw [ht]
  case event =>
    refine ⟨by rw [timers_timerTick_reachesZero hone], fun henable hdist => ?_⟩
    rw [timerTick_reachesZero hone]
    dsimp only
    rw [if_pos henable]
    exact pending_raisePpi (by exact hdist) 29
  case stays => rw [timerTick_atZero hzero, if_neg (Bool.eq_false_iff.mp hreload)]
  case global =>
    rintro s t v rfl
    refine ⟨?_, ?_, rfl, fun u r h => ?_⟩
    · rw [← setLow_eq]; rfl
    · rw [← setHigh_eq]; rfl
    · have hr : r = globalCompare u := Compares.eq h
      exact ⟨fun hnot => hr.trans (globalCompare_of_not_reached hnot),
        fun henable hle => hr.trans (globalCompare_of_reached ⟨henable, hle⟩)⟩
  case level =>
    have hlevel := level_sampleInputs hdist
    rw [hflag, henable] at hlevel
    simp [isPending, isEdge, hlevel]
  case flag =>
    rw [timers_watchdogTick_reachesZero hone hmode, BitVec.getLsbD_or]
    exact Bool.or_true _
  case zero => rw [timers_watchdogTick_reachesZero hone hmode]
  case again =>
    have ht := timers_watchdogTick_reachesZero hone hmode
    rw [watchdogTick_atZero (by rw [ht]), if_pos (by rw [ht, hmode, hreload]; rfl)]
    show (watchdogTick s).timers.wdLoad = _
    rw [ht]
  case interrupt =>
    rw [watchdogTick_reachesZero hone hmode]
    dsimp only
    rw [if_pos henable]
    exact pending_raisePpi (by exact hdist) 30
  case watchdog =>
    rintro s t rfl hmode
    refine ⟨fun hone => ?_, fun hone => ?_, fun hzero => watchdogTick_stays hzero hmode⟩
    · rw [watchdogTick_expires hone hmode]
      refine ⟨?_, rfl, rfl, rfl, watchdogTick_stays rfl hmode⟩
      rw [BitVec.getLsbD_or]
      exact Bool.or_true _
    · by_cases hzero : s.timers.wdCounter = 0
      · rw [watchdogTick_stays hzero hmode]
        exact ⟨rfl, rfl⟩
      · rw [watchdogTick_counts hzero hone]
        exact ⟨rfl, rfl⟩

end Sys2Proof.Machine

/-!
# The debug registers

CP14: a selector names a register, which the mode may reach or not (`exec_mrcP14`, `exec_mcrP14`, `exec_p14_undefined`). The window:
a word access is one to the debug address map at the offset of its address (`busRead_window`, `busWrite_window`), where a block of
a processor, the ROM table, a unit out of scope or nothing stands (`placeOf_debug` and its like); the other processor's blocks are
those of the machine as it sees it (`seenBy`).
-/

namespace Sys2Proof.Machine

/-! ### MRC and MCR p14 -/

section

variable {c : Cond} {op1 : BitVec 3} {crn : BitVec 4} {rt : Reg} {op2 : BitVec 3} {crm : BitVec 4} {s t : State} {r : DebugReg}

theorem debugPermitted_of_privileged (h : s.privileged = true) (r : DebugReg) : debugPermitted s r = true := by
  rw [debugPermitted, h, Bool.true_or]

/-- A privileged MRC of a register of the map reads it. -/
theorem exec_mrcP14 (hrun : Runs c s) (hrt : rt ≠ 15) (hpriv : s.privileged = true) (hsel : cp14Sel op1 crn crm op2 = some r)
    {v : Word} (hread : readDebug r s = .ok v t) (hpc : t.pc = s.pc) :
    exec (.mrcP14 c op1 crn rt op2 crm) s = .next (t.wrote rt v) := by
  refine conditional_next hrun.1 ?_
  simp only [hsel, bind_ok (get_apply s), debugPermitted_of_privileged hpriv]
  exact (bind_ok hread).trans (receive_of_ne hrt v (hpc ▸ hrun.2))

/-- A privileged MCR of a register of the map that can be written writes it. -/
theorem exec_mcrP14 (hrun : Runs c s) (hrt : rt ≠ 15) (hpriv : s.privileged = true) (hsel : cp14Sel op1 crn crm op2 = some r)
    (hw : r.readOnly = false) (hwrite : writeDebug r (s.reg rt) s = .ok () t) (hpc : t.pc = s.pc) :
    exec (.mcrP14 c op1 crn rt op2 crm) s = .next t.past := by
  refine conditional_next hrun.1 ?_
  simp only [hsel, bind_ok (get_apply s), debugPermitted_of_privileged hpriv, hw]
  refine (bind_ok (notPc_of_ne hrt s)).trans ((bind_ok hwrite).trans ?_)
  exact fallThrough_of_ne (hpc ▸ hrun.2)

/-- User mode may reach DBGDIDR and DBGDSCRint only (64_debug_pmu.md R746). -/
theorem userRow_selector (hsel : cp14Sel op1 crn crm op2 = some r) (hr : r.userRow = true) :
    op1 = 0 ∧ crn = 0 ∧ op2 = 0 ∧ (crm = 0 ∨ crm = 1) := by
  have hrows : ∀ e ∈ cp14Map, e.2.userRow = true → e.1 = 0 ∨ e.1 = 1 := by decide
  unfold cp14Sel at hsel
  split at hsel
  · cases hsel
  · next hfields =>
    dsimp only at hsel
    split at hsel
    · cases hsel
      cases hr
    · have hn := hrows _ (mem_of_lookupKey hsel) hr
      bv_omega

theorem debugPermitted_eq_false (hpriv : s.privileged = false) (hsel : cp14Sel op1 crn crm op2 = some r)
    (hother : ¬ (op1 = 0 ∧ crn = 0 ∧ op2 = 0 ∧ (crm = 0 ∨ crm = 1))) : debugPermitted s r = false := by
  have hrow : r.userRow = false := eq_false_of_ne_true fun hr => hother (userRow_selector hsel hr)
  rw [debugPermitted, hpriv, hrow]
  rfl

/-- A selector without a register, or one that User mode may not reach, is an Undefined Instruction
(40_system_register_access.md R445). -/
theorem exec_p14_undefined (hc : condPassed c s.cpsr = true) (harm : ArmEntry s)
    (h : ∀ r, cp14Sel op1 crn crm op2 = some r → debugPermitted s r = false) :
    exec (.mrcP14 c op1 crn rt op2 crm) s = .next (takeException .undefined (s.pc + 4) s) ∧
    exec (.mcrP14 c op1 crn rt op2 crm) s = .next (takeException .undefined (s.pc + 4) s) := by
  cases hsel : cp14Sel op1 crn crm op2 with
  | none => exact ⟨conditional_undefined hc harm (by rw [hsel]; rfl), conditional_undefined hc harm (by rw [hsel]; rfl)⟩
  | some r =>
    constructor <;>
    · refine conditional_undefined hc harm ?_
      simp only [hsel, bind_ok (get_apply s), h r hsel]
      rfl

end

/-- The selectors of the breakpoint and watchpoint registers (64_debug_pmu.md R746). -/
theorem cp14Sel_breakpoint : ∀ n : Fin 6, cp14Sel 0 0 (BitVec.ofNat 4 n.val) 4 = some (.bvr n) ∧
    cp14Sel 0 0 (BitVec.ofNat 4 n.val) 5 = some (.bcr n) := by decide

theorem cp14Sel_watchpoint : ∀ n : Fin 4, cp14Sel 0 0 (BitVec.ofNat 4 n.val) 6 = some (.wvr n) ∧
    cp14Sel 0 0 (BitVec.ofNat 4 n.val) 7 = some (.wcr n) := by decide

/-! ### Where the debug window stands -/

/-- The processors' own blocks at the self address (64_debug_pmu.md R770; log entry 81). -/
theorem windowOffset_self {cfg : Config} (h : cfg.dbgSelfAddrV = true) {k : Nat} (hk : k < 0x8000) :
    windowOffset cfg ((cfg.dbgRomAddr ++ 0#12) + (cfg.dbgSelfAddr ++ 0#15) + BitVec.ofNat 32 k) = some (0x10000 + k) := by
  have hself (rom self : Word) : (rom + self + BitVec.ofNat 32 k - rom - self).toNat = k := by bv_omega
  simp only [windowOffset, h, hself, hk, Bool.not_true, Bool.false_eq_true, if_false, if_true]

/-- The whole map at the ROM address, but where the self address covers it. -/
theorem windowOffset_rom {cfg : Config} (h : cfg.dbgSelfAddrV = true) {k : Nat} (hk : k < 0x20000) {a : Word}
    (ha : a = (cfg.dbgRomAddr ++ 0#12) + BitVec.ofNat 32 k)
    (hself : 0x8000 ≤ (a - (cfg.dbgRomAddr ++ 0#12) - (cfg.dbgSelfAddr ++ 0#15)).toNat) : windowOffset cfg a = some k := by
  have hrom (rom : Word) : (rom + BitVec.ofNat 32 k - rom).toNat = k := by bv_omega
  have hoff : (a - (cfg.dbgRomAddr ++ 0#12)).toNat = k := ha ▸ hrom _
  simp only [windowOffset, h, hoff, Nat.not_lt.mpr hself, hk, Bool.not_true, Bool.false_eq_true, if_false, if_true]

/-! ### Accesses to the window -/

section

variable {s t : State} {a : Word} {attr : Attr} {form : AccessForm} {off : Nat}

theorem signalAbort_apply (x : Bool) (s : State) :
    signalAbort x s = .ok () { s with pendingAbort := some (s.pendingAbort.getD x) } := by
  unfold signalAbort
  cases h : s.pendingAbort with
  | none => rfl
  | some y =>
    show EStateM.Result.ok () s = _
    rw [Option.getD_some, ← h]

/-- A read that got an error response draws a byte for each that it returns. -/
theorem freeBytes_apply (n : Nat) (s : State) :
    ∃ bs, bs.length = n ∧ freeBytes n s = .ok bs { s with free := s.free + n } := by
  induction n generalizing s with
  | zero => exact ⟨[], rfl, rfl⟩
  | succ n ih =>
    obtain ⟨bs, hlen, hbs⟩ := ih { s with free := s.free + 1 }
    refine ⟨(Config.freeWord s.free).extractLsb' 0 8 :: bs, by rw [List.length_cons, hlen], ?_⟩
    refine (bind_ok (drawWord_apply s)).trans ((bind_ok hbs).trans ?_)
    rw [pure_apply, Nat.add_assoc, Nat.add_comm 1 n]

/-- The bytes with which a word read of the window answers: those of the register, or free ones after an error response. -/
def windowAnswer : Option Word → M (List Byte)
  | some w => pure (bytesOfWord w)
  | none => do
    signalAbort true
    freeBytes 4

theorem wordOfBytes_bytesOfWord (w : Word) :
    wordOfBytes (w.extractLsb' 0 8) (w.extractLsb' 8 8) (w.extractLsb' 16 8) (w.extractLsb' 24 8) = w :=
  (leWord_four _ _ _ _).symm.trans (leWord_bytesOfWord w)

theorem inPrivate_of_not_peripheral {cfg : Config} (h : inPeripheral cfg a = false) : inPrivate cfg a = false :=
  Bool.and_eq_false_iff.mpr (.inr h)

variable (hper : inPeripheral s.cfg a = false) (hoff : windowOffset s.cfg a = some off)
include hper hoff

/-- A word read in the window reads the debug address map at the offset of the address. -/
theorem busRead_window : busRead a 4 attr form s = (windowRead off >>= windowAnswer) s := by
  have hwin : inWindow s.cfg a = true := by rw [inWindow, hoff]; rfl
  have hbus : busRead a 4 attr form s = windowReadBytes a 4 s := by
    simp only [busRead, inPrivate_of_not_peripheral hper, hper, hwin, Bool.false_and, Bool.false_eq_true, if_false, if_true]
  refine hbus.trans ((bind_ok (get_apply s)).trans ?_)
  rw [hoff]
  rfl

/-- A word written in the window is written to the debug address map at the offset of the address. -/
theorem busWrite_window (v : Word) : busWrite a (bytesOfWord v) attr form s =
    (windowWrite off v >>= fun accepted => if accepted then pure () else signalAbort true) s := by
  have hwin : inWindow s.cfg a = true := by rw [inWindow, hoff]; rfl
  have hbus : busWrite a (bytesOfWord v) attr form s = windowWriteBytes a (bytesOfWord v) s := by
    simp only [busWrite, inPrivate_of_not_peripheral hper, hper, hwin, Bool.false_and, Bool.false_eq_true, if_false, if_true]
  refine hbus.trans ((bind_ok (get_apply s)).trans ?_)
  rw [hoff, wordOfBytes_bytesOfWord]
  rfl

theorem busRead_of_windowRead {w : Word} (h : windowRead off s = .ok (some w) t) :
    busRead a 4 attr form s = .ok (bytesOfWord w) t :=
  (busRead_window hper hoff).trans (bind_ok h)

theorem busWrite_of_windowWrite {v : Word} (h : windowWrite off v s = .ok true t) :
    busWrite a (bytesOfWord v) attr form s = .ok () t :=
  (busWrite_window hper hoff v).trans (bind_ok h)

/-- Where no unit stands a read gets an error response: its bytes are not fixed, and an abort is pending (20_memory.md R295). -/
theorem busRead_reserved (h : windowRead off s = .ok none s) : ∃ bs, bs.length = 4 ∧ busRead a 4 attr form s =
    .ok bs { s with pendingAbort := some (s.pendingAbort.getD true), free := s.free + 4 } := by
  obtain ⟨bs, hlen, hbs⟩ := freeBytes_apply 4 { s with pendingAbort := some (s.pendingAbort.getD true) }
  exact ⟨bs, hlen, (busRead_window hper hoff).trans ((bind_ok h).trans ((bind_ok (signalAbort_apply true s)).trans hbs))⟩

theorem busWrite_reserved {v : Word} (h : windowWrite off v s = .ok false s) :
    busWrite a (bytesOfWord v) attr form s = .ok () { s with pendingAbort := some (s.pendingAbort.getD true) } :=
  (busWrite_window hper hoff v).trans ((bind_ok h).trans (signalAbort_apply true s))

end

/-! ### The debug address map -/

/-- The offset of a processor's blocks in the debug address map: those of processor 0 first (64_debug_pmu.md R770). -/
def blocksAt (second : Bool) : Nat := if second then 0x12000 else 0x10000

/-- The processor whose blocks stand at a place: that modelled or the other. -/
theorem placeOf_debug {cfg : Config} {other : Bool} (h : other = true → cfg.twoCpus = true) {k : Nat} (hk : k < 0x1000) :
    placeOf cfg ((blocksAt (cfg.cpu != other) + k) / 0x1000) = .debug other := by
  have hblock : (blocksAt (cfg.cpu != other) + k) / 0x1000 = if cfg.cpu != other then 0x12 else 0x10 := by
    unfold blocksAt
    split <;> omega
  rw [hblock]
  cases hcpu : cfg.cpu <;> cases other <;> simp [placeOf, hcpu, h]

theorem placeOf_pmu {cfg : Config} {other : Bool} (h : other = true → cfg.twoCpus = true) {k : Nat} (hk : k < 0x1000) :
    placeOf cfg ((blocksAt (cfg.cpu != other) + 0x1000 + k) / 0x1000) = .pmu other := by
  have hblock : (blocksAt (cfg.cpu != other) + 0x1000 + k) / 0x1000 = if cfg.cpu != other then 0x13 else 0x11 := by
    unfold blocksAt
    split <;> omega
  rw [hblock]
  cases hcpu : cfg.cpu <;> cases other <;> simp [placeOf, hcpu, h]

theorem placeOf_unit {cfg : Config} {b : Nat} (h : b ∈ [0x18, 0x1C] ∨ b ∈ [0x19, 0x1D] ∧ (cfg.twoCpus || cfg.cpu) = true) :
    placeOf cfg b = .unit := by
  simp only [List.mem_cons, List.not_mem_nil, or_false] at h
  obtain (rfl | rfl) | ⟨rfl | rfl, hbuilt⟩ := h
  · rfl
  · rfl
  · exact if_pos (by simpa using hbuilt)
  · exact if_pos (by simpa using hbuilt)

theorem placeOf_reserved {cfg : Config} {b : Nat}
    (h : b ∉ [0x00, 0x10, 0x11, 0x12, 0x13, 0x18, 0x19, 0x1C, 0x1D] ∨
      b ∈ [0x12, 0x13, 0x19, 0x1D] ∧ (cfg.twoCpus || cfg.cpu) = false) : placeOf cfg b = .reserved := by
  obtain h | ⟨h, hbuilt⟩ := h
  · simp only [List.mem_cons, List.not_mem_nil, or_false, not_or] at h
    unfold placeOf
    dsimp only
    split <;> simp_all
  · simp only [List.mem_cons, List.not_mem_nil, or_false] at h
    obtain rfl | rfl | rfl | rfl := h <;> exact if_neg (by simpa using hbuilt)

section

variable {s t : State} {off : Nat}

/-- The machine as the processor sees it whose blocks an access reaches. -/
def seenBy (other : Bool) (s : State) : State := if other then exchanged s else s

theorem seenBy_seenBy (other : Bool) (s : State) : seenBy other (seenBy other s) = s := by
  cases other with
  | false => rfl
  | true => exact exchanged_exchanged s

/-- What is done to the registers of a processor is done to the machine as that processor sees it. -/
theorem onProcessor_ok {α : Type} {other : Bool} {body : M α} {x : α} (h : body (seenBy other s) = .ok x t) :
    onProcessor other body s = .ok x (seenBy other t) := by
  cases other with
  | false => exact h
  | true =>
    have h : body (exchanged s) = .ok x t := h
    simp only [onProcessor, if_true, h]
    rfl

theorem windowRead_debug {other : Bool} {n : Nat} {w : Word} (hplace : placeOf s.cfg (off / 0x1000) = .debug other)
    (hn : off % 0x1000 / 4 = n) (h : readDebugBlock n (seenBy other s) = .ok w t) :
    windowRead off s = .ok (some w) (seenBy other t) := by
  have hmap : (some <$> readDebugBlock n) (seenBy other s) = .ok (some w) t := bind_ok h
  simp only [windowRead, hplace, hn]
  exact onProcessor_ok hmap

theorem windowWrite_debug {other : Bool} {n : Nat} {v : Word} (hplace : placeOf s.cfg (off / 0x1000) = .debug other)
    (hn : off % 0x1000 / 4 = n) (h : writeDebugBlock n v (seenBy other s) = .ok () t) :
    windowWrite off v s = .ok true (seenBy other t) := by
  have hmap : ((fun _ => true) <$> writeDebugBlock n v) (seenBy other s) = .ok true t := bind_ok h
  simp only [windowWrite, hplace, hn]
  exact onProcessor_ok hmap

theorem windowRead_pmu {other : Bool} {n : Nat} (hplace : placeOf s.cfg (off / 0x1000) = .pmu other)
    (hn : off % 0x1000 / 4 * 4 = n) : windowRead off s = .ok (some (readPmuBlock (seenBy other s) n)) s := by
  simp only [windowRead, hplace, hn]
  refine (onProcessor_ok (body := fun t => .ok (some (readPmuBlock t n)) t) rfl).trans ?_
  rw [seenBy_seenBy]

theorem windowWrite_pmu {other : Bool} {n : Nat} {v : Word} (hplace : placeOf s.cfg (off / 0x1000) = .pmu other)
    (hn : off % 0x1000 / 4 * 4 = n) :
    windowWrite off v s = .ok true (seenBy other (writePmuBlock n v (seenBy other s))) := by
  simp only [windowWrite, hplace, hn]
  exact onProcessor_ok rfl

theorem windowRead_rom (h : off < 0x1000) : windowRead off s = .ok (some (Config.dbgRomEntry (off / 4))) s := by
  simp only [windowRead, Nat.div_eq_of_lt h, Nat.mod_eq_of_lt h]
  rfl

theorem windowWrite_rom (h : off < 0x1000) (v : Word) : windowWrite off v s = .ok true s := by
  simp only [windowWrite, Nat.div_eq_of_lt h]
  rfl

theorem windowRead_unit (h : placeOf s.cfg (off / 0x1000) = .unit) : windowRead off s = .error (.refuse .debugUnit) s := by
  simp only [windowRead, h]

theorem windowWrite_unit (h : placeOf s.cfg (off / 0x1000) = .unit) (v : Word) :
    windowWrite off v s = .error (.refuse .debugUnit) s := by
  simp only [windowWrite, h]

theorem windowRead_reserved (h : placeOf s.cfg (off / 0x1000) = .reserved) : windowRead off s = .ok none s := by
  simp only [windowRead, h]

theorem windowWrite_reserved (h : placeOf s.cfg (off / 0x1000) = .reserved) (v : Word) : windowWrite off v s = .ok false s := by
  simp only [windowWrite, h]

end

/-! ### Accesses to the blocks of a processor -/

section

variable {s t : State} {other : Bool} {a : Word} {attr : Attr} {form : AccessForm} {off : Nat}
  (hper : inPeripheral s.cfg a = false) (hoff : windowOffset s.cfg a = some off) (hbuilt : other = true → s.cfg.twoCpus = true)
include hper hoff hbuilt

/-- A word read of register `n` of a processor's debug block. -/
theorem busRead_debug {n : Nat} {w : Word} (hn : n < 1024) (hloc : off = blocksAt (s.cfg.cpu != other) + 4 * n)
    (h : readDebugBlock n (seenBy other s) = .ok w t) : busRead a 4 attr form s = .ok (bytesOfWord w) (seenBy other t) := by
  have hreg : off % 0x1000 / 4 = n := by
    rw [hloc, blocksAt]
    split <;> omega
  exact busRead_of_windowRead hper hoff (windowRead_debug (hloc ▸ placeOf_debug hbuilt (by omega)) hreg h)

theorem busWrite_debug {n : Nat} {v : Word} (hn : n < 1024) (hloc : off = blocksAt (s.cfg.cpu != other) + 4 * n)
    (h : writeDebugBlock n v (seenBy other s) = .ok () t) :
    busWrite a (bytesOfWord v) attr form s = .ok () (seenBy other t) := by
  have hreg : off % 0x1000 / 4 = n := by
    rw [hloc, blocksAt]
    split <;> omega
  exact busWrite_of_windowWrite hper hoff (windowWrite_debug (hloc ▸ placeOf_debug hbuilt (by omega)) hreg h)

/-- A word read of a processor's PMU block at the offset `k`. -/
theorem busRead_pmu {k : Nat} (hk : k < 0x1000 ∧ k % 4 = 0) (hloc : off = blocksAt (s.cfg.cpu != other) + 0x1000 + k) :
    busRead a 4 attr form s = .ok (bytesOfWord (readPmuBlock (seenBy other s) k)) s := by
  have hreg : off % 0x1000 / 4 * 4 = k := by
    rw [hloc, blocksAt]
    split <;> omega
  exact busRead_of_windowRead hper hoff (windowRead_pmu (hloc ▸ placeOf_pmu hbuilt hk.1) hreg)

theorem busWrite_pmu {k : Nat} (hk : k < 0x1000 ∧ k % 4 = 0) (hloc : off = blocksAt (s.cfg.cpu != other) + 0x1000 + k)
    (v : Word) :
    busWrite a (bytesOfWord v) attr form s = .ok () (seenBy other (writePmuBlock k v (seenBy other s))) := by
  have hreg : off % 0x1000 / 4 * 4 = k := by
    rw [hloc, blocksAt]
    split <;> omega
  exact busWrite_of_windowWrite hper hoff (windowWrite_pmu (hloc ▸ placeOf_pmu hbuilt hk.1) hreg)

end

/-- A debug register of the other processor changed is the other processor's register changed. -/
theorem exchanged_setDebug (s : State) (d : Debug) : exchanged { exchanged s with dbg := d } = { s with otherDbg := d } :=
  congrArg (fun t : State => { t with otherDbg := d }) (exchanged_exchanged s)

theorem exchanged_setPmu (s : State) (p : Pmu) : exchanged { exchanged s with pmu := p } = { s with otherPmu := p } :=
  congrArg (fun t : State => { t with otherPmu := p }) (exchanged_exchanged s)

/-- The breakpoint value registers in the debug block (64_debug_pmu.md R746). -/
theorem readDebugBlock_bvr (n : Fin 6) (s : State) : readDebugBlock (64 + n.val) s = .ok s.dbg.bvr[n] s := by
  match n with
  | 0 | 1 | 2 | 3 | 4 | 5 => rfl

theorem writeDebugBlock_bvr (n : Fin 6) (v : Word) (s : State) : writeDebugBlock (64 + n.val) v s =
    .ok () { s with dbg := { s.dbg with bvr := s.dbg.bvr.set n (if n.val < 4 then v &&& 0xFFFFFFFC else v) } } := by
  match n with
  | 0 | 1 | 2 | 3 | 4 | 5 => rfl

/-- Settles O45: CP14 by the register that a selector names, the window by what stands at the offset of the address. -/
theorem debugRegisters : Obligations.DebugRegisters := by
  intro c rt s v hrun hrt hv
  subst hv
  refine ⟨fun hpriv => ?cp14, fun op1 op2 crn crm harm h => exec_p14_undefined hrun.1 harm ?denied,
    fun k => ⟨fun h a => by rw [windowOffset, h]; rfl, fun h => ⟨windowOffset_self h, fun a hk ha => windowOffset_rom h hk ha⟩⟩,
    fun a attr form off hper hoff => ⟨?own, ?other, ?rom, ?places⟩⟩
  case cp14 =>
    have hread {op1 op2 : BitVec 3} {crn crm : BitVec 4} {r : DebugReg} {v : Word} {t : State}
        (hsel : cp14Sel op1 crn crm op2 = some r) (h : readDebug r s = .ok v t) (hpc : t.pc = s.pc) :=
      exec_mrcP14 hrun hrt hpriv hsel h hpc
    have hwrite {op1 op2 : BitVec 3} {crn crm : BitVec 4} {r : DebugReg} {t : State}
        (hsel : cp14Sel op1 crn crm op2 = some r) (hw : r.readOnly = false) (h : writeDebug r (s.reg rt) s = .ok () t)
        (hpc : t.pc = s.pc) := exec_mcrP14 hrun hrt hpriv hsel hw h hpc
    refine ⟨fun n => ?_, fun n => ?_, hread (r := .wfar) (by decide) rfl rfl, hwrite (r := .wfar) (by decide) rfl rfl rfl,
      hread (r := .vcr) (by decide) rfl rfl, hwrite (r := .vcr) (by decide) rfl rfl rfl,
      hread (r := .claimClr) (by decide) rfl rfl, hwrite (r := .claimSet) (by decide) rfl rfl rfl,
      hwrite (r := .claimClr) (by decide) rfl rfl rfl, hread (r := .dtrInt) (by decide) rfl rfl,
      hwrite (r := .dtrInt) (by decide) rfl rfl rfl, hwrite (r := .dtrrxExt) (by decide) rfl rfl rfl,
      hread (r := .dtrtxExt) (by decide) rfl rfl⟩
    · obtain ⟨hvalue, hcontrol⟩ := cp14Sel_breakpoint n
      exact ⟨hread hvalue rfl rfl, hread hcontrol rfl rfl, hwrite hvalue rfl rfl rfl, hwrite hcontrol rfl rfl rfl⟩
    · obtain ⟨hvalue, hcontrol⟩ := cp14Sel_watchpoint n
      exact ⟨hread hvalue rfl rfl, hread hcontrol rfl rfl, hwrite hvalue rfl rfl rfl, hwrite hcontrol rfl rfl rfl⟩
  case denied =>
    intro r hsel
    obtain hnone | ⟨hpriv, hother⟩ := h
    · rw [hnone] at hsel
      cases hsel
    · exact debugPermitted_eq_false hpriv hsel hother
  case own =>
    rintro own hown
    have hbase : own = blocksAt (s.cfg.cpu != false) := by rw [hown, Bool.bne_false]; rfl
    subst hbase
    have hbuilt : false = true → s.cfg.twoCpus = true := Bool.noConfusion
    refine ⟨fun n hloc => ⟨busRead_debug hper hoff hbuilt (by omega) hloc (readDebugBlock_bvr n s),
        busWrite_debug hper hoff hbuilt (by omega) hloc (writeDebugBlock_bvr n _ s)⟩,
      fun e he hloc => ?_, fun e he hloc => ?_, fun hloc => busWrite_pmu hper hoff hbuilt (by decide) hloc _⟩
    · simp only [List.mem_cons, List.not_mem_nil, or_false] at he
      obtain rfl | rfl | rfl | rfl | rfl | rfl | rfl | rfl | rfl | rfl | rfl | rfl | rfl | rfl | rfl := he
      all_goals
        dsimp only at hloc ⊢
        exact busRead_debug hper hoff hbuilt (by decide) hloc rfl
    · simp only [List.mem_cons, List.not_mem_nil, or_false] at he
      obtain rfl | rfl | rfl | rfl | rfl | rfl | rfl | rfl | rfl | rfl | rfl := he
      all_goals
        dsimp only at hloc ⊢
        exact busRead_pmu hper hoff hbuilt (by decide) hloc
  case other =>
    rintro htwo other hother
    have hbase : other = blocksAt (s.cfg.cpu != true) := by rw [hother]; cases s.cfg.cpu <;> rfl
    subst hbase
    have hread {n : Nat} {w : Word} (hn : n < 1024) (hloc : off = blocksAt (s.cfg.cpu != true) + 4 * n)
        (h : readDebugBlock n (exchanged s) = .ok w (exchanged s)) : busRead a 4 attr form s = .ok (bytesOfWord w) s :=
      (busRead_debug hper hoff (fun _ => htwo) hn hloc h).trans (by rw [seenBy, if_pos rfl, exchanged_exchanged])
    refine ⟨fun n hloc => ⟨hread (by omega) hloc (readDebugBlock_bvr n _), ?_⟩, fun hloc => hread (by decide) hloc rfl,
      fun hloc => hread (by decide) hloc rfl, fun hloc => hread (by decide) hloc rfl, fun hloc => ?_,
      fun hloc => ⟨busRead_pmu hper hoff (fun _ => htwo) (by decide) hloc, ?_⟩⟩
    · refine (busWrite_debug hper hoff (fun _ => htwo) (by omega) hloc (writeDebugBlock_bvr n _ _)).trans ?_
      exact congrArg (EStateM.Result.ok ()) (exchanged_setDebug s _)
    · refine (busRead_debug hper hoff (fun _ => htwo) (by decide) hloc rfl).trans ?_
      exact congrArg (EStateM.Result.ok _) (exchanged_setDebug s _)
    · refine (busWrite_pmu hper hoff (fun _ => htwo) (by decide) hloc _).trans ?_
      exact congrArg (EStateM.Result.ok ()) (exchanged_setPmu s _)
  case rom =>
    exact fun h => ⟨busRead_of_windowRead hper hoff (windowRead_rom h), busWrite_of_windowWrite hper hoff (windowWrite_rom h _)⟩
  case places =>
    rintro built block rfl rfl
    refine ⟨fun h => ?_, fun h => ?_⟩
    · have hunit := placeOf_unit h
      exact ⟨(busRead_window hper hoff).trans (bind_error (windowRead_unit hunit)),
        (busWrite_window hper hoff _).trans (bind_error (windowWrite_unit hunit _))⟩
    · have hreserved := placeOf_reserved h
      exact ⟨busRead_reserved hper hoff (windowRead_reserved hreserved),
        busWrite_reserved hper hoff (windowWrite_reserved hreserved _)⟩

end Sys2Proof.Machine

/-!
# Resets

The combinations of Table 2-1 by its columns (`supportedReset_of_mem`). What the asserted signals do is `resetAround`, part by part,
then the reset of the processor and the loss of its RAMs (`applyResets_eq`).
-/

namespace Sys2Proof.Machine

/-! ### The columns of Table 2-1 -/

/-- No column resets the interrupt controller without the SCU, or the SCU without it (70_reset_and_hazards.md R833). -/
theorem periph_eq_scu_of_supported : ∀ c ∈ supportedResets, c.periph = c.scu := by decide

theorem signals_mem_supportedResets (c : ResetCombo) : c.signals ∈ supportedResets := by
  cases c with
  | individualPowerup wd | individualSoftware wd => cases wd <;> decide
  | _ => decide

theorem resetsInBuild_periph (cfg : Config) (r : Resets) : (resetsInBuild cfg r).periph = r.periph := by
  unfold resetsInBuild
  split <;> rfl

theorem resetsInBuild_scu (cfg : Config) (r : Resets) : (resetsInBuild cfg r).scu = r.scu := by
  unfold resetsInBuild
  split <;> rfl

/-- A column is supported, in every build. -/
theorem supportedReset_of_mem (cfg : Config) {r : Resets} (h : r ∈ supportedResets) : supportedReset cfg r = true := by
  refine List.any_eq_true.mpr ⟨r, h, ?_⟩
  simp

/-- What is supported resets the interrupt controller just when it resets the SCU. -/
theorem periph_eq_scu_of_supportedReset {cfg : Config} {r : Resets} (h : supportedReset cfg r = true) : r.periph = r.scu := by
  obtain ⟨c, hc, heq⟩ := List.any_eq_true.mp h
  have hsignals := eq_of_beq heq
  have hperiph := congrArg Resets.periph hsignals
  have hscu := congrArg Resets.scu hsignals
  rw [resetsInBuild_periph, resetsInBuild_periph] at hperiph
  rw [resetsInBuild_scu, resetsInBuild_scu] at hscu
  exact hperiph.symm.trans ((periph_eq_scu_of_supported c hc).trans hscu)

theorem mergeResets_none (r : Resets) : mergeResets r .none = r := by
  simp [mergeResets, Resets.none]

/-- With no answer to the watchdog the pins alone assert resets. -/
theorem resetsOf_pins {s : State} (h : watchdogAnswer s = .none) : resetsOf s = s.pins.resets := by
  rw [resetsOf, h, mergeResets_none]

/-! ### Leaving the coherency domain -/

theorem dirtyShareable_iff (w : Word) : dirtyShareable w = true ↔ ∀ k ∈ [22, 24, 25], w.getLsbD k = true := by
  simp only [dirtyShareable, tagValid, tagDirty, Bool.and_eq_true, List.forall_mem_cons, List.not_mem_nil, false_implies,
    implies_true, and_true]
  tauto

theorem leavesCoherency_iff (r : Resets) (u : State) : leavesCoherency r u = true ↔
    r.cpu = true ∧ (u.cp15.actlr.getLsbD 6 = true ∨ ∃ e ∈ u.dcache.tag, ∀ k ∈ [22, 24, 25], e.2.getLsbD k = true) ∨
      r.otherCpu = true ∧ u.cfg.twoCpus = true ∧ u.otherSmp = true := by
  simp only [leavesCoherency, Bool.or_eq_true, Bool.and_eq_true, List.any_eq_true, dirtyShareable_iff, and_assoc]

/-! ### The hardware beside the processor -/

/-- The hardware beside the processor keeps the build and the pins. -/
theorem hardwareStage_frame (s : State) : (hardwareStage s).cfg = s.cfg ∧ (hardwareStage s).pins = s.pins := by
  have hevent (u : State) : (sampleEvent u).cfg = u.cfg ∧ (sampleEvent u).pins = u.pins := by
    unfold sampleEvent
    split <;> exact ⟨rfl, rfl⟩
  have hwakeup (u : State) : (sampleWakeup u).cfg = u.cfg ∧ (sampleWakeup u).pins = u.pins := by
    unfold sampleWakeup
    split <;> exact ⟨rfl, rfl⟩
  have hinputs := (accessStep_timerStage (sampleEvent (clearPulses s))).trans (accessStep_sampleInputs _)
  have hengine := (accessStep_pmuStage (sampleWakeup (sampleInputs (timerStage (sampleEvent (clearPulses s)))))).trans
    (accessStep_engineStage _)
  exact ⟨hengine.cfg.trans ((hwakeup _).1.trans (hinputs.cfg.trans (hevent _).1)),
    hengine.pins.trans ((hwakeup _).2.trans (hinputs.pins.trans (hevent _).2))⟩

/-- A step with a reset asserted: refused, or the resets after the hardware beside the processor, which then goes on if it is
not itself held in reset (70_reset_and_hazards.md R832, R833; log entry 77). -/
theorem step_resets {s : State} (h : resetsOf s ≠ .none) : step s =
    if unsupportedReset s then .refused .unsupportedReset
    else if leavesCoherency (resetsOf s) (hardwareStage s) then .refused .coherentReset
    else if (resetsOf s).cpu then .next (applyResets (resetsOf s) (hardwareStage s))
    else proceed (applyResets (resetsOf s) (hardwareStage s)) :=
  if_neg h

/-! ### The resets one by one -/

/-- The debug registers of a processor that is reset: HALTED is cleared and Sticky Reset Status set (64_debug_pmu.md R748,
R750). -/
def Debug.held (d : Debug) : Debug := { d with dscr := setBit d.dscr 0 false, stickyReset := true }

section

variable (b : Bool) (s : State)

theorem doIf_resetOtherDbg : doIf b resetOtherDbg s =
    { s with otherDbg := if b then debugReset s.otherDbg else s.otherDbg } := by
  cases b <;> rfl

theorem doIf_resetOtherCpu : doIf b resetOtherCpu s = { s with
    otherPmu := if b then Pmu.reset else s.otherPmu
    otherSmp := !b && s.otherSmp
    otherDbg := if b then s.otherDbg.held else s.otherDbg } := by
  cases b <;> rfl

theorem doIf_resetWd : doIf b resetWd s =
    { s with timers := { s.timers with wdReset := if b then 0 else s.timers.wdReset } } := by
  cases b <;> rfl

theorem doIf_resetScu : doIf b resetScu s = { s with
    scu := if b then { Scu.reset s.cfg with tags := s.scu.tags, tagChunks := s.scu.tagChunks } else s.scu
    outs := if b then { s.outs with pwrctlo := 0 } else s.outs } := by
  cases b <;> rfl

theorem doIf_resetPeriph : doIf b resetPeriph s = { s with
    gic := if b then Gic.reset s.cfg else s.gic
    timers := if b then { Timers.reset with wdReset := s.timers.wdReset } else s.timers } := by
  cases b <;> rfl

theorem doIf_resetDbg : doIf b resetDbg s = { s with dbg := if b then debugReset s.dbg else s.dbg } := by
  cases b <;> rfl

theorem dbg_doIf_resetCpu : (doIf b resetCpu s).dbg = if b then s.dbg.held else s.dbg := by
  cases b <;> rfl

end

section

variable (r : Resets) (s : State)

/-- The machine after the resets of everything but the processor and its RAMs. -/
def resetAround : State := { s with
  dbg := if r.dbg then debugReset s.dbg else s.dbg
  gic := if r.periph then Gic.reset s.cfg else s.gic
  timers := { (if r.periph then Timers.reset else s.timers) with wdReset := if r.wd then 0 else s.timers.wdReset }
  scu := if r.scu then { Scu.reset s.cfg with tags := s.scu.tags, tagChunks := s.scu.tagChunks } else s.scu
  outs := if r.scu then { s.outs with pwrctlo := 0 } else s.outs
  otherPmu := if r.otherCpu then Pmu.reset else s.otherPmu
  otherSmp := !r.otherCpu && s.otherSmp
  otherDbg := if r.otherCpu then (if r.otherDbg then debugReset s.otherDbg else s.otherDbg).held
    else if r.otherDbg then debugReset s.otherDbg else s.otherDbg }

theorem resetAround_eq : doIf r.dbg resetDbg (doIf r.periph resetPeriph (doIf r.scu resetScu (doIf r.wd resetWd
    (doIf r.otherCpu resetOtherCpu (doIf r.otherDbg resetOtherDbg s))))) = resetAround r s := by
  simp only [doIf_resetOtherDbg, doIf_resetOtherCpu, doIf_resetWd, doIf_resetScu, doIf_resetPeriph, doIf_resetDbg, resetAround]
  cases r.periph <;> rfl

/-- The processor and its RAMs are reset after everything else. -/
theorem applyResets_eq : applyResets r s = doIf r.ramsLost loseRams (doIf r.cpu resetCpu (resetAround r s)) :=
  congrArg (fun t => doIf r.ramsLost loseRams (doIf r.cpu resetCpu t)) (resetAround_eq r s)

/-! ### Parts of the machine after the resets -/

/-- A reset that is asserted or not keeps what it keeps. -/
theorem doIf_keeps {α : Type} {f : State → α} {g : State → State} (h : ∀ s, f (g s) = f s) (b : Bool) (s : State) :
    f (doIf b g s) = f s := by
  cases b
  · rfl
  · exact h s

/-- What neither the reset of the processor nor the loss of its RAMs touches is as the other resets leave it. -/
theorem applyResets_keeps {α : Type} (f : State → α) (hcpu : ∀ s, f (resetCpu s) = f s)
    (hrams : ∀ s, f (loseRams s) = f s) : f (applyResets r s) = f (resetAround r s) := by
  rw [applyResets_eq, doIf_keeps hrams, doIf_keeps hcpu]

theorem cfg_applyResets : (applyResets r s).cfg = s.cfg := applyResets_keeps r s State.cfg (fun _ => rfl) fun _ => rfl

theorem pins_applyResets : (applyResets r s).pins = s.pins := applyResets_keeps r s State.pins (fun _ => rfl) fun _ => rfl

theorem mem_applyResets : (applyResets r s).mem = s.mem := applyResets_keeps r s State.mem (fun _ => rfl) fun _ => rfl

theorem free_applyResets : (applyResets r s).free = s.free := applyResets_keeps r s State.free (fun _ => rfl) fun _ => rfl

/-- The power outputs follow the SCU's power status (65_power_mp.md R800). -/
theorem outs_applyResets : (applyResets r s).outs = if r.scu then { s.outs with pwrctlo := 0 } else s.outs :=
  applyResets_keeps r s State.outs (fun _ => rfl) fun _ => rfl

/-- The SCU keeps its tag RAM (70_reset_and_hazards.md R845; log entry 54). -/
theorem scu_applyResets : (applyResets r s).scu =
    if r.scu then { Scu.reset s.cfg with tags := s.scu.tags, tagChunks := s.scu.tagChunks } else s.scu :=
  applyResets_keeps r s State.scu (fun _ => rfl) fun _ => rfl

theorem gic_applyResets : (applyResets r s).gic = if r.periph then Gic.reset s.cfg else s.gic :=
  applyResets_keeps r s State.gic (fun _ => rfl) fun _ => rfl

/-- The watchdog's reset flag has a reset of its own (63_timers.md R692, R708). -/
theorem timers_applyResets : (applyResets r s).timers =
    { (if r.periph then Timers.reset else s.timers) with wdReset := if r.wd then 0 else s.timers.wdReset } :=
  applyResets_keeps r s State.timers (fun _ => rfl) fun _ => rfl

theorem otherPmu_applyResets : (applyResets r s).otherPmu = if r.otherCpu then Pmu.reset else s.otherPmu :=
  applyResets_keeps r s State.otherPmu (fun _ => rfl) fun _ => rfl

theorem otherSmp_applyResets : (applyResets r s).otherSmp = (!r.otherCpu && s.otherSmp) :=
  applyResets_keeps r s State.otherSmp (fun _ => rfl) fun _ => rfl

theorem otherDbg_applyResets : (applyResets r s).otherDbg =
    if r.otherCpu then (if r.otherDbg then debugReset s.otherDbg else s.otherDbg).held
    else if r.otherDbg then debugReset s.otherDbg else s.otherDbg :=
  applyResets_keeps r s State.otherDbg (fun _ => rfl) fun _ => rfl

theorem dbg_applyResets : (applyResets r s).dbg = if r.cpu then (if r.dbg then debugReset s.dbg else s.dbg).held
    else if r.dbg then debugReset s.dbg else s.dbg := by
  rw [applyResets_eq, doIf_keeps (f := State.dbg) (g := loseRams) fun _ => rfl, dbg_doIf_resetCpu]
  rfl

/-- A processor that is held in reset, its RAMs with or without their power. -/
theorem applyResets_held (h : r.cpu = true) :
    applyResets r s = doIf r.ramsLost loseRams (resetCpu (resetAround r s)) := by
  rw [applyResets_eq, h]
  rfl

/-- A processor that is not held in reset keeps its state but for its RAMs, which lost their power or not. -/
theorem applyResets_running (h : r.cpu = false) : applyResets r s = doIf r.ramsLost loseRams (resetAround r s) := by
  rw [applyResets_eq, h]
  rfl

/-- The RAMs, which a reset of the processor keeps unless their power went (70_reset_and_hazards.md R843, R845). -/
theorem rams_applyResets : if r.ramsLost then
      (applyResets r s).itcm = Tcm.reset ∧ (applyResets r s).dtcm = Tcm.reset ∧
      (applyResets r s).dcache = CacheRam.reset ∧ (applyResets r s).icache = CacheRam.reset
    else (applyResets r s).itcm = s.itcm ∧ (applyResets r s).dtcm = s.dtcm ∧
      (applyResets r s).dcache = s.dcache ∧ (applyResets r s).icache = s.icache := by
  rw [applyResets_eq]
  cases r.ramsLost with
  | true => exact ⟨rfl, rfl, rfl, rfl⟩
  | false => cases r.cpu <;> exact ⟨rfl, rfl, rfl, rfl⟩

end

/-! ### The debug registers -/

theorem dscr_debugReset {k : Nat} (hk : k < 32) (d : Debug) :
    (debugReset d).dscr.getLsbD k = (decide (k = 0) && d.dscr.getLsbD 0) := by
  show (setBit 0 0 (d.dscr.getLsbD 0)).getLsbD k = _
  rw [getLsbD_setBit _ hk]
  split <;> simp [*]

theorem dscr_held {k : Nat} (hk : k < 32) (d : Debug) :
    d.held.dscr.getLsbD k = (!decide (k = 0) && d.dscr.getLsbD k) := by
  show (setBit d.dscr 0 false).getLsbD k = _
  rw [getLsbD_setBit _ hk]
  split <;> simp [*]

/-- Settles O9: which resets are accepted by the columns of Table 2-1, what each does by the part of the machine that it
resets. -/
theorem resetSignals : Obligations.ResetSignals := by
  rintro s u r rfl hr rfl
  obtain ⟨hcfg, hpins⟩ := hardwareStage_frame s
  have hstep := step_resets hr
  refine ⟨fun h => ?refused, fun h hc => ?column, fun h hne => ?outside, fun h hleaves => ?coherent, leavesCoherency_iff _ _,
    fun h hstays => ⟨applyResets (resetsOf s) (hardwareStage s), fun hcpu => ?held, fun hcpu => ?running, fun hcpu z hz => ?cpu,
      fun hcpu => ?frame, fun hcpu hrams => ?upkeep, otherPmu_applyResets _ _, otherSmp_applyResets _ _, ?otherDbg,
      (cfg_applyResets _ _).trans hcfg, (pins_applyResets _ _).trans hpins, mem_applyResets _ _, free_applyResets _ _,
      outs_applyResets _ _, rams_applyResets _ _, ?dbg, fun hcpu => ?halted, (gic_applyResets _ _).trans (by rw [hcfg]),
      congrArg Timers.wdReset (timers_applyResets _ _), ?timers, ?tags, ?scu⟩⟩
  case refused => rw [hstep, if_pos h]
  case column =>
    obtain ⟨c, hc⟩ := hc
    rw [unsupportedReset, resetsOf_pins h, hc, supportedReset_of_mem _ (signals_mem_supportedResets c)]
    exact Bool.and_false _
  case outside =>
    have hunsupported : supportedReset s.cfg s.pins.resets = false :=
      eq_false_of_ne_true fun hs => hne (periph_eq_scu_of_supportedReset hs)
    rw [resetsOf_pins h] at hr
    rw [unsupportedReset, resetsOf_pins h, hunsupported, bne_iff_ne.mpr hr]
    rfl
  case coherent => rw [hstep, h, if_neg Bool.false_ne_true, if_pos hleaves]
  case held => rw [hstep, h, hstays, if_neg Bool.false_ne_true, if_neg Bool.false_ne_true, if_pos hcpu]
  case running => rw [hstep, h, hstays, hcpu, if_neg Bool.false_ne_true, if_neg Bool.false_ne_true, if_neg Bool.false_ne_true]
  case cpu =>
    rw [hz, applyResets_held _ _ hcpu, ← hcfg, ← hpins]
    cases (resetsOf s).ramsLost <;>
      exact ⟨rfl, rfl, rfl, rfl, rfl, rfl, rfl, rfl, rfl, rfl, rfl, rfl, dscr_held (by decide) _⟩
  case frame =>
    rw [applyResets_running _ _ hcpu]
    cases (resetsOf s).ramsLost <;> rfl
  case upkeep => rw [applyResets_running _ _ hcpu, hrams]; rfl
  case otherDbg =>
    rw [otherDbg_applyResets]
    cases (resetsOf s).otherDbg <;> cases (resetsOf s).otherCpu
    · rfl
    · rfl
    · exact ⟨rfl, rfl⟩
    · exact ⟨rfl, rfl⟩
  case dbg =>
    rw [dbg_applyResets]
    cases (resetsOf s).dbg <;> cases (resetsOf s).cpu
    · exact ⟨rfl, rfl, rfl, rfl, rfl, rfl, rfl, rfl, rfl⟩
    · exact ⟨rfl, rfl, rfl, rfl, rfl, rfl, rfl, rfl, rfl⟩
    · exact ⟨rfl, rfl, rfl, dscr_debugReset (by decide) _, rfl, rfl⟩
    · exact ⟨rfl, rfl, rfl, (dscr_held (by decide) _).trans (dscr_debugReset (by decide) _), rfl, rfl⟩
  case halted =>
    rw [dbg_applyResets, hcpu]
    cases (resetsOf s).dbg with
    | true => exact dscr_debugReset (by decide) _
    | false => rfl
  case timers =>
    rw [timers_applyResets]
    cases (resetsOf s).periph <;> rfl
  case tags =>
    rw [scu_applyResets]
    cases (resetsOf s).scu <;> rfl
  case scu =>
    rw [scu_applyResets]
    cases (resetsOf s).scu with
    | true => exact ⟨rfl, rfl⟩
    | false => rfl

end Sys2Proof.Machine

/-!
# Exclusives and swaps

A load-exclusive is its load and the monitor's move (`loadExclusive_of_plain`). A store-exclusive fails
(`storeExclusive_fails`), or writes as one access (`storeExclusive_writes`), whose bytes main memory takes
(`InMainMemory.writePart_bytes`) or an error response loses (`writeAdmitted_of_busError`).

The statement on exclusives and swaps, O38, has main memory serve the access before the outcome is drawn; the store is made
after it. To Write-Back memory the store is not locked on the ports, and with both master ports and no filtering the hardware picks
its port by the count of free values (20_memory.md R291), which the draw has advanced. On a platform that answers with an error on
one of the ports the store may then be lost, with an abort pending, which is neither outcome of the statement. So the statement
holds just if a draw never moves the pick (`exclusivesAndSwaps_iff`), and nothing is known of the picks and draws: they are opaque.
-/

namespace Sys2Proof.Machine

/-! ### Bytes of main memory -/

theorem take_memBytes (m : List Host.Cell) (a k n : Nat) : (memBytes m a (k + n)).take k = memBytes m a k := by
  induction k generalizing a with
  | zero => rfl
  | succ k ih => rw [Nat.succ_add, memBytes, memBytes, List.take_succ_cons, ih]

theorem drop_memBytes (m : List Host.Cell) (a k n : Nat) : (memBytes m a (k + n)).drop k = memBytes m (a + k) n := by
  induction k generalizing a with
  | zero => rw [Nat.zero_add]; rfl
  | succ k ih => rw [Nat.succ_add, memBytes, List.drop_succ_cons, ih, Nat.add_right_comm]; rfl

theorem storeBytes_append (m : List Host.Cell) (a : Nat) (bs bs' : List Byte) :
    storeBytes m a (bs ++ bs') = storeBytes (storeBytes m a bs) (a + bs.length) bs' := by
  induction bs generalizing m a with
  | nil => rfl
  | cons b bs ih => rw [List.cons_append, storeBytes, ih, storeBytes, List.length_cons, Nat.add_right_comm]; rfl

/-- Stored bytes leave the bytes of another place alone, in canonical form or not. -/
theorem memBytes_storeBytes_outside (m : List Host.Cell) {a b n : Nat} {bs : List Byte} (h : b + n ≤ a ∨ a + bs.length ≤ b) :
    memBytes (storeBytes m a bs) b n = memBytes m b n := by
  induction n generalizing b with
  | zero => rfl
  | succ n ih => rw [memBytes, memBytes, ih (by omega), sparseRead_storeBytes_outside m a bs (by omega)]

theorem toNat_add_four {a : Word} (h : a.toNat % 8 = 0) : (a + 4).toNat = a.toNat + 4 := by
  bv_omega

/-- The state with the bytes of one access stored in main memory: the word, or the two words of a doubleword, are followed from
what they were. -/
def State.storedBytes (s : State) (a : Word) (bs : List Byte) : State :=
  let t := State.followed { s.accessed with mem := storeBytes s.mem a.toNat bs } s.mem (a.toNat / 4)
  if bs.length = 8 then t.followed s.mem (a.toNat / 4 + 1) else t

theorem storedBytes_pc (s : State) (a : Word) (bs : List Byte) : (s.storedBytes a bs).pc = s.pc := by
  unfold State.storedBytes
  split <;> rfl

theorem storedBytes_drew (s : State) (k : Nat) (a : Word) (bs : List Byte) :
    (s.drew k).storedBytes a bs = (s.storedBytes a bs).drew k := by
  unfold State.storedBytes
  split <;> rfl

theorem stored_eq_storedBytes (s : State) (a : Word) {n : Nat} (hn : n ≤ 4) (v : Word) :
    s.stored a n v = s.storedBytes a (bytesOf s.bigEndian n v) := by
  have hlen : (bytesOf s.bigEndian n v).length ≠ 8 := by rw [length_bytesOf]; omega
  rw [stored_eq_followed, State.storedBytes, if_neg hlen]

/-- A word is followed from its own bytes alone. -/
theorem followed_congr (s : State) {m m' : List Host.Cell} {k : Nat} (h : memBytes m (4 * k) 4 = memBytes m' (4 * k) 4) :
    s.followed m k = s.followed m' k := by
  rw [State.followed, State.followed, h]

/-- What is stored elsewhere after a word was followed could be stored before. -/
theorem followed_withMem {s : State} {m m' : List Host.Cell} {k : Nat} (h : memBytes m' (4 * k) 4 = memBytes s.mem (4 * k) 4) :
    { (s.followed m k) with mem := m' } = State.followed { s with mem := m' } m k := by
  rw [State.followed, State.followed, h]
  rfl

/-- The words of a doubleword stored one after the other are its bytes stored at once. -/
theorem stored_stored_eq_storedBytes (s : State) {a : Word} (hal : a.toNat % 8 = 0) (v v' : Word) :
    (s.stored a 4 v).stored (a + 4) 4 v' = s.storedBytes a (bytesOf s.bigEndian 4 v ++ bytesOf s.bigEndian 4 v') := by
  have hlen (w : Word) : (bytesOf s.bigEndian 4 w).length = 4 := length_bytesOf _ _ _
  let m := storeBytes s.mem a.toNat (bytesOf s.bigEndian 4 v)
  let m' := storeBytes m (a.toNat + 4) (bytesOf s.bigEndian 4 v')
  have hmem : storeBytes s.mem a.toNat (bytesOf s.bigEndian 4 v ++ bytesOf s.bigEndian 4 v') = m' := by
    rw [storeBytes_append, hlen]
  have hlow : memBytes m' (4 * (a.toNat / 4)) 4 = memBytes m (4 * (a.toNat / 4)) 4 :=
    memBytes_storeBytes_outside _ (.inl (by omega))
  have hhigh : memBytes m (4 * (a.toNat / 4 + 1)) 4 = memBytes s.mem (4 * (a.toNat / 4 + 1)) 4 :=
    memBytes_storeBytes_outside _ (.inr (by rw [hlen]; omega))
  have hbefore := followed_withMem (s := { s.accessed with mem := m }) (m := s.mem) hlow
  rw [State.storedBytes, if_pos (by rw [List.length_append, hlen, hlen]), hmem, stored_eq_followed _ (a + 4),
    toNat_add_four hal, show (a.toNat + 4) / 4 = a.toNat / 4 + 1 by omega]
  exact (followed_congr _ hhigh).trans (congrArg (State.followed · s.mem (a.toNat / 4 + 1)) hbefore)

section

variable {s : State} {attr : Attr} {form : AccessForm} {a : Word}

/-- Bytes of an aligned access are stored in main memory. -/
theorem InMainMemory.writePart_bytes {bs : List Byte} (h : InMainMemory s attr form a bs.length)
    (hal : a.toNat % bs.length = 0) : writePart a bs attr form s = .ok () (s.storedBytes a bs) := by
  by_cases hlen : bs.length = 8
  · rw [hlen] at hal
    obtain ⟨hk, hi⟩ := inItcm_word (k := a.toNat / 4) h.itcm (by omega)
    obtain ⟨hk', hi'⟩ := inItcm_word (k := a.toNat / 4 + 1) h.itcm (by omega)
    rw [writePart_of_writeRouted h.accessed.writeRouted_eq, h.peripheral, h.dtcm, if_neg (by decide), if_pos hlen,
      State.storedBytes, if_pos hlen]
    exact (bind_ok (markWord_of_uncached (t := { s.accessed with mem := storeBytes s.mem a.toNat bs }) hk hi h.uncached rfl
      rfl)).trans (markWord_of_uncached (t := State.followed _ _ _) hk' hi' h.uncached rfl rfl)
  · rw [h.writePart_eq hlen, State.storedBytes, if_neg hlen]

/-- A read that main memory serves. -/
theorem readBytes_of_plain {acc : Access} (h : Plain s .read acc a) :
    readBytes acc a s = .ok (memBytes s.mem a.toNat acc.size) s.accessed := by
  obtain ⟨hal, attr, hadm, hmem⟩ := plain_iff.mp h
  unfold readBytes
  rw [hadm]
  exact (congrFun (if_pos hal) s).trans hmem.readPart_eq

/-- A store on the ports that the platform answers with an error signals the abort and stores nothing. -/
theorem writeAdmitted_of_busError {acc : Access} {bs : List Byte} {x : Bool} (hal : a.toNat % acc.size = 0)
    (he : busError s acc.form a bs.length = some x) (hclash : tcmClash s = false) (hi : inItcm s a = false)
    (hd : inDtcm s a = false) (hp : inPeripheral s.cfg a = false) (hw : inWindow s.cfg a = false) (hf : scuFinds s a = false)
    (hc : (dcacheOn s && cacheable s attr) = false) :
    ∃ l, writeAdmitted acc a attr bs s =
      .ok () { s.accessed with pendingAbort := some (s.pendingAbort.getD x), unsynced := l } := by
  have hrouted : writeRouted a bs attr acc.form s.accessed =
      .ok () { s.accessed with pendingAbort := some (s.pendingAbort.getD x) } := by
    have hbus := busWrite_of_busError (s := s.accessed) he hp hw attr
    unfold writeRouted
    rw [show tcmClash s.accessed = false from hclash, show inItcm s.accessed a = false from hi,
      show inDtcm s.accessed a = false from hd, throughCache_of_uncached (s := s.accessed) a acc.form hc]
    exact (transferWrite_quiet (s := s.accessed) hf bs attr acc.form).trans (hbus.trans (signalAbort_apply x s.accessed))
  rw [writeAdmitted_of_aligned hal]
  exact exists_writePart hrouted

end

/-! ### Loads -/

section

variable {c : Cond} {s : State} {rn rt : Reg} {n : Nat} (hp : s.pc ≠ 0xFFFFFFFC) (hn : rn ≠ 15)
include hp hn

theorem loadExclusive_of_plain (ht : rt ≠ 15) (h : Plain s .read (exclusive n s .read (s.reg rn)) (s.reg rn)) :
    loadExclusive n rn rt s = .ok () ((s.accessed.setMonitor true).wrote rt (s.memValue (s.reg rn) n)) := by
  refine (bind_ok (notPc_of_ne hn s)).trans ((bind_ok (notPc_of_ne ht s)).trans ((bind_ok (get_apply s)).trans ?_))
  refine (bind_ok (loadValue_of_plain h)).trans ((bind_ok (modify_apply _ s.accessed)).trans ?_)
  exact writeReg_fallThrough (s := s.accessed.setMonitor true) hp rt _

theorem exec_ldrexd_of_plain (hc : condPassed c s.cpsr = true)
    (h : Plain s .read (exclusive 8 s .read (s.reg rn)) (s.reg rn)) (heven : rt.getLsbD 0 = false) (hlow : rt ≠ 14) :
    exec (.ldrexd c rn rt) s = .next (((s.accessed.setMonitor true).setReg rt (s.memValue (s.reg rn) 4)).wrote (rt + 1)
      (s.memValue (s.reg rn + 4) 4)) := by
  have hal : (s.reg rn).toNat % 8 = 0 := h.1
  have hvalues : valueOf s.bigEndian ((memBytes s.mem (s.reg rn).toNat 8).take 4) = s.memValue (s.reg rn) 4 ∧
      valueOf s.bigEndian ((memBytes s.mem (s.reg rn).toNat 8).drop 4) = s.memValue (s.reg rn + 4) 4 := by
    rw [take_memBytes _ _ 4 4, drop_memBytes _ _ 4 4, State.memValue, State.memValue, toNat_add_four hal]
    exact ⟨rfl, rfl⟩
  rw [← hvalues.1, ← hvalues.2]
  refine conditional_next hc ((bind_ok (notPc_of_ne hn s)).trans ((bind_ok (checkPair_of_even heven hlow)).trans ?_))
  refine (bind_ok (get_apply s)).trans ((bind_ok (readBytes_of_plain h)).trans ((bind_ok (modify_apply _ s.accessed)).trans ?_))
  exact (bind_ok (writeReg_apply rt _ _)).trans (writeReg_fallThrough (by rwa [State.setReg_pc]) (rt + 1) _)

end

/-! ### The outcome of a store -/

section

variable {s t u : State} {attr : Attr} {a : Word}

/-- While the monitor is open a store-exclusive fails (20_memory.md R284). -/
theorem exclusiveSucceeds_open (h : s.monitor = false) : exclusiveSucceeds attr a s = .ok false s := by
  unfold exclusiveSucceeds
  rw [h]
  rfl

/-- Without the global monitor that it needs a store-exclusive fails (20_memory.md R285). -/
theorem exclusiveSucceeds_unserved (hd : inDtcm s a = false) (hc : cacheable s attr = false)
    (hg : s.cfg.globalMonitor = false) : exclusiveSucceeds attr a s = .ok false s := by
  unfold exclusiveSucceeds localOnly
  rw [hd, hc, hg, if_pos (by rw [Bool.or_self, Bool.not_false, Bool.and_self, Bool.or_true])]

/-- Else the outcome is drawn (log entry 14). -/
theorem exclusiveSucceeds_served (hm : s.monitor = true) (hi : inItcm s a = false)
    (hserved : cacheable s attr = true ∨ s.cfg.globalMonitor = true) :
    exclusiveSucceeds attr a s = .ok (Config.freeBool s.free) (s.drew 1) := by
  have hno : (!localOnly s attr a && !s.cfg.globalMonitor) = false := by
    rcases hserved with h | h
    · rw [localOnly, h, Bool.or_true]; rfl
    · rw [h]; exact Bool.and_false _
  unfold exclusiveSucceeds
  rw [hm, hi, hno, if_neg (by decide), drawBool_apply]
  rfl

/-- A store that main memory serves is not lost. -/
theorem InMainMemory.storeLost_eq {acc : Access} {bs : List Byte} (h : InMainMemory s attr acc.form a bs.length) :
    storeLost acc a attr bs s = false := by
  have hbus : busWrite a bs attr acc.form { s with pendingAbort := none } =
      .ok () { s with pendingAbort := none, mem := storeBytes s.mem a.toNat bs } :=
    InMainMemory.busWrite_eq (s := { s with pendingAbort := none }) ⟨h.clash, h.itcm, h.dtcm, h.peripheral, h.window, h.noError,
      h.lookup, h.uncached⟩
  unfold storeLost busRejects
  simp only [h.itcm, h.dtcm, throughCache_of_uncached a acc.form h.uncached, transferCheck_quiet h.lookup, hbus, Bool.or_self,
    Bool.false_eq_true, if_false, Option.isSome_none]

section

variable {bs : Bool → State → List Byte} {n : Nat} {rn rd : Reg} (hadm : admission .write (exclusive n s .write (s.reg rn))
  (s.reg rn) s = .ok attr)
include hadm

theorem storeExclusive_fails (h : exclusiveSucceeds attr (s.reg rn) s = .ok false t) (hp : t.pc ≠ 0xFFFFFFFC) :
    storeExclusive bs n rn rd s = .ok () ((t.setMonitor false).wrote rd 1) := by
  unfold storeExclusive
  simp only [hadm]
  rw [bind_ok h, bind_ok (get_apply t)]
  exact writeReg_fallThrough (s := t.setMonitor false) hp rd 1

theorem storeExclusive_writes {lost : Bool} (h : exclusiveSucceeds attr (s.reg rn) s = .ok true t)
    (hw : writeAdmitted (exclusive n s .write (s.reg rn)) (s.reg rn) attr (bs s.bigEndian s) t = .ok () u)
    (hlost : storeLost (exclusive n s .write (s.reg rn)) (s.reg rn) attr (bs s.bigEndian s) t = lost)
    (hp : u.pc ≠ 0xFFFFFFFC) :
    storeExclusive bs n rn rd s = .ok () ((u.setMonitor false).wrote rd (if lost then 1 else 0)) := by
  subst hlost
  unfold storeExclusive
  simp only [hadm]
  rw [bind_ok h, bind_ok (get_apply t), if_pos rfl, bind_ok hw]
  refine (writeReg_fallThrough (s := u.setMonitor false) hp rd _).trans ?_
  cases storeLost (exclusive n s .write (s.reg rn)) (s.reg rn) attr (bs s.bigEndian s) t <;> rfl

end

end

/-! ### The port after the draw -/

/-- A draw that lets an exclusive store pass does not move the hardware's pick of a master port. Both are opaque constants, so that
this is neither provable nor refutable. -/
def DrawKeepsPort : Prop :=
  ∀ (k : Nat) (a : Word), Config.freeBool k = true → Config.freePort (k + 1) a = Config.freePort k a

section

variable {s : State} {attr : Attr} {form : AccessForm} {a : Word} {n : Nat}

theorem busError_drew (h : Config.freePort (s.free + 1) a = Config.freePort s.free a) :
    busError (s.drew 1) form a n = busError s form a n := by
  unfold busError portOf State.drew
  simp only [h]

theorem InMainMemory.drew (h : InMainMemory s attr form a n)
    (hkept : Config.freePort (s.free + 1) a = Config.freePort s.free a) : InMainMemory (s.drew 1) attr form a n :=
  ⟨h.clash, h.itcm, h.dtcm, h.peripheral, h.window, (busError_drew hkept).trans h.noError, h.lookup, h.uncached⟩

end

/-! ### Store-exclusives -/

/-- A store-exclusive, the bytes of its access, and the state with the value stored. -/
def ExclusiveStore (c : Cond) (rn rd rt : Reg) (s : State) (i : Instr) (n : Nat) (stored : State) : Prop :=
  (i = .strex c rn rd rt ∧ n = 4 ∧ stored = s.stored (s.reg rn) 4 (s.reg rt)) ∨
  (i = .strexb c rn rd rt ∧ n = 1 ∧ stored = s.stored (s.reg rn) 1 (s.reg rt)) ∨
  (i = .strexh c rn rd rt ∧ n = 2 ∧ stored = s.stored (s.reg rn) 2 (s.reg rt)) ∨
  (i = .strexd c rn rd rt ∧ n = 8 ∧ rt.getLsbD 0 = false ∧ rt ≠ 14 ∧ rd ≠ rt + 1 ∧
    stored = (s.stored (s.reg rn) 4 (s.reg rt)).stored (s.reg rn + 4) 4 (s.reg (rt + 1)))

section

variable {c : Cond} {rn rd rt : Reg} {s : State} {i : Instr} {n : Nat} {stored : State}

/-- Past its checks a store-exclusive is the store of its bytes (20_memory.md R284; log entry 55). -/
theorem exec_exclusiveStore (hc : condPassed c s.cpsr = true) (hn : rn ≠ 15) (hd : rd ≠ 15) (ht : rt ≠ 15) (hdn : rd ≠ rn)
    (hdt : rd ≠ rt) (hi : ExclusiveStore c rn rd rt s i n stored) :
    ∃ bs : Bool → State → List Byte, exec i s = finish (storeExclusive bs n rn rd s) ∧ (bs s.bigEndian s).length = n ∧
      ((s.reg rn).toNat % n = 0 → stored = s.storedBytes (s.reg rn) (bs s.bigEndian s)) := by
  have hchk := checkExclusive_of_ne (s := s) hn hd ht hdn hdt
  rcases hi with ⟨rfl, rfl, rfl⟩ | ⟨rfl, rfl, rfl⟩ | ⟨rfl, rfl, rfl⟩ | ⟨rfl, rfl, heven, hlow, hd1, rfl⟩
  case inr.inr.inr =>
    refine ⟨fun be s => bytesOf be 4 (s.reg rt) ++ bytesOf be 4 (s.reg (rt + 1)),
      (conditional_passed hc _).trans (congrArg finish ?_), ?_, fun hal => stored_stored_eq_storedBytes s hal _ _⟩
    · exact (bind_ok (checkPair_of_even heven hlow)).trans ((bind_ok hchk).trans
        (bind_ok (refuseIf_of_false (beq_false_of_ne hd1) _)))
    · rw [List.length_append, length_bytesOf, length_bytesOf]
      rfl
  all_goals exact ⟨_, (conditional_passed hc _).trans (congrArg finish (bind_ok hchk)), length_bytesOf _ _ _,
    fun _ => stored_eq_storedBytes s _ (by decide) _⟩

end

/-- An admitted access is aligned. -/
theorem aligned_of_admission {k : AccessKind} {acc : Access} {a : Word} {s : State} {attr : Attr}
    (h : admission k acc a s = .ok attr) : a.toNat % acc.align = 0 := by
  by_contra hal
  rw [admission_misaligned hal] at h
  cases h

section

variable {rn rd : Reg} {s : State} {n : Nat} {attr : Attr} {bs : Bool → State → List Byte} (hp : s.pc ≠ 0xFFFFFFFC)
  (hadm : admission .write (exclusive n s .write (s.reg rn)) (s.reg rn) s = .ok attr) (hlen : (bs s.bigEndian s).length = n)
  (hm : s.monitor = true)
include hp hadm hlen hm

/-- With the monitor exclusive, in memory that is served, either outcome, if the draw of it keeps the port of the store. -/
theorem storeExclusive_of_plain (hserved : cacheable s attr = true ∨ s.cfg.globalMonitor = true)
    (h : Plain s .write (exclusive n s .write (s.reg rn)) (s.reg rn))
    (hkept : Config.freeBool s.free = true → Config.freePort (s.free + 1) (s.reg rn) = Config.freePort s.free (s.reg rn)) :
    storeExclusive bs n rn rd s =
        .ok () ((((s.storedBytes (s.reg rn) (bs s.bigEndian s)).drew 1).setMonitor false).wrote rd 0) ∨
      storeExclusive bs n rn rd s = .ok () (((s.drew 1).setMonitor false).wrote rd 1) := by
  obtain ⟨hal, attr', hadm', hmem⟩ := plain_iff.mp h
  obtain rfl : attr = attr' := Except.ok.inj (hadm.symm.trans hadm')
  have hdraw := exclusiveSucceeds_served hm hmem.itcm hserved
  cases hb : Config.freeBool s.free with
  | false => exact .inr (storeExclusive_fails hadm (by rwa [hb] at hdraw) hp)
  | true =>
    have hdrawn : InMainMemory (s.drew 1) attr (exclusive n s .write (s.reg rn)).form (s.reg rn) (bs s.bigEndian s).length := by
      rw [hlen]
      exact hmem.drew (hkept hb)
    have hwrite := (congrFun (writeAdmitted_of_aligned hal _) _).trans (hdrawn.writePart_bytes (by rwa [hlen]))
    refine .inl ((storeExclusive_writes hadm (by rwa [hb] at hdraw) hwrite hdrawn.storeLost_eq (by rwa [storedBytes_pc])).trans ?_)
    rw [storedBytes_drew]
    rfl

/-- Where the draw lets it pass and an error answers it on the port it then has, an abort is pending. -/
theorem storeExclusive_aborts {x : Bool} (hserved : cacheable s attr = true ∨ s.cfg.globalMonitor = true)
    (h : Plain s .write (exclusive n s .write (s.reg rn)) (s.reg rn)) (hpass : Config.freeBool s.free = true)
    (he : busError (s.drew 1) (exclusive n s .write (s.reg rn)).form (s.reg rn) n = some x) :
    ∃ t, storeExclusive bs n rn rd s = .ok () t ∧ t.pendingAbort = some (s.pendingAbort.getD x) := by
  obtain ⟨hal, attr', hadm', hmem⟩ := plain_iff.mp h
  obtain rfl : attr = attr' := Except.ok.inj (hadm.symm.trans hadm')
  have hdraw := exclusiveSucceeds_served hm hmem.itcm hserved
  rw [hpass] at hdraw
  obtain ⟨l, hwrite⟩ := writeAdmitted_of_busError (attr := attr) (s := s.drew 1) hal (hlen.symm ▸ he) hmem.clash hmem.itcm
    hmem.dtcm hmem.peripheral hmem.window hmem.lookup hmem.uncached
  exact ⟨_, storeExclusive_writes hadm hdraw hwrite rfl hp, State.setReg_pendingAbort ..⟩

/-- One that goes out as exclusive and is answered with an error fails (20_memory.md R285, R295). -/
theorem storeExclusive_of_busError {x : Bool} (hal : (s.reg rn).toNat % n = 0) (hc : cacheable s attr = false)
    (hform : (exclusive n s .write (s.reg rn)).form = .locked) (he : busError s .locked (s.reg rn) n = some x)
    (hclash : tcmClash s = false) (hi : inItcm s (s.reg rn) = false) (hd : inDtcm s (s.reg rn) = false)
    (hper : inPeripheral s.cfg (s.reg rn) = false) (hw : inWindow s.cfg (s.reg rn) = false)
    (hf : scuFinds s (s.reg rn) = false) :
    ∃ t : State, storeExclusive bs n rn rd s = .ok () ((t.setMonitor false).wrote rd 1) ∧
      t = { s with free := t.free, upkeep := t.upkeep, unsynced := t.unsynced, pendingAbort := t.pendingAbort } := by
  cases hg : s.cfg.globalMonitor with
  | false => exact ⟨s, storeExclusive_fails hadm (exclusiveSucceeds_unserved hd hc hg) hp, rfl⟩
  | true =>
    have hdraw := exclusiveSucceeds_served (attr := attr) hm hi (.inr hg)
    cases hb : Config.freeBool s.free with
    | false => exact ⟨s.drew 1, storeExclusive_fails hadm (by rwa [hb] at hdraw) hp, rfl⟩
    | true =>
      have he' : busError (s.drew 1) (exclusive n s .write (s.reg rn)).form (s.reg rn) (bs s.bigEndian s).length = some x := by
        rw [hform, hlen]
        exact he
      obtain ⟨l, hwrite⟩ := writeAdmitted_of_busError (attr := attr) (s := s.drew 1) hal he' hclash hi hd hper hw hf
        (by rw [show cacheable (s.drew 1) attr = false from hc, Bool.and_false])
      have hlost := storeLost_of_busError (attr := attr) (s := s.drew 1) he' hper hw hi hd hc hf
      exact ⟨_, storeExclusive_writes hadm (by rwa [hb] at hdraw) hwrite hlost hp, rfl⟩

end

/-! ### Swaps -/

section

variable {c : Cond} {s : State} {rn rt rd : Reg} {n : Nat}

theorem swap_undefined (h : s.cp15.sctlr.getLsbD 10 = false) : swap n rn rt rd s = .error .undefined s := by
  refine (bind_ok (get_apply s)).trans (bind_error ?_)
  rw [undefinedIf_apply, h]
  rfl

theorem swap_of_plain (hp : s.pc ≠ 0xFFFFFFFC) (hsw : s.cp15.sctlr.getLsbD 10 = true) (hn : rn ≠ 15) (ht : rt ≠ 15)
    (hd : rd ≠ 15) (hnt : rn ≠ rt) (hnd : rn ≠ rd) (hsize : n ≤ 4) (hread : Plain s .read (swapRead n s (s.reg rn)) (s.reg rn))
    (hwrite : Plain s .write (swapWrite n s) (s.reg rn)) :
    swap n rn rt rd s = .ok () ((s.stored (s.reg rn) n (s.reg rd)).wrote rt (s.memValue (s.reg rn) n)) := by
  refine (swap_eq hsw hn ht hd hnt hnd n).trans ((bind_ok (loadValue_of_plain hread)).trans ?_)
  refine (bind_ok (storeValue_of_plain hwrite.accessed _ hsize)).trans ?_
  exact writeReg_fallThrough (s := s.stored (s.reg rn) n (s.reg rd)) hp rt _

end

/-- ExclusivesAndSwaps, if a draw keeps the port. -/
theorem exclusivesAndSwaps_of_drawKeepsPort (hport : DrawKeepsPort) : Obligations.ExclusivesAndSwaps := by
  refine ⟨?loads, ?stores, ?swaps⟩
  case loads =>
    rintro c rn rt s ⟨hc, hp⟩ hn ht
    exact ⟨fun h => conditional_next hc (loadExclusive_of_plain hp hn ht h),
      fun h => conditional_next hc (loadExclusive_of_plain hp hn ht h),
      fun h => conditional_next hc (loadExclusive_of_plain hp hn ht h), exec_ldrexd_of_plain hp hn hc⟩
  case stores =>
    rintro c rn rd rt s ⟨hc, hp⟩ hn hd ht hdn hdt
    refine ⟨?_, always_next ((bind_ok (modify_apply _ s)).trans (fallThrough_of_ne (s := s.setMonitor false) hp))⟩
    rintro i n stored hi acc attr rfl hadm
    obtain ⟨bs, hexec, hlen, hstored⟩ := exec_exclusiveStore hc hn hd ht hdn hdt hi
    rw [hexec]
    refine ⟨fun hm => ?_, fun hm hserved h => ?_, fun hcache hg h => ?_, fun x hm hcache hform he hclash hit hdt hper hw hf => ?_⟩
    · rw [storeExclusive_fails hadm (exclusiveSucceeds_open hm) hp, finish_ok]
    · rw [hstored h.1]
      exact (storeExclusive_of_plain hp hadm hlen hm hserved h (hport _ _)).imp (congrArg finish) (congrArg finish)
    · obtain ⟨-, attr', -, hmem⟩ := plain_iff.mp h
      rw [storeExclusive_fails hadm (exclusiveSucceeds_unserved hmem.dtcm hcache hg) hp, finish_ok]
    · obtain ⟨t, ht, hframe⟩ := storeExclusive_of_busError (bs := bs) hp hadm hlen hm (aligned_of_admission hadm) hcache hform he
        hclash hit hdt hper hw hf
      exact ⟨t, congrArg finish ht, hframe⟩
  case swaps =>
    rintro c rn rt rt2 s ⟨hc, hp⟩
    refine ⟨fun hsw harm => ⟨conditional_undefined hc harm (swap_undefined hsw), conditional_undefined hc harm (swap_undefined hsw)⟩,
      fun hsw hn ht ht2 hnt hnt2 => ⟨fun hread hwrite => ?_, fun hread hwrite => ?_⟩⟩
    · exact conditional_next hc (swap_of_plain hp hsw hn ht ht2 hnt hnt2 (by decide) hread hwrite)
    · exact conditional_next hc (swap_of_plain hp hsw hn ht ht2 hnt hnt2 (by decide) hread hwrite)

/-! ### A store that the draw moves to another port -/

/-- CP15 with the MPU on and all memory Write-Back, for everyone. -/
def writeBackCp15 : Cp15 := { State.reset.cp15 with
  sctlr := 0x00C50079
  drsr := (Vector.replicate 16 0).set 0 0x3F
  dracr := (Vector.replicate 16 0).set 0 0x30B }

/-- A build of both master ports and no RAMs, without peripheral port and debug window, on a platform that answers on one port
with SLVERR. -/
def answeringConfig (p : Port) : Config := { Config.default with
  caches := none
  itcmBuild := none
  dtcmBuild := none
  axiMaster1 := true
  pfilterStart := 1
  pfilterEnd := 0
  dbgSelfAddrV := false
  errRanges := [⟨0, 0xFFFFFFFF, some p, true⟩] }

/-- Write-Back memory without a cache, whose accesses on port `p` get SLVERR; the monitor is exclusive, R1 holds `a`, and the next
free value is number `k`. -/
def answering (p : Port) (k : Nat) (a : Word) : State := { State.reset with
  cfg := answeringConfig p
  cp15 := writeBackCp15
  cpsr := 0x1D3
  pc := 0x1000
  regs := State.reset.regs.set 1 a
  monitor := true
  free := k }

section

variable (p : Port) (k : Nat) (a : Word)

theorem reg_answering : (answering p k a).reg 1 = a := by
  show (State.reset.regs.set 1 a)[1] = a
  exact Vector.getElem_set_self _

theorem regionHits_writeBack : regionHits writeBackCp15 a 0 = true := by
  have hbase : a.toNat / 2 ^ 32 = 0 := Nat.div_eq_of_lt a.isLt
  have hsub : ∀ i < 8, (0x3F : Word).getLsbD (8 + i) = false := by decide
  show (true && a.toNat / 2 ^ 32 == 0 && !(0x3F : Word).getLsbD (8 + a.toNat / 2 ^ 29 % 8)) = true
  rw [hbase, hsub _ (Nat.mod_lt _ (by decide))]
  rfl

/-- Region 0 decides, for no other is enabled. -/
theorem topRegion_writeBack : topRegion writeBackCp15 a 16 = some 0 := by
  have hoff : ∀ q : Fin 16, 0 < q → writeBackCp15.drsr[q].getLsbD 0 = false := by decide
  refine (topRegion_eq_some_iff (by decide) 0).mpr ⟨by decide, regionHits_writeBack a, fun q hq _ => ?_⟩
  simp only [regionHits, hoff q hq, Bool.false_and]

theorem inItcm_answering : inItcm (answering p k a) a = false := by
  simp [inItcm, inTcm, answering, answeringConfig, Config.itcm]

theorem inDtcm_answering : inDtcm (answering p k a) a = false := by
  simp [inDtcm, inTcm, answering, answeringConfig, Config.dtcm]

theorem tcmClash_answering : tcmClash (answering p k a) = false := by
  simp [tcmClash, answering, answeringConfig, Config.itcm, Config.dtcm]

theorem dcacheOn_answering : dcacheOn (answering p k a) = false := by
  simp [dcacheOn, answering, answeringConfig, Config.dcache]

theorem cacheable_answering : cacheable (answering p k a) (normalWb false true 1) = true := rfl

theorem lookupRegion_answering : lookupRegion (answering p k a) .write true a = .hit (normalWb false true 1) true := by
  have hdracr : (answering p k a).cp15.dracr[(0 : Fin 16)] = 0x30B := rfl
  have hon : writeBackCp15.sctlr.getLsbD 0 = true := by decide
  have hsize : smallRegion writeBackCp15 16 = false := by decide
  have hattr : decodeAttr 0x30B = some (normalWb false true 1) := by decide
  refine (lookupRegion_some hon hsize (topRegion_writeBack a) (hdracr ▸ hattr) ?_ ?_).trans ?_ <;> rw [hdracr] <;> decide

theorem tcmServes_answering : tcmServes (answering p k a) .write a = false := by
  rw [tcmServes, inItcm_answering, inDtcm_answering]
  rfl

theorem admission_answering : admission .write ⟨1, 1, true, .single⟩ a (answering p k a) = .ok (normalWb false true 1) := by
  have hcheck := checkAccess_permitted (size := 1) (by decide) (Nat.mod_one _) (lookupRegion_answering p k a)
  rw [tcmServes_answering] at hcheck
  exact admission_ok (acc := ⟨1, 1, true, .single⟩) (Nat.mod_one _) (Nat.succ_le_of_lt a.isLt) hcheck

/-- To Write-Back memory an exclusive access is not locked on the ports. -/
theorem exclusive_answering : exclusive 1 (answering p k a) .write a = ⟨1, 1, true, .single⟩ := by
  have hpriv : (answering p k a).privileged = true := by
    show ((Mode.ofBits (modeField 0x1D3)).getD .usr).privileged = true
    decide
  have hattr : byteAttr (answering p k a) .write true a = normalWb false true 1 := by
    rw [byteAttr, lookup_of_hit (lookupRegion_answering p k a), tcmServes_answering]
    rfl
  rw [exclusive, hpriv, hattr, localOnly, cacheable_answering, Bool.or_true]
  rfl

theorem inPeripheral_answering : inPeripheral (answering p k a).cfg a = false := by
  refine Bool.eq_false_iff.mpr fun h => ?_
  have ⟨h1, h2⟩ := inPeripheral_iff.mp h
  exact absurd (h1.trans h2) (by decide : ¬ (1 : BitVec 12).toNat ≤ (0 : BitVec 12).toNat)

theorem portOf_answering : portOf (answering p k a) .single a = if Config.freePort k a then .master1 else .master0 :=
  portOf_unfiltered (inPeripheral_answering p k a) rfl
    (by show (Scu.reset Config.default).ctrl.getLsbD 1 = false; decide)

theorem errorIn_answering (q : Port) : errorIn (answeringConfig p) q a.toNat 1 = if p = q then some true else none := by
  have hrange : a.toNat ≤ 0xFFFFFFFF := Nat.le_of_lt_succ a.isLt
  by_cases hpq : p = q <;> simp [answeringConfig, errorIn, errorAt, hrange, hpq]

theorem busError_answering : busError (answering p k a) .single a 1 =
    if p = (if Config.freePort k a then .master1 else .master0) then some true else none := by
  unfold busError
  rw [portOf_answering]
  exact errorIn_answering p a _

theorem plain_answering (h : p ≠ if Config.freePort k a then .master1 else .master0) :
    Plain (answering p k a) .write ⟨1, 1, true, .single⟩ a :=
  ⟨Nat.mod_one _, tcmClash_answering p k a, inItcm_answering p k a, inDtcm_answering p k a, inPeripheral_answering p k a, rfl,
    (busError_answering p k a).trans (if_neg h), rfl, _, admission_answering p k a, by rw [dcacheOn_answering]; rfl⟩

end

/-- Where the draw moves the store to the port that answers with an error, the store is lost and its abort pending, which is
neither outcome of ExclusivesAndSwaps. -/
theorem drawKeepsPort_of_exclusivesAndSwaps (h : Obligations.ExclusivesAndSwaps) : DrawKeepsPort := by
  intro k a hpass
  by_contra hmoved
  let p : Port := if Config.freePort (k + 1) a then .master1 else .master0
  let s := answering p k a
  have hreg : s.reg 1 = a := reg_answering p k a
  have hacc : exclusive 1 s .write (s.reg 1) = ⟨1, 1, true, .single⟩ := by rw [hreg]; exact exclusive_answering p k a
  have hadm : admission .write (exclusive 1 s .write (s.reg 1)) (s.reg 1) s = .ok (normalWb false true 1) := by
    rw [hacc, hreg]
    exact admission_answering p k a
  have hplain : Plain s .write (exclusive 1 s .write (s.reg 1)) (s.reg 1) := by
    rw [hacc, hreg]
    refine plain_answering p k a fun heq => hmoved ?_
    cases hbefore : Config.freePort k a <;> cases hafter : Config.freePort (k + 1) a <;> simp_all [p]
  have hport : busError (s.drew 1) (exclusive 1 s .write (s.reg 1)).form (s.reg 1) 1 = some true := by
    rw [hacc, hreg]
    exact (busError_answering p (k + 1) a).trans (if_pos rfl)
  have hruns : Runs .al s := ⟨rfl, (by decide : (0x1000 : Word) ≠ 0xFFFFFFFC)⟩
  have hserved : cacheable s (normalWb false true 1) = true ∨ s.cfg.globalMonitor = true := .inl rfl
  obtain ⟨t, ht, habort⟩ := storeExclusive_aborts (rd := 2) (bs := fun be s => bytesOf be 1 (s.reg 0)) hruns.2 hadm
    (length_bytesOf _ _ _) rfl hserved hplain hpass hport
  have hexec : exec (.strexb .al 1 2 0) s = .next t := conditional_next hruns.1
    ((bind_ok (checkExclusive_of_ne (by decide) (by decide) (by decide) (by decide) (by decide))).trans ht)
  obtain ⟨-, hstores, -⟩ := h
  obtain ⟨-, houtcomes, -⟩ := (hstores .al 1 2 0 s hruns (by decide) (by decide) (by decide) (by decide) (by decide)).1 _ _ _
    (.inr (.inl ⟨rfl, rfl, rfl⟩)) _ _ rfl hadm
  have hquiet : t.pendingAbort = s.pendingAbort := by
    rcases houtcomes rfl hserved hplain with hnext | hnext <;> cases hexec.symm.trans hnext <;>
      exact State.setReg_pendingAbort ..
  cases hquiet.symm.trans habort

/-- All of the statement but the port after the draw holds, and the statement is as open as that is (log entries 14, 95). -/
theorem exclusivesAndSwaps_iff : Obligations.ExclusivesAndSwaps ↔ DrawKeepsPort :=
  ⟨drawKeepsPort_of_exclusivesAndSwaps, exclusivesAndSwaps_of_drawKeepsPort⟩

end Sys2Proof.Machine
